-- ==== Sys2Proof/Word.lean ====
section
/-! DEFINITION. The plain types of the model: bytes, the widths the manual gives its fields, and the one shape of every
sparse table. -/
namespace Sys2Proof

abbrev Byte := BitVec 8
/-- Agent ID, 16 bits (00, glossary). -/
abbrev Aid := BitVec 16
/-- Composition ID, 16 bits (00, glossary). -/
abbrev Cid := BitVec 16
/-- Composition generation, modulo 256 (00, glossary). -/
abbrev Gen := BitVec 8
/-- Region handle or object handle: AID in [39:24], index in [23:0] (R25, 02). -/
abbrev Handle := BitVec 40
abbrev W64 := BitVec 64
abbrev W32 := BitVec 32
/-- A vector register (R270). -/
abbrev Vec := BitVec 512
/-- An exact-sum accumulator pattern (R264). -/
abbrev Acc := BitVec 640

/-- A sparse table: pairs of key and value, keys strictly rising, no value equal to the table's default
(`Sys2Proof.Machine.Tab.wf`). -/
abbrev Tab (α : Type) := List (Nat × α)

end Sys2Proof
end

