-- ==== Sys2Proof/Syntax.lean ====
section
/-! DEFINITION. The commands of the block: one constructor of `Instr` per row of spec/opcode_table.json (the grid instructions stand first). A command that
stands for a frame carries the frame's header (`Hdr`) and its payload fields; a command that stands for an event inside or
at the edge of the device carries the local time of the event (`now`, in ns since the end of start step 1) and the names of
the units it concerns. -/
namespace Sys2Proof

/-- What MAC, PCS, FEC and MACsec verification of an arriving frame found (R72 step 1). -/
inductive LinkCheck where
  | passed
  | fcsError
  | macsecFailure
  deriving DecidableEq, Repr

/-- The IPv6 header of a frame, as far as the device reads and writes it (R64, R566, R569). -/
structure Ip where
  src : BitVec 128
  dst : BitVec 128
  hopLimit : Nat
  /-- The ECN field of RFC 3168: 0 Not-ECT, 1 and 2 ECT, 3 CE. -/
  ecn : BitVec 2
  deriving DecidableEq, Repr

/-- The encapsulation in which a TFP frame arrives (R62): layer 2 with its EtherType, or IPv6 and UDP with the destination
port. -/
inductive Encap where
  | layer2 (etherType : Nat)
  | udp (port : Nat) (ip : Ip)
  deriving DecidableEq, Repr

/-- A TFP version 2 frame as it arrives at a sub-port: the header fields of R67 and what the link layer found (R72 step 1).
The version and the resp and notice bits are those of the command that the frame is. -/
structure Hdr where
  /-- Local time in ns of the timestamp point (R570). -/
  now : Nat
  port : Nat
  sub : Nat
  /-- 802.1Q priority of the frame. -/
  pcp : Nat
  /-- An 802.1Q tag is present (R63). -/
  tagged : Bool
  check : LinkCheck
  ce : Bool
  dst : Aid
  src : Aid
  cid : Cid
  gen : Gen
  /-- The header's length field: bytes after the header (R67). -/
  length : Nat
  /-- Bytes received after the header. -/
  received : Nat
  tag : W32
  hopSeq : BitVec 16
  hopAck : BitVec 16
  /-- The header's status byte: that of a response; zero in a request or notice. -/
  status : Byte := 0
  /-- The header's reserved field. -/
  reserved : W32 := 0
  encap : Encap := .layer2 0x88B5
  deriving DecidableEq, Repr

/-- The authentication trailer of R94: its counter and its KMAC256 tag, with the bytes of the frame that the tag covers as they
arrived: the 24-byte header, its hop fields zero, and the payload before the trailer (R532). -/
structure Trailer where
  counter : W64
  tag : BitVec 256
  text : List Byte
  deriving DecidableEq, Repr

/-- The address block of R78. -/
structure Addr where
  rh : Handle
  sub : Byte
  offset : BitVec 48
  count : W32
  deriving DecidableEq, Repr

/-- A 12-byte pointer: region handle and offset (03, engine frames). -/
structure Ptr where
  rh : Handle
  offset : BitVec 48
  deriving DecidableEq, Repr

/-- The envelope of a management order (R96): the frame that carries it, its trailer and its order_id. -/
structure Order where
  hdr : Hdr
  trailer : Trailer
  orderId : W32
  deriving DecidableEq, Repr

/-- A grid thread: its core, 32·y + x, and its context, 2,048·p + the thread's index within program p (R245, R249). -/
structure Thread where
  core : Nat
  ctx : Nat
  deriving DecidableEq, Repr

/-- Where and when a grid instruction issues. -/
structure Issue where
  now : Nat
  thread : Thread
  deriving DecidableEq, Repr

/-- Fields of format R (R273). -/
structure FmtR where
  sd : BitVec 3
  sa : BitVec 3
  sb : BitVec 3
  deriving DecidableEq, Repr

/-- Fields of format I. -/
structure FmtI where
  sd : BitVec 3
  sa : BitVec 3
  imm : BitVec 20
  deriving DecidableEq, Repr

/-- Fields of format U. -/
structure FmtU where
  sd : BitVec 3
  imm : BitVec 23
  deriving DecidableEq, Repr

/-- Fields of format B. -/
structure FmtB where
  sa : BitVec 3
  sb : BitVec 3
  off : BitVec 20
  deriving DecidableEq, Repr

/-- Fields of format SM. -/
structure FmtSM where
  sd : BitVec 3
  sa : BitVec 3
  size : BitVec 2
  imm : BitVec 18
  deriving DecidableEq, Repr

/-- Fields of format SA. -/
structure FmtSA where
  sd : BitVec 3
  sa : BitVec 3
  sb : BitVec 3
  fn : BitVec 4
  size : BitVec 1
  deriving DecidableEq, Repr

/-- Fields of format SV. -/
structure FmtSV where
  vd : BitVec 5
  sa : BitVec 3
  imm : BitVec 18
  deriving DecidableEq, Repr

/-- Fields of format RM. -/
structure FmtRM where
  sd : BitVec 3
  sh : BitVec 3
  so : BitVec 3
  size : BitVec 2
  var : BitVec 2
  imm : BitVec 13
  deriving DecidableEq, Repr

/-- Fields of format RV. -/
structure FmtRV where
  vd : BitVec 5
  sh : BitVec 3
  so : BitVec 3
  var : BitVec 2
  imm : BitVec 13
  deriving DecidableEq, Repr

/-- Fields of format AM. -/
structure FmtAM where
  sd : BitVec 3
  sh : BitVec 3
  so : BitVec 3
  sb : BitVec 3
  fn : BitVec 4
  size : BitVec 1
  deriving DecidableEq, Repr

/-- Fields of format BT. -/
structure FmtBT where
  sl : BitVec 3
  sh : BitVec 3
  so : BitVec 3
  sa : BitVec 3
  var : BitVec 1
  deriving DecidableEq, Repr

/-- Fields of format MS for SEND. -/
structure FmtSend where
  sd : BitVec 3
  sa : BitVec 3
  sb : BitVec 3
  len : BitVec 3
  blk : BitVec 1
  deriving DecidableEq, Repr

/-- Fields of format MS for RECV. -/
structure FmtRecv where
  sd : BitVec 3
  sa : BitVec 3
  queue : BitVec 4
  blk : BitVec 1
  deriving DecidableEq, Repr

/-- Fields of format V, less its function code. -/
structure FmtV where
  vd : BitVec 5
  va : BitVec 5
  vb : BitVec 5
  msk : BitVec 3
  ty : BitVec 4
  deriving DecidableEq, Repr

/-- Fields of format VC. -/
structure FmtVC where
  vd : BitVec 5
  va : BitVec 5
  dty : BitVec 4
  rm : BitVec 2
  sat : BitVec 1
  sty : BitVec 4
  part : BitVec 4
  deriving DecidableEq, Repr

/-- Fields of format X, less its function code. -/
structure FmtX where
  e : BitVec 3
  va : BitVec 5
  vb : BitVec 5
  msk : BitVec 3
  ty : BitVec 4
  sx : BitVec 3
  deriving DecidableEq, Repr

/-- The operation of a TFP version 1 request (03, R114). -/
inductive V1Op where
  | read
  | write (data : List Byte)
  | atomic (op : Byte) (a b : W64)
  | ckptRestore (src : Ptr) (srcLen : W64) (dst : Ptr) (dstCap : W64)
  /-- An opcode that version 1 does not list. -/
  | other (opcode : Byte)
  deriving DecidableEq, Repr

/-- What MACsec Key Agreement comes to with an EAPOL frame (R534): whether an association is live, whether this device is its key
server, the cipher suite and confidentiality offset agreed, whether the partner distributes a new SAK, and the highest packet number
that the partner has used. -/
structure MkaMessage where
  live : Bool
  server : Bool
  suite : BitVec 64
  offset : Nat
  newKey : Bool
  peerPn : Nat
  deriving DecidableEq, Repr

/-- What a frame that is not accepted was (R554); one longer than R555 accepts, or with a UDP checksum that fails (R64), among
them. -/
inductive OtherKind where
  | untaggedTfp
  | unknownEtherType
  | wrongMac
  | pause802
  | badVersion
  | shortLength
  | tooLong
  | badUdpChecksum
  deriving DecidableEq, Repr

/-- What a forwarded frame carries: its opcode byte, flags and payload bytes (R566 leaves them as they are). -/
structure Transit where
  opcode : Byte
  resp : Bool
  notice : Bool
  ece : Bool
  status : Byte
  payload : List Byte
  /-- A frame of version 1, which has no hop fields (R114). -/
  v1 : Bool := false
  deriving DecidableEq, Repr

/-- A MGMT_ORDER whose order code no chapter lists: its trailer, code and order_id (R70, R96). -/
structure UnlistedOrder where
  trailer : Trailer
  code : BitVec 16
  orderId : W32
  deriving DecidableEq, Repr

/-- An uncorrectable error in a core (R484). -/
inductive CoreErrorWhere where
  | context
  | instructionStore
  | pipeline
  | scratch (line : Nat)
  | slotReg (slot : Nat) (reg : Nat)
  | slotMask (slot : Nat) (mask : Nat)
  | accumulator (e : Nat)
  deriving DecidableEq, Repr

/-- What the trigger of a whole-device reset was (R486). -/
inductive ResetTrigger where
  | rstN
  | selfTestEnd
  deriving DecidableEq, Repr

/-- A register write of MGMT_WRITE to one address. -/
structure RegWrite where
  addr : W32
  value : W64
  deriving DecidableEq, Repr

/-- Addresses of JTAG instructions of IEEE 1149.1 and 1149.6 that R536 names. -/
inductive JtagInstr where
  | idcode
  | bypass
  | samplePreload
  | extest
  | extestPulse
  | extestTrain
  deriving DecidableEq, Repr

/-- One read of a memory test as it came back (R469). The element under test is (unit, row): a core by partition row, 16·q + row,
and physical column; a row of a stack; a row of a DIMM, 2·channel + slot; a block of a NAND die, 32·channel + die. `cls` is the class
of the block that it belongs to (R491). -/
structure TestRead where
  cls : Nat
  unit : Nat
  row : Nat
  /-- Element of the march and operation in it; or, of a retention test, 6 for the checkerboard and 7 for its complement. -/
  element : Nat
  op : Nat
  value : Byte
  deriving DecidableEq, Repr

/-- What a self-test measured (R495 to R499). A signature or read that is not listed came back as it should. -/
structure TestResult where
  /-- 64-bit logic BIST signatures of physical cores, by partition row and column (R496). -/
  signatures : List ((Nat × Nat) × W64)
  reads : List TestRead
  /-- Elements at fault in the other tests: loopback, lane check, SPD, die identification, routers, links and engines. -/
  faults : List (Nat × Nat)
  /-- Uncorrected FEC codewords of a port's PRBS31 run. -/
  fec : Nat := 0
  /-- Failing lanes of a stack, each of which a redundant lane can replace (R579). -/
  lanes : Nat := 0
  /-- Rows that post-package repair still can replace, and reserve blocks that the test erased and programmed: die and block. -/
  spareRows : Nat := 0
  testBlocks : List (Nat × Nat) := []
  /-- What TEST_DONE names as the first failure (R499). -/
  firstFailure : W64 := 0
  deriving DecidableEq, Repr

/-- The DIMMs of a channel (R581). -/
structure DimmCfg where
  dimms : Nat := 0
  ranks : Nat := 0
  capacity : Nat := 0
  deriving DecidableEq, Repr

/-- What the programming of fuses met: bits whose read-back failed, by their place in the order of programming, and how many of the
attempts on each failed (R513). -/
abbrev FuseRun := List (Nat × Nat)

/-- What the device finds when it runs the start sequence: what the tests of R469, R471 to R473 and R579 to R590 give on its own
cells and links, and the board's population. A fault names the physical row, stack, channel or die concerned. -/
structure StartFacts where
  /-- The input voltage in mV, and for how long in ns it has stayed above 39 V (R486). -/
  vinMv : Nat := 56000
  vinNs : Nat := 10000000
  /-- Failed physical columns found by the core test of step 5: (partition row 16·q + row, column 0 to 16). -/
  failedCores : List (Nat × Nat)
  routerFault : Option Nat
  /-- A stack whose training failed, and a channel with a die that failed identification (R579, R585). -/
  hbmFault : Option Nat
  nandFault : Option Nat
  /-- The DIMMs detected on the channels, and the dies on each NAND channel (R471). -/
  dimms : List DimmCfg
  dies : Nat
  /-- Reads of the retention and march tests of steps 7 to 9 that did not come back as written (R469). -/
  reads : List TestRead := []
  /-- Rows that post-package repair can still replace, of each stack and each DIMM (R579, R584). -/
  spareHbm : List (Nat × Nat) := []
  spareDimm : List (Nat × Nat) := []
  /-- Lane and row repairs in use of each stack (R579). -/
  laneRepairs : List (Nat × Nat)
  rowRepairs : List (Nat × Nat)
  /-- Post-package repairs in use of each DIMM, 2·channel + slot, and failed training attempts of each channel (R584). -/
  dimmRepairs : List (Nat × Nat)
  trainRetries : List (Nat × Nat)
  /-- Channel, die and block of the factory's bad blocks, and of those that the dies' tables name (R589). -/
  badBlocks : List (Nat × Nat × Nat)
  /-- Temperatures of the stacks and DIMMs at their training. -/
  stackTemps : List (Nat × Nat)
  dimmTemps : List (Nat × Nat)
  /-- Bits of the index counter that were programmed at step 4 and whose read-back failed, by bit number (R513, R519). -/
  counterFuses : FuseRun := []
  /-- Local time in ns at which step 10 begins. -/
  elapsed : Nat
  deriving DecidableEq, Repr

/-- The commands: one constructor per row of spec/opcode_table.json, the grid's instructions first. -/
inductive Instr where
  -- grid: ALU
  | add (i : Issue) (f : FmtR) | sub (i : Issue) (f : FmtR) | and (i : Issue) (f : FmtR) | or (i : Issue) (f : FmtR)
  | xor (i : Issue) (f : FmtR) | sll (i : Issue) (f : FmtR) | srl (i : Issue) (f : FmtR) | sra (i : Issue) (f : FmtR)
  | slt (i : Issue) (f : FmtR) | sltu (i : Issue) (f : FmtR) | mul (i : Issue) (f : FmtR) | mulhu (i : Issue) (f : FmtR)
  | divu (i : Issue) (f : FmtR) | remu (i : Issue) (f : FmtR) | min (i : Issue) (f : FmtR) | max (i : Issue) (f : FmtR)
  | sextb (i : Issue) (f : FmtR) | sexth (i : Issue) (f : FmtR) | sextw (i : Issue) (f : FmtR)
  -- grid: immediates
  | addi (i : Issue) (f : FmtI) | andi (i : Issue) (f : FmtI) | ori (i : Issue) (f : FmtI) | xori (i : Issue) (f : FmtI)
  | slti (i : Issue) (f : FmtI) | sltiu (i : Issue) (f : FmtI) | shi (i : Issue) (f : FmtI) | lui (i : Issue) (f : FmtU)
  -- grid: control
  | jal (i : Issue) (f : FmtU) | jalr (i : Issue) (f : FmtI)
  | beq (i : Issue) (f : FmtB) | bne (i : Issue) (f : FmtB) | blt (i : Issue) (f : FmtB) | bge (i : Issue) (f : FmtB)
  | bltu (i : Issue) (f : FmtB) | bgeu (i : Issue) (f : FmtB)
  -- grid: scratch
  | sld (i : Issue) (f : FmtSM) | sst (i : Issue) (f : FmtSM) | samo (i : Issue) (f : FmtSA)
  | vsld (i : Issue) (f : FmtSV) | vsst (i : Issue) (f : FmtSV)
  -- grid: the store
  | ld (i : Issue) (f : FmtRM) | st (i : Issue) (f : FmtRM) | amo (i : Issue) (f : FmtAM)
  | vld (i : Issue) (f : FmtRV) | vst (i : Issue) (f : FmtRV) | bget (i : Issue) (f : FmtBT) | bput (i : Issue) (f : FmtBT)
  -- grid: messages
  | send (i : Issue) (f : FmtSend) | recv (i : Issue) (f : FmtRecv)
  -- grid: SYS
  | halt (i : Issue) (f : FmtR) | switch (i : Issue) (f : FmtR) | twait (i : Issue) (f : FmtR) | rdsdc (i : Issue) (f : FmtR)
  | sacq (i : Issue) (f : FmtR) | srel (i : Issue) (f : FmtR) | sysRelease (i : Issue) (f : FmtR)
  | rdinfo (i : Issue) (f : FmtR) | rdcyc (i : Issue) (f : FmtR)
  -- grid: vector
  | vadd (i : Issue) (f : FmtV) | vsub (i : Issue) (f : FmtV) | vmul (i : Issue) (f : FmtV) | vfma (i : Issue) (f : FmtV)
  | vfms (i : Issue) (f : FmtV) | vmin (i : Issue) (f : FmtV) | vmax (i : Issue) (f : FmtV) | vabs (i : Issue) (f : FmtV)
  | vneg (i : Issue) (f : FmtV) | vdiv (i : Issue) (f : FmtV) | vsqrt (i : Issue) (f : FmtV)
  | vdot (i : Issue) (f : FmtV) | vdotmx (i : Issue) (f : FmtV) | vcvt (i : Issue) (f : FmtVC)
  | vand (i : Issue) (f : FmtV) | vor (i : Issue) (f : FmtV) | vxor (i : Issue) (f : FmtV) | vsel (i : Issue) (f : FmtV)
  | vcmpeq (i : Issue) (f : FmtV) | vcmplt (i : Issue) (f : FmtV) | vcmple (i : Issue) (f : FmtV)
  | vbcast (i : Issue) (f : FmtV) | vext (i : Issue) (f : FmtV) | vins (i : Issue) (f : FmtV)
  | vmts (i : Issue) (f : FmtV) | vstm (i : Issue) (f : FmtV) | vdeq (i : Issue) (f : FmtV)
  -- grid: exact sums
  | xclr (i : Issue) (f : FmtX) | xadd (i : Issue) (f : FmtX) | xdot (i : Issue) (f : FmtX) | xdotmx (i : Issue) (f : FmtX)
  | xread (i : Issue) (f : FmtX) | xexp (i : Issue) (f : FmtX) | ximp (i : Issue) (f : FmtX) | xflag (i : Issue) (f : FmtX)
  -- grid: the rest
  | reservedInstruction (i : Issue) (word : W32)
  | storeCompletion (now id : Nat) (via : Option Hdr)
  | rollbackComplete (now : Nat) (cid : Cid)
  | refresh (now : Nat) (ddr : Bool) (unit bank : Nat) (management : Bool)
  -- frames consumed at the device's own AID: data
  | read (h : Hdr) (a : Addr)
  | readAcquire (h : Hdr) (a : Addr)
  | readVolatile (h : Hdr) (a : Addr)
  | write (h : Hdr) (a : Addr) (data : List Byte)
  | writeFlagged (h : Hdr) (a : Addr) (data : List Byte)
  | release (h : Hdr)
  | atomic (h : Hdr) (a : Addr) (opA opB : BitVec 128)
  | publish (h : Hdr) (rh : Handle) (expected : W64)
  -- coherence and ownership
  | cReadShared (h : Hdr) (a : Addr)
  | cReadOwn (h : Hdr) (a : Addr)
  | cUpgrade (h : Hdr) (a : Addr)
  | cWriteback (h : Hdr) (a : Addr) (data : List Byte)
  | cSnoopInv (h : Hdr) (a : Addr)
  | cSnoopFwd (h : Hdr) (a : Addr)
  | cData (h : Hdr) (a : Addr) (data : List Byte)
  | ownTake (h : Hdr) (a : Addr)
  | ownGive (h : Hdr) (a : Addr)
  | ownGiveComplete (now : Nat) (id : Nat)
  -- request-state objects
  | handoffOffer (h : Hdr) (oh : Handle) (recvAid : Aid) (recvCid : Cid)
  | objectWritesDrained (now : Nat) (obj : Nat)
  | handoffAccept (h : Hdr) (oh : Handle) (seq : W32)
  | handoffTransferDone (now : Nat) (obj : Nat)
  | handoffDecline (h : Hdr) (oh : Handle) (seq : W32)
  | handoffDeadline (now : Nat) (obj : Nat)
  | handoffNotice (h : Hdr) (oh : Handle) (seq : W32)
  | handoffDone (h : Hdr) (oh : Handle) (seq : W32) (ownerAid : Aid) (ownerCid : Cid)
  | objectQuery (h : Hdr) (oh : Handle)
  -- engines
  | move (h : Hdr) (desc : Ptr) (count : BitVec 16)
  | fault (h : Hdr) (desc : Ptr) (mover access reason : Byte) (index : W32) (va : W64)
  | resume (h : Hdr) (desc : Ptr) (action : Byte)
  | invalRange (h : Hdr) (root : Ptr) (invalId : W32) (start len : W64)
  | invalAck (h : Hdr) (invalId : W32) (engine total : Byte)
  | gatherPool (h : Hdr) (table : Ptr) (tableGen fmt : Byte) (bags : W32) (index out : Ptr)
  | rowWrite (h : Hdr) (table : Ptr) (row : BitVec 40) (tableGen : Byte) (scale offset : BitVec 16) (codes : List Byte)
  | search (h : Hdr) (index query : Ptr) (nq : W32) (k probes : BitVec 16) (pred result : Ptr) (flags : Byte)
  | ckptCompress (h : Hdr) (src : Ptr) (srcLen : W64) (dst : Ptr) (dstCap : W64) (etype mode : Byte)
  | ckptRestore (h : Hdr) (src : Ptr) (srcLen : W64) (dst : Ptr) (dstCap : W64)
  -- steps
  | stepOpen (h : Hdr) (t : Trailer) (step : W32)
  | stepCommit (h : Hdr) (t : Trailer) (step : W32)
  | commitSequenceEnd (now : Nat) (cid : Cid)
  | rollback (h : Hdr) (t : Trailer) (step : W32)
  | eclipse (h : Hdr) (t : Trailer) (step : W32) (origin : Aid) (cause : Byte)
  | eclipseQuiesced (now : Nat) (cid : Cid)
  | eclipseRestore (now : Nat) (cid : Cid)
  | eclipseComplete (now : Nat) (cid : Cid)
  -- replicas
  | mirrorWrite (h : Hdr) (a : Addr) (step : W32) (data : List Byte)
  | parityDelta (h : Hdr) (a : Addr) (step : W32) (data : List Byte)
  /-- A response to a request of the device's own that is no thread's and no snoop (log entry 81): the bytes that it carries, and the
  poison mask of a read's (R80). -/
  | replicaAnswer (h : Hdr) (data : List Byte) (poison : W64)
  -- ticks and management
  | tick (h : Hdr) (count : W64) (domain : BitVec 16)
  | mgmtRead (h : Hdr) (t : Trailer) (addr : W32) (count : BitVec 16)
  | mgmtWrite (h : Hdr) (t : Trailer) (addr : W32) (values : List W64)
  | mgmtNotice (h : Hdr) (t : Trailer) (code : BitVec 16) (seq : W32) (body : List Byte)
  | expel (h : Hdr) (t : Trailer) (target : Aid) (nonce : W64)
  | admitDevice (h : Hdr) (t : Trailer) (target : Aid) (fuses : FuseRun)
  -- link frames
  | hopAck (h : Hdr) (pcp flags : Byte) (ack : BitVec 16) (epoch : W32)
  | hopNak (h : Hdr) (pcp : Byte) (expected : BitVec 16)
  -- frames that are not version 2 requests of the map
  | unlistedOpcode (h : Hdr) (opcode : Byte) (order : Option UnlistedOrder)
  | v1Frame (h : Hdr) (region : BitVec 24) (offset : BitVec 40) (len : BitVec 16) (op : V1Op)
  | forwardFrame (h : Hdr) (f : Transit)
  | otherFrame (h : Hdr) (kind : OtherKind)
  | pfcFrame (now port sub : Nat) (enable : Byte) (quanta : List Nat)
  | pauseExpiry (now port sub pcp : Nat)
  | xoffRefresh (now port sub pcp : Nat)
  | egressSelect (now port sub : Nat)
  | eapolFrame (now port sub : Nat) (m : MkaMessage)
  | ptpMessage (now port sub : Nat) (seconds nanos : Nat) (sync : Bool)
  | neighborSolicitation (now port sub : Nat) (target ask : BitVec 128) (mac : BitVec 48)
  -- links
  | replayTimeout (now port sub pcp : Nat)
  | hopHoldExpiry (now port sub : Nat)
  | linkTrainingStart (now port sub : Nat)
  | linkUp (now port sub : Nat) (speed : Byte) (partner : Aid)
  | trainingTimeout (now port sub : Nat)
  | linkLoss (now port sub : Nat) (pcsLock : Bool)
  | fecDegrade (now port sub : Nat) (codewords : Nat)
  | pfcWatchdog (now port sub pcp : Nat)
  -- withdrawal, power, heat
  | d2dRetryFailure (now link : Nat)
  | refclkLoss (now clock : Nat)
  | vio18Loss (now : Nat)
  | thermalTrip (now : Nat) (hbm : Bool) (sensor : Nat)
  | sensorFault (now sensor : Nat)
  | throttleStep (now mv ca w1ms w10ms w1s : Nat) (dieTemps : List (Nat × Nat)) (hbmTemps : List (Nat × Nat))
  | lowInput (now mv : Nat)
  | wholeDeviceReset (trigger : ResetTrigger)
  | inputUndervoltage (mv : Nat)
  -- start
  | startSequence (board : StartFacts)
  | reloadN (now widthNs : Nat) (board : StartFacts)
  | presentTimer (now : Nat)
  | requestTimeout (now id : Nat)
  | tallyExpiry (now idx : Nat)
  | deviceResetEntry (now : Nat)
  -- sky
  | skyEdge (now highNs : Nat)
  | localTick (now : Nat)
  | tickAbsence (now : Nat)
  -- transits
  | promote (now entry : Nat)
  | reserve (now entry : Nat)
  | commit (now entry : Nat)
  | calibrate (now entry : Nat)
  | testWindow (now entry : Nat)
  | reservationEnd (now idx : Nat)
  | scheduledRelease (now region sector : Nat)
  | promoteDue (now idx : Nat)
  | calibrationDone (now cls unit : Nat)
  | calibrationLapse (now cls unit kind : Nat)
  -- tiers
  /-- `retries` re-reads of step 2 of R588 were made, and `soft` says that step 3 was. -/
  | sectorFillDone (now region sector retries : Nat) (soft uncorrectable : Bool)
  | sectorMoveDone (now region sector : Nat)
  | flashProgramDone (now region sector : Nat) (ok : Bool)
  /-- `block` counts the channel's blocks die after die. -/
  | garbageCollection (now channel block : Nat) (eraseOk : Bool)
  /-- `errors` is what the stored codeword has suffered: symbol numbers and what is added to each (R572, R582). -/
  | patrolScrub (now : Nat) (region line : Nat) (errors : List (Nat × Byte))
  -- regions
  | regionDrained (now region : Nat)
  | retierCopyDone (now region : Nat)
  | releaseZeroingDone (now region : Nat)
  -- completions
  | snoopAnswer (h : Hdr)
  | flaggedStorePerform (now id : Nat)
  | releaseComplete (now id : Nat)
  | publishPerform (now id : Nat)
  -- movers
  | moverDispatch (now mover : Nat)
  | walk (now mover : Nat)
  | stagingGrant (now mover : Nat)
  | segmentDone (now mover : Nat)
  | descriptorDone (now mover : Nat)
  | faultSlotCheck (now idx : Nat)
  | parkedSlotFree (now mover : Nat)
  | invalQuiesce (now mover : Nat)
  -- embedding
  | lookup (now req bag entry : Nat)
  | heldLookup (now req bag entry : Nat)
  | bagWrite (now req bag : Nat)
  | migrationCopyTurn (now idx : Nat)
  -- search
  | mergeStart (now index : Nat)
  | mergeTombstones (now index : Nat)
  | mergeRepair (now index : Nat)
  | searchBatch (now index : Nat)
  | lensVisit (now index : Nat) (bad : List Nat)
  | searchResults (now index : Nat)
  -- checkpoint
  | cuppingPassEnd (now req group : Nat)
  | groupWriteDone (now req group : Nat)
  | restoreGroup (now req group : Nat)
  -- rebuild, generations, release, grid housekeeping
  | rebuildChunk (now group : Nat)
  | generationRetired (now : Nat) (cid : Cid)
  | compReleaseDone (now : Nat) (cid : Cid)
  | clusterQuiesced (now cluster : Nat)
  | clusterZeroed (now cluster : Nat)
  | programLoaded (now idx : Nat)
  | programUnloaded (now idx : Nat)
  | blockDrainDone (now cls unit : Nat)
  | testEnd (now cls unit : Nat) (result : TestResult)
  | imageProgrammed (now : Nat) (readBackOk : Bool)
  | attestKeyReady (now : Nat) (fuses : FuseRun)
  /-- `counted` names errors of the hardware in the minute that no other command counts: class, unit, counter and how many. -/
  | magnitudeUpdate (now : Nat) (counted : List (Nat × Nat × Nat × Nat))
  | dimmTemperaturePoll (now : Nat) (temps : List (Nat × Nat))
  | coreError (now core : Nat) (place : CoreErrorWhere)
  | mailboxDelivery (now idx : Nat)
  | gridResponse (now id : Nat) (via : Option Hdr) (data : List Byte) (poison : W64)
  -- management orders
  | regionCreate (o : Order) (size : W64) (placement redundancy shape : Byte) (group : W32)
  | regionAssign (o : Order) (rh : Handle) (rights : Byte) (cid : Cid) (gen : Gen)
  | regionRevoke (o : Order) (rh : Handle)
  | regionRelease (o : Order) (rh : Handle)
  | regionRetier (o : Order) (rh : Handle) (placement : Byte)
  | compCreate (o : Order) (cid : Cid) (gen : Gen) (modes : Byte) (faultAgent : Aid) (journal : W64) (ring : Ptr)
      (ringCount : W32)
  | compAgent (o : Order) (cid : Cid) (action flags : Byte) (aid : Aid) (ports : W32)
  | compAdvance (o : Order) (cid : Cid) (modes : Byte)
  | compRetire (o : Order) (cid : Cid)
  | compRelease (o : Order) (cid : Cid) (flags : Byte)
  | compMeter (o : Order) (cid : Cid) (flags : Byte)
  | compQuery (o : Order) (cid : Cid)
  | agentDead (o : Order) (aid : Aid) (cid : Cid)
  | orbitDefine (o : Order) (orbit : Byte) (cid : Cid) (period : W32) (anchor : W64) (first count : W32)
  | transitLoad (o : Order) (rh : Handle) (offset : BitVec 48) (first count : W32)
  | orbitEnable (o : Order) (orbit : Byte) (enable : W64)
  | orbitDisable (o : Order) (orbit : Byte) (disable : W64)
  | skyRearm (o : Order)
  | clusterAssign (o : Order) (mask : W64) (cid : Cid)
  | clusterRelease (o : Order) (mask : W64)
  | programLoad (o : Order) (mask : W64) (program : Byte) (desc : Ptr)
  | programStart (o : Order) (mask : W64) (program : Byte) (args : List W64)
  | programSwitch (o : Order) (mask : W64) (program : Byte)
  | programUnload (o : Order) (mask : W64) (program : Byte)
  | rowMigrate (o : Order) (table : Ptr) (direction : Byte) (count : W32) (list : Ptr)
  | searchAttach (o : Order) (desc : Ptr) (mask : W64) (program : Byte)
  | searchDetach (o : Order) (desc : Ptr)
  | groupDefine (o : Order) (group : W32) (record : Ptr)
  | groupTakeover (o : Order) (group : W32) (position : Byte)
  | groupRebuild (o : Order) (group : W32) (position : Byte) (spareAid : Aid) (spareRegion : BitVec 24)
  | imageWrite (o : Order) (image : Ptr) (length : W32)
  | reset (o : Order) (scope x y partition : Byte) (mask : W64)
  | blockDrain (o : Order) (cls : Byte) (unit : BitVec 16)
  | blockReturn (o : Order) (cls : Byte) (unit : BitVec 16)
  | testOrder (o : Order) (cls kind : Byte) (unit : BitVec 16) (margin when : Byte) (testId : W32)
  | calibRun (o : Order) (cls kind : Byte) (unit : BitVec 16)
  | deviceReset (o : Order) (target : Aid) (nonce : W64)
  | attest (o : Order) (cid : Cid) (nonce : BitVec 256) (report : Ptr) (fuses : FuseRun)
  | floorRaise (o : Order) (floor : Byte) (nonce : W64) (fuses : FuseRun)
  | lcRetire (o : Order) (target : Aid) (nonce : W64) (fuses : FuseRun)
  | macsecCak (o : Order) (target flags : Byte) (ckn : BitVec 112) (wrapped : BitVec 320)
  | portRetrain (o : Order) (port sub : Byte)
  -- registers whose access has an effect of its own
  | cmpRecSel (h : Hdr) (t : Trailer) (value : W64)
  | swtFwd (h : Hdr) (t : Trailer) (aid : Aid) (value : W64)
  | grdFaultLatch (h : Hdr) (t : Trailer) (core program : Nat) (value : W64)
  | hltAlert (h : Hdr) (t : Trailer) (value : W64)
  | pwrPeak (h : Hdr) (t : Trailer)
  -- JTAG
  | lcManufacture (now : Nat) (fuses : FuseRun)
  | provision (now : Nat) (ownerHash wrapKey : BitVec 256) (fuses : FuseRun)
  | jtagToken (now : Nat) (level : Nat) (challenge : BitVec 512) (token : List Byte)
  | scanTest (now : Nat)
  | boundaryScan (now : Nat) (instruction : JtagInstr)
  deriving DecidableEq, Repr

end Sys2Proof
end

