-- ==== Sys2Proof/Decode.lean ====
section
/-! DEFINITION. The commands that a word spells (none: no row of the table has bits), and the grid's instruction words:
their formats (R273), the decoder by the opcode map (R275) and the encoder written from the same tables. -/
namespace Sys2Proof

/-- No row of the opcode table gives bits, so no word spells a command. -/
def decodeTableWord (_nbits _w : Nat) : Option Instr := none

/-! ### Formats (R273) -/

def packR (op fn : BitVec 6) (f : FmtR) : W32 := op ++ f.sd ++ f.sa ++ f.sb ++ 0#11 ++ fn
def packI (op : BitVec 6) (f : FmtI) : W32 := op ++ f.sd ++ f.sa ++ f.imm
def packU (op : BitVec 6) (f : FmtU) : W32 := op ++ f.sd ++ f.imm
def packB (op : BitVec 6) (f : FmtB) : W32 := op ++ f.sa ++ f.sb ++ f.off
def packSM (op : BitVec 6) (f : FmtSM) : W32 := op ++ f.sd ++ f.sa ++ f.size ++ f.imm
def packSA (op : BitVec 6) (f : FmtSA) : W32 := op ++ f.sd ++ f.sa ++ f.sb ++ f.fn ++ f.size ++ 0#12
def packSV (op : BitVec 6) (f : FmtSV) : W32 := op ++ f.vd ++ f.sa ++ f.imm
def packRM (op : BitVec 6) (f : FmtRM) : W32 := op ++ f.sd ++ f.sh ++ f.so ++ f.size ++ f.var ++ f.imm
def packRV (op : BitVec 6) (f : FmtRV) : W32 := op ++ f.vd ++ f.sh ++ f.so ++ f.var ++ f.imm
def packAM (op : BitVec 6) (f : FmtAM) : W32 := op ++ f.sd ++ f.sh ++ f.so ++ f.sb ++ f.fn ++ f.size ++ 0#9
def packBT (op : BitVec 6) (f : FmtBT) : W32 := op ++ f.sl ++ f.sh ++ f.so ++ f.sa ++ f.var ++ 0#13
def packSend (op : BitVec 6) (f : FmtSend) : W32 := op ++ f.sd ++ f.sa ++ f.sb ++ f.len ++ f.blk ++ 0#13
def packRecv (op : BitVec 6) (f : FmtRecv) : W32 := op ++ f.sd ++ f.sa ++ f.queue ++ f.blk ++ 0#15
def packV (op : BitVec 6) (fn : BitVec 4) (f : FmtV) : W32 := op ++ f.vd ++ f.va ++ f.vb ++ f.msk ++ f.ty ++ fn
def packVC (op : BitVec 6) (f : FmtVC) : W32 := op ++ f.vd ++ f.va ++ f.dty ++ f.rm ++ f.sat ++ 0#1 ++ f.sty ++ f.part
def packX (op : BitVec 6) (fn : BitVec 3) (f : FmtX) : W32 := op ++ f.e ++ f.va ++ f.vb ++ f.msk ++ f.ty ++ fn ++ f.sx

def unpackR (w : W32) : FmtR := { sd := w.extractLsb' 23 3, sa := w.extractLsb' 20 3, sb := w.extractLsb' 17 3 }
def unpackI (w : W32) : FmtI := { sd := w.extractLsb' 23 3, sa := w.extractLsb' 20 3, imm := w.extractLsb' 0 20 }
def unpackU (w : W32) : FmtU := { sd := w.extractLsb' 23 3, imm := w.extractLsb' 0 23 }
def unpackB (w : W32) : FmtB := { sa := w.extractLsb' 23 3, sb := w.extractLsb' 20 3, off := w.extractLsb' 0 20 }
def unpackSM (w : W32) : FmtSM :=
  { sd := w.extractLsb' 23 3, sa := w.extractLsb' 20 3, size := w.extractLsb' 18 2, imm := w.extractLsb' 0 18 }
def unpackSA (w : W32) : FmtSA :=
  { sd := w.extractLsb' 23 3, sa := w.extractLsb' 20 3, sb := w.extractLsb' 17 3, fn := w.extractLsb' 13 4, size := w.extractLsb' 12 1 }
def unpackSV (w : W32) : FmtSV := { vd := w.extractLsb' 21 5, sa := w.extractLsb' 18 3, imm := w.extractLsb' 0 18 }
def unpackRM (w : W32) : FmtRM :=
  { sd := w.extractLsb' 23 3, sh := w.extractLsb' 20 3, so := w.extractLsb' 17 3, size := w.extractLsb' 15 2, var := w.extractLsb' 13 2, imm := w.extractLsb' 0 13 }
def unpackRV (w : W32) : FmtRV :=
  { vd := w.extractLsb' 21 5, sh := w.extractLsb' 18 3, so := w.extractLsb' 15 3, var := w.extractLsb' 13 2, imm := w.extractLsb' 0 13 }
def unpackAM (w : W32) : FmtAM :=
  { sd := w.extractLsb' 23 3, sh := w.extractLsb' 20 3, so := w.extractLsb' 17 3, sb := w.extractLsb' 14 3, fn := w.extractLsb' 10 4, size := w.extractLsb' 9 1 }
def unpackBT (w : W32) : FmtBT :=
  { sl := w.extractLsb' 23 3, sh := w.extractLsb' 20 3, so := w.extractLsb' 17 3, sa := w.extractLsb' 14 3, var := w.extractLsb' 13 1 }
def unpackSend (w : W32) : FmtSend :=
  { sd := w.extractLsb' 23 3, sa := w.extractLsb' 20 3, sb := w.extractLsb' 17 3, len := w.extractLsb' 14 3, blk := w.extractLsb' 13 1 }
def unpackRecv (w : W32) : FmtRecv :=
  { sd := w.extractLsb' 23 3, sa := w.extractLsb' 20 3, queue := w.extractLsb' 16 4, blk := w.extractLsb' 15 1 }
def unpackV (w : W32) : FmtV :=
  { vd := w.extractLsb' 21 5, va := w.extractLsb' 16 5, vb := w.extractLsb' 11 5, msk := w.extractLsb' 8 3, ty := w.extractLsb' 4 4 }
def unpackVC (w : W32) : FmtVC :=
  { vd := w.extractLsb' 21 5, va := w.extractLsb' 16 5, dty := w.extractLsb' 12 4, rm := w.extractLsb' 10 2, sat := w.extractLsb' 9 1, sty := w.extractLsb' 4 4, part := w.extractLsb' 0 4 }
def unpackX (w : W32) : FmtX :=
  { e := w.extractLsb' 23 3, va := w.extractLsb' 18 5, vb := w.extractLsb' 13 5, msk := w.extractLsb' 10 3, ty := w.extractLsb' 6 4, sx := w.extractLsb' 0 3 }

/-- Major opcode. -/
def majorOf (w : W32) : BitVec 6 := w.extractLsb' 26 6

/-- SHI keeps imm[19:8] zero and has no shift kind 3 (R275). -/
def shiOk (f : FmtI) : Bool := decide (f.imm.toNat < 0xC0)

/-- Codes 11 to 15 are reserved types (R296, R275). -/
def tyOk (t : BitVec 4) : Bool := decide (t.toNat < 11)

/-- ALU by fn (R276). -/
def aluInstr (i : Issue) (f : FmtR) (fn : Nat) : Option Instr :=
  match fn with
  | 0 => some (.add i f)
  | 1 => some (.sub i f)
  | 2 => some (.and i f)
  | 3 => some (.or i f)
  | 4 => some (.xor i f)
  | 5 => some (.sll i f)
  | 6 => some (.srl i f)
  | 7 => some (.sra i f)
  | 8 => some (.slt i f)
  | 9 => some (.sltu i f)
  | 10 => some (.mul i f)
  | 11 => some (.mulhu i f)
  | 12 => some (.divu i f)
  | 13 => some (.remu i f)
  | 14 => some (.min i f)
  | 15 => some (.max i f)
  | 16 => some (.sextb i f)
  | 17 => some (.sexth i f)
  | 18 => some (.sextw i f)
  | _ => none

/-- SYS by fn (R278). -/
def sysInstr (i : Issue) (f : FmtR) (fn : Nat) : Option Instr :=
  match fn with
  | 0 => some (.halt i f)
  | 1 => some (.switch i f)
  | 2 => some (.twait i f)
  | 3 => some (.rdsdc i f)
  | 4 => some (.sacq i f)
  | 5 => some (.srel i f)
  | 6 => some (.sysRelease i f)
  | 7 => some (.rdinfo i f)
  | 8 => some (.rdcyc i f)
  | _ => none

/-- VARITH by fn (R300). -/
def varithInstr (i : Issue) (f : FmtV) (fn : Nat) : Option Instr :=
  match fn with
  | 0 => some (.vadd i f)
  | 1 => some (.vsub i f)
  | 2 => some (.vmul i f)
  | 3 => some (.vfma i f)
  | 4 => some (.vfms i f)
  | 5 => some (.vmin i f)
  | 6 => some (.vmax i f)
  | 7 => some (.vabs i f)
  | 8 => some (.vneg i f)
  | 9 => some (.vdiv i f)
  | 10 => some (.vsqrt i f)
  | _ => none

/-- VMISC by fn (R305). -/
def vmiscInstr (i : Issue) (f : FmtV) (fn : Nat) : Option Instr :=
  match fn with
  | 0 => some (.vand i f)
  | 1 => some (.vor i f)
  | 2 => some (.vxor i f)
  | 3 => some (.vsel i f)
  | 4 => some (.vcmpeq i f)
  | 5 => some (.vcmplt i f)
  | 6 => some (.vcmple i f)
  | 7 => some (.vbcast i f)
  | 8 => some (.vext i f)
  | 9 => some (.vins i f)
  | 10 => some (.vmts i f)
  | 11 => some (.vstm i f)
  | 12 => some (.vdeq i f)
  | _ => none

/-- XOP by fn (R306). -/
def xopInstr (i : Issue) (f : FmtX) (fn : Nat) : Option Instr :=
  match fn with
  | 0 => some (.xclr i f)
  | 1 => some (.xadd i f)
  | 2 => some (.xdot i f)
  | 3 => some (.xdotmx i f)
  | 4 => some (.xread i f)
  | 5 => some (.xexp i f)
  | 6 => some (.ximp i f)
  | 7 => some (.xflag i f)
  | _ => none

/-- The instruction that a grid thread reads from a word; none where R275 makes the word ILLEGAL: a reserved major, an
unlisted function code, a reserved type or variant, or a zero field that is not zero. R285 lists no variant 2 of ST and VST and no
variant 1 of BGET, and calls only variant 3 reserved: they are taken as reserved too (DESIGN CHOICE, log entry 98). -/
def decodeGrid (i : Issue) (w : W32) : Option Instr :=
  match (majorOf w).toNat with
  | 0x01 => if w.extractLsb' 6 11 = 0 then aluInstr i (unpackR w) (w.extractLsb' 0 6).toNat else none
  | 0x02 => some (.addi i (unpackI w))
  | 0x03 => some (.andi i (unpackI w))
  | 0x04 => some (.ori i (unpackI w))
  | 0x05 => some (.xori i (unpackI w))
  | 0x06 => some (.slti i (unpackI w))
  | 0x07 => some (.sltiu i (unpackI w))
  | 0x08 => if shiOk (unpackI w) then some (.shi i (unpackI w)) else none
  | 0x09 => some (.lui i (unpackU w))
  | 0x0A => some (.jal i (unpackU w))
  | 0x0B => some (.jalr i (unpackI w))
  | 0x0C => some (.beq i (unpackB w))
  | 0x0D => some (.bne i (unpackB w))
  | 0x0E => some (.blt i (unpackB w))
  | 0x0F => some (.bge i (unpackB w))
  | 0x10 => some (.bltu i (unpackB w))
  | 0x11 => some (.bgeu i (unpackB w))
  | 0x12 => some (.sld i (unpackSM w))
  | 0x13 => some (.sst i (unpackSM w))
  | 0x14 => if w.extractLsb' 0 12 = 0 then some (.samo i (unpackSA w)) else none
  | 0x15 => some (.vsld i (unpackSV w))
  | 0x16 => some (.vsst i (unpackSV w))
  | 0x18 => if (unpackRM w).var.toNat < 3 then some (.ld i (unpackRM w)) else none
  | 0x19 => if (unpackRM w).var.toNat < 2 then some (.st i (unpackRM w)) else none
  | 0x1A => if w.extractLsb' 0 9 = 0 then some (.amo i (unpackAM w)) else none
  | 0x1B => if (unpackRV w).var.toNat < 3 then some (.vld i (unpackRV w)) else none
  | 0x1C => if (unpackRV w).var.toNat < 2 then some (.vst i (unpackRV w)) else none
  | 0x1D => if w.extractLsb' 0 13 = 0 ∧ (unpackBT w).var = 0 then some (.bget i (unpackBT w)) else none
  | 0x1E => if w.extractLsb' 0 13 = 0 then some (.bput i (unpackBT w)) else none
  | 0x20 => if w.extractLsb' 0 13 = 0 then some (.send i (unpackSend w)) else none
  | 0x21 => if w.extractLsb' 0 15 = 0 then some (.recv i (unpackRecv w)) else none
  | 0x22 => if w.extractLsb' 6 11 = 0 then sysInstr i (unpackR w) (w.extractLsb' 0 6).toNat else none
  | 0x28 => if tyOk (unpackV w).ty then varithInstr i (unpackV w) (w.extractLsb' 0 4).toNat else none
  | 0x2A => if tyOk (unpackV w).ty ∧ w.extractLsb' 0 4 = 0 then some (.vdot i (unpackV w)) else none
  | 0x2B => if tyOk (unpackV w).ty ∧ w.extractLsb' 0 4 = 0 then some (.vdotmx i (unpackV w)) else none
  | 0x2C =>
    if w.extractLsb' 8 1 = 0 ∧ tyOk (unpackVC w).dty ∧ tyOk (unpackVC w).sty then some (.vcvt i (unpackVC w)) else none
  | 0x2D => if tyOk (unpackV w).ty then vmiscInstr i (unpackV w) (w.extractLsb' 0 4).toNat else none
  | 0x30 => if tyOk (unpackX w).ty then xopInstr i (unpackX w) (w.extractLsb' 3 3).toNat else none
  | _ => none

/-- The word of a grid instruction, from R273 and R275; none for a command that is no grid instruction. -/
def encodeGrid : Instr → Option W32
  | .add _ f => some (packR 0x01 0x00 f)
  | .sub _ f => some (packR 0x01 0x01 f)
  | .and _ f => some (packR 0x01 0x02 f)
  | .or _ f => some (packR 0x01 0x03 f)
  | .xor _ f => some (packR 0x01 0x04 f)
  | .sll _ f => some (packR 0x01 0x05 f)
  | .srl _ f => some (packR 0x01 0x06 f)
  | .sra _ f => some (packR 0x01 0x07 f)
  | .slt _ f => some (packR 0x01 0x08 f)
  | .sltu _ f => some (packR 0x01 0x09 f)
  | .mul _ f => some (packR 0x01 0x0A f)
  | .mulhu _ f => some (packR 0x01 0x0B f)
  | .divu _ f => some (packR 0x01 0x0C f)
  | .remu _ f => some (packR 0x01 0x0D f)
  | .min _ f => some (packR 0x01 0x0E f)
  | .max _ f => some (packR 0x01 0x0F f)
  | .sextb _ f => some (packR 0x01 0x10 f)
  | .sexth _ f => some (packR 0x01 0x11 f)
  | .sextw _ f => some (packR 0x01 0x12 f)
  | .addi _ f => some (packI 0x02 f)
  | .andi _ f => some (packI 0x03 f)
  | .ori _ f => some (packI 0x04 f)
  | .xori _ f => some (packI 0x05 f)
  | .slti _ f => some (packI 0x06 f)
  | .sltiu _ f => some (packI 0x07 f)
  | .shi _ f => some (packI 0x08 f)
  | .lui _ f => some (packU 0x09 f)
  | .jal _ f => some (packU 0x0A f)
  | .jalr _ f => some (packI 0x0B f)
  | .beq _ f => some (packB 0x0C f)
  | .bne _ f => some (packB 0x0D f)
  | .blt _ f => some (packB 0x0E f)
  | .bge _ f => some (packB 0x0F f)
  | .bltu _ f => some (packB 0x10 f)
  | .bgeu _ f => some (packB 0x11 f)
  | .sld _ f => some (packSM 0x12 f)
  | .sst _ f => some (packSM 0x13 f)
  | .samo _ f => some (packSA 0x14 f)
  | .vsld _ f => some (packSV 0x15 f)
  | .vsst _ f => some (packSV 0x16 f)
  | .ld _ f => some (packRM 0x18 f)
  | .st _ f => some (packRM 0x19 f)
  | .amo _ f => some (packAM 0x1A f)
  | .vld _ f => some (packRV 0x1B f)
  | .vst _ f => some (packRV 0x1C f)
  | .bget _ f => some (packBT 0x1D f)
  | .bput _ f => some (packBT 0x1E f)
  | .send _ f => some (packSend 0x20 f)
  | .recv _ f => some (packRecv 0x21 f)
  | .halt _ f => some (packR 0x22 0x00 f)
  | .switch _ f => some (packR 0x22 0x01 f)
  | .twait _ f => some (packR 0x22 0x02 f)
  | .rdsdc _ f => some (packR 0x22 0x03 f)
  | .sacq _ f => some (packR 0x22 0x04 f)
  | .srel _ f => some (packR 0x22 0x05 f)
  | .sysRelease _ f => some (packR 0x22 0x06 f)
  | .rdinfo _ f => some (packR 0x22 0x07 f)
  | .rdcyc _ f => some (packR 0x22 0x08 f)
  | .vadd _ f => some (packV 0x28 0x0 f)
  | .vsub _ f => some (packV 0x28 0x1 f)
  | .vmul _ f => some (packV 0x28 0x2 f)
  | .vfma _ f => some (packV 0x28 0x3 f)
  | .vfms _ f => some (packV 0x28 0x4 f)
  | .vmin _ f => some (packV 0x28 0x5 f)
  | .vmax _ f => some (packV 0x28 0x6 f)
  | .vabs _ f => some (packV 0x28 0x7 f)
  | .vneg _ f => some (packV 0x28 0x8 f)
  | .vdiv _ f => some (packV 0x28 0x9 f)
  | .vsqrt _ f => some (packV 0x28 0xA f)
  | .vdot _ f => some (packV 0x2A 0x0 f)
  | .vdotmx _ f => some (packV 0x2B 0x0 f)
  | .vcvt _ f => some (packVC 0x2C f)
  | .vand _ f => some (packV 0x2D 0x0 f)
  | .vor _ f => some (packV 0x2D 0x1 f)
  | .vxor _ f => some (packV 0x2D 0x2 f)
  | .vsel _ f => some (packV 0x2D 0x3 f)
  | .vcmpeq _ f => some (packV 0x2D 0x4 f)
  | .vcmplt _ f => some (packV 0x2D 0x5 f)
  | .vcmple _ f => some (packV 0x2D 0x6 f)
  | .vbcast _ f => some (packV 0x2D 0x7 f)
  | .vext _ f => some (packV 0x2D 0x8 f)
  | .vins _ f => some (packV 0x2D 0x9 f)
  | .vmts _ f => some (packV 0x2D 0xA f)
  | .vstm _ f => some (packV 0x2D 0xB f)
  | .vdeq _ f => some (packV 0x2D 0xC f)
  | .xclr _ f => some (packX 0x30 0 f)
  | .xadd _ f => some (packX 0x30 1 f)
  | .xdot _ f => some (packX 0x30 2 f)
  | .xdotmx _ f => some (packX 0x30 3 f)
  | .xread _ f => some (packX 0x30 4 f)
  | .xexp _ f => some (packX 0x30 5 f)
  | .ximp _ f => some (packX 0x30 6 f)
  | .xflag _ f => some (packX 0x30 7 f)
  | .reservedInstruction _ word => some word
  | _ => none

/-- A grid instruction's operands are ones that R275 does not reserve. -/
def gridOperandsOk : Instr → Bool
  | .shi _ f => shiOk f
  | .ld _ f => decide (f.var.toNat < 3)
  | .st _ f => decide (f.var.toNat < 2)
  | .vld _ f => decide (f.var.toNat < 3)
  | .vst _ f => decide (f.var.toNat < 2)
  | .bget _ f => decide (f.var = 0)
  | .vadd _ f => tyOk f.ty
  | .vsub _ f => tyOk f.ty
  | .vmul _ f => tyOk f.ty
  | .vfma _ f => tyOk f.ty
  | .vfms _ f => tyOk f.ty
  | .vmin _ f => tyOk f.ty
  | .vmax _ f => tyOk f.ty
  | .vabs _ f => tyOk f.ty
  | .vneg _ f => tyOk f.ty
  | .vdiv _ f => tyOk f.ty
  | .vsqrt _ f => tyOk f.ty
  | .vdot _ f => tyOk f.ty
  | .vdotmx _ f => tyOk f.ty
  | .vand _ f => tyOk f.ty
  | .vor _ f => tyOk f.ty
  | .vxor _ f => tyOk f.ty
  | .vsel _ f => tyOk f.ty
  | .vcmpeq _ f => tyOk f.ty
  | .vcmplt _ f => tyOk f.ty
  | .vcmple _ f => tyOk f.ty
  | .vbcast _ f => tyOk f.ty
  | .vext _ f => tyOk f.ty
  | .vins _ f => tyOk f.ty
  | .vmts _ f => tyOk f.ty
  | .vstm _ f => tyOk f.ty
  | .vdeq _ f => tyOk f.ty
  | .xclr _ f => tyOk f.ty
  | .xadd _ f => tyOk f.ty
  | .xdot _ f => tyOk f.ty
  | .xdotmx _ f => tyOk f.ty
  | .xread _ f => tyOk f.ty
  | .xexp _ f => tyOk f.ty
  | .ximp _ f => tyOk f.ty
  | .xflag _ f => tyOk f.ty
  | .vcvt _ f => tyOk f.dty && tyOk f.sty
  | _ => true

end Sys2Proof
end

