-- ==== Sys2Proof/Machine/Bytes.lean ====
section
/-! DEFINITION. Byte strings: big-endian fields of the wire and little-endian fields of the store (R5, R6). -/
namespace Sys2Proof.Machine

/-- The low `n` bytes of `v`, least significant first (R6). -/
def leBytes : Nat → Nat → List Byte
  | 0, _ => []
  | n + 1, v => BitVec.ofNat 8 v :: leBytes n (v / 256)

/-- The value of bytes, least significant first. -/
def ofLe : List Byte → Nat
  | [] => 0
  | b :: t => b.toNat + 256 * ofLe t

/-- The low `n` bytes of `v`, most significant first (R5). -/
def beBytes (n v : Nat) : List Byte := (leBytes n v).reverse

def ofBe (l : List Byte) : Nat := ofLe l.reverse

/-- `n` bytes from position `k`, zeros beyond the end. -/
def sliceBytes (l : List Byte) (k n : Nat) : List Byte :=
  let t := (l.drop k).take n
  t ++ List.replicate (n - t.length) 0

/-- Little-endian field of `n` bytes at position `k`. -/
def fieldLe (l : List Byte) (k n : Nat) : Nat := ofLe (sliceBytes l k n)

def zeros (n : Nat) : List Byte := List.replicate n 0

def allZero (l : List Byte) : Bool := l.all fun b => decide (b = 0)

/-- The pointer of 12 bytes, little-endian in the store: handle, one reserved byte, offset (03). -/
def fieldPtr (l : List Byte) (k : Nat) : Ptr :=
  { rh := BitVec.ofNat 40 (fieldLe l k 5), offset := BitVec.ofNat 48 (fieldLe l (k + 6) 6) }

def ptrBytesLe (p : Ptr) : List Byte := leBytes 5 p.rh.toNat ++ [0] ++ leBytes 6 p.offset.toNat

/-- The same pointer on the wire (R5). -/
def ptrBytesBe (p : Ptr) : List Byte := beBytes 5 p.rh.toNat ++ zeros 1 ++ beBytes 6 p.offset.toNat

/-- Bits `lo` to `lo + n - 1` of a number. -/
def bitsOf (v lo n : Nat) : Nat := v / 2 ^ lo % 2 ^ n

def bitOf (v k : Nat) : Bool := v.testBit k

/-- A list of bits as a number, bit 0 first. -/
def ofBits : List Bool → Nat
  | [] => 0
  | b :: t => (if b then 1 else 0) + 2 * ofBits t

/-- The entry at index `k` of a list, or the default. -/
def nth {α : Type} (d : α) (l : List α) (k : Nat) : α := l.getD k d

end Sys2Proof.Machine
end

