-- ==== Sys2Proof/Machine/Tab.lean ====
section
/-! DEFINITION. The operations over sparse tables. A table lists the entries that differ from its default `d`, by strictly
rising key, so that equal tables are equal data. -/
namespace Sys2Proof

/-- The entry at key `k`. -/
def Tab.get {α : Type} (d : α) : Tab α → Nat → α
  | [], _ => d
  | (j, v) :: t, k => if j = k then v else if j < k then Tab.get d t k else d

/-- The table with the entry at `k` set to `v`; setting the default removes the entry. -/
def Tab.set {α : Type} [DecidableEq α] (d : α) : Tab α → Nat → α → Tab α
  | [], k, v => if v = d then [] else [(k, v)]
  | (j, u) :: t, k, v =>
    if j < k then (j, u) :: Tab.set d t k v
    else if j = k then if v = d then t else (k, v) :: t
    else if v = d then (j, u) :: t else (k, v) :: (j, u) :: t

/-- The table with the entry at `k` changed by `f`. -/
def Tab.mod {α : Type} [DecidableEq α] (d : α) (t : Tab α) (k : Nat) (f : α → α) : Tab α :=
  Tab.set d t k (f (Tab.get d t k))

/-- Keys rise strictly from `lo` on and no entry equals the default. -/
def Tab.wfFrom {α : Type} [DecidableEq α] (d : α) : Nat → Tab α → Bool
  | _, [] => true
  | lo, (j, v) :: t => decide (lo ≤ j) && decide (v ≠ d) && Tab.wfFrom d (j + 1) t

/-- The canonical form. -/
def Tab.wf {α : Type} [DecidableEq α] (d : α) (t : Tab α) : Bool := Tab.wfFrom d 0 t

/-- Every entry changed by `f`; an entry that becomes the default is dropped. -/
def Tab.mapAll {α : Type} [DecidableEq α] (d : α) (f : Nat → α → α) : Tab α → Tab α
  | [] => []
  | (j, v) :: t => if f j v = d then Tab.mapAll d f t else (j, f j v) :: Tab.mapAll d f t

/-- The entries whose key passes `p`. -/
def Tab.keep {α : Type} (p : Nat → Bool) (t : Tab α) : Tab α := t.filter fun e => p e.1

/-- Every entry but those with a key from `lo` to `hi - 1`. -/
def Tab.drop {α : Type} (t : Tab α) (lo hi : Nat) : Tab α := t.filter fun e => !(decide (lo ≤ e.1) && decide (e.1 < hi))

end Sys2Proof
end

