-- ==== Sys2Proof/Machine/Codec.lean ====
section
/-! DEFINITION. The coding of checkpoint streams (12): CRC-32C, prefix codes, planes, blocks and groups. -/
namespace Sys2Proof.Machine

/-! ### CRC-32C (R378): polynomial 0x1EDC6F41, initial value and final inversion 0xFFFFFFFF, least significant bit first -/

def crcBits : Nat → Nat → Nat
  | 0, c => c
  | n + 1, c => crcBits n (if c % 2 = 1 then (c / 2) ^^^ 0x82F63B78 else c / 2)

def crcByte (c : Nat) (b : Byte) : Nat := crcBits 8 (c ^^^ b.toNat)

def crc32c (l : List Byte) : Nat := (l.foldl crcByte 0xFFFFFFFF) ^^^ 0xFFFFFFFF

/-! ### Element types (R372) and sizes (R373) -/

/-- Bytes of an element, and so its planes; none for a code outside the table. -/
def planesOf (etype : Nat) : Option Nat :=
  if etype = 0 ∨ etype = 10 then some 4
  else if etype = 1 ∨ etype = 2 then some 2
  else if 3 ≤ etype ∧ etype ≤ 9 then some 1
  else if etype = 16 then some 1
  else if etype = 17 then some 8
  else none

def blockBytes : Nat := 65536
def blocksOf (size : Nat) : Nat := (size + 65535) / 65536
def groupsOf (size : Nat) : Nat := (blocksOf size + 15) / 16

/-- Bytes of block b of a source of a length. -/
def blockLen (size b : Nat) : Nat := min 65536 (size - 65536 * b)

/-- Blocks of group g. -/
def groupBlocks (size g : Nat) : List Nat := (List.range (min 16 (blocksOf size - 16 * g))).map fun i => 16 * g + i

def pad8 (n : Nat) : Nat := (n + 7) / 8 * 8

/-- The stream's bytes before its first group: header and padded index (R375, R376). -/
def prologue (groups : Nat) : Nat := 64 + (8 * groups + 63) / 64 * 64

/-- C_max of R388; every block but the last holds 65,536 bytes. -/
def maxStream (size planes mode : Nat) : Nat :=
  let g := groupsOf size
  let b := blocksOf size
  prologue g + g * (16 + if mode = 0 then 128 * planes else 0) + b * (8 + 8 * planes) +
    (b - 1) * (planes * pad8 (65536 / planes)) + planes * pad8 (blockLen size (b - 1) / planes)

/-! ### Prefix codes (R381, R383) -/

/-- A subtree of the Huffman construction: weight and symbols. -/
abbrev Tree := Nat × List Nat

/-- Takes the lightest of the two queues, a leaf before a node of equal weight. -/
def popLightest (leaves nodes : List Tree) : Option (Tree × List Tree × List Tree) :=
  match leaves, nodes with
  | [], [] => none
  | x :: t, [] => some (x, t, [])
  | [], y :: u => some (y, [], u)
  | x :: t, y :: u => if x.1 ≤ y.1 then some (x, t, y :: u) else some (y, x :: t, u)

/-- Depths of the symbols: each merge takes the two lightest and puts their symbols one level deeper. -/
def huffmanDepths : Nat → List Tree → List Tree → Tab Nat → Tab Nat
  | 0, _, _, d => d
  | n + 1, leaves, nodes, d =>
    match popLightest leaves nodes with
    | none => d
    | some (a, leaves, nodes) =>
      match popLightest leaves nodes with
      | none => d
      | some (b, leaves, nodes) =>
        huffmanDepths n leaves (nodes ++ [(a.1 + b.1, a.2 ++ b.2)]) ((a.2 ++ b.2).foldl (fun d s => d.set 0 s (d.get 0 s + 1)) d)

/-- Inserts a leaf by (count, symbol). -/
def insertLeaf (x : Tree) : List Tree → List Tree
  | [] => [x]
  | y :: t => if x.1 < y.1 then x :: y :: t else y :: insertLeaf x t

/-- Kraft sum in units of 2^-12. -/
def kraft (lens : List Nat) : Nat := lens.foldl (fun k l => if l = 0 then k else k + 2 ^ (12 - l)) 0

/-- Among symbols of the greatest length below 12: the lowest count, then the highest symbol. -/
def pickLongest (counts lens : List Nat) : Option Nat :=
  ((lens.zip counts).zipIdx.foldl (fun (best : Option (Nat × Nat × Nat)) e =>
    let (l, n) := e.1
    if l = 0 ∨ 12 ≤ l then best
    else
      match best with
      | none => some (l, n, e.2)
      | some (bl, bn, _) => if bl < l ∨ (l = bl ∧ n ≤ bn) then some (l, n, e.2) else best) none).map (·.2.2)

/-- Lengthens codes until the Kraft sum is at most 1. -/
def fitKraft (counts : List Nat) : Nat → List Nat → List Nat
  | 0, lens => lens
  | n + 1, lens =>
    if kraft lens ≤ 4096 then lens
    else
      match pickLongest counts lens with
      | some s => fitKraft counts n (lens.set s (nth 0 lens s + 1))
      | none => lens

/-- build_lengths of R381; the counts have two or more non-zero values. -/
def buildLengths (counts : List Nat) : List Nat :=
  let leaves := counts.zipIdx.foldl (fun l e => if e.1 = 0 then l else insertLeaf (e.1, [e.2]) l) []
  let d := huffmanDepths 256 leaves [] []
  fitKraft counts 4096 ((List.range 256).map fun s => min 12 (d.get 0 s))

/-- assign_codes of R381: length, code and symbol of every symbol with a code. -/
def assignCodes (lens : List Nat) : List (Nat × Nat × Nat) :=
  ((List.range 12).foldl (fun (x : Nat × List (Nat × Nat × Nat)) i =>
    let y := lens.zipIdx.foldl (fun (y : Nat × List (Nat × Nat × Nat)) e =>
      if e.1 = i + 1 then (y.1 + 1, y.2 ++ [(i + 1, y.1, e.2)]) else y) x
    (2 * y.1, y.2)) (0, [])).2

/-- Code length of a byte value under fixed table 1 to 4 (R383). -/
def fixedLength (table s : Nat) : Nat :=
  let within := fun lo hi => decide (lo ≤ s) && decide (s ≤ hi)
  match table with
  | 1 =>
    if within 0x38 0x3F || within 0xB8 0xBF then 5
    else if within 0x30 0x37 || within 0xB0 0xB7 || s = 0 || s = 0x80 then 7 else 11
  | 2 => if s = 0 then 1 else if within 0x01 0x0F || within 0xF0 0xFF then 7 else 11
  | 3 => if within 0x00 0x0F || within 0xF0 0xFF then 6 else if within 0x10 0x3F || within 0xC0 0xEF then 9 else 11
  | _ => if within 0x18 0x2F || within 0x98 0xAF then 6 else if s = 0 || s = 0x80 then 8 else 11

def fixedLengths (table : Nat) : List Nat := (List.range 256).map (fixedLength table)

/-- A table's 128 bytes (R377). -/
def tableBytes (lens : List Nat) : List Byte :=
  (List.range 128).map fun k => BitVec.ofNat 8 (nth 0 lens (2 * k) + 16 * nth 0 lens (2 * k + 1))

def parseLengths (l : List Byte) : List Nat := (List.range 256).map fun s => (nth 0 l (s / 2)).toNat / 16 ^ (s % 2) % 16

/-! ### Planes and blocks (R374, R378, R379, R382) -/

/-- Plane j of a block. -/
def planeOf (block : List Byte) (planes j : Nat) : List Byte :=
  (List.range (block.length / planes)).map fun i => nth 0 block (planes * i + j)

/-- A block from its planes. -/
def joinPlanes (planes : List (List Byte)) (n : Nat) : List Byte :=
  (List.range n).flatMap fun i => planes.map fun p => nth 0 p i

def countBytes (l : List Byte) : List Nat := l.foldl (fun c b => c.modify b.toNat (· + 1)) (List.replicate 256 0)

/-- The bits of a code, most significant first. -/
def codeBits (len code : Nat) : List Bool := (List.range len).map fun i => bitOf code (len - 1 - i)

def padTo8 (l : List Byte) : List Byte := l ++ zeros (pad8 l.length - l.length)

/-- Bits to bytes, bit n in bit n mod 8 of byte n / 8, padded to 8 bytes (R379). -/
def packBits (l : List Bool) : List Byte :=
  padTo8 ((List.range ((l.length + 7) / 8)).map fun k => BitVec.ofNat 8 (ofBits ((l.drop (8 * k)).take 8)))

/-- A CODED payload. -/
def codePlane (codes : List (Nat × Nat × Nat)) (plane : List Byte) : List Byte :=
  packBits (plane.flatMap fun b =>
    match codes.find? fun c => decide (c.2.2 = b.toNat) with
    | some c => codeBits c.1 c.2.1
    | none => [])

/-- Mode, CONST value and payload of a plane of a block (R382). -/
def encodePlane (format2 poisoned : Bool) (lens : Option (List Nat)) (plane : List Byte) : Nat × Byte × List Byte :=
  let raw := padTo8 plane
  if poisoned then (0, 0, raw)
  else if format2 && plane.all (fun b => decide (b = nth 0 plane 0)) then (2, nth 0 plane 0, [])
  else
    match lens with
    | none => (0, 0, raw)
    | some lens =>
      let bits := ((countBytes plane).zip lens).foldl (fun n e => n + e.1 * e.2) 0
      if (bits + 63) / 64 * 8 < raw.length then (1, 0, codePlane (assignCodes lens) plane) else (0, 0, raw)

/-- A block's bytes in the stream, with the poison of each: the payload of a poisoned block lies in poisoned lines (R390). -/
def encodeBlock (format2 : Bool) (planes : Nat) (tables : List (Option (List Nat))) (block : List Byte) (poisoned : Bool) :
    List Byte × List Bool :=
  let ps := (List.range planes).map fun j => encodePlane format2 poisoned (nth none tables j) (planeOf block planes j)
  let head := leBytes 3 block.length ++ leBytes 1 (if poisoned then 1 else 0) ++ leBytes 4 (crc32c block) ++
    ps.flatMap fun p => leBytes 1 p.1 ++ [p.2.1] ++ zeros 2 ++ leBytes 4 p.2.2.length
  let body := ps.flatMap fun p => p.2.2
  (head ++ body, List.replicate head.length false ++ List.replicate body.length poisoned)

/-- A group's bytes in the stream (R377, R380 to R382). -/
def encodeGroup (mode planes g : Nat) (blocks : List (List Byte × Bool)) : List Byte × List Bool :=
  let counts := fun j => ((blocks.filter fun b => !b.2).map fun b => countBytes (planeOf b.1 planes j)).foldl
    (fun c d => (c.zip d).map fun e => e.1 + e.2) (List.replicate 256 0)
  let built := (List.range planes).map fun j =>
    let c := counts j
    if mode = 0 ∧ 2 ≤ (c.filter fun n => decide (n ≠ 0)).length then some (buildLengths c) else none
  let tables := if mode = 0 then built else (List.range planes).map fun _ => some (fixedLengths mode)
  let stored := (built.filterMap fun t => t).flatMap tableBytes
  let mask := ofBits (built.map fun t => t.isSome)
  let head := leBytes 4 g ++ leBytes 1 blocks.length ++ leBytes 1 mask ++ leBytes 1 mode ++ zeros 1 ++
    leBytes 4 (if mask = 0 then 0 else crc32c stored) ++ zeros 4 ++ stored
  let body := blocks.map fun b => encodeBlock (decide (mode = 0)) planes tables b.1 b.2
  (head ++ body.flatMap (·.1), List.replicate head.length false ++ body.flatMap (·.2))

/-- The stream header (R375). -/
def streamHeader (etype mode planes size length : Nat) : List Byte :=
  let l := [0x54, 0x4C, 0x43, 0x4B] ++ leBytes 1 (if mode = 0 then 2 else 1) ++ leBytes 1 etype ++ leBytes 1 mode ++
    leBytes 1 planes ++ leBytes 8 size ++ leBytes 4 (blocksOf size) ++ leBytes 4 (groupsOf size) ++ leBytes 8 length
  l ++ leBytes 4 (crc32c l) ++ zeros 28

/-- The checks of R391 that the stream header itself decides; `v1` where only format 1 is accepted (R114). -/
def streamHeaderOk (l : List Byte) (v1 : Bool) (length capacity : Nat) : Bool :=
  let mode := fieldLe l 6 1
  let size := fieldLe l 8 8
  decide (l.take 4 = [0x54, 0x4C, 0x43, 0x4B]) && decide (mode ≤ 4) && decide (fieldLe l 4 1 = if mode = 0 then 2 else 1) &&
    decide (planesOf (fieldLe l 5 1) = some (fieldLe l 7 1)) && !(v1 && decide (mode = 0)) &&
    decide (fieldLe l 32 4 = crc32c (l.take 32)) && decide (1 ≤ size) && decide (size ≤ 2 ^ 48) &&
    decide (size % (max 1 (fieldLe l 7 1)) = 0) &&
    decide (fieldLe l 16 4 = blocksOf size % 2 ^ 32) && decide (fieldLe l 20 4 = groupsOf size) &&
    decide (fieldLe l 24 8 = length) && decide (size ≤ capacity) && decide (prologue (groupsOf size) ≤ length)

/-- No index entry lies outside the stream or below the entry before it (R391). -/
def indexOk (length : Nat) : Nat → List Nat → Bool
  | _, [] => true
  | lo, x :: t => decide (lo ≤ x) && decide (x < length) && indexOk length x t

/-! ### Decoding (R379, R392) -/

def bitsOfBytes (l : List Byte) : List Bool := l.flatMap fun b => (List.range 8).map fun i => b.getLsbD i

/-- Reads one code: the symbol and the bits left; none where no code matches or the bits run out. -/
def readCode (codes : List (Nat × Nat × Nat)) : Nat → Nat → Nat → List Bool → Option (Nat × List Bool)
  | 0, _, _, _ => none
  | _ + 1, _, _, [] => none
  | n + 1, len, code, b :: t =>
    let c := 2 * code + (if b then 1 else 0)
    match codes.find? fun e => decide (e.1 = len + 1) && decide (e.2.1 = c) with
    | some e => some (e.2.2, t)
    | none => readCode codes n (len + 1) c t

def readCodes (codes : List (Nat × Nat × Nat)) : Nat → List Bool → Option (List Byte)
  | 0, _ => some []
  | n + 1, l =>
    match readCode codes 12 0 0 l with
    | none => none
    | some (s, l) => (readCodes codes n l).map fun r => BitVec.ofNat 8 s :: r

/-- Decodes one plane of `n` bytes. -/
def decodePlane (lens : Option (List Nat)) (mode : Nat) (value : Byte) (payload : List Byte) (n : Nat) : Option (List Byte) :=
  match mode with
  | 0 => if payload.length < n then none else some (payload.take n)
  | 1 =>
    match lens with
    | some t => readCodes (assignCodes t) n (bitsOfBytes payload)
    | none => if n = 0 then some [] else none
  | 2 => some (List.replicate n value)
  | _ => none

/-- How a block was restored. -/
inductive Restored where
  /-- Its bytes, and whether the block is marked poisoned. -/
  | whole (data : List Byte) (marked : Bool)
  /-- Zeros with poison, for a line read with poison. -/
  | poisoned
  /-- Zeros with poison, for a check that failed. -/
  | corrupt
  deriving DecidableEq, Repr

/-- Decodes the block of `n` bytes at position `pos` of a group's bytes; answers where the next block begins. -/
def decodeBlock (planes : Nat) (tables : List (Option (List Nat))) (group : List Byte) (poison : List Bool) (pos n : Nat) :
    Restored × Nat :=
  let head := 8 + 8 * planes
  let h := sliceBytes group pos head
  let sizes := (List.range planes).map fun j => fieldLe h (12 + 8 * j) 4
  let total := head + sizes.foldl (· + ·) 0
  let stop := pos + total
  if ((poison.drop pos).take (min total (group.length - pos))).any fun b => b then (.poisoned, stop)
  else if group.length < stop then (.corrupt, stop)
  else
    let parts := (List.range planes).map fun j =>
      decodePlane (nth none tables j) (fieldLe h (8 + 8 * j) 1) (nth 0 h (9 + 8 * j))
        (sliceBytes group (pos + head + (sizes.take j).foldl (· + ·) 0) (nth 0 sizes j)) (n / planes)
    if parts.any fun p => p.isNone then (.corrupt, stop)
    else
      let data := joinPlanes (parts.filterMap fun p => p) (n / planes)
      if fieldLe h 0 3 = n ∧ crc32c data = fieldLe h 4 4 then (.whole data (bitOf (fieldLe h 3 1) 0), stop) else (.corrupt, stop)

def decodeBlocks (planes : Nat) (tables : List (Option (List Nat))) (group : List Byte) (poison : List Bool) : Nat → List Nat → List Restored
  | _, [] => []
  | pos, n :: t =>
    let (r, next) := decodeBlock planes tables group poison pos n
    r :: decodeBlocks planes tables group poison next t

/-- Decodes a group into its blocks of the given lengths; `mode` is the fixed table of a format 1 stream (R392). -/
def decodeGroup (mode planes : Nat) (group : List Byte) (poison : List Bool) (lens : List Nat) : List Restored :=
  let mask := fieldLe group 5 1
  let built := (List.range planes).filter fun j => bitOf mask j
  let head := 16 + 128 * built.length
  let stored := sliceBytes group 16 (128 * built.length)
  let table := fun j => parseLengths (sliceBytes stored (128 * (built.takeWhile (· < j)).length) 128)
  let badTable := decide (crc32c stored ≠ fieldLe group 8 4) ||
    built.any fun j => (table j).any (fun l => decide (12 < l)) || decide (4096 < kraft (table j))
  if (poison.take (min head group.length)).any fun b => b then lens.map fun _ => .poisoned
  else if group.length < head || badTable then lens.map fun _ => .corrupt
  else
    let tables := (List.range planes).map fun j =>
      if mode ≠ 0 then some (fixedLengths mode) else if bitOf mask j then some (table j) else none
    decodeBlocks planes tables group poison head lens

end Sys2Proof.Machine
end

