-- ==== Sys2Proof/Machine/Float.lean ====
section
/-! DEFINITION. Numbers of the grid (09): decoding of the element formats, exact dyadic arithmetic, and the one rounding
function that narrows an exact value to a format (R298, R299, R304, R308). -/
namespace Sys2Proof.Machine

/-- A decoded number: NaN, an infinity, or (-1)^neg · m · 2^e. -/
inductive Num where
  | nan
  | inf (neg : Bool)
  | fin (neg : Bool) (m : Nat) (e : Int)
  deriving DecidableEq, Repr

/-- Rounding modes of the rm field (R299). -/
inductive Round where
  | nearestEven
  | towardZero
  | down
  | up
  deriving DecidableEq, Repr

def roundOf (rm : Nat) : Round :=
  match rm with
  | 0 => .nearestEven
  | 1 => .towardZero
  | 2 => .down
  | _ => .up

/-- Element types of R296. -/
inductive ElemTy where
  | fp32 | bf16 | fp16 | e4m3 | e5m2 | e3m2 | e2m3 | e2m1 | int8 | int4 | int32
  deriving DecidableEq, Repr

def elemTyOf (code : Nat) : Option ElemTy :=
  match code with
  | 0 => some .fp32 | 1 => some .bf16 | 2 => some .fp16 | 3 => some .e4m3 | 4 => some .e5m2 | 5 => some .e3m2
  | 6 => some .e2m3 | 7 => some .e2m1 | 8 => some .int8 | 9 => some .int4 | 10 => some .int32
  | _ => none

/-- Container width in bits (R296). -/
def elemWidth : ElemTy → Nat
  | .fp32 | .int32 => 32
  | .bf16 | .fp16 => 16
  | .e2m1 | .int4 => 4
  | _ => 8

/-- Elements per 512-bit register (R296). -/
def elemCount (ty : ElemTy) : Nat := 512 / elemWidth ty

/-- Bits of the container that hold the value: six for E3M2 and E2M3, whose bits [7:6] are ignored on read and zero on
write (R296). -/
def elemBits : ElemTy → Nat
  | .e3m2 | .e2m3 => 6
  | ty => elemWidth ty

def elemIsInt : ElemTy → Bool
  | .int8 | .int4 | .int32 => true
  | _ => false

/-- Exponent bits, fraction bits and bias of a floating-point format (R296: IEEE 754 and OCP Microscaling). -/
def floatShape : ElemTy → Nat × Nat × Nat
  | .fp32 => (8, 23, 127)
  | .bf16 => (8, 7, 127)
  | .fp16 => (5, 10, 15)
  | .e4m3 => (4, 3, 7)
  | .e5m2 => (5, 2, 15)
  | .e3m2 => (3, 2, 3)
  | .e2m3 => (2, 3, 1)
  | .e2m1 => (2, 1, 1)
  | _ => (0, 0, 0)

/-- The format has infinities and NaNs as IEEE 754 encodes them. -/
def ieeeSpecials : ElemTy → Bool
  | .fp32 | .bf16 | .fp16 | .e5m2 => true
  | _ => false

/-- Two's-complement value of the low `w` bits of `n`. -/
def signedOf (w n : Nat) : Int :=
  let k := n % 2 ^ w
  if k < 2 ^ (w - 1) then (k : Int) else (k : Int) - (2 ^ w : Nat)

/-- The low `w` bits of an integer. -/
def lowBits (w : Nat) (z : Int) : Nat := (z % ((2 ^ w : Nat) : Int)).toNat

def intNum (z : Int) : Num := .fin (decide (z < 0)) z.natAbs 0

/-- The number that an element's bits stand for (R296). -/
def decodeElem (ty : ElemTy) (bits : Nat) : Num :=
  if elemIsInt ty then intNum (signedOf (elemWidth ty) bits)
  else
    let (eb, mb, bias) := floatShape ty
    let frac := bits % 2 ^ mb
    let ex := bits / 2 ^ mb % 2 ^ eb
    let neg := decide (bits / 2 ^ (mb + eb) % 2 = 1)
    if ieeeSpecials ty && ex = 2 ^ eb - 1 then (if frac = 0 then .inf neg else .nan)
    else if ty = .e4m3 && ex = 15 && frac = 7 then .nan
    else if ex = 0 then .fin neg frac (1 - (bias : Int) - mb)
    else .fin neg (2 ^ mb + frac) ((ex : Int) - bias - mb)

/-- Whether a magnitude of `k` units with a remainder `r` of `d` units below it rounds up. -/
def roundsUp (rm : Round) (neg : Bool) (k r d : Nat) : Bool :=
  match rm with
  | .nearestEven => decide (d < 2 * r) || (decide (2 * r = d) && decide (k % 2 = 1))
  | .towardZero => false
  | .down => neg && decide (0 < r)
  | .up => !neg && decide (0 < r)

/-- `m · 2^e` rounded to an integral multiple of `2^q`: the multiple. -/
def roundUnits (rm : Round) (neg : Bool) (m : Nat) (e q : Int) : Nat :=
  if q ≤ e then m * 2 ^ (e - q).toNat
  else
    let d := 2 ^ (q - e).toNat
    let k := m / d
    if roundsUp rm neg k (m % d) d then k + 1 else k

/-- Bits, without the sign, of the largest finite magnitude. -/
def maxFiniteBits (ty : ElemTy) : Nat :=
  let (eb, mb, _) := floatShape ty
  if ieeeSpecials ty then (2 ^ eb - 1) * 2 ^ mb - 1
  else if ty = .e4m3 then 2 ^ (eb + mb) - 2
  else 2 ^ (eb + mb) - 1

/-- Magnitude bits of `m · 2^e` rounded as if the exponent had no upper bound. They exceed `maxFiniteBits` where the rounded
value overflows. -/
def magnitudeBits (ty : ElemTy) (rm : Round) (neg : Bool) (m : Nat) (e : Int) : Nat :=
  if m = 0 then 0 else
  let (_, mb, bias) := floatShape ty
  let qmin : Int := 1 - (bias : Int) - mb
  let q := max ((Nat.log2 m : Int) + e - mb) qmin
  (q - qmin).toNat * 2 ^ mb + roundUnits rm neg m e q

/-- The canonical NaN of a format; 0x7F for E5M2 and E4M3, +0 where the format has none (R298, R304). -/
def nanBits : ElemTy → Nat
  | .fp32 => 0x7FC00000
  | .bf16 => 0x7FC0
  | .fp16 => 0x7E00
  | .e4m3 | .e5m2 => 0x7F
  | _ => 0

def signBit (ty : ElemTy) (neg : Bool) : Nat := if neg then 2 ^ (elemBits ty - 1) else 0

/-- Bits of an infinity in a format that has one. -/
def infBits (ty : ElemTy) (neg : Bool) : Nat := signBit ty neg + (maxFiniteBits ty + 1)

/-- Whether IEEE 754 sends a finite overflow to infinity in this mode (R298, R304, R308). -/
def overflowsToInf (rm : Round) (neg : Bool) : Bool :=
  match rm with
  | .nearestEven => true
  | .towardZero => false
  | .down => neg
  | .up => !neg

/-- A number narrowed to a floating-point format by the table of R304. -/
def encodeFloat (ty : ElemTy) (rm : Round) (sat : Bool) : Num → Nat
  | .nan => nanBits ty
  | .inf neg =>
    if ieeeSpecials ty then infBits ty neg
    else if ty = .e4m3 then (if sat then signBit ty neg + maxFiniteBits ty else 0x7F)
    else signBit ty neg + maxFiniteBits ty
  | .fin neg m e =>
    let b := magnitudeBits ty rm neg m e
    if b ≤ maxFiniteBits ty then signBit ty neg + b
    else if sat then signBit ty neg + maxFiniteBits ty
    else if ieeeSpecials ty then
      (if overflowsToInf rm neg then infBits ty neg else signBit ty neg + maxFiniteBits ty)
    else if ty = .e4m3 then 0x7F
    else signBit ty neg + maxFiniteBits ty

/-- A number narrowed to an integer format: rounded by `rm`, then to the nearest end of the range (R304). -/
def encodeInt (ty : ElemTy) (rm : Round) : Num → Nat
  | .nan => 0
  | .inf neg => if neg then 2 ^ (elemWidth ty - 1) else 2 ^ (elemWidth ty - 1) - 1
  | .fin neg m e =>
    let k := roundUnits rm neg m e 0
    let half := 2 ^ (elemWidth ty - 1)
    if neg then (if half ≤ k then half else lowBits (elemWidth ty) (-(k : Int)))
    else (if half ≤ k then half - 1 else k)

def encodeElem (ty : ElemTy) (rm : Round) (sat : Bool) (x : Num) : Nat :=
  if elemIsInt ty then encodeInt ty rm x else encodeFloat ty rm sat x

/-! ### Exact arithmetic -/

/-- Signed mantissa. -/
def signedMant (neg : Bool) (m : Nat) : Int := if neg then -(m : Int) else m

/-- Exact sum of two dyadics as a signed mantissa over the smaller exponent. -/
def dyadicAdd (a : Int × Int) (b : Int × Int) : Int × Int :=
  let e := min a.2 b.2
  (a.1 * (2 ^ (a.2 - e).toNat : Nat) + b.1 * (2 ^ (b.2 - e).toNat : Nat), e)

/-- Sign of a sum whose exact value is zero: minus only where every addend is a zero of negative sign, or, rounding
toward minus infinity, where they are not all of positive sign (IEEE 754, clause 6.3). -/
def zeroSumNeg (rm : Round) (negs : List Bool) : Bool :=
  if rm = .down then negs.any id else !negs.isEmpty && negs.all id

/-- The sum of finite numbers, exact. -/
def sumFinite (rm : Round) (xs : List (Bool × Nat × Int)) : Num :=
  let t := xs.foldl (fun acc x => dyadicAdd acc (signedMant x.1 x.2.1, x.2.2)) ((0 : Int), (0 : Int))
  if t.1 = 0 then .fin (zeroSumNeg rm (xs.map fun x => x.1)) 0 t.2
  else .fin (decide (t.1 < 0)) t.1.natAbs t.2

/-- Exact sum of numbers: NaN with any NaN or with infinities of both signs, an infinity with one (IEEE 754). -/
def sumNums (rm : Round) (xs : List Num) : Num :=
  if xs.any (fun x => decide (x = .nan)) then .nan
  else
    let p := xs.any (fun x => decide (x = .inf false))
    let n := xs.any (fun x => decide (x = .inf true))
    if p && n then .nan
    else if p then .inf false
    else if n then .inf true
    else sumFinite rm (xs.filterMap fun x => match x with
      | .fin s m e => some (s, m, e)
      | _ => none)

def mulNums : Num → Num → Num
  | .nan, _ => .nan
  | _, .nan => .nan
  | .inf a, .inf b => .inf (a != b)
  | .inf a, .fin b m _ => if m = 0 then .nan else .inf (a != b)
  | .fin a m _, .inf b => if m = 0 then .nan else .inf (a != b)
  | .fin a m e, .fin b n f => .fin (a != b) (m * n) (e + f)

def negNum : Num → Num
  | .nan => .nan
  | .inf s => .inf (!s)
  | .fin s m e => .fin (!s) m e

def absNum : Num → Num
  | .nan => .nan
  | .inf _ => .inf false
  | .fin _ m e => .fin false m e

/-- A number times a power of two. -/
def scaleNum (k : Int) : Num → Num
  | .fin s m e => .fin s m (e + k)
  | x => x

/-- Quotient to 40 significant bits, its last bit set where it is inexact, so that one rounding of it is the rounding of
the exact quotient to any format of at most 38 bits. -/
def divNums : Num → Num → Num
  | .nan, _ => .nan
  | _, .nan => .nan
  | .inf _, .inf _ => .nan
  | .inf a, .fin b _ _ => .inf (a != b)
  | .fin a _ _, .inf b => .fin (a != b) 0 0
  | .fin a m e, .fin b n f =>
    if n = 0 then (if m = 0 then .nan else .inf (a != b))
    else
      let k := Nat.log2 n + 40
      let x := m * 2 ^ k
      let q := x / n
      .fin (a != b) (2 * q + (if x % n = 0 then 0 else 1)) (e - f - k - 1)

/-- Integer square root by bits: the largest r with r² ≤ n, for n below 2^(2·fuel). -/
def isqrtGo : Nat → Nat → Nat → Nat
  | 0, _, r => r
  | fuel + 1, n, r =>
    let t := r + 2 ^ fuel
    isqrtGo fuel n (if t * t ≤ n then t else r)

/-- Square root to at least 40 significant bits, its last bit set where inexact. -/
def sqrtNum : Num → Num
  | .nan => .nan
  | .inf s => if s then .nan else .inf false
  | .fin s m e =>
    if m = 0 then .fin s 0 0
    else if s then .nan
    else
      let k : Nat := if e % 2 = 0 then 82 else 83
      let x := m * 2 ^ k
      let r := isqrtGo (Nat.log2 x / 2 + 1) x 0
      .fin false (2 * r + (if r * r = x then 0 else 1)) ((e - k) / 2 - 1)

/-- Order of two numbers that are not NaN, with -0 below +0 where `zeros` holds: -1, 0 or 1. -/
def cmpNums (zeros : Bool) (a b : Num) : Int :=
  let key : Num → Int × Int := fun x => match x with
    | .fin s m e => (signedMant s m, e)
    | _ => (0, 0)
  match a, b with
  | .inf s, .inf t => if s = t then 0 else if s then -1 else 1
  | .inf s, _ => if s then -1 else 1
  | _, .inf t => if t then 1 else -1
  | .fin s _ _, .fin t _ _ =>
    let d := dyadicAdd (key a) (-(key b).1, (key b).2)
    if d.1 < 0 then -1 else if 0 < d.1 then 1
    else if zeros && (key a).1 = 0 then (if s = t then 0 else if s then -1 else 1) else 0
  | _, _ => 0

end Sys2Proof.Machine
end

