-- ==== Sys2Proof/Machine/State.lean ====
section
/-! DEFINITION. The state of the block: every register, table, queue, buffer, counter, mode and pin that the manual gives
the device, as plain data, and the state right after reset. -/
namespace Sys2Proof.Machine

/-- Why the machine stops with a fault. No meaning of this model stops: the manual gives every command an effect, so no
constructor but the placeholder exists; nothing raises it (safe). -/
inductive Fault where
  /-- Raised by nobody (safe). -/
  | none
  deriving DecidableEq, Repr

/-- Why a command has no meaning. -/
inductive Refusal where
  /-- A command whose meaning is not written yet, by its mnemonic; raised by `exec` alone (safe: it stops). -/
  | notModelled (mnemonic : String)
  deriving DecidableEq, Repr

/-! ### Frames the device sends -/

/-- A frame that the device has originated or forwards, as it waits at an egress sub-port (R67, R94, R566). -/
structure OutFrame where
  opcode : Byte := 0
  resp : Bool := false
  notice : Bool := false
  ce : Bool := false
  ece : Bool := false
  dst : Aid := 0
  src : Aid := 0
  cid : Cid := 0
  gen : Gen := 0
  status : Byte := 0
  tag : W32 := 0
  pcp : Nat := 0
  hopSeq : BitVec 16 := 0
  hopAck : BitVec 16 := 0
  /-- Payload bytes in wire order, without the trailer. -/
  payload : List Byte := []
  /-- Counter of the authentication trailer, when the frame carries one (R94, R532). -/
  counter : Option W64 := none
  /-- The KMAC256 tag of that trailer (R94, R532). -/
  mac : BitVec 256 := 0
  /-- The IPv6 header of a frame that the device forwards, as it arrived (R566). -/
  ip : Option Ip := none
  /-- A frame of version 1 (R114). -/
  v1 : Bool := false
  /-- A forwarded frame, not one the device originated (R568). -/
  forwarded : Bool := false
  /-- It holds egress credit of a reservation, so it is espresso class at egress (R205, R568). -/
  credit : Bool := false
  /-- The sub-port at which it entered, and whether it is charged to that sub-port's headroom (R557); none for a frame of the
  device's own. -/
  ingress : Option (Nat × Bool) := none
  /-- EtherType and what follows, of a frame that is no TFP frame: pause frames and neighbour advertisements (R558, R554). -/
  raw : Option (List Byte) := none
  /-- The destination MAC of such a frame. -/
  rawTo : BitVec 48 := 0
  /-- The SWT_FWD entry by which it leaves: a later write of the table does not reach it (R564). -/
  entry : W64 := 0
  deriving DecidableEq, Repr

/-- A frame in the replay buffer and how often it was replayed (R103, R106). -/
structure Replay where
  frame : OutFrame
  count : Nat := 0
  /-- When it was last sent. -/
  sent : Nat := 0
  deriving DecidableEq, Repr

/-- Hop state of one lossless PCP of one sub-port (R103 to R109). -/
structure Hop where
  txNext : BitVec 16 := 1
  rxNext : BitVec 16 := 1
  /-- Last hop_seq received in order that was acknowledged to the partner. -/
  ackSent : BitVec 16 := 0
  epoch : W32 := 0
  partnerEpoch : W32 := 0
  /-- This side announces fresh hop state. -/
  fresh : Bool := false
  /-- Resynchronised since the link came up: new frames may be numbered. -/
  resync : Bool := false
  replay : List Replay := []
  /-- Expected value for which a HOP_NAK was last sent, and when (R104). -/
  nakSent : Option (Nat × Nat) := none
  /-- Frames of the replay that are to be sent again before any new frame (R212). -/
  pendingReplay : List OutFrame := []
  /-- The last frame of the replay that a HOP_NAK or the replay timeout called for, until it is acknowledged (R212). -/
  until_ : Option (BitVec 16) := none
  deriving DecidableEq, Repr

/-- The secured association of a sub-port (R534). -/
structure Mka where
  /-- This device is the key server. -/
  server : Bool := false
  /-- The draw that is the SAK, of a key server. -/
  sak : Option Nat := none
  /-- The next packet number to be sent. -/
  pn : Nat := 1
  deriving DecidableEq, Repr

/-- Link state of a sub-port (R551). -/
inductive LinkState where
  | disabled
  | down
  | training
  | up
  deriving DecidableEq, Repr

/-- One sub-port (19). -/
structure SubPort where
  link : LinkState := .disabled
  speed : Byte := 0
  fecLock : Bool := false
  macsecLive : Bool := false
  mka : Mka := {}
  /-- The partner's pause in force per PCP: since when without a break, and when it ends (R552, R560). -/
  paused : Tab (Option (Nat × Nat)) := []
  /-- When XOFF was last sent on a PCP on which the device holds the partner paused (R558). -/
  xoff : Tab (Option Nat) := []
  downCause : Byte := 0
  /-- When the hop hold timer started; none while UP or never UP (R551). -/
  holdFrom : Option Nat := none
  /-- The hop hold time ran out while the sub-port was not UP (R490). -/
  holdExpired : Bool := false
  portDownSent : Bool := false
  lastAttempt : Nat := 0
  everTrained : Bool := false
  /-- It has reached UP, or its first training attempt has ended (R608). -/
  settled : Bool := false
  partner : Aid := 0
  egress : List OutFrame := []
  inFlight : Option OutFrame := none
  /-- The frame in transmission as it goes over the wire, from the destination MAC to the end of its padding or payload (R62,
  R64, R566). -/
  wire : List Byte := []
  defReplica : Nat := 0
  defBulk : Nat := 0
  turnReplica : Bool := false
  hops : Tab Hop := []
  /-- ETH_SUB_CTRL as written (R549). -/
  ctrl : W64 := 0x40040000
  mac : BitVec 48 := 0
  ipv6 : BitVec 128 := 0
  dropHeadroom : W32 := 0
  dropLossy : W32 := 0
  /-- Charges per PCP in the shared pool and in the headroom, bytes (R557). -/
  shared : Tab Nat := []
  headroom : Tab Nat := []
  discardedHold : Nat := 0
  deriving DecidableEq, Repr

/-! ### The store -/

inductive RState where
  | free
  | idle
  | assigned
  | draining
  | releasing
  | retiering
  deriving DecidableEq, Repr

/-- Who to answer when an order completes later. -/
structure OrderRef where
  h : Hdr
  orderId : W32 := 0
  deriving DecidableEq, Repr

/-- A region record (R31), with the region's chunks (pool unit, chunk number). -/
structure Region where
  state : RState := .free
  cls : Nat := 0
  demand : Bool := false
  coherent : Bool := false
  redKind : Nat := 0
  redCond : Nat := 0
  k : Nat := 0
  checks : Nat := 0
  cid : Cid := 0
  gen : Gen := 0
  rights : Byte := 0
  size : Nat := 0
  chunkList : W64 := 0
  version : W64 := 0
  keySlot : W32 := 0xFFFFFFFF
  group : W32 := 0xFFFFFFFF
  object : W32 := 0xFFFFFFFF
  chunks : List (Nat × Nat) := []
  /-- Target class and mode of a retier, and its new chunks. -/
  newCls : Nat := 0
  newDemand : Bool := false
  newCoherent : Bool := false
  newChunks : List (Nat × Nat) := []
  newKeySlot : W32 := 0xFFFFFFFF
  /-- The retier or release order to complete. -/
  order : Option OrderRef := none
  /-- The handle that the last revoke named (R436). -/
  drainRh : Handle := 0
  /-- cid and gen of the last drain (R436). -/
  lastDrain : Cid × Gen := (0, 0)
  /-- The write and atomic rights removed by a handoff offer (R57, R59). -/
  heldRights : Byte := 0
  deriving DecidableEq, Repr

/-- Free chunks of one stack, channel pair or of logical flash (R36, R576). -/
structure Pool where
  cap : Nat := 0
  fresh : Nat := 0
  back : List Nat := []
  deriving DecidableEq, Repr

/-- States of a DEEP sector (R38). -/
inductive SectorState where
  | zero
  | flash
  | filling (toHbm : Bool)
  | dram (dirty : Bool)
  | hbm (dirty : Bool)
  | moving (toHbm : Bool) (dirty : Bool)
  deriving DecidableEq, Repr

/-- Why a sector lies in the promotion pool (02). -/
inductive SectorHold where
  | none
  | scheduled (release : W64)
  | demand (lastHit : Nat)
  deriving DecidableEq, Repr

structure Sector where
  state : SectorState := .zero
  hold : SectorHold := .none
  stack : Nat := 0
  hits : Nat := 0
  tried : Bool := false
  /-- A write-back whose program is not confirmed keeps the DRAM copy (R38, R51). -/
  writeback : Bool := false
  /-- That program has been suspended for a read of its die: 1 while it is, 2 once it goes on (R590). -/
  suspended : Nat := 0
  cid : Cid := 0
  deriving DecidableEq, Repr

structure FlashEntry where
  valid : Bool := false
  die : Nat := 0
  granule : Nat := 0
  deriving DecidableEq, Repr

/-- A block of a NAND die: valid granules, and what retires or collects it (R49, R51, R589). -/
structure NandBlock where
  valid : Nat := 0
  /-- Granules programmed since the last erase. -/
  used : Nat := 0
  retired : Bool := false
  early : Bool := false
  erases : Nat := 0
  deriving DecidableEq, Repr

structure NandChannel where
  programSeq : Nat := 0
  writeStop : Bool := false
  deriving DecidableEq, Repr

structure ObjRec where
  state : Nat := 0
  count : Nat := 0
  ownerAid : Aid := 0
  ownerCid : Cid := 0
  recvAid : Aid := 0
  recvCid : Cid := 0
  seq : W32 := 0
  deadline : Nat := 0
  regions : List Nat := []
  /-- An accepted handoff whose drain is running (R57 step 3). -/
  accepting : Bool := false
  noticeSent : Bool := false
  deriving DecidableEq, Repr

/-- The window of a CALIBRATE or TEST_WINDOW that has fired: where it ends, and what counts as late when its work runs past
it (R201, R494). -/
structure TransitWindow where
  orbit : Nat := 0
  cid : Cid := 0
  /-- Count and phase at which the window ends. -/
  endCount : Nat := 0
  phase : Nat := 0
  deriving DecidableEq, Repr

/-- Periodic calibration of one stack or channel (20). -/
structure Calib where
  /-- When each kind last ended, or the end of start-up. -/
  lastImp : Nat := 0
  lastTrain : Nat := 0
  /-- Temperature at the last retraining, and now. -/
  tempAtTrain : Nat := 0
  temp : Nat := 0
  /-- Limit intervals of each kind that lapsed since its last calibration and are counted. -/
  lapseImp : Nat := 0
  lapseTrain : Nat := 0
  /-- Kind of the calibration that runs, and when it ends. -/
  busy : Option Nat := none
  until_ : Nat := 0
  byOrder : Option OrderRef := none
  window : Option TransitWindow := none
  deriving DecidableEq, Repr

structure Store where
  regions : Tab Region := []
  nextFresh : Nat := 0
  released : List Nat := []
  hbm : Tab Pool := []
  dram : Tab Pool := []
  flashPool : Pool := {}
  chunkTop : Nat := 0
  mem : List Host.Cell := []
  poison : Tab Bool := []
  spans : Tab Aid := []
  sectors : Tab Sector := []
  /-- Clock sweep of the sector cache, and when it began (R41, R44). -/
  sweep : Nat := 0
  sweepFrom : Nat := 0
  /-- Evictions since the sweep began. -/
  evictions : Nat := 0
  map : Tab FlashEntry := []
  /-- What the NAND dies hold: the flash codeword of each programmed granule, by its place (R587). -/
  nand : Tab (List Byte) := []
  blocks : Tab NandBlock := []
  channels : Tab NandChannel := []
  objects : Tab ObjRec := []
  calib : Tab Calib := []
  scrubbed : Nat := 0
  refreshed : Tab Nat := []
  deriving DecidableEq, Repr

/-! ### Requests in progress -/

inductive AccKind where
  | read
  | readAcquire
  | readVolatile
  | write
  | flagged
  | atomic
  | publish
  | cReadShared
  | cReadOwn
  | cUpgrade
  | cWriteback
  | mirror
  | parity
  /-- C_DATA merged at home (R148). -/
  | merge
  /-- A copy of lines to a spare, or at a spare that rebuilds a check position (R413). -/
  | copy
  /-- A write of the device's own that is neither journalled nor sent to replicas: a journal record that is restored (R407), or
  a report that goes into an IDLE region (R529). -/
  | place
  deriving DecidableEq, Repr

/-- Where an access came from, and so where its completion goes. -/
inductive Origin where
  | frame (h : Hdr) (opcode : Byte)
  | v1 (h : Hdr) (opcode : Byte)
  /-- A grid thread's request, by its number. -/
  | thread (id : Nat)
  /-- A write of an engine or mover for the request numbered `req`. -/
  | engine (req : Nat)
  /-- A C_DATA merge for the transition of an entry of a slice. -/
  | transition (key : Nat)
  /-- The copy of a chunk to a spare of a group (R413). -/
  | rebuild (group : Nat)
  /-- The restore of a journal record of a composition entry (R407). -/
  | restore (comp : Nat)
  /-- A read of a unit, by its number (R21). -/
  | unit (id : Nat)
  deriving DecidableEq, Repr

/-- What a held access waits for. -/
inductive Wait where
  /-- The sector's fill or move (R38, R40). -/
  | sector (region sector : Nat)
  /-- A free way of the sector cache (R45). -/
  | way
  /-- The directory transition of the line (R149), or its LOST resolution (R163). -/
  | line (region line : Nat)
  /-- An entry of the directory set (R157). -/
  | dirSet (slice set : Nat)
  /-- Answers of replica holders to the frames of this access (R406). -/
  | replica
  /-- Earlier writes and atomics of the source (R124, R125, R168). -/
  | earlier
  /-- The restore of a journalled block during an eclipse (R409). -/
  | restore (cid : Cid) (block : Nat)
  /-- The calibration of a unit (R594). -/
  | unit (cls unit : Nat)
  /-- Reconstruction of a stripe by a stand-in (R411). -/
  | stripe (region block : Nat)
  deriving DecidableEq, Repr

/-- A place in a region; its offset may lie beyond what an access can reach. -/
structure RowAt where
  rh : Handle := 0
  off : Nat := 0
  deriving DecidableEq, Repr

/-- The writer turn that a write belongs to (R327): the row, by its primary record; the turn's number; which of the turn's records
it changes. -/
structure Turn where
  row : RowAt := {}
  id : Nat := 0
  record : Nat := 0
  deriving DecidableEq, Repr

/-- One access that the device has admitted and not completed (R117, R434). -/
structure Access where
  id : Nat := 0
  kind : AccKind := .read
  origin : Origin := .engine 0
  src : Aid := 0
  /-- The agent that ownership counts it for (R164). -/
  owner : Aid := 0
  cid : Cid := 0
  gen : Gen := 0
  region : Nat := 0
  /-- Position in the group whose stripes this device reconstructs, for a parity stand-in (R411). -/
  position : Option Nat := none
  offset : Nat := 0
  len : Nat := 0
  data : List Byte := []
  atomicOp : Nat := 0
  opA : Nat := 0
  opB : Nat := 0
  expected : W64 := 0
  sub : Nat := 0
  /-- Bytes of the access already dealt with. -/
  done : Nat := 0
  /-- Status of the failed part nearest the start (R119), and its offset; OK while none failed. -/
  failed : Byte := 0
  failedAt : Nat := 0
  /-- Result bytes and poison of each line gathered so far. -/
  result : List Byte := []
  poison : List Bool := []
  prior : Nat := 0
  /-- The part in hand has its replica answers. -/
  replicated : Bool := false
  /-- Answers still awaited from replica frames of the part in hand, and the first status other than OK. -/
  replicas : List Nat := []
  replicaStatus : Byte := 0
  /-- Lines of the stripe read so far, by position, and the reads still out (R411). -/
  stripe : Tab (List Byte) := []
  stripeIds : List Nat := []
  stripeRead : Bool := false
  /-- Grant decided by the directory: 0 none yet, else 1 + the grant byte without its poison bit (R86). -/
  granted : Nat := 0
  /-- Home owes the requester the line in C_DATA (R148). -/
  owed : Bool := false
  /-- Served in the scheduled latency class so far (R205). -/
  espresso : Bool := false
  /-- Held for earlier writes until the event that performs it (R125, R168). -/
  parked : Bool := false
  /-- Lines that a unit's write leaves with the poison bit set (R139). -/
  taint : List Nat := []
  /-- The part in hand found its sector in no cache, so it is no hit (R41). -/
  missed : Bool := false
  turn : Option Turn := none
  /-- A line that the source of a rebuild copies to this spare (R413). -/
  copied : Bool := false
  /-- The write of a writer turn that has to be performed before this one is issued (R327). -/
  follows : Option Nat := none
  wait : Option Wait := none
  deriving DecidableEq, Repr

/-- What a request of the device's own was for (R111). -/
inductive OwnReq where
  /-- A MIRROR_WRITE, PARITY_DELTA or version frame of an access to a position of a group. -/
  | replica (access group position : Nat)
  /-- A read of a stripe's line at a position (R411). -/
  | stripe (access position : Nat)
  /-- A snoop of a directory entry's line to an agent. -/
  | snoop (key : Nat) (agent : Aid)
  | thread (request : Nat)
  /-- A version frame or copy write to a spare (R413). -/
  | rebuild (group : Nat)
  /-- The frame that carries an object's record to a holder (R61). -/
  | object (key : Nat)
  /-- A read of a unit of this device from another device. -/
  | unit
  /-- A WRITE of a unit to another device for its request numbered `req`: the offset that the frame names. -/
  | unitWrite (req off : Nat)
  deriving DecidableEq, Repr

structure Issued where
  id : Nat := 0
  req : OwnReq
  opcode : Byte := 0
  dst : Aid := 0
  cid : Cid := 0
  at_ : Nat := 0
  timedOut : Bool := false
  deriving DecidableEq, Repr

/-- A RELEASE or OWN_GIVE that waits for earlier writes (R82, R165). -/
structure Waiting where
  id : Nat := 0
  h : Hdr
  /-- Region and span that an OWN_GIVE clears. -/
  give : Option (Nat × Nat) := none
  deriving DecidableEq, Repr

/-- The response that a unit's request owes once its writes are performed. -/
structure Reply where
  req : Nat := 0
  h : Hdr
  opcode : Byte := 0
  payload : List Byte := []
  deriving DecidableEq, Repr

/-- Whose read it is that a unit of the device makes. -/
inductive Asker where
  /-- A read that nobody waits for any more. -/
  | nobody
  | mover (m : Nat)
  /-- The fault slot of a parked descriptor, by the sequence number of its fault (R231). -/
  | slot (seq : Nat)
  /-- A request or order, by its source and tag. -/
  | frame (src : Aid) (tag : W32)
  /-- The descriptor of a GATHER_POOL, a bag's header and entries, and a look-up. -/
  | gather (req : Nat)
  | bag (req bag : Nat)
  | look (req bag entry : Nat)
  /-- A row under migration (R336). -/
  | row (job row : Nat)
  /-- The merge of an attached index, its batch being formed, its sweep, and its results. -/
  | merge (index : Nat)
  | batch (index : Nat)
  | sweep (index : Nat)
  | results (index : Nat)
  /-- A group of a CKPT request. -/
  | ckpt (req group : Nat)
  /-- A line of a region that cannot be corrected (R51, R574). -/
  | line (region line : Nat)
  deriving DecidableEq, Repr

/-- What a read of a unit gave: status, bytes, and the poison of each line that it touches. -/
structure UnitAnswer where
  status : Byte := 0
  data : List Byte := []
  poison : List Bool := []
  deriving DecidableEq, Repr

/-- A read that a unit of the device has made, and its answer, which the unit keeps until it has used it (R21, R111). -/
structure UnitRead where
  id : Nat := 0
  asker : Asker := .nobody
  cid : Cid := 0
  rh : Handle := 0
  off : Nat := 0
  len : Nat := 0
  answer : Option UnitAnswer := none
  deriving DecidableEq, Repr

/-- What a request or order whose first reads wait asks for. -/
inductive Awaited where
  | rowWrite (table : Ptr) (row : BitVec 40) (tableGen : Byte) (scale offset : BitVec 16) (codes : List Byte)
  | rowMigrate (table : Ptr) (direction : Byte) (count : W32) (list : Ptr)
  | attach (mask : W64) (desc : Ptr) (program : Nat)
  | search (index query : Ptr) (nq : W32) (k probes : BitVec 16) (pred result : Ptr) (flags : Byte)
  | restore (v1 : Bool) (src : Ptr) (srcLen : Nat) (dst : Ptr) (dstCap : Nat)
  | transits (rh : Handle) (offset : BitVec 48) (first count : Nat)
  | image (image : Ptr) (length : Nat)
  deriving DecidableEq, Repr

/-- A request or order whose first reads, of a table, descriptor, header or list, have to wait (R115): what it asks for and the order
it answers. -/
structure Arrival where
  what : Awaited
  /-- The header of the frame. -/
  h : Hdr
  ref : Option OrderRef := none
  /-- The row of a ROW_WRITE whose table is read. -/
  row : Option RowAt := none
  deriving DecidableEq, Repr

structure Requests where
  nextId : Nat := 0
  held : List Access := []
  waiting : List Waiting := []
  issued : List Issued := []
  replies : List Reply := []
  /-- First status other than OK of the writes of each engine request. -/
  failures : Tab Byte := []
  /-- One more than the lowest offset of a failed part of each of them. -/
  failedAt : Tab Nat := []
  /-- Requests and orders whose first reads wait, in the order in which they arrived. -/
  arrivals : List Arrival := []
  /-- Reads of the device's units. -/
  units : List UnitRead := []
  deriving DecidableEq, Repr

/-! ### Directory -/

inductive DirState where
  | free
  | shared
  | exclusive
  | lost
  deriving DecidableEq, Repr

structure DirEntry where
  state : DirState := .free
  broadcast : Bool := false
  busy : Bool := false
  referenced : Bool := false
  /-- The region index, or at a parity stand-in the name of a failed position's lines in it (R411). -/
  region : Nat := 0
  line : Nat := 0
  cid : Cid := 0
  ptrs : List Aid := []
  /-- Keys of the neighbours on the composition's exclusive list (R146). -/
  prev : Option Nat := none
  next : Option Nat := none
  deriving DecidableEq, Repr

/-- What the slice does once every snoop of a transition is answered (R148). -/
inductive After where
  /-- The entry is freed and the causing access goes on (recalls, READs, writes). -/
  | home
  /-- The requester of an access becomes exclusive holder. Its data lie in the grant or are not needed (0), come from the
  former holder by C_SNOOP_FWD (1), or are sent by home in C_DATA (2). -/
  | grantExclusive (access via : Nat)
  /-- The entry is dropped and any data discarded (R407 step 4). -/
  | discard
  deriving DecidableEq, Repr

structure Transition where
  /-- Key of the entry: slice and slice-local index. -/
  key : Nat := 0
  after : After
  /-- Agents whose snoop answer is awaited. -/
  agents : List Aid := []
  /-- The snoop is C_SNOOP_FWD. -/
  forward : Bool := false
  /-- The snoop targets home, so C_DATA from its agents is merged (R148, R427). -/
  toHome : Bool := false
  /-- An answer was OK, not NOT_PRESENT. -/
  present : Bool := false
  /-- C_DATA has arrived, and its merge is still being performed. -/
  gotData : Bool := false
  merging : Bool := false
  deriving DecidableEq, Repr

structure Directory where
  entries : Tab DirEntry := []
  heads : Tab Nat := []
  transitions : List Transition := []
  hands : Tab Nat := []
  deriving DecidableEq, Repr

/-! ### Compositions, steps and groups -/

structure Agent where
  aid : Aid := 0
  readOnly : Bool := false
  dead : Bool := false
  ports : W32 := 0
  deriving DecidableEq, Repr

inductive CompState where
  | free
  | active
  | releasing
  deriving DecidableEq, Repr

inductive StepState where
  | closed
  | open_
  | unjournalled
  | sealed
  | fenced
  | eclipsing
  deriving DecidableEq, Repr

/-- A journal record (R398, R399). -/
structure JRec where
  region : Nat := 0
  block : Nat := 0
  data : List Byte := []
  poison : List Bool := []
  step : W32 := 0
  deriving DecidableEq, Repr

/-- A ROLLBACK, STEP_COMMIT or ECLIPSE that is to be answered. -/
structure HeldStep where
  h : Hdr
  opcode : Byte := 0
  deriving DecidableEq, Repr

structure Meters where
  /-- Accumulated without loss: ns, byte·ns, 64ths·ns, cluster·ns (R440). -/
  active : Nat := 0
  hbm : Nat := 0
  portSlot : Nat := 0
  stackSlot : Nat := 0
  clusters : Nat := 0
  deriving DecidableEq, Repr

structure Comp where
  cid : Cid := 0
  state : CompState := .free
  gen : Gen := 0
  genFloor : Gen := 0
  modes : Byte := 0
  agents : List Agent := []
  faultAgent : Aid := 0
  faultCount : Nat := 0
  ring : Ptr := ⟨0, 0⟩
  journal : Nat := 0
  violations : Nat := 0
  lastSrc : Aid := 0
  lastPort : Byte := 0
  lastReason : Byte := 0
  stepState : StepState := .closed
  committed : W32 := 0
  openStep : W32 := 0
  /-- The commit sequence and the responses it owes (R395). -/
  commits : List HeldStep := []
  /-- A COMMIT transit has started the recall and the sealing of the open step's journal, which its STEP_COMMIT ends (R200). -/
  sealing : Bool := false
  eclipses : List HeldStep := []
  /-- Eclipse phase: 0 none, 3 waiting for quiesce, 4 snooping, 5 restoring, 6 done (R407). -/
  phase : Nat := 0
  rollback : Option HeldStep := none
  unjournalled : Bool := false
  /-- Journal records, oldest first (R398). -/
  recs : List JRec := []
  /-- Versions at the STEP_OPEN of the step: per region, and per position (16 a group) that a check member keeps (R170, R92). -/
  versions : Tab W64 := []
  keptVersions : Tab W64 := []
  /-- The step was opened here, so its versions were noted. -/
  opened : Bool := false
  dead : List Aid := []
  retired : Gen := 0
  retiring : Bool := false
  releaseRegions : Bool := false
  drainedRegions : List Nat := []
  /-- Steps 3 to 6 of R437 are done. -/
  ended : Bool := false
  meters : Meters := {}
  mc : BitVec 512 := 0
  faultSeq : W32 := 0
  deriving DecidableEq, Repr

structure Member where
  aid : Aid := 0
  region : Nat := 0
  deriving DecidableEq, Repr

/-- A group record (R402) with the versions a check member keeps (R405). -/
structure Group where
  kind : Nat := 0
  k : Nat := 0
  c : Nat := 0
  condition : Nat := 0
  failed : List Nat := []
  cid : Cid := 0
  size : Nat := 0
  spareAid : Aid := 0
  spareRegion : Nat := 0
  sparePosition : Nat := 0
  cursor : Nat := 0
  cursorOpen : Nat := 0
  /-- The copy of the cursor chunk is under way (R413). -/
  copying : Bool := false
  /-- At the spare: lines that the source has copied to it so far, in ascending order. -/
  copied : Nat := 0
  members : List Member := []
  versions : Tab W64 := []
  deriving DecidableEq, Repr

/-- The quorum orders (R443, R488, R526). -/
inductive TallyKind where
  | expel
  | deviceReset
  | floorRaise
  | lcRetire
  deriving DecidableEq, Repr

structure Tally where
  kind : TallyKind
  target : Nat := 0
  nonce : W64 := 0
  managers : List Aid := []
  start : Nat := 0
  deriving DecidableEq, Repr

structure KeptResult where
  manager : Aid := 0
  orderId : W32 := 0
  status : Byte := 0
  result : List Byte := []
  complete : Bool := false
  /-- Repetitions that arrived while the order still ran; they are answered when it completes. -/
  waiting : List Hdr := []
  deriving DecidableEq, Repr

structure Comps where
  entries : Tab Comp := []
  /-- G and F kept for a cid after its composition's release (R420). -/
  kept : Tab (Option (Gen × Gen)) := []
  groups : Tab Group := []
  adopted : List (Aid × Nat × Nat) := []
  expelled : List Aid := []
  selfExpelled : Bool := false
  tallies : List Tally := []
  resetAt : Option Nat := none
  results : List KeptResult := []
  noticeSeq : W32 := 0
  journalUsed : Nat := 0
  deriving DecidableEq, Repr

/-! ### Sky and ephemeris -/

inductive LockState where
  | absent
  | acquiring
  | locked
  | lost
  deriving DecidableEq, Repr

structure Orbit where
  defined : Bool := false
  cid : Cid := 0
  period : Nat := 0
  anchor : Nat := 0
  first : Nat := 0
  count : Nat := 0
  enable : Option Nat := none
  disable : Option Nat := none
  late : Nat := 0
  deriving DecidableEq, Repr

/-- A transit entry (R193). -/
structure Entry where
  kind : Nat := 0
  phase : Nat := 0
  orbit : Nat := 0
  flags : Byte := 0
  tick : Nat := 0
  unit : Nat := 0
  cid : Cid := 0
  length : Nat := 0
  operands : List Byte := []
  deriving DecidableEq, Repr

/-- An active reservation (R202 to R204). -/
structure Reservation where
  /-- The transit that opened it, and its firing count. -/
  orbit : Nat := 0
  entry : Nat := 0
  start : Nat := 0
  stack : Bool := false
  unit : Nat := 0
  sub : Nat := 0
  cid : Cid := 0
  f : Nat := 0
  endCount : Nat := 0
  phase : Nat := 0
  /-- Credits in 1/256 byte, and when they were last refilled (R202). -/
  ingress : Nat := 0
  egress : Nat := 0
  credit : Nat := 0
  refilled : Nat := 0
  deriving DecidableEq, Repr

/-- A PROMOTE whose due tick has not come (R201). -/
structure DueEntry where
  region : Nat := 0
  first : Nat := 0
  count : Nat := 0
  due : Nat := 0
  stack : Nat := 0
  cid : Cid := 0
  orbit : Nat := 0
  deriving DecidableEq, Repr

/-- A transit that is to fire: its entry, the count at which it fires and the moment, in ns of local time (R192). -/
structure DueTransit where
  entry : Nat := 0
  count : Nat := 0
  moment : Nat := 0
  /-- Put off to this tick (R194). -/
  late : Bool := false
  deriving DecidableEq, Repr

/-- A pulse on SKYOUT: one coded by the device, with its count and symbol, or an edge of SKY repeated with its high time (R179). -/
inductive SkyPulse
  | coded (count : W64) (symbol : Nat)
  | repeated (at_ high : Nat)
  deriving DecidableEq, Repr

structure Sky where
  lock : LockState := .absent
  established : Bool := false
  count : W64 := 0
  goodRun : Nat := 0
  badRun : Nat := 0
  lossCause : Nat := 0
  intervals : List Nat := []
  lastTick : Option Nat := none
  /-- T has been cleared for want of ticks: the next tick starts measuring again (R186). -/
  restart : Bool := false
  lastLocked : Option W64 := none
  /-- Count of the last tick whose transits fired: what a return to lock skips begins after it (R199). -/
  fired : Option W64 := none
  /-- COUNT_REGRESSED has been sent, and the count is refused until SKY_REARM (R186). -/
  regressed : Bool := false
  /-- Symbols of the superframe in progress, the marker's tick excluded; none before a marker (R177). -/
  symbols : Option (List Nat) := none
  orbits : Tab Orbit := []
  transits : Tab Entry := []
  /-- Transits of the current tick still to fire, in firing order, and those beyond the 64 of the tick (R194). -/
  due : List DueTransit := []
  beyond : List DueTransit := []
  /-- Tick instant of the last tick, and of the ticks before it whose instants a tick hold may leave ahead, latest first (R175). -/
  instant : Nat := 0
  before : List Nat := []
  /-- Counts taken from TICK frames, for the duplicates of two tick ports (R181): runs of first and last count. -/
  taken : List (W64 × W64) := []
  /-- Count of the last tick that the local generator produced, and when step 10 of the start ended (R173). -/
  generated : Nat := 0
  started : Option Nat := none
  reservations : List Reservation := []
  promotes : List DueEntry := []
  /-- What SKYOUT carried last; none while it is held low (R179). -/
  skyout : Option SkyPulse := none
  deriving DecidableEq, Repr

/-! ### Movers -/

/-- A run of a translation area (R222). -/
structure Run where
  rh : Handle := 0
  dest : Bool := false
  writeRight : Bool := false
  atomicRight : Bool := false
  offset : Nat := 0
  length : Nat := 0
  deriving DecidableEq, Repr

/-- Positions `lo` to `hi - 1` of a virtual side that lie in pages of one size (R218). -/
structure PageSpan where
  dest : Bool := false
  lo : Nat := 0
  hi : Nat := 0
  size : Nat := 0
  deriving DecidableEq, Repr

/-- A descriptor being executed (R221), as the mover read it. -/
structure Desc where
  ptr : Ptr := ⟨0, 0⟩
  op : Nat := 0
  srcVirtual : Bool := false
  dstVirtual : Bool := false
  runCapacity : Nat := 0
  length : Nat := 0
  srcAddr : Nat := 0
  dstAddr : Nat := 0
  srcRef : Ptr := ⟨0, 0⟩
  dstRef : Ptr := ⟨0, 0⟩
  pattern : W64 := 0
  /-- Performed prefix (bytes_done). -/
  bytesDone : Nat := 0
  /-- Runs of the translation, and the position at which they begin (R222, R233). -/
  runs : List Run := []
  base : Nat := 0
  /-- Source bytes as they lay before a COPY whose ranges overlap began to move (R226). -/
  before : List Byte := []
  beforePoison : List Bool := []
  /-- The pages of the translation, in stretches of one page size (R235). -/
  pages : List PageSpan := []
  /-- The pattern was read as poisoned, so a FILL writes poisoned lines (R139). -/
  tainted : Bool := false
  /-- The reserved bytes of src_ref and dst_ref: root pointers are compared byte for byte (R234). -/
  srcPad : Nat := 0
  dstPad : Nat := 0
  deriving DecidableEq, Repr

/-- A MOVE in service or waiting, and how far it has come (R227). -/
structure MoveReq where
  h : Hdr
  first : Ptr := ⟨0, 0⟩
  count : Nat := 0
  next : Ptr := ⟨0, 0⟩
  done : Nat := 0
  poisoned : Bool := false
  /-- A returned descriptor starts at its bytes_done (R233). -/
  resume : Option Nat := none
  deriving DecidableEq, Repr

inductive MoverState where
  | idle
  | translating
  | moving
  | stalled
  deriving DecidableEq, Repr

structure Inval where
  src : Aid := 0
  h : Hdr
  id : W32 := 0
  total : Nat := 0
  root : Ptr := ⟨0, 0⟩
  start : Nat := 0
  len : Nat := 0
  deriving DecidableEq, Repr

/-- A fault that waits to be parked or recorded (R230 to R232). -/
structure WalkFault where
  access : Nat := 0
  reason : Nat := 0
  level : Nat := 0
  side : Nat := 0
  format : Nat := 0
  va : Nat := 0
  entry : W64 := 0
  root : Ptr := ⟨0, 0⟩
  /-- SDC[31:0] at the fault (R230). -/
  sdc : W32 := 0
  deriving DecidableEq, Repr

structure Mover where
  state : MoverState := .idle
  req : Option MoveReq := none
  desc : Option Desc := none
  /-- Segments in progress, each with its staging block: position and length (R237). -/
  segments : List (Nat × Nat) := []
  /-- The writes of the first segment have been issued. -/
  wrote : Bool := false
  inval : List Inval := []
  /-- Invalidations that are acknowledged and whose pages are still to be walked again (R235). -/
  again : List Inval := []
  /-- The walk has ended and its runs are being written, before MOVING is (R228). -/
  laid : Bool := false
  /-- DONE is being written, before the descriptor completes (R228, R229). -/
  marked : Bool := false
  fault : Option WalkFault := none
  deriving DecidableEq, Repr

/-- A PARKED descriptor (R230 to R233). -/
structure Parked where
  req : MoveReq
  desc : Desc
  mover : Nat := 0
  fault : WalkFault
  seq : W32 := 0
  recorded : Bool := false
  /-- The request whose write is the fault record, until FAULT goes out (R230). -/
  record : Option Nat := none
  /-- The request whose writes are PARKED and bytes_done. -/
  mark : Nat := 0
  /-- The wait for its slot has been counted, and when the slot was last checked (R231). -/
  waited : Bool := false
  checked : Option Nat := none
  deriving DecidableEq, Repr

structure Movers where
  movers : Tab Mover := []
  queue : List MoveReq := []
  ingress : List MoveReq := []
  parked : List Parked := []
  lastGrant : Nat := 0
  deriving DecidableEq, Repr

/-! ### Grid -/

inductive ClusterState where
  | unavailable
  | free
  | assigned
  | releasing
  | zeroing
  deriving DecidableEq, Repr

/-- A program resident, loading or unloading on a cluster (R242). -/
structure Program where
  resident : Bool := false
  loading : Bool := false
  unloading : Bool := false
  code : List W32 := []
  codeBytes : Nat := 0
  threads : Nat := 0
  slots : Nat := 0
  accs : Nat := 0
  scratchBytes : Nat := 0
  queues : Nat := 0
  pcp : Nat := 0
  entry : Nat := 0
  /-- Where the program's share starts in each core: contexts, slots, accumulators, scratch, queues. -/
  ctx0 : Nat := 0
  slot0 : Nat := 0
  acc0 : Nat := 0
  scratch0 : Nat := 0
  queue0 : Nat := 0
  search : Bool := false
  deriving DecidableEq, Repr

structure Cluster where
  state : ClusterState := .unavailable
  cid : Cid := 0
  active : Option Nat := none
  search : Bool := false
  programs : Tab Program := []
  testing : Bool := false
  deriving DecidableEq, Repr

inductive ThreadState where
  | free
  | ready
  | waitMem
  | waitMsg
  | waitSlot
  | waitTick
  | halted
  deriving DecidableEq, Repr

/-- What a waiting thread waits for, and where its result goes (R249). -/
inductive ThreadWait where
  | none
  /-- A load into sd of n bytes. -/
  | load (sd : BitVec 3) (bytes : Nat)
  | amo (sd : BitVec 3) (bytes : Nat)
  | vload (vd : BitVec 5)
  /-- A block into scratch at an absolute scratch address; store offset for the line phase of poison. -/
  | block (addr : Nat) (bytes : Nat) (offset : Nat)
  | tick (target : W64)
  | send (target : Nat) (sd : BitVec 3)
  | recv (queue : Nat) (addr : Nat) (sd : BitVec 3)
  | slot
  | release (sd : BitVec 3)
  deriving DecidableEq, Repr

structure Ctx where
  state : ThreadState := .free
  cause : Byte := 0
  program : Nat := 0
  /-- s1 to s7 by number; an unlisted register holds zero. -/
  regs : Tab W64 := []
  poison : Tab Bool := []
  pc : Nat := 0
  status : BitVec 9 := 0
  slot : Option Nat := none
  wait : ThreadWait := .none
  deriving DecidableEq, Repr

structure Slot where
  v : Tab Vec := []
  vPoison : Tab Bool := []
  m : Tab W64 := []
  mPoison : Tab Bool := []
  deriving DecidableEq, Repr

structure AccReg where
  value : Acc := 0
  nan : Bool := false
  posInf : Bool := false
  negInf : Bool := false
  poison : Bool := false
  deriving DecidableEq, Repr

structure Message where
  data : List Byte := []
  poison : List Bool := []
  deriving DecidableEq, Repr

/-- A message on its way (R259, R261). -/
structure InTransit where
  fromCore : Nat := 0
  fromCid : Cid := 0
  target : Nat := 0
  queue : Nat := 0
  msg : Message
  /-- Router column and row to which its flits go (R474). -/
  router : Nat × Nat := (0, 0)
  deriving DecidableEq, Repr

/-- A blocked sender of a message to a queue (R260), with its message as read at issue. -/
structure Sender where
  thread : Thread
  queue : Nat := 0
  msg : Message
  deriving DecidableEq, Repr

structure Core where
  threads : Tab Ctx := []
  slots : Tab Slot := []
  accs : Tab AccReg := []
  scratch : List Host.Cell := []
  scratchPoison : Tab Bool := []
  queues : Tab (List Message) := []
  recvWait : List (Nat × Nat) := []
  /-- Senders blocked on this core's queues, in the order in which they began to wait. -/
  sendWait : List Sender := []
  slotWait : List (Nat × Nat) := []
  /-- GRD_FAULT_LATCH by program number (R312). -/
  latches : Tab W64 := []
  /-- Vector slots that a thread holds. -/
  held : List Nat := []
  deriving DecidableEq, Repr

/-- A load or unload of a program in progress. -/
structure ProgramJob where
  order : OrderRef
  mask : W64 := 0
  program : Nat := 0
  desc : Ptr := ⟨0, 0⟩
  load : Bool := false
  /-- The descriptor is read and the limits of R243 hold. -/
  checked : Bool := false
  /-- Pointers and sizes of the descriptor that the load needs (R242). -/
  code : Ptr := ⟨0, 0⟩
  image : Ptr := ⟨0, 0⟩
  imageBytes : Nat := 0
  imageStride : Nat := 0
  /-- The descriptor's bytes as read (R527). -/
  raw : List Byte := []
  deriving DecidableEq, Repr

/-- What a grid order does, for one that has to wait behind a reset (R481). -/
inductive GridOp where
  | reset (scope x y partition : Nat)
  | assign (cid : Cid)
  | release
  | load (program : Nat) (desc : Ptr)
  | start (program : Nat) (args : List W64)
  | switch (program : Nat)
  | unload (program : Nat)
  | attach (cid : Cid) (desc : Ptr) (program : Nat)
  deriving DecidableEq, Repr

/-- A reset that waits for the grid orders in progress, or a grid order that came after it (R481). A core error's reset
answers no order (R484). -/
structure Deferred where
  order : Option OrderRef := none
  mask : W64 := 0
  op : GridOp
  deriving DecidableEq, Repr

/-- A request that a grid thread issued (R253, R285). -/
structure GridReq where
  id : Nat := 0
  thread : Thread
  isWrite : Bool := false
  local_ : Bool := false
  dst : Aid := 0
  cid : Cid := 0
  /-- Held at the core (R126, R254); then what it carries: opcode, region handle, offset, length, data. -/
  heldStore : Bool := false
  opcode : Byte := 0
  rh : Handle := 0
  offset : Nat := 0
  len : Nat := 0
  data : List Byte := []
  sub : Byte := 0
  opA : Nat := 0
  opB : Nat := 0
  pcp : Nat := 0
  orphan : Bool := false
  /-- Answer of the home slice to a local access: status, data and poison mask. -/
  answer : Option (Byte × List Byte × W64) := none
  deriving DecidableEq, Repr

/-- A write of a thread that timed out: nobody knows that it was performed, so a flagged store behind it never goes (R112, R126). -/
structure LostWrite where
  id : Nat
  thread : Thread
  cid : Cid
  orphan : Bool
  deriving DecidableEq, Repr

structure Grid where
  clusters : Tab Cluster := []
  cores : Tab Core := []
  jobs : List ProgramJob := []
  releases : List (OrderRef × W64) := []
  deferred : List Deferred := []
  transit : List InTransit := []
  reqs : List GridReq := []
  lost : List LostWrite := []
  skip : Tab Nat := []
  failedCols : Tab (BitVec 17) := []
  fuseCols : Tab (BitVec 17) := []
  deriving DecidableEq, Repr

/-! ### Engines -/

structure EmbTable where
  code : Nat := 0
  replacing : Bool := false
  curGen : Byte := 0
  nextGen : Byte := 0
  elements : Nat := 0
  rows : Nat := 0
  primary : Ptr := ⟨0, 0⟩
  hotSlots : Nat := 0
  hot : Ptr := ⟨0, 0⟩
  retain : Ptr := ⟨0, 0⟩
  deriving DecidableEq, Repr

/-- A look-up between its headers and its body (R328): the record chosen, the lines that its header was read with, and whether
poison was met. -/
structure Look where
  at_ : RowAt := {}
  header : List Byte := []
  poisoned : Bool := false
  deriving DecidableEq, Repr

/-- One bag of a GATHER_POOL as far as the engine has come (R320, R322 to R324). -/
structure Bag where
  /-- Header read: where the bag starts in the index list, and its entries. -/
  known : Bool := false
  start : Nat := 0
  count : Nat := 0
  /-- Row index and weight bits of each entry, once read. -/
  entries : Option (List (Nat × Nat)) := none
  /-- Exact sums per element, as accumulators. -/
  sums : List AccReg := []
  /-- Entries already looked up; entries of failed attempts, once for each (R328, R329). -/
  looked : List Nat := []
  failed : List Nat := []
  /-- Look-ups whose headers are read, by entry. -/
  looks : Tab (Option Look) := []
  poisoned : Bool := false
  noVersion : Bool := false
  /-- The request whose write is the bag's, once it is issued. -/
  writes : Option Nat := none
  refused : Bool := false
  deriving DecidableEq, Repr

structure GatherReq where
  h : Hdr
  id : Nat := 0
  table : EmbTable := {}
  tableGen : Byte := 0
  fmt : Byte := 0
  index : Ptr := ⟨0, 0⟩
  out : Ptr := ⟨0, 0⟩
  nbags : Nat := 0
  bags : Tab Bag := []
  /-- Engine of bag 0 (R325). -/
  engine0 : Nat := 0
  badIndex : Bool := false
  poisoned : Bool := false
  deriving DecidableEq, Repr

/-- A row under migration (R336): the copy, and the seq at which it was read. -/
structure Migration where
  job : Nat := 0
  row : Nat := 0
  slot : Nat := 0
  toHot : Bool := true
  copy : Option (Nat × List Byte) := none
  /-- Poison of each byte of the copy (R139). -/
  poison : List Bool := []
  /-- The request whose writes are the turn that flips the row. -/
  flip : Option Nat := none
  deriving DecidableEq, Repr

structure MigrateJob where
  id : Nat := 0
  order : OrderRef
  cid : Cid := 0
  table : EmbTable := {}
  toHot : Bool := true
  /-- Entries that have not had their turn: row, slot, and whether the entry was read as poisoned. -/
  todo : List (Nat × Nat × Bool) := []
  left : Nat := 0
  migrated : Nat := 0
  skipped : Nat := 0
  poisoned : Bool := false
  deriving DecidableEq, Repr

structure Emb where
  ingress : List GatherReq := []
  queue : List GatherReq := []
  service : List GatherReq := []
  nextEngine : Nat := 0
  migrations : List Migration := []
  jobs : List MigrateJob := []
  /-- Rows of which a held look-up keeps further writer turns from starting, by its request (R329). -/
  locks : List (RowAt × Nat) := []
  /-- Rows whose next writer turn has begun to read its records, and who makes it (R327). -/
  claims : List (RowAt × Asker) := []
  deriving DecidableEq, Repr

/-- An index descriptor as read at attachment (R340). -/
structure IndexDesc where
  kind : Nat := 0
  codeType : Nat := 0
  codeBytes : Nat := 0
  metric : Nat := 0
  dims : Nat := 0
  vecType : Nat := 0
  attrs : Bool := false
  lists : Nat := 0
  window : Nat := 0
  directory : Ptr := ⟨0, 0⟩
  nodes : Nat := 0
  graph : Ptr := ⟨0, 0⟩
  degree : Nat := 0
  rerank : Nat := 0
  codebook : Ptr := ⟨0, 0⟩
  centroids : Ptr := ⟨0, 0⟩
  vectors : Ptr := ⟨0, 0⟩
  mergeThreshold : Nat := 0
  tail : Ptr := ⟨0, 0⟩
  tailCapacity : Nat := 0
  ids : Nat := 0
  deriving DecidableEq, Repr

/-- A SEARCH that the device has accepted or left at ingress (R360, R363). -/
structure SearchReq where
  h : Hdr
  id : Nat := 0
  query : Ptr := ⟨0, 0⟩
  nq : Nat := 0
  k : Nat := 0
  probes : Nat := 0
  /-- The predicate block; none where every record passes (R362). -/
  pred : Option (List Byte) := none
  predPoison : Bool := false
  result : Ptr := ⟨0, 0⟩
  exact : Bool := false
  arrived : Nat := 0
  /-- First status of a read or write that failed (R643). -/
  status : Byte := 0
  deriving DecidableEq, Repr

/-- A candidate of a query: score, list, position or place in the tail, and its id where it is known already (R367). -/
structure Candidate where
  score : W32 := 0
  list : Nat := 0
  position : Nat := 0
  id : Option Nat := none
  deriving DecidableEq, Repr

/-- One query of a batch. -/
structure QueryState where
  req : Nat := 0
  number : Nat := 0
  vector : List Byte := []
  /-- Its vector, predicate or codebook was poisoned, so every byte of its result is computed from a poisoned line (R139). -/
  taint : Bool := false
  probes : List Nat := []
  heap : List Candidate := []
  /-- A candidate was absent for poison (R370). -/
  poisoned : Bool := false
  deriving DecidableEq, Repr

/-- A batch with its snapshot (R354, R364). -/
structure Batch where
  reqs : List SearchReq := []
  snapS : Nat := 0
  snapM : Nat := 0
  snapB : Nat := 0
  queries : List QueryState := []
  /-- Ids named by the tombstones with seq in (B_q, S]. -/
  tombs : List Nat := []
  codebook : List Byte := []
  /-- The sweep has begun, so the next batch may start. -/
  begun : Bool := false
  /-- Next list to visit; the tail follows the last list. -/
  nextList : Nat := 0
  /-- Queries of the batch that earlier visits of that list, or of the tail, have passed (R365). -/
  passed : Nat := 0
  tailDone : Bool := false
  /-- The last bytes of results that lie on other devices have been sent ahead of the rest (R363). -/
  probed : Bool := false
  /-- The results are written or being written. -/
  written : Bool := false
  deriving DecidableEq, Repr

/-- An attached index (R347 to R349) and its merge (R357). -/
structure Attached where
  used : Bool := false
  ptr : Ptr := ⟨0, 0⟩
  desc : IndexDesc := {}
  cid : Cid := 0
  mask : W64 := 0
  program : Nat := 0
  waiting : List SearchReq := []
  ingress : List SearchReq := []
  batches : List Batch := []
  /-- The part of the merge that is due next; 0 while none runs. 1 to 3 are steps 1 and 2 of R357, 4 and 5 step 4, 6 to 8 step 6. -/
  mergePhase : Nat := 0
  mergePoint : Nat := 0
  /-- Request number of the merge's writes. -/
  mergeReq : Nat := 0
  /-- Lists that step 1 extended, with their former and new counts. -/
  grown : List (Nat × Nat × Nat) := []
  /-- The tail header is to be read to see where an interrupted merge goes on (R359). -/
  resume : Bool := false
  detach : Option OrderRef := none
  deriving DecidableEq, Repr

/-- A CKPT_COMPRESS or CKPT_RESTORE (R386, R387). -/
structure CkptReq where
  h : Hdr
  /-- It came in version 1 (R114). -/
  v1 : Bool := false
  id : Nat := 0
  restore : Bool := false
  src : Ptr := ⟨0, 0⟩
  dst : Ptr := ⟨0, 0⟩
  etype : Nat := 0
  mode : Nat := 0
  /-- Uncompressed length S, and the stream's length once it is known. -/
  size : Nat := 0
  streamLength : Nat := 0
  /-- Groups handed to roasters so far. -/
  handed : Nat := 0
  /-- Offsets assigned to groups so far; a restore takes them from the stream's index. -/
  offsets : List Nat := []
  /-- A group's coded bytes, and the poison of each, once its cupping pass has ended. -/
  coded : Tab (List Byte) := []
  codedPoison : Tab (List Bool) := []
  written : List Nat := []
  headerDone : Bool := false
  poisoned : Bool := false
  deriving DecidableEq, Repr

/-- A roaster with the groups in its two buffers, by request and number, oldest first (R387). -/
structure Roaster where
  groups : List (Nat × Nat) := []
  deriving DecidableEq, Repr

structure Ckpt where
  ingress : List CkptReq := []
  queue : List CkptReq := []
  service : List CkptReq := []
  roasters : Tab Roaster := []
  next : Nat := 0
  deriving DecidableEq, Repr

/-! ### Configuration, start and security -/

structure PortCfg where
  mode : Nat := 0
  ipv6 : Bool := false
  lossless : Byte := 0
  tick : Bool := false
  v1 : Bool := false
  macsec : Bool := false
  mtu : Nat := 0
  cable : Nat := 0
  headroom : List Nat := []
  deriving DecidableEq, Repr

structure MemCfg where
  hbmMask : Byte := 0
  hbmRate : Nat := 0
  mrdimm : Bool := false
  ddrRate : Nat := 0
  toggle : Bool := false
  op : Nat := 0
  nandRate : Nat := 0
  dies : Nat := 0
  diesPerCe : Nat := 0
  planes : Nat := 0
  tR : Nat := 0
  pageBytes : Nat := 0
  pagesPerBlock : Nat := 0
  blocksPerDie : Nat := 0
  ratedCycles : Nat := 0
  ddr : List DimmCfg := []
  deriving DecidableEq, Repr

structure CarveCfg where
  regions : Nat := 0
  objects : Nat := 0
  hotMap : Nat := 0
  dirBacking : Nat := 0
  journal : Nat := 0
  promotion : Nat := 0
  sectorCache : Nat := 0
  staging : Nat := 0
  deriving DecidableEq, Repr

/-- A format record (R217). -/
structure FormatRec where
  levels : Nat := 0
  granule : Nat := 0
  flags : Byte := 0
  bits : List Nat := []
  present : Byte := 0
  writable : Byte := 0
  leaf : Byte := 0
  atomic : Byte := 0
  addrLo : Nat := 0
  addrHi : Nat := 0
  blocks : Byte := 0
  deriving DecidableEq, Repr

structure ManagerCfg where
  aid : Aid := 0
  ports : W32 := 0
  wrapped : List Byte := []
  /-- The unwrapped key, held from start-up on (R515, R531). -/
  key : BitVec 256 := 0
  deriving DecidableEq, Repr

/-- The DEVICE section (R455), with its defaults in place: request timeout, replay timeout, hop hold time and local period in
ns, handoff deadline in µs. -/
structure DeviceCfg where
  aid : Aid := 0
  skyDomain : BitVec 16 := 0
  tickSource : Nat := 0
  skyout : Bool := false
  tickHold : Nat := 0
  requestTimeout : Nat := 0
  replayTimeout : Nat := 0
  hopHold : Nat := 0
  handoffDeadline : Nat := 0
  etherType : Nat := 0x88B5
  udpPort : Nat := 46005
  pcpControl : Nat := 0
  pcpEspresso : Nat := 0
  pcpReplica : Nat := 0
  pcpBulk : Nat := 0
  localPeriod : Nat := 0
  deriving DecidableEq, Repr

/-- The LIFECYCLE section (R514). -/
structure LifeCfg where
  deploy : Bool := false
  service : Bool := false
  floorRaise : Bool := false
  rotate : Bool := false
  newOwner : BitVec 256 := 0
  newWrap : List Byte := []
  deriving DecidableEq, Repr

/-- The running image, section by section (R454). -/
structure Cfg where
  device : DeviceCfg := {}
  ports : List PortCfg := []
  mem : MemCfg := {}
  carve : CarveCfg := {}
  formats : List FormatRec := []
  quorum : Nat := 0
  managers : List ManagerCfg := []
  life : LifeCfg := {}
  fast : Bool := false
  retention : Bool := false
  orbits : List Orbit := []
  orbitNumbers : List Nat := []
  transits : List Entry := []
  csr : List RegWrite := []
  deriving DecidableEq, Repr

/-- The bytes of an image slot: the image and its signature block (R453). -/
structure ImageSlot where
  bytes : List Byte := []
  deriving DecidableEq, Repr

structure LogRec where
  seq : Nat := 0
  outcome : Nat := 0
  cause : Nat := 0
  slot : Nat := 0
  profile : Nat := 0
  sequence : Nat := 0
  detail : Nat := 0
  measurement : BitVec 256 := 0
  deriving DecidableEq, Repr

/-- What an index record of the key state area says (R522). -/
structure IndexRec where
  seq : Nat := 0
  block : Nat := 0
  next : Nat := 0
  key : Nat := 0
  deriving DecidableEq, Repr

structure ImageJob where
  order : OrderRef
  slot : Nat := 0
  image : ImageSlot := {}
  ptr : Ptr := ⟨0, 0⟩
  length : Nat := 0
  deriving DecidableEq, Repr

structure Boot where
  slotA : ImageSlot := {}
  slotB : ImageSlot := {}
  log : List LogRec := []
  /-- The key state area: the ring of index records, 64 bytes each, oldest first, the cached nodes of tree levels 20 to 10 of the
  identity key, level 20 first, and the vendor's certificate of its public key (R512, R522). -/
  keyArea : List (List Byte) := []
  nodeCache : List (BitVec 256) := []
  vendorCert : List Byte := []
  cfg : Cfg := {}
  image : List Byte := []
  sequence : Nat := 0
  securityVersion : Nat := 0
  slot : Nat := 0
  step : Nat := 0
  admitted : Bool := false
  cfgFault : Bool := false
  hwFault : Bool := false
  cause : Nat := 0
  startSeq : Nat := 0
  reloads : Nat := 0
  rwlWrites : Nat := 0
  invalids : Nat := 0
  imageJob : Option ImageJob := none
  installed : List Aid := []
  lastPresent : Nat := 0
  inReset : Bool := false
  deriving DecidableEq, Repr

structure OwnerSlot where
  filled : Bool := false
  hash : BitVec 256 := 0
  wrap : BitVec 256 := 0
  revoked : Bool := false
  deriving DecidableEq, Repr

/-- A flash key wrapped under a key-encryption key: only that key unwraps it (R515, R539; the manual names no wrapping, DESIGN CHOICE,
log entry 101). -/
structure WrappedKey where
  under : BitVec 256
  key : BitVec 512
  deriving DecidableEq, Repr

/-- A flash key slot: its copies on the two I/O dies; none for one that holds zeros (R539, R541). -/
structure KeySlot where
  die0 : Option WrappedKey := none
  die1 : Option WrappedKey := none
  deriving DecidableEq, Repr

/-- What the last JTAG instruction of the lifecycle shifted out: the identity public key, a challenge, or INVALID (R512, R513, R537). -/
inductive JtagOut
  | identityKey (key : BitVec 512)
  | challenge (value : BitVec 512)
  | invalid
  deriving DecidableEq, Repr

structure AttestJob where
  order : OrderRef
  cid : Cid := 0
  nonce : BitVec 256 := 0
  report : Ptr := ⟨0, 0⟩
  deriving DecidableEq, Repr

structure Cak where
  held : Bool := false
  ckn : BitVec 112 := 0
  key : BitVec 256 := 0
  preferred : Bool := false
  deriving DecidableEq, Repr

structure Security where
  fuseManufacture : Bool := false
  fuseProvisioned : Bool := false
  fuseDeployed : Bool := false
  fuseRetired : Bool := false
  serviceSession : Bool := false
  owners : List OwnerSlot := []
  vendorRoot : BitVec 256 := 0
  identitySeed : Option Nat := none
  /-- Root of the identity key, in fuses (R522). -/
  identityRoot : BitVec 256 := 0
  floor : Nat := 0
  counter : Nat := 0
  epoch : Nat := 0
  block : Nat := 0
  nextIndex : Nat := 0
  exhausted : Bool := false
  keyNumber : Nat := 0
  attestUsed : Nat := 0
  keyCertified : Bool := false
  nextKeyStarted : Bool := false
  nextKeyReady : Bool := false
  m0 : BitVec 512 := 0
  m1 : BitVec 512 := 0
  m2 : BitVec 512 := 0
  m3 : BitVec 512 := 0
  sentCounter : Nat := 0
  lastCounter : Tab W64 := []
  scanUnlocked : Bool := false
  shifted : Option JtagOut := none
  level1 : Bool := false
  level2 : Bool := false
  keySlots : Tab KeySlot := []
  /-- The session key-encryption key (R515). -/
  sessionKey : Option (BitVec 256) := none
  caks : Tab Cak := []
  attests : List AttestJob := []
  jtag : Option JtagInstr := none
  deriving DecidableEq, Repr

/-! ### Health, tests, power, pins, registers -/

/-- Score of one unit (R504, R509). -/
structure Score where
  magnitude : Nat := 0
  band : Nat := 0
  top : Nat := 0
  rising : Bool := false
  deriving DecidableEq, Repr

structure HltAlert where
  cls : Nat := 0
  unit : Nat := 0
  counter : Nat := 0
  valid : Bool := false
  deriving DecidableEq, Repr

structure Health where
  counters : Tab Nat := []
  /-- Counts at the end of each of the last powered minutes, newest first. -/
  history : List (Tab Nat) := []
  scores : Tab Score := []
  minutes : Nat := 0
  /-- Units whose immediate notice went out in this minute (R507). -/
  noticed : List (Nat × Nat) := []
  alert : HltAlert := {}
  deriving DecidableEq, Repr

structure TestOrder where
  kind : Nat := 0
  margin : Nat := 0
  atWindow : Bool := false
  testId : W32 := 0
  running : Bool := false
  /-- When it began, and the TEST_WINDOW that started it (R494). -/
  since : Nat := 0
  window : Option TransitWindow := none
  deriving DecidableEq, Repr

structure Block where
  /-- 0: no drain in force, 1: draining, 2: drained (R491). -/
  drain : Nat := 0
  test : Option TestOrder := none
  failed : Bool := false
  outcome : Nat := 0
  testId : W32 := 0
  deriving DecidableEq, Repr

structure Power where
  throttle : Nat := 0
  mv : Nat := 0
  ca : Nat := 0
  watts : Nat := 0
  junction : Nat := 0
  lowInput : Bool := false
  peak : Nat := 0
  coolFor : Nat := 0
  tripped : Bool := false
  faulted : List Nat := []
  vinQualified : Bool := false
  /-- The margin under which a partition's core rail or clock runs while a test with one is carried out (R494, R498). -/
  margins : Tab Nat := []
  deriving DecidableEq, Repr

structure Pins where
  ready : Bool := false
  cfgFaultN : Bool := false
  alertN : Bool := false
  serdesIdle : Bool := false
  memReset : Bool := false
  xspiHiZ : Bool := false
  /-- WP_N of the NAND channels is driven high (R590). -/
  wpN : Bool := false
  rstN : Bool := false
  deriving DecidableEq, Repr

/-- The record window of one manager (R610). -/
structure Window where
  sel : W64 := 0
  data : List Byte := []
  entry : Nat := 0
  bad : Bool := false
  valid : Bool := false
  deriving DecidableEq, Repr

structure Switch where
  subs : Tab SubPort := []
  bufferCtl : W64 := 0x0101064307D0
  discard : Nat := 0
  ipv6 : Tab (BitVec 64) := []
  neighbours : Tab W64 := []
  fwd : Tab W64 := []
  lanes : Tab W64 := []
  /-- Frames consumed by the device that are left at ingress, and whether they are charged to headroom (R227, R557). -/
  atIngress : List (Hdr × Bool) := []
  /-- Requests, by source and tag, that the device consumed above its ECN threshold and has not answered yet (R71, R569). -/
  marks : List (Aid × W32) := []
  /-- Wall time that the last PTP message set, and when that was (R571). -/
  wallSec : Nat := 0
  wallNs : Nat := 0
  wallAt : Nat := 0
  wallSync : Bool := false
  epochs : W32 := 0
  deriving DecidableEq, Repr

/-- The whole block. -/
structure State where
  now : Nat := 0
  coreCyc : Nat := 0
  free : Nat := 0
  withdrawn : Bool := false
  pins : Pins := {}
  boot : Boot := {}
  sec : Security := {}
  switch : Switch := {}
  store : Store := {}
  reqs : Requests := {}
  dir : Directory := {}
  comps : Comps := {}
  sky : Sky := {}
  movers : Movers := {}
  grid : Grid := {}
  emb : Emb := {}
  indexes : Tab Attached := []
  ckpt : Ckpt := {}
  health : Health := {}
  blocks : Tab Block := []
  power : Power := {}
  windows : Tab Window := []
  /-- Commands waiting, first in, first out. -/
  pending : List Instr := []
  deriving DecidableEq, Repr

/-- The state right after reset: every output idle and the start sequence still to come (R446, R486). -/
def State.reset : State :=
  { boot := { inReset := true }
    pins := { serdesIdle := true, memReset := true, xspiHiZ := true } }

end Sys2Proof.Machine
end

