-- ==== Sys2Proof/Machine/Flags.lean ====
section
/-! DEFINITION. Flags and sums of the exact-sum accumulators (R264, R265, R308) and their limb form (R267, R268). The manual
gives the grid no condition flags (R276, R298); these four sticky flags are its only ones. -/
namespace Sys2Proof.Machine

/-- Units of 2^-288 that a finite number stands for; exact for every addend and product that R264 admits. -/
def accUnits (neg : Bool) (m : Nat) (e : Int) : Int :=
  signedMant neg (if 0 ≤ e + 288 then m * 2 ^ (e + 288).toNat else m / 2 ^ (-(e + 288)).toNat)

/-- Adds one addend or product: a finite one to the value modulo 2^640, any other to its flag (R264, R265). -/
def AccReg.add (a : AccReg) (x : Num) : AccReg :=
  match x with
  | .nan => { a with nan := true }
  | .inf neg => if neg then { a with negInf := true } else { a with posInf := true }
  | .fin neg m e => { a with value := a.value + BitVec.ofInt 640 (accUnits neg m e) }

def AccReg.addAll (a : AccReg) (l : List Num) : AccReg := l.foldl AccReg.add a

/-- Adds one product of two operands: an operand that is an infinity sets the flag of its own sign (R265). -/
def AccReg.addProduct (a : AccReg) (k : Int) (p : Num × Num) : AccReg :=
  match p.1, p.2 with
  | .fin s m e, .fin t n f => a.add (.fin (s != t) (m * n) (e + f + k))
  | .fin _ _ _, y => a.add y
  | x, .fin _ _ _ => a.add x
  | x, y => (a.add x).add y

/-- An operand whose product is not added: it sets its flag, if it has one (R265). -/
def AccReg.note (a : AccReg) (x : Num) : AccReg :=
  match x with
  | .fin _ _ _ => a
  | y => a.add y

/-- The number an accumulator reads as, its poison flag apart (R308). -/
def AccReg.num (a : AccReg) : Num :=
  if a.nan || (a.posInf && a.negInf) then .nan
  else if a.posInf then .inf false
  else if a.negInf then .inf true
  else .fin (decide (a.value.toInt < 0)) a.value.toInt.natAbs (-288)

/-- The accumulator rounded to a type: +0 for a zero value (R308). -/
def AccReg.rounded (a : AccReg) (ty : ElemTy) (rm : Round) : Nat := encodeFloat ty rm false a.num

def flagBits (a : AccReg) : Nat := ofBits [a.nan, a.posInf, a.negInf, a.poison]

/-- Limb form (R267). -/
def AccReg.limbs (a : AccReg) : List Byte :=
  (List.range 12).flatMap (fun i => leBytes 8 (bitsOf a.value.toNat (56 * i) (if i = 11 then 24 else 56))) ++
    [a.nan, a.posInf, a.negInf, a.poison].flatMap (fun b => leBytes 2 (if b then 1 else 0)) ++ leBytes 8 1 ++ zeros 16

/-- Sum of the limbs of a form, each at its weight (R268). -/
def limbSum (l : List Byte) : Nat := (List.range 12).foldl (fun n i => n + fieldLe l (8 * i) 8 * 2 ^ (56 * i)) 0

/-- Import of a limb form (R268): a count above 128 sets the poison flag. -/
def AccReg.importLimbs (a : AccReg) (l : List Byte) : AccReg :=
  { value := a.value + BitVec.ofNat 640 (limbSum l)
    nan := a.nan || decide (fieldLe l 96 2 ≠ 0)
    posInf := a.posInf || decide (fieldLe l 98 2 ≠ 0)
    negInf := a.negInf || decide (fieldLe l 100 2 ≠ 0)
    poison := a.poison || decide (fieldLe l 102 2 ≠ 0) || decide (128 < fieldLe l 104 8) }

end Sys2Proof.Machine
end

