-- ==== Sys2Proof/Config.lean ====
section
/-! DEFINITION. What the model leaves to an implementation: values the manual leaves open and functions that it takes from
other standards. Each is a constant without a body, so a statement holds whatever its values are. -/
namespace Sys2Proof

/-- The n-th draw of the SP 800-90A random bit generator, 512 bits (R539). -/
opaque Config.draw : Nat → BitVec 512

/-- SHAKE256 with 512 bits of output, of FIPS 202 (R523, R527). -/
opaque Config.shake512 : List Byte → BitVec 512

/-- The ROM's 64-byte identifier for stepping A0 (R527). -/
opaque Config.romId : BitVec 512

/-- RFC 3394 AES key unwrap of 40 bytes under a wrapping key of 256 bits; none where its check fails (R514, R531). -/
opaque Config.unwrap : BitVec 256 → List Byte → Option (BitVec 256)

/-- KMAC256 with 256 bits of output, of NIST SP 800-185: key, message and customisation string (R532, R533). -/
opaque Config.kmac : BitVec 256 → List Byte → List Byte → BitVec 256

/-- The 64-byte public key that an identity seed yields: of the identity key itself, or of an attestation key by its number
(R515, R516, R528). -/
opaque Config.xmssPublic (seed : Nat) (key : Option Nat) : BitVec 512

/-- The signature of a message by one of those keys with one of its indices (R516). -/
opaque Config.xmssSign (seed : Nat) (key : Option Nat) (index : Nat) (message : List Byte) : List Byte

/-- The nodes of levels 20 to 10 of the tree of the identity key that a seed yields, by their number, level 20 first (R522). -/
opaque Config.identityNode (seed node : Nat) : BitVec 256

/-- The logic BIST signature of a good core of the stepping, as the ROM holds it (R496). -/
opaque Config.goldenSignature : W64

/-- Whether a signature under a parameter set verifies for a message and a 64-byte public key, as RFC 8391 and SP 800-208 define it
(R516). -/
opaque Config.xmssVerify (set : Nat) (key : BitVec 512) (message signature : List Byte) : Bool

/-- The fixed hash of source AID, destination AID and CID that is the UDP source port of a frame (R64). -/
opaque Config.udpHash : Aid → Aid → Cid → BitVec 16

/-- The LDPC parity of a flash codeword, over what precedes it: the manual gives no code (R587). -/
opaque Config.ldpc : List Byte → List Byte

/-- Whether a NAND die, by channel and number, supports the suspension of a program (R590). -/
opaque Config.suspends (channel die : Nat) : Bool

/-- The 64 bytes that a line holds once it could not be corrected (R573, R574). -/
opaque Config.garbled : Nat → BitVec 512

/-- Whether a region of another device is a Coherent-mode region: the manual gives the device no way to know it (R142,
R255). -/
opaque Config.remoteCoherent : Handle → Bool

/-- Choices that the manual leaves unspecified, by number (R226). -/
opaque Config.pick : Nat → Bool

/-- The 8-bit lookup-table entry of a query's part and the centroid that a code names for it (R342, R367). It rests on the query's
bytes, the codebook's bytes and the shape in which both are read, as its scale does. -/
opaque Config.searchTable (query codebook : List Byte) (shape : Nat) (part centroid : List Byte) : Byte

/-- Scale and bias of a query's approximate scores, as FP32 (R367). -/
opaque Config.searchMap (query codebook : List Byte) (shape : Nat) : W32 × W32

/-- Whether an entry has a property for which its page-table format names no bit: 0 present, 1 writable, 2 leaf (R217). -/
opaque Config.noneHolds : Nat → Bool

/-- The neighbour lists that link an inserted node, by its id and the seq of its insert, into a GRAPH index (R357). -/
opaque Config.graphLinks (id seq : Nat) : List (Nat × List Nat)

end Sys2Proof
end

