-- ==== Sys2Proof/Machine/Ops.lean ====
section
/-! DEFINITION. Named operations over the state that every family shares: status codes, local time and meters, counters,
composition and region tables, the store's bytes and poison bits, and the frames that the device sends. -/
namespace Sys2Proof

/-- The frame arrived with congestion experienced, in its header or in its IPv6 header (R71). -/
def Hdr.congested (h : Hdr) : Bool :=
  h.ce || match h.encap with
    | .udp _ ip => decide (ip.ecn = 3)
    | .layer2 _ => false

end Sys2Proof
namespace Sys2Proof.Machine

/-! ### Status codes (R101) -/

abbrev stOk : Byte := 0x00
abbrev stPoison : Byte := 0x01
abbrev stBounds : Byte := 0x02
abbrev stDenied : Byte := 0x03
abbrev stInvalid : Byte := 0x04
abbrev stUnsupported : Byte := 0x05
abbrev stAlign : Byte := 0x06
abbrev stBusy : Byte := 0x07
abbrev stNoSpace : Byte := 0x08
abbrev stNotOwner : Byte := 0x09
abbrev stExpired : Byte := 0x0A
abbrev stHandoffPending : Byte := 0x0B
abbrev stSuperseded : Byte := 0x0C
abbrev stNotPresent : Byte := 0x0D
abbrev stAborted : Byte := 0x0E
abbrev stNotAdmitted : Byte := 0x0F
abbrev stRefused : Byte := 0x10
abbrev stStepMismatch : Byte := 0x11

/-! ### Sizes -/

def kib : Nat := 1024
def mib : Nat := 1048576
def chunkBytes : Nat := 2097152
def maxU64 : Nat := 2 ^ 64 - 1

/-! ### The device's own identity and configuration -/

def State.aid (s : State) : Aid := s.boot.cfg.device.aid

/-- A device that has withdrawn serves nothing more until the next whole-device reset (R13). -/
def State.serving (s : State) (k : State → State) : State := if s.withdrawn then s else k s

/-- The device processes frames and commands: it is neither withdrawn (R13) nor in whole-device reset (R487). -/
def State.inService (s : State) : Bool := !s.withdrawn && !s.boot.inReset

def State.portCfg (s : State) (p : Nat) : PortCfg := nth {} s.boot.cfg.ports p

/-- The PCP of a class under the map of the DEVICE section (R75, R455). -/
def State.pcpControl (s : State) : Nat := s.boot.cfg.device.pcpControl
def State.pcpReplica (s : State) : Nat := s.boot.cfg.device.pcpReplica
def State.pcpEspresso (s : State) : Nat := s.boot.cfg.device.pcpEspresso
def State.pcpBulk (s : State) : Nat := s.boot.cfg.device.pcpBulk

/-! ### Counters (R502, R503) -/

def counterKey (cls unit ctr : Nat) : Nat := cls * 2 ^ 24 + unit * 2 ^ 8 + ctr

def State.counter (s : State) (cls unit ctr : Nat) : Nat := s.health.counters.get 0 (counterKey cls unit ctr)

/-- Adds `n` to an event counter, saturating at 2^64 - 1 (R502). -/
def State.bumpBy (s : State) (cls unit ctr n : Nat) : State :=
  { s with health := { s.health with
      counters := s.health.counters.mod 0 (counterKey cls unit ctr) fun v => min maxU64 (v + n) } }

def State.bump (s : State) (cls unit ctr : Nat) : State := s.bumpBy cls unit ctr 1

/-- Sets a level counter. -/
def State.setLevel (s : State) (cls unit ctr v : Nat) : State :=
  { s with health := { s.health with counters := s.health.counters.set 0 (counterKey cls unit ctr) v } }

/-! ### Compositions -/

def State.compAt (s : State) (e : Nat) : Comp := s.comps.entries.get {} e

def State.setComp (s : State) (e : Nat) (c : Comp) : State :=
  { s with comps := { s.comps with entries := s.comps.entries.set {} e c } }

def State.modComp (s : State) (e : Nat) (f : Comp → Comp) : State := s.setComp e (f (s.compAt e))

/-- Entry index of the composition that a cid names, when it is ACTIVE or RELEASING. -/
def State.compIdx (s : State) (cid : Cid) : Option Nat :=
  (s.comps.entries.find? fun e => decide (e.2.cid = cid) && decide (e.2.state ≠ .free)).map (·.1)

/-- Entry index of an ACTIVE composition. -/
def State.activeIdx (s : State) (cid : Cid) : Option Nat :=
  (s.comps.entries.find? fun e => decide (e.2.cid = cid) && decide (e.2.state = .active)).map (·.1)

def Comp.coherencePcp (c : Comp) : Nat := bitsOf c.modes.toNat 2 3

/-- The gen is accepted: G, or F while F differs from G and is not being retired (R423, R425). -/
def Comp.accepts (c : Comp) (g : Gen) : Bool :=
  decide (g = c.gen) || (decide (g = c.genFloor) && decide (c.genFloor ≠ c.gen) && !c.retiring)

/-- Ordering mode for a generation: PAIR_ORDERED (R122, R423). -/
def Comp.pairOrdered (c : Comp) (g : Gen) : Bool :=
  if g = c.gen then c.modes.getLsbD 0 else c.modes.getLsbD 1

def Comp.agent (c : Comp) (a : Aid) : Option Agent := c.agents.find? fun x => decide (x.aid = a)

/-- The agent is in the set without the dead flag (R427). -/
def Comp.member (c : Comp) (a : Aid) : Bool :=
  match c.agent a with
  | some x => !x.dead
  | none => false

def Comp.isReadOnly (c : Comp) (a : Aid) : Bool :=
  match c.agent a with
  | some x => x.readOnly
  | none => false

/-- The step of the composition is fenced (R397). -/
def Comp.fenced (c : Comp) : Bool := decide (c.stepState = .eclipsing) || decide (c.stepState = .fenced)

/-- A journalled step is open, or is being eclipsed (R163). -/
def Comp.journalledStep (c : Comp) : Bool :=
  decide (c.stepState = .open_) || (decide (c.stepState = .eclipsing) && !c.unjournalled)

/-- Step number carried by replica frames: the open step, or 0 in CLOSED and SEALED (R397). -/
def Comp.replicaStep (c : Comp) : W32 :=
  match c.stepState with
  | .open_ | .unjournalled => c.openStep
  | _ => 0

/-! ### Regions -/

def State.region (s : State) (i : Nat) : Region := s.store.regions.get {} i

def State.setRegion (s : State) (i : Nat) (r : Region) : State :=
  { s with store := { s.store with regions := s.store.regions.set {} i r } }

def State.modRegion (s : State) (i : Nat) (f : Region → Region) : State := s.setRegion i (f (s.region i))

/-- Placement classes of R31. -/
abbrev clsNear : Nat := 0
abbrev clsFar : Nat := 1
abbrev clsDeep : Nat := 2

def handleAid (h : Handle) : Aid := h.extractLsb' 24 16
def handleIndex (h : Handle) : Nat := (h.extractLsb' 0 24).toNat
def mkHandle (a : Aid) (i : Nat) : Handle := a ++ BitVec.ofNat 24 i

def State.regionHandle (s : State) (i : Nat) : Handle := mkHandle s.aid i

/-- The AIDs for which the device answers: its own and the adopted ones (R18, R411). -/
def State.answersTo (s : State) (a : Aid) : Bool :=
  decide (a = s.aid) || s.comps.adopted.any fun x => decide (x.1 = a)

/-- Index of the record behind a handle: the device's own region, or the copy that stands in for a failed member's region
(R411). -/
def State.localRegion (s : State) (h : Handle) : Option Nat :=
  if handleIndex h = 0 then none
  else if handleAid h = s.aid then some (handleIndex h)
  else (s.comps.adopted.find? fun x => decide (x.1 = handleAid h) && decide (x.2.1 = handleIndex h)).map (·.2.2)

/-- The region is ASSIGNED to the cid (R26, R427). -/
def State.assignedTo (s : State) (h : Handle) (cid : Cid) : Bool :=
  match s.localRegion h with
  | some i => decide ((s.region i).state = .assigned) && decide ((s.region i).cid = cid)
  | none => false

/-- Accesses admitted and not completed that name a region, an OWN_GIVE that waits among them (R31, R434). -/
def State.inflight (s : State) (i : Nat) : Nat :=
  (s.reqs.held.filter fun a => decide (a.region = i)).length +
    (s.reqs.waiting.filter fun w => decide (w.give.map (·.1) = some i)).length

/-! ### Redundancy groups -/

def State.groupOf (s : State) (i : Nat) : Group := s.comps.groups.get {} (s.region i).group.toNat

def State.setGroup (s : State) (k : Nat) (g : Group) : State :=
  { s with comps := { s.comps with groups := s.comps.groups.set {} k g } }

def Group.hasFailed (g : Group) (p : Nat) : Bool := g.failed.contains p

/-- Position of a member region of a device in a group. -/
def Group.positionOf (g : Group) (a : Aid) (i : Nat) : Option Nat :=
  (g.members.zipIdx.find? fun m => decide (m.1.aid = a) && decide (m.1.region = i)).map (·.2)

/-! ### The store's bytes and poison bits -/

def storeKey (region off : Nat) : Nat := region * 2 ^ 48 + off
def lineKey (region line : Nat) : Nat := region * 2 ^ 42 + line
def spanKey (region chunk : Nat) : Nat := region * 2 ^ 27 + chunk
def sectorKey (region sector : Nat) : Nat := region * 2 ^ 36 + sector

/-- One byte of a region; a byte that nothing has written reads as zero (R30, R37). -/
def State.byte (s : State) (region off : Nat) : Byte := Tab.get 0 s.store.mem (storeKey region off)

def readBytes (s : State) (region : Nat) : Nat → Nat → List Byte
  | _, 0 => []
  | off, n + 1 => s.byte region off :: readBytes s region (off + 1) n

def writeMem (region : Nat) : Nat → List Byte → List Host.Cell → List Host.Cell
  | _, [], m => m
  | off, b :: t, m => writeMem region (off + 1) t (Tab.set 0 m (storeKey region off) b)

def State.writeBytes (s : State) (region off : Nat) (l : List Byte) : State :=
  { s with store := { s.store with mem := writeMem region off l s.store.mem } }

/-- The canonical form of the store's bytes. -/
def Memory.wf (m : List Host.Cell) : Bool := Tab.wf (0 : Byte) m

def State.poisoned (s : State) (region line : Nat) : Bool := s.store.poison.get false (lineKey region line)

def State.setPoison (s : State) (region line : Nat) (b : Bool) : State :=
  { s with store := { s.store with poison := s.store.poison.set false (lineKey region line) b } }

/-- Lines that a range touches. -/
def linesOf (off n : Nat) : Nat := if n = 0 then 0 else (off + n - 1) / 64 - off / 64 + 1

/-- A write within one line: it clears the poison bit only when it covers all 64 bytes (R137). A PARITY_DELTA of 64 bytes adds to the
check line instead of replacing it; the manual does not say whether it is such a write, and it counts as one here (DESIGN CHOICE, log
entry 98). -/
def State.writeLinePart (s : State) (region off : Nat) (l : List Byte) : State :=
  let s' := s.writeBytes region off l
  if l.length = 64 then s'.setPoison region (off / 64) false else s'

/-- Drops every byte, poison bit, span owner and sector of a region (R438). -/
def State.wipeRegion (s : State) (i : Nat) : State :=
  { s with store := { s.store with
      mem := Tab.drop s.store.mem (storeKey i 0) (storeKey (i + 1) 0)
      poison := s.store.poison.drop (lineKey i 0) (lineKey (i + 1) 0)
      spans := s.store.spans.drop (spanKey i 0) (spanKey (i + 1) 0)
      sectors := s.store.sectors.drop (sectorKey i 0) (sectorKey (i + 1) 0) } }

/-! ### Local time and meters (R440) -/

/-- Quarter cycles of the core clock per ns at a throttle step: 1.75 GHz down to 0.75 GHz in steps of 0.25 GHz (R624). -/
def quartersPerNs (step : Nat) : Nat := 7 - min step 4

/-- Bytes of NEAR_PIN regions ASSIGNED to a cid, its journal reservation, and 4 KiB for each scheduled-held sector of its
promotion transits (R440). -/
def State.hbmCharge (s : State) (c : Comp) : Nat :=
  let regions := s.store.regions.foldl (fun n e =>
    if e.2.state = .assigned ∧ e.2.cid = c.cid ∧ e.2.cls = clsNear then n + e.2.size else n) 0
  let sectors := s.store.sectors.foldl (fun n e =>
    match e.2.hold with
    | .scheduled _ => if e.2.cid = c.cid then n + 4096 else n
    | _ => n) 0
  regions + c.journal + sectors

def State.slotSum (s : State) (cid : Cid) (stack : Bool) : Nat :=
  s.sky.reservations.foldl (fun n r => if r.cid = cid ∧ r.stack = stack then n + r.f else n) 0

def State.clusterCount (s : State) (cid : Cid) : Nat :=
  s.grid.clusters.foldl (fun n e =>
    if e.2.cid = cid ∧ (e.2.state = .assigned ∨ e.2.state = .releasing ∨ e.2.state = .zeroing) then n + 1 else n) 0

def State.meter (s : State) (dt : Nat) (c : Comp) : Comp :=
  if c.state = .free then c
  else { c with meters :=
    { active := c.meters.active + dt
      hbm := c.meters.hbm + dt * s.hbmCharge c
      portSlot := c.meters.portSlot + dt * s.slotSum c.cid false
      stackSlot := c.meters.stackSlot + dt * s.slotSum c.cid true
      clusters := c.meters.clusters + dt * s.clusterCount c.cid } }

/-- Local time reaches `now`: meters, core cycles and time advance. Time never goes back. -/
def State.advanceTo (s : State) (now : Nat) : State :=
  let dt := now - s.now
  if dt = 0 then s
  else { s with
    now := now
    coreCyc := s.coreCyc + dt * quartersPerNs s.power.throttle
    comps := { s.comps with entries := s.comps.entries.mapAll {} fun _ c => s.meter dt c } }

/-! ### Blocks that tests and calibrations take out of service (R491) -/

def blockKey (cls unit : Nat) : Nat := cls * 65536 + unit

def State.block (s : State) (cls unit : Nat) : Block := s.blocks.get {} (blockKey cls unit)

def State.setBlock (s : State) (cls unit : Nat) (b : Block) : State :=
  { s with blocks := s.blocks.set {} (blockKey cls unit) b }

/-- A drain of a memory block or of the device is in force (R491). -/
def State.memoryDrain (s : State) : Bool :=
  s.blocks.any fun e => decide (e.2.drain ≠ 0) && (decide (e.1 < 3 * 65536) || decide (e.1 / 65536 = 5))

/-- A drain of a port is in force. -/
def State.portDrain (s : State) (port : Nat) : Bool := decide ((s.block 4 port).drain ≠ 0)

/-! ### Frames the device sends -/

/-- Number of sub-ports of a port mode (R543). -/
def subPorts (mode : Nat) : Nat :=
  match mode with
  | 1 => 1 | 2 => 2 | 3 => 4 | 4 => 8 | 5 => 8
  | _ => 0

def subKey (port sub : Nat) : Nat := port * 8 + sub

def State.subPort (s : State) (k : Nat) : SubPort := s.switch.subs.get {} k

def State.setSub (s : State) (k : Nat) (p : SubPort) : State :=
  { s with switch := { s.switch with subs := s.switch.subs.set {} k p } }

def State.modSub (s : State) (k : Nat) (f : SubPort → SubPort) : State := s.setSub k (f (s.subPort k))

/-- The egress that a forwarding entry chooses: the primary, or the alternate while on_alt is set (R563, R564). -/
def fwdEgress (e : W64) : Nat × Nat :=
  if e.getLsbD 2 then (bitsOf e.toNat 11 5, bitsOf e.toNat 16 3) else (bitsOf e.toNat 3 5, bitsOf e.toNat 8 3)

/-- The sub-port by which a frame for an AID leaves; none where R563 discards it. `arrived` is the sub-port at which the
frame came in. -/
def State.route (s : State) (dst : Aid) (arrived : Option Nat) : Option Nat :=
  let e := s.switch.fwd.get 0 dst.toNat
  let (p, q) := fwdEgress e
  if e.getLsbD 0 && decide (some (subKey p q) ≠ arrived) && decide (q < subPorts (s.portCfg p).mode)
  then some (subKey p q) else none

/-- Counts a frame that forwarding discards in SWT_DISCARD, which saturates (R563). -/
def State.switchDiscard (s : State) : State :=
  { s with switch := { s.switch with discard := min maxU64 (s.switch.discard + 1) } }

def State.lossless (s : State) (port pcp : Nat) : Bool := (s.portCfg port).lossless.getLsbD pcp

/-- The sub-port's port requires MACsec and no secured association is live (R535). -/
def State.macClosed (s : State) (port sub : Nat) : Bool :=
  (s.portCfg port).macsec && !(s.subPort (subKey port sub)).macsecLive

/-- A MAC control frame, EtherType 0x8808, or an EAPOL frame, 0x888E (R554). -/
def OutFrame.control (f : OutFrame) : Bool :=
  match f.raw with
  | some (a :: b :: _) => decide (a = 0x88) && (decide (b = 0x08) || decide (b = 0x8E))
  | _ => false

/-- Frames that such a sub-port sends all the same: pause and EAPOL frames, opcodes 0x70 to 0x75, HOP_ACK and HOP_NAK. -/
def OutFrame.passesClosed (f : OutFrame) : Bool :=
  f.control || (f.raw.isNone && !f.v1 && (decide (0x70 ≤ f.opcode.toNat ∧ f.opcode.toNat ≤ 0x75) || decide (f.opcode = 0x7E) ||
    decide (f.opcode = 0x7F)))

/-- Counts frames lost with the link of a sub-port (R109, R490). -/
def State.linkDiscards (s : State) (k n : Nat) : State :=
  (s.modSub k fun p => { p with discardedHold := p.discardedHold + n }).bumpBy 0 (k / 8) 18 n

/-- The sub-port has lost its link and takes no frame of this PCP: its hop hold time is over, or the PCP is not lossless
(R490). -/
def State.deadEgress (s : State) (k pcp : Nat) : Bool :=
  let p := s.subPort k
  decide (p.link ≠ .up) && (p.holdExpired || (p.holdFrom.isSome && !s.lossless (k / 8) pcp))

/-- Queues a frame at a sub-port, unless R490, R491 or R535 discards it. -/
def State.enqueue (s : State) (k : Nat) (f : OutFrame) : State :=
  if s.portDrain (k / 8) then s.switchDiscard
  else if s.deadEgress k f.pcp then s.linkDiscards k 1
  else if s.macClosed (k / 8) (k % 8) && !f.passesClosed && !s.lossless (k / 8) f.pcp then s.bump 0 (k / 8) 15
  else s.modSub k fun p => { p with egress := p.egress ++ [f] }

/-- Queues a frame at the egress that the switch tables select, or discards and counts it (R563). -/
def State.send (s : State) (f : OutFrame) (arrived : Option Nat := none) : State :=
  match s.route f.dst arrived with
  | some k => s.enqueue k { f with entry := s.switch.fwd.get 0 f.dst.toNat }
  | none => s.switchDiscard

/-- The response to this request carries ece: the request arrived congested, or was marked as the device consumed it (R71). -/
def State.echoes (s : State) (h : Hdr) : Bool := h.congested || s.switch.marks.contains (h.src, h.tag)

/-- The request's mark is spent once it is answered. -/
def State.unmark (s : State) (h : Hdr) : State :=
  { s with switch := { s.switch with marks := s.switch.marks.erase (h.src, h.tag) } }

/-- The response to a request frame (R68, R71). -/
def State.respond (s : State) (h : Hdr) (opcode status : Byte) (payload : List Byte) : State :=
  (s.unmark h).send
    { opcode := opcode, resp := true, ece := s.echoes h, dst := h.src, src := h.dst, cid := h.cid, gen := h.gen
      status := status, tag := h.tag, pcp := h.pcp, payload := payload }

/-! ### The header and the trailer as bytes (R67, R94) -/

/-- Bytes after the header: the payload, and the trailer where there is one. -/
def OutFrame.lengthField (f : OutFrame) : Nat := f.payload.length + if f.counter.isSome then 40 else 0

/-- The 24 bytes of the common header. -/
def OutFrame.header (f : OutFrame) : List Byte :=
  beBytes 1 (0x20 + (if f.resp then 8 else 0) + (if f.notice then 4 else 0) + (if f.ce then 2 else 0) + (if f.ece then 1 else 0)) ++
    beBytes 1 f.opcode.toNat ++ beBytes 2 f.dst.toNat ++ beBytes 2 f.src.toNat ++ beBytes 2 f.cid.toNat ++ beBytes 1 f.gen.toNat ++
    beBytes 1 f.status.toNat ++ beBytes 2 f.lengthField ++ beBytes 4 f.tag.toNat ++ beBytes 2 f.hopSeq.toNat ++
    beBytes 2 f.hopAck.toNat ++ zeros 4

/-- The 16 bytes of a version 1 header. -/
def OutFrame.headerV1 (f : OutFrame) : List Byte :=
  beBytes 1 (0x10 + if f.resp then 8 else 0) ++ beBytes 1 f.opcode.toNat ++ beBytes 2 f.dst.toNat ++ beBytes 2 f.src.toNat ++
    beBytes 2 f.cid.toNat ++ beBytes 4 f.tag.toNat ++ beBytes 2 f.lengthField ++ beBytes 1 f.status.toNat ++ zeros 1

/-- The customisation string "TFP2 MGMT" of the trailer's tag (R532). -/
def mgmtString : List Byte := [0x54, 0x46, 0x50, 0x32, 0x20, 0x4D, 0x47, 0x4D, 0x54]

/-- The key that the device shares with a registered manager. -/
def State.managerKey (s : State) (m : Aid) : BitVec 256 :=
  ((s.boot.cfg.managers.find? fun x => decide (x.aid = m)).map (·.key)).getD 0

/-- Ends a frame to a manager in its trailer: the counter, and the tag over the header with zero hop fields, the payload and the
counter (R94, R532). -/
def State.sealed (s : State) (f : OutFrame) (n : W64) : OutFrame :=
  let f := { f with counter := some n }
  { f with mac := Config.kmac (s.managerKey f.dst) (f.header ++ f.payload ++ beBytes 8 n.toNat) mgmtString }

/-- Takes the next value of the device's own frame counter (R532). -/
def State.nextCounter (s : State) : W64 × State :=
  let n := s.sec.sentCounter + 1
  (BitVec.ofNat 64 n, { s with sec := { s.sec with sentCounter := n } })

/-- The response to an authenticated frame ends in a trailer of its own (R94). -/
def State.respondAuth (s : State) (h : Hdr) (opcode status : Byte) (payload : List Byte) : State :=
  let (n, s) := s.nextCounter
  (s.unmark h).send (s.sealed
    { opcode := opcode, resp := true, ece := s.echoes h, dst := h.src, src := h.dst, cid := h.cid, gen := h.gen
      status := status, tag := h.tag, pcp := h.pcp, payload := payload } n)

/-- Pads or cuts a body to 56 bytes. -/
def body56 (l : List Byte) : List Byte := sliceBytes l 0 56

/-- The pcp of frames that the device originates for a composition's coherence (R142). -/
def State.coherencePcp (s : State) (cid : Cid) : Nat :=
  match s.compIdx cid with
  | some e => (s.compAt e).coherencePcp
  | none => 0

def State.genOf (s : State) (cid : Cid) : Gen :=
  match s.compIdx cid with
  | some e => (s.compAt e).gen
  | none => 0

/-- Sends a MGMT_NOTICE to every registered manager whose forwarding entry is installed, under one sequence number
(R100, R475). `cid` is the composition that the notice concerns (R67). -/
def State.notice (s : State) (code : Nat) (body : List Byte) (cid : Cid := 0) : State :=
  let seq := s.comps.noticeSeq + 1
  let s := { s with comps := { s.comps with noticeSeq := seq } }
  s.boot.cfg.managers.foldl (fun s m =>
    if s.boot.installed.contains m.aid then
      let (n, s) := s.nextCounter
      s.send (s.sealed
        { opcode := 0x73, notice := true, dst := m.aid, src := s.aid, cid := cid, gen := s.genOf cid, pcp := s.pcpControl
          payload := beBytes 2 code ++ zeros 2 ++ beBytes 4 seq.toNat ++ body56 body } n)
    else s) s

/-! ### Alerts (R507, R508, R510) -/

/-- The magnitude that HLT_MAGNITUDE shows: 0xFFFF while unrated, for 1,440 powered minutes (R506). -/
def State.magnitudeOf (s : State) (cls unit : Nat) : Nat :=
  if s.health.minutes < 1440 then 0xFFFF else (s.health.scores.get {} (cls * 65536 + unit)).magnitude

def State.bandOf (s : State) (cls unit : Nat) : Nat :=
  if s.health.minutes < 1440 then 0 else (s.health.scores.get {} (cls * 65536 + unit)).band

/-- The body of an ALERT notice (R508). -/
def State.alertBody (s : State) (cls unit ctr reason : Nat) : List Byte :=
  beBytes 1 cls ++ beBytes 1 reason ++ beBytes 2 unit ++ beBytes 1 ctr ++ beBytes 1 (s.bandOf cls unit) ++ zeros 2 ++
    beBytes 8 (s.counter cls unit ctr) ++ beBytes 2 (s.magnitudeOf cls unit)

/-- ALERT_N is asserted while an immediate event is unread, a unit is FAILING, or a withdrawal, a hardware start fault or an
expulsion holds it (R510). -/
def State.settleAlert (s : State) : State :=
  { s with pins := { s.pins with alertN :=
      s.health.alert.valid || (s.health.scores.any fun e => decide (e.2.band = 3)) || s.withdrawn || s.boot.hwFault ||
        s.comps.selfExpelled } }

/-- Records an immediate event in HLT_ALERT unless one is unread (R510). -/
def State.latchAlert (s : State) (cls unit ctr : Nat) : State :=
  if s.health.alert.valid then s
  else State.settleAlert { s with health := { s.health with alert := { cls := cls, unit := unit, counter := ctr, valid := true } } }

/-- An immediate event: at most one notice for a unit in each minute (R507). -/
def State.alertNow (s : State) (cls unit ctr : Nat) : State :=
  let s := s.latchAlert cls unit ctr
  if s.health.noticed.contains (cls, unit) then s
  else
    State.notice { s with health := { s.health with noticed := s.health.noticed ++ [(cls, unit)] } } 0x0004
      (s.alertBody cls unit ctr 2)

/-- Counts an event whose every increment alerts at once (R507). -/
def State.bumpAlert (s : State) (cls unit ctr : Nat) : State := (s.bump cls unit ctr).alertNow cls unit ctr

/-! ### Free values -/

/-- The next number that names a free value. -/
def State.fresh (s : State) : Nat × State := (s.free, { s with free := s.free + 1 })

/-! ### Violations (R431) -/

/-- Counts a violation of an ACTIVE entry, with its source, port and reason; without an entry, in the device's counter. -/
def State.violation (s : State) (cid : Cid) (src : Aid) (port reason : Nat) : State :=
  match s.activeIdx cid with
  | some e => s.modComp e fun c => { c with
      violations := min maxU64 (c.violations + 1), lastSrc := src, lastPort := BitVec.ofNat 8 port
      lastReason := BitVec.ofNat 8 reason }
  | none => s.bump 11 0 0

end Sys2Proof.Machine
end

