-- ==== Sys2Proof/Machine/Directory.lean ====
section
/-! DEFINITION. The directory (05): home slices, entries, exclusive lists, snoops and the transitions that wait for their
answers. -/
namespace Sys2Proof.Machine

/-- The name under which the directory tracks a region's lines: at a parity stand-in the lines of a failed position, which lie on the
same check region, go by it too (R411). -/
def dirRegion (region : Nat) (position : Option Nat) : Nat :=
  match position with
  | none => region
  | some p => region + 2 ^ 24 * (p + 1)

/-- The region index behind such a name, and the failed position, if any. -/
def regionOfDir (n : Nat) : Nat := n % 2 ^ 24
def positionOfDir (n : Nat) : Option Nat := if n < 2 ^ 24 then none else some (n / 2 ^ 24 - 1)

/-- Home slice of line `l` of region index `idx` (R144). -/
def homeSlice (l idx : Nat) : Nat := (l % 16) ^^^ (l / 16 % 16) ^^^ (l / 256 % 16) ^^^ (idx % 16)

/-- Sets per slice (R145). -/
def State.dirSets (s : State) : Nat := s.boot.cfg.carve.dirBacking / 4096

def dirSetOf (sets l idx : Nat) : Nat := ((l / 16) ^^^ (idx * 64)) % sets

/-- Key of an entry: slice, and the slice-local index 8 · set + way (R146). -/
def dirKey (slice set way : Nat) : Nat := slice * 2 ^ 32 + 8 * set + way

def State.dirEntry (s : State) (k : Nat) : DirEntry := s.dir.entries.get {} k

def State.setDir (s : State) (k : Nat) (e : DirEntry) : State :=
  { s with dir := { s.dir with entries := s.dir.entries.set {} k e } }

/-- Sets the clock hand of a set (R157). -/
def State.setHand (s : State) (k way : Nat) : State :=
  { s with dir := { s.dir with hands := s.dir.hands.set 0 k way } }

/-- Keys of the eight ways of a line's set. -/
def State.waysOf (s : State) (region line : Nat) : List Nat :=
  (List.range 8).map fun w => dirKey (homeSlice line region) (dirSetOf s.dirSets line region) w

/-- The entry that tracks a line. -/
def State.findEntry (s : State) (region line : Nat) : Option Nat :=
  (s.waysOf region line).find? fun k =>
    let e := s.dirEntry k
    decide (e.state ≠ .free) && decide (e.region = region) && decide (e.line = line)

/-- Head of the exclusive list of a composition entry in a slice: 0 for none, else the entry's key plus one (R146). -/
def listKey (slice comp : Nat) : Nat := slice * 1024 + comp

/-- Takes an entry off its exclusive list. -/
def State.unlink (s : State) (k : Nat) : State :=
  let e := s.dirEntry k
  let s := match e.prev with
    | some p => s.setDir p { s.dirEntry p with next := e.next }
    | none =>
      { s with dir := { s.dir with heads := s.dir.heads.mapAll 0 fun _ v =>
          if v = k + 1 then (match e.next with
            | some n => n + 1
            | none => 0) else v } }
  let s := match e.next with
    | some n => s.setDir n { s.dirEntry n with prev := e.prev }
    | none => s
  s.setDir k { s.dirEntry k with prev := none, next := none }

/-- Puts an entry at the head of its composition's exclusive list. -/
def State.linkExclusive (s : State) (k : Nat) : State :=
  match s.compIdx (s.dirEntry k).cid with
  | none => s
  | some c =>
    let hk := listKey (k / 2 ^ 32) c
    let old := s.dir.heads.get 0 hk
    let s := { s with dir := { s.dir with heads := s.dir.heads.set 0 hk (k + 1) } }
    if old = 0 then s.setDir k { s.dirEntry k with prev := none, next := none }
    else
      let s := s.setDir (old - 1) { s.dirEntry (old - 1) with prev := some k }
      s.setDir k { s.dirEntry k with prev := none, next := some (old - 1) }

/-- Frees an entry: its line is HOME. -/
def State.freeEntry (s : State) (k : Nat) : State := State.setDir (s.unlink k) k {}

/-- Makes an entry EXCLUSIVE for an agent. -/
def State.makeExclusive (s : State) (k : Nat) (a : Aid) : State :=
  let s := if (s.dirEntry k).state = .exclusive then s.unlink k else s
  let e := s.dirEntry k
  ((s.setDir k { e with state := .exclusive, broadcast := false, busy := false, referenced := true, ptrs := [a] })).linkExclusive k

/-- An address block on the wire (R78). -/
def addrBytes (rh : Handle) (sub offset count : Nat) : List Byte :=
  beBytes 5 rh.toNat ++ beBytes 1 sub ++ beBytes 6 offset ++ beBytes 4 count

/-- Sends a request of the device's own and records it until its answer (R111). -/
def State.issue (s : State) (req : OwnReq) (f : OutFrame) : State :=
  let id := s.reqs.nextId
  let s := { s with reqs := { s.reqs with
    nextId := id + 1
    issued := s.reqs.issued ++ [Issued.mk id req f.opcode f.dst f.cid s.now false] } }
  s.send { f with tag := BitVec.ofNat 32 id, src := s.aid }

/-- The handle by which agents know the lines of a directory name: a stand-in's are those of the failed member's region (R411). -/
def State.dirHandle (s : State) (n : Nat) : Handle :=
  let g := s.groupOf (regionOfDir n)
  let member := fun p => match g.members[p]? with
    | some m => mkHandle m.aid m.region
    | none => s.regionHandle (regionOfDir n)
  match positionOfDir n with
  | some p => member p
  | none => if g.kind = 1 ∧ g.hasFailed 0 ∧ g.positionOf s.aid n = some 1 then member 0 else s.regionHandle n

/-- C_SNOOP_INV or C_SNOOP_FWD to a holder, naming the target of its data (R86, R148). -/
def State.sendSnoop (s : State) (k : Nat) (forward : Bool) (holder target : Aid) : State :=
  let e := s.dirEntry k
  s.issue (.snoop k holder)
    { opcode := if forward then 0x15 else 0x14, dst := holder, cid := e.cid, gen := s.genOf e.cid,
      pcp := s.coherencePcp e.cid,
      payload := addrBytes (s.dirHandle e.region) 0 (64 * e.line) (target.toNat * 65536) }

/-- Agents of a composition that are treated as answering NOT_PRESENT (R162). -/
def State.deadIn (s : State) (cid : Cid) (a : Aid) : Bool :=
  match s.compIdx cid with
  | some e => (s.compAt e).dead.contains a
  | none => false

/-- The agents to which an invalidation of a shared entry goes: its pointers, less the requester where the invalidation is for
its own grant (`grant`), or with broadcast the composition's agent set less the requester and the home device (R148, R156). -/
def State.sharers (s : State) (k : Nat) (grant : Bool) (requester : Option Aid) : List Aid :=
  let e := s.dirEntry k
  if e.broadcast then
    match s.compIdx e.cid with
    | some c => ((s.compAt c).agents.map (·.aid)).filter fun a => decide (a ≠ s.aid) && decide (some a ≠ requester)
    | none => []
  else if grant then e.ptrs.filter fun a => decide (some a ≠ requester)
  else e.ptrs

def State.setTransitions (s : State) (l : List Transition) : State := { s with dir := { s.dir with transitions := l } }

def State.modTransition (s : State) (k : Nat) (f : Transition → Transition) : State :=
  s.setTransitions (s.dir.transitions.map fun t => if t.key = k then f t else t)

def State.transition (s : State) (k : Nat) : Option Transition := s.dir.transitions.find? fun t => decide (t.key = k)

def State.heldAccess (s : State) (id : Nat) : Option Access := s.reqs.held.find? fun a => decide (a.id = id)

def State.setHeld (s : State) (l : List Access) : State := { s with reqs := { s.reqs with held := l } }

def State.modHeld (s : State) (id : Nat) (f : Access → Access) : State :=
  s.setHeld (s.reqs.held.map fun a => if a.id = id then f a else a)

/-- Tag of the frame of an access. -/
def Access.tag (a : Access) : W32 :=
  match a.origin with
  | .frame h _ => h.tag
  | .v1 h _ => h.tag
  | _ => 0

/-- Grant byte of R86 without its poison bit: exclusive or shared, data by C_DATA. -/
def grantByte (exclusive viaData : Bool) : Nat := (if exclusive then 1 else 0) + (if viaData then 4 else 0)

/-- C_DATA from home to a requester, with the tag of its request and the line's value (R86). -/
def State.sendCData (s : State) (a : Access) (v : List Byte) : State :=
  s.send { opcode := 0x16, notice := true, dst := a.src, src := s.aid, cid := a.cid, gen := s.genOf a.cid, tag := a.tag,
           pcp := s.coherencePcp a.cid,
           payload := addrBytes (s.dirHandle (dirRegion a.region a.position)) 0 a.offset (a.src.toNat * 65536) ++ v }

/-- Ends a transition whose snoops are answered and whose C_DATA is merged (R148, R149). A holder sends its C_DATA before its
answer, so one that has not come by then was not sent (DEDUCED, log entry 23). -/
def State.finishTransition (s : State) (k : Nat) : State :=
  match s.transition k with
  | none => s
  | some t =>
    if !t.agents.isEmpty || t.merging then s
    else
      let s := s.setTransitions (s.dir.transitions.filter fun x => decide (x.key ≠ k))
      match t.after with
      | .home | .discard => s.freeEntry k
      | .grantExclusive id via =>
        match s.heldAccess id with
        | none => s.freeEntry k
        | some a =>
          let owed := decide (via = 2) || (decide (via = 1) && !t.present)
          let g := grantByte true (decide (via ≠ 0))
          (s.makeExclusive k a.src).modHeld id fun a => { a with granted := 1 + g, owed := owed }

/-- Starts a transition: marks the entry busy and snoops the agents; a dead agent counts as NOT_PRESENT (R162). -/
def State.startTransition (s : State) (k : Nat) (forward : Bool) (agents : List Aid) (target : Aid) (after : After) : State :=
  let e := s.dirEntry k
  let live := agents.filter fun a => !s.deadIn e.cid a
  let s := s.setDir k { e with busy := true }
  let s := s.setTransitions (s.dir.transitions ++
    [{ key := k, after := after, agents := live, forward := forward, toHome := decide (target = s.aid) }])
  let s := live.foldl (fun s a => s.sendSnoop k forward a target) s
  s.finishTransition k

/-- Restores or poisons a LOST line outside a journalled step: the tier keeps the last written-back value, poisoned, and
the entry is freed (R163). Within a journalled step the line waits. -/
def State.resolveLost (s : State) (k : Nat) : State :=
  let e := s.dirEntry k
  if e.state ≠ .lost then s
  else
    let waits := match s.compIdx e.cid with
      | some c => (s.compAt c).journalledStep
      | none => false
    if waits then s else (s.setPoison (regionOfDir e.region) e.line true).freeEntry k

/-- The transition of a line is in progress, or has granted the line to a request whose grant has not gone out: what comes
later to the line waits, so that no snoop of it overtakes the grant (R143, R149). -/
def State.lineBusy (s : State) (region line : Nat) : Bool :=
  (match s.findEntry region line with
    | some k => (s.dirEntry k).busy
    | none => false) ||
  s.reqs.held.any fun a => decide (a.granted ≠ 0) && decide (dirRegion a.region a.position = region) && decide (a.offset / 64 = line)

/-- The line is LOST within a journalled step: every request to it is held until the ROLLBACK or ECLIPSE of the step restores it
(R163). -/
def State.lineLost (s : State) (region line : Nat) : Bool :=
  match s.findEntry region line with
  | some k => decide ((s.dirEntry k).state = .lost) && (match s.compIdx (s.dirEntry k).cid with
    | some c => (s.compAt c).journalledStep
    | none => false)
  | none => false

/-- Another write to the line awaits replica answers or has them and is not yet applied, or a stripe of the line is being read
(R116, R120, R406, R411). -/
def State.writeInFlight (s : State) (id region line : Nat) : Bool :=
  s.reqs.held.any fun b => decide (b.id ≠ id) && decide (b.region = region) && decide ((b.offset + b.done) / 64 = line) &&
    decide (b.kind ≠ .publish) && (!b.replicas.isEmpty || b.replicated || b.stripeRead)

/-- Brings a line HOME for a read (`write` clear) or a write at the tier by a requester; the wait where a transition or a LOST
line stands in the way (R148, R149). -/
def State.needHome (s : State) (write : Bool) (requester : Aid) (region line : Nat) : State × Option Wait :=
  if s.lineBusy region line then (s, some (.line region line))
  else
  match s.findEntry region line with
  | none => (s, none)
  | some k =>
    let s := s.resolveLost k
    let e := s.dirEntry k
    let snoop := fun (forward : Bool) (agents : List Aid) =>
      let s := s.startTransition k forward agents s.aid .home
      if (s.findEntry region line).isSome then (s, some (.line region line)) else (s, none)
    match e.state with
    | .free => (s, none)
    | .lost => (s, some (.line region line))
    | .shared => if write then snoop false (s.sharers k false (some requester)) else (s, none)
    | .exclusive => snoop (!write) e.ptrs

/-- Rank of a victim: SHARED before SHARED with broadcast before EXCLUSIVE (R157). -/
def victimRank (e : DirEntry) : Nat :=
  match e.state with
  | .shared => if e.broadcast then 1 else 0
  | _ => 2

/-- An entry for a line: a FREE way, or the victim of a clock sweep, recalled first (R157). While a recall of the set runs
and the access already waits for the set, no further victim is taken; a line whose grant has still to go out, or that a write in flight
holds, is none, so that no snoop of it overtakes the grant (R143). The manual says when a referenced flag is cleared and not
when it is set: here it is set at allocation and at every grant. Nor does it say where a sweep starts: each set keeps a hand,
which a choice moves to the way after the victim (both DESIGN CHOICE, log entry 83). -/
def State.allocEntry (s : State) (waiting : Bool) (region line : Nat) (cid : Cid) : State × Option Nat :=
  let ways := s.waysOf region line
  match ways.find? fun k => decide ((s.dirEntry k).state = .free) with
  | some k => (s.setDir k { state := .shared, referenced := true, region := region, line := line, cid := cid }, some k)
  | none =>
    if waiting && ways.any (fun k => (s.dirEntry k).busy) then (s, none)
    else
      let setKey := dirKey (homeSlice line region) (dirSetOf s.dirSets line region) 0
      let hand := s.dir.hands.get 0 setKey
      let order := (ways.drop hand ++ ways.take hand).filter fun k =>
        let e := s.dirEntry k
        !s.lineBusy e.region e.line && decide (e.state ≠ .lost) && !s.writeInFlight s.reqs.nextId (regionOfDir e.region) e.line
      let fresh := order.filter fun k => !(s.dirEntry k).referenced
      let pool := if fresh.isEmpty then order else fresh
      let best := (List.range 3).findSome? fun r => pool.find? fun k => decide (victimRank (s.dirEntry k) = r)
      match best with
      | none => (s, none)
      | some k =>
        let passed := if fresh.isEmpty then order else order.takeWhile fun j => decide (j ≠ k)
        let s := passed.foldl (fun s j => s.setDir j { s.dirEntry j with referenced := false }) s
        let s := (s.setHand setKey ((k + 1) % 8)).bump 9 (homeSlice line region) 3
        let s := s.startTransition k false (s.sharers k false none) s.aid .home
        if (s.dirEntry k).state = .free then
          (s.setDir k { state := .shared, referenced := true, region := region, line := line, cid := cid }, some k)
        else (s, none)

/-- What the directory decides for a coherence request of an agent (R148): the grant byte, and whether home sends C_DATA before it;
discard or write-back of the data; or a wait. -/
inductive CohRes where
  | grant (g : Nat) (owed : Bool)
  | discard
  | writeBack (key : Nat)
  | waits (w : Wait)
  deriving DecidableEq, Repr

/-- HOME row, and the EXCLUSIVE row of a holder that evicted silently: served with entry `k`. -/
def State.cohFromHome (s : State) (a : Access) (k : Nat) : State × CohRes :=
  match a.kind with
  | .cReadShared =>
    let s := if (s.dirEntry k).state = .exclusive then s.unlink k else s
    (s.setDir k { s.dirEntry k with state := .shared, broadcast := false, busy := false, referenced := true, ptrs := [a.src] },
      .grant (grantByte false false) false)
  | .cReadOwn => (s.makeExclusive k a.src, .grant (grantByte true false) false)
  | _ => (s.makeExclusive k a.src, .grant (grantByte true true) true)

/-- The directory's answer to C_READ_SHARED, C_READ_OWN, C_UPGRADE and C_WRITEBACK (R148). -/
def State.cohRequest (s : State) (a : Access) (line : Nat) : State × CohRes :=
  let name := dirRegion a.region a.position
  match s.findEntry name line with
  | none =>
    if a.kind = .cWriteback then (s, .discard)
    else
      let w : Wait := .dirSet (homeSlice line name) (dirSetOf s.dirSets line name)
      match s.allocEntry (decide (a.wait = some w)) name line a.cid with
      | (s, some k) => s.cohFromHome a k
      | (s, none) => (s, .waits w)
  | some k =>
    if s.lineBusy name line then (s, .waits (.line a.region line))
    else
      let s := s.resolveLost k
      let e := s.dirEntry k
      match e.state with
      | .free => (s, .waits (.line a.region line))
      | .lost => (s, .waits (.line a.region line))
      | .shared =>
        match a.kind with
        | .cReadShared =>
          let e := if e.broadcast || e.ptrs.contains a.src then e
            else if e.ptrs.length < 4 then { e with ptrs := e.ptrs ++ [a.src] } else { e with broadcast := true }
          (s.setDir k { e with referenced := true }, .grant (grantByte false false) false)
        | .cWriteback => (s, .discard)
        | kind =>
          let via := if kind = .cUpgrade ∧ ¬ e.broadcast ∧ ¬ e.ptrs.contains a.src then 2 else 0
          (s.startTransition k false (s.sharers k true (some a.src)) a.src (.grantExclusive a.id via), .waits (.line a.region line))
      | .exclusive =>
        if a.kind = .cWriteback then
          if e.ptrs = [a.src] then (s, .writeBack k) else (s, .discard)
        else if e.ptrs = [a.src] then s.cohFromHome a k
        else (s.startTransition k true e.ptrs a.src (.grantExclusive a.id 1), .waits (.line a.region line))

end Sys2Proof.Machine
end

