-- ==== Sys2Proof/Machine/Gf.lean ====
section
/-! DEFINITION. Arithmetic in GF(2^8) under polynomial 0x11D (R405). -/
namespace Sys2Proof.Machine

/-- Multiplication by 0x02. -/
def gfDouble (a : Byte) : Byte := if a.getLsbD 7 then (a <<< 1) ^^^ 0x1D else a <<< 1

def gfMulGo : Nat → Byte → Byte → Byte
  | 0, _, _ => 0
  | n + 1, a, b => (if b.getLsbD 0 then a else 0) ^^^ gfMulGo n (gfDouble a) (b >>> 1)

def gfMul (a b : Byte) : Byte := gfMulGo 8 a b

/-- α^j with α = 0x02. -/
def gfPow : Nat → Byte
  | 0 => 1
  | j + 1 => gfDouble (gfPow j)

/-- The inverse, a^254. -/
def gfInv (a : Byte) : Byte :=
  let a2 := gfMul a a
  let a4 := gfMul a2 a2
  let a8 := gfMul a4 a4
  let a16 := gfMul a8 a8
  let a32 := gfMul a16 a16
  let a64 := gfMul a32 a32
  let a128 := gfMul a64 a64
  gfMul a128 (gfMul a64 (gfMul a32 (gfMul a16 (gfMul a8 (gfMul a4 a2)))))

/-- Coefficient g_m(j) of check m for data position j (R405). -/
def parityCoeff (m j : Nat) : Byte := if m = 0 then 1 else gfPow j

def xorBytes (a b : List Byte) : List Byte := a.zipWith (· ^^^ ·) b

def scaleBytes (g : Byte) (l : List Byte) : List Byte := l.map (gfMul g)

end Sys2Proof.Machine
end

