-- ==== Sys2Proof/Machine/LineCode.lean ====
section
/-! DEFINITION. The line code of HBM and the DDR code of DRAM: a line's codeword, and how the decoders see an error, which is
the pattern that the stored codeword has suffered, by symbol (R572, R573, R582, R583; log entry 72). -/
namespace Sys2Proof.Machine

/-- An error pattern: symbol numbers and what is added to each. In the line code symbol 0 is the tag, 1 to 64 are the data
bytes and 65 to 68 the check symbols. -/
abbrev Errors := List (Nat × Byte)

/-- The syndrome of a pattern at root α^j of a code of `n` symbols, symbol 0 being the coefficient of the highest degree. -/
def syndrome (n : Nat) (e : Errors) (j : Nat) : Byte :=
  e.foldl (fun acc x => acc ^^^ gfMul x.2 (gfPow ((n - 1 - x.1) * j))) 0

/-- What a decoder answers: the correction that it applies, or none where the pattern is uncorrectable. -/
def lineDecode (e : Errors) : Option Errors :=
  let syn := (List.range 4).map (syndrome 69 e)
  if syn.all fun x => decide (x = 0) then some []
  else
    let v := syn.headD 0
    (((List.range 69).find? fun p => decide ((List.range 4).map (syndrome 69 [(p, v)]) = syn))).map fun p => [(p, v)]

/-! ### Codewords -/

/-- Coefficients of Π (x + a) over a list, lowest degree first. -/
def rootsPoly : List Byte → List Byte
  | [] => [1]
  | a :: t =>
    let p := rootsPoly t
    List.zipWith (· ^^^ ·) (0 :: p) ((p.map (gfMul a)) ++ [0])

def evalPoly (p : List Byte) (x : Byte) : Byte := p.foldr (fun c acc => c ^^^ gfMul acc x) 0

/-- The generator of the line code, lowest degree first (R572). -/
def lineGenerator : List Byte := rootsPoly [1, 2, 4, 8]

/-- One step of the division of a message by the generator: the remainder so far, highest degree first, and the next symbol. -/
def checkStep (r : List Byte) (m : Byte) : List Byte :=
  let f := r.headD 0 ^^^ m
  xorBytes (r.drop 1 ++ [0]) ((scaleBytes f lineGenerator.reverse).drop 1)

/-- The line codeword of a line: tag, data and check symbols (R572). -/
def lineCodeword (poison : Bool) (data : List Byte) : List Byte :=
  let m := (if poison then 1 else 0) :: data
  m ++ m.foldl checkStep (zeros 4)

/-! ### DDR code -/

/-- Number of the implied tag symbol: first of the 81, so that stored symbol k has number k + 1 (R582). -/
def ddrTag : Nat := 0

/-- Locator of a symbol of the DDR code. -/
def ddrLocator (k : Nat) : Byte := gfPow (80 - k)

/-- The errors in a device's eight symbols that the first eight syndromes call for: each by the polynomial that vanishes at
the locators of the other seven. -/
def deviceErrors (d : Nat) (syn : List Byte) : Errors :=
  let symbols := (List.range 8).map fun m => 8 * d + m + 1
  let all := symbols.map fun k =>
    let p := rootsPoly ((symbols.filter fun j => decide (j ≠ k)).map ddrLocator)
    let sum := (List.zipWith gfMul p syn).foldl (· ^^^ ·) 0
    (k, gfMul sum (gfInv (evalPoly p (ddrLocator k))))
  all.filter fun x => decide (x.2 ≠ 0)

/-- The correction of one device, together with at most the tag holding 0x01, that all sixteen syndromes agree with. -/
def ddrDecode (e : Errors) : Option Errors :=
  let syn := fun (x : Errors) => (List.range 16).map (syndrome 81 x)
  let tagged : List Errors := [[], [(ddrTag, 1)]]
  let tries := tagged.flatMap fun t => (List.range 10).map fun d =>
    t ++ deviceErrors d (List.zipWith (· ^^^ ·) (syn e) (syn t))
  tries.find? fun c => decide (syn c = syn e)

/-- What a pattern adds to symbol k. -/
def errorAt (e : Errors) (k : Nat) : Byte := e.foldl (fun acc x => if x.1 = k then acc ^^^ x.2 else acc) 0

/-- The 64 data bytes with a pattern added whose first data symbol has number 1. -/
def addErrors (data : List Byte) (e : Errors) : List Byte := data.zipIdx.map fun x => x.1 ^^^ errorAt e (x.2 + 1)

end Sys2Proof.Machine
end

