-- ==== Sys2Proof/Machine/Xts.lean ====
section
/-! DEFINITION. XTS-AES-256 of IEEE 1619 over whole blocks, with the cipher of FIPS 197, in which the granules of flash are
kept (R515, R540). -/
namespace Sys2Proof.Machine

/-! ### AES-256 (FIPS 197) -/

/-- The S-box, entry 0 in the lowest byte. -/
def aesSbox : Nat :=
  [0x16bb54b00f2d99416842e6bf0d89a18cdf2855cee9871e9b948ed9691198f8e1,
    0x9e1dc186b95735610ef6034866b53e708a8bbd4b1f74dde8c6b4a61c2e2578ba,
    0x08ae7a65eaf4566ca94ed58d6d37c8e779e4959162acd3c25c2406490a3a32e0,
    0xdb0b5ede14b8ee4688902a22dc4f816073195d643d7ea7c41744975fec130ccd,
    0xd2f3ff1021dab6bcf5389d928f40a351a89f3c507f02f94585334d43fbaaefd0,
    0xcf584c4a39becb6a5bb1fc20ed00d153842fe329b3d63b52a05a6e1b1a2c8309,
    0x75b227ebe28012079a059618c323c7041531d871f1e5a534ccf73f362693fdb7,
    0xc072a49cafa2d4adf04759fa7dc982ca76abd7fe2b670130c56f6bf27b777c63].foldl (fun n p => n * 2 ^ 256 + p) 0

/-- The inverse S-box, entry 0 in the lowest byte. -/
def aesInvSbox : Nat :=
  [0x7d0c2155631469e126d677ba7e042b17619953833cbbebc8b0f52aae4d3be0a0,
    0xef9cc9939f7ae52d0d4ab519a97f51605fec8027591012b131c7078833a8dd1f,
    0xf45acd78fec0db9a2079d2c64b3e56fc1bbe18aa0e62b76f89c5291d711af147,
    0x6edf751ce837f9e28535ade72274ac9673e6b4f0cecff297eadc674f4111913a,
    0x6b8a130103bdafc1020f3fca8f1e2cd00645b3b80558e4f70ad3bc8c00abd890,
    0x849d8da75746155edab9edfd5048706c92b6655dcc5ca4d41698688664f6f872,
    0x25d18b6d49a25b76b224d92866a12e084ec3fa420b954cee3d23c2a632947b54,
    0xcbe9dec444438e3487ff2f9b8239e37cfbd7f3819ea340bf38a53630d56a0952].foldl (fun n p => n * 2 ^ 256 + p) 0

def aesSub (a : Byte) : Byte := BitVec.ofNat 8 (aesSbox >>> (8 * a.toNat))
def aesInvSub (a : Byte) : Byte := BitVec.ofNat 8 (aesInvSbox >>> (8 * a.toNat))

/-- Multiplication by 0x02 under polynomial 0x11B. -/
def aesDouble (a : Byte) : Byte := if a.getLsbD 7 then (a <<< 1) ^^^ 0x1B else a <<< 1

/-- One column of MixColumns. -/
def aesMixColumn (l : List Byte) : List Byte :=
  match l with
  | [a, b, c, d] =>
    let t := a ^^^ b ^^^ c ^^^ d
    [a ^^^ t ^^^ aesDouble (a ^^^ b), b ^^^ t ^^^ aesDouble (b ^^^ c), c ^^^ t ^^^ aesDouble (c ^^^ d),
      d ^^^ t ^^^ aesDouble (d ^^^ a)]
  | _ => l

/-- One column of InvMixColumns: MixColumns after the column is scaled by 0x05 and 0x04 crosswise. -/
def aesInvMixColumn (l : List Byte) : List Byte :=
  match l with
  | [a, b, c, d] =>
    let u := aesDouble (aesDouble (a ^^^ c))
    let v := aesDouble (aesDouble (b ^^^ d))
    aesMixColumn [a ^^^ u, b ^^^ v, c ^^^ u, d ^^^ v]
  | _ => l

/-- The four columns of a state of sixteen bytes. -/
def aesColumns (f : List Byte → List Byte) (l : List Byte) : List Byte :=
  f (l.take 4) ++ f ((l.drop 4).take 4) ++ f ((l.drop 8).take 4) ++ f (l.drop 12)

/-- Byte j of the shifted rows comes from place (5 j) mod 16. -/
def aesShift (l : List Byte) : List Byte := (List.range 16).map fun j => nth 0 l (5 * j % 16)

def aesInvShift (l : List Byte) : List Byte := (List.range 16).map fun j => nth 0 l (13 * j % 16)

/-- The next eight words of the key schedule, as 32 bytes, from the last eight. -/
def aesNextKey (rcon : Byte) (k : List Byte) : List Byte :=
  let w := fun (i : Nat) => (k.drop (4 * i)).take 4
  let last := (w 7).map aesSub
  let turned := last.drop 1 ++ last.take 1
  let w0 := xorBytes (w 0) (xorBytes turned [rcon, 0, 0, 0])
  let w1 := xorBytes (w 1) w0
  let w2 := xorBytes (w 2) w1
  let w3 := xorBytes (w 3) w2
  let w4 := xorBytes (w 4) (w3.map aesSub)
  let w5 := xorBytes (w 5) w4
  let w6 := xorBytes (w 6) w5
  w0 ++ w1 ++ w2 ++ w3 ++ w4 ++ w5 ++ w6 ++ xorBytes (w 7) w6

/-- The key schedule from a key of 32 bytes, `n` further groups of eight words. -/
def aesExpand : Nat → Byte → List Byte → List Byte
  | 0, _, k => k
  | n + 1, rcon, k => k ++ aesExpand n (aesDouble rcon) (aesNextKey rcon k)

/-- Pieces of sixteen bytes. -/
def pieces : Nat → List Byte → List (List Byte)
  | 0, _ => []
  | n + 1, l => l.take 16 :: pieces n (l.drop 16)

/-- The fifteen round keys of a key of 32 bytes. -/
def aesKeys (key : List Byte) : List (List Byte) := pieces 15 (aesExpand 7 1 key)

/-- The rounds after the first key addition; the last one mixes no columns. -/
def aesRounds : List (List Byte) → List Byte → List Byte
  | [], l => l
  | [k], l => xorBytes (aesShift (l.map aesSub)) k
  | k :: t, l => aesRounds t (xorBytes (aesColumns aesMixColumn (aesShift (l.map aesSub))) k)

/-- AES-256 encryption of a block under its round keys. -/
def aesEncrypt (keys : List (List Byte)) (l : List Byte) : List Byte :=
  aesRounds (keys.drop 1) (xorBytes l (keys.headD []))

/-- The inverse rounds, round keys last to first. -/
def aesInvRounds : List (List Byte) → List Byte → List Byte
  | [], l => l
  | [k], l => xorBytes ((aesInvShift l).map aesInvSub) k
  | k :: t, l => aesInvRounds t (aesColumns aesInvMixColumn (xorBytes ((aesInvShift l).map aesInvSub) k))

/-- AES-256 decryption of a block under its round keys. -/
def aesDecrypt (keys : List (List Byte)) (l : List Byte) : List Byte :=
  let r := keys.reverse
  aesInvRounds (r.drop 1) (xorBytes l (r.headD []))

/-! ### XTS (IEEE 1619) -/

/-- A tweak, as a little-endian number, times α. -/
def xtsDouble (t : Nat) : Nat := if t.testBit 127 then (2 * t % 2 ^ 128) ^^^ 0x87 else 2 * t

/-- Blocks of a data unit under a cipher, from tweak `t` on. -/
def xtsBlocks (f : List Byte → List Byte) : Nat → Nat → List Byte → List Byte
  | 0, _, _ => []
  | n + 1, t, l =>
    let w := leBytes 16 t
    xorBytes (f (xorBytes (l.take 16) w)) w ++ xtsBlocks f n (xtsDouble t) (l.drop 16)

/-- The bytes of a key, most significant first: the data key, then the tweak key. -/
def xtsKeyBytes (key : BitVec 512) : List Byte := beBytes 64 key.toNat

/-- The first tweak of a data unit: the unit's number as a 128-bit little-endian value, encrypted under the tweak key. -/
def xtsTweak (key : BitVec 512) (unit : Nat) : Nat :=
  ofLe (aesEncrypt (aesKeys ((xtsKeyBytes key).drop 32)) (leBytes 16 unit))

def xtsEncrypt (key : BitVec 512) (unit : Nat) (l : List Byte) : List Byte :=
  xtsBlocks (aesEncrypt (aesKeys ((xtsKeyBytes key).take 32))) (l.length / 16) (xtsTweak key unit) l

def xtsDecrypt (key : BitVec 512) (unit : Nat) (l : List Byte) : List Byte :=
  xtsBlocks (aesDecrypt (aesKeys ((xtsKeyBytes key).take 32))) (l.length / 16) (xtsTweak key unit) l

end Sys2Proof.Machine
end

