-- ==== Sys2Proof/Machine/Tiers.lean ====
section
/-! DEFINITION. Tiers behind the store (02): sectors of DEEP regions in front of flash, the sector cache and the promotion
pool. The bytes of a line lie in one list whichever of HBM and DRAM holds them; a sector's state says where the device keeps it.
A sector whose only copy is in flash has no bytes there: they lie, encrypted, in the codeword of its granule. -/
namespace Sys2Proof.Machine

def State.sectorAt (s : State) (region sector : Nat) : Sector := s.store.sectors.get {} (sectorKey region sector)

def State.setSector (s : State) (region sector : Nat) (x : Sector) : State :=
  { s with store := { s.store with sectors := s.store.sectors.set {} (sectorKey region sector) x } }

/-- Logical granule of a sector of a DEEP region (02, region record; worked example). -/
def State.granule (s : State) (region sector : Nat) : Nat :=
  (nth (0, 0) (s.region region).chunks (sector / 512)).2 * 512 + sector % 512

/-- NAND channel of a logical granule (R47). -/
def nandChannel (g : Nat) : Nat := (g % 32) ^^^ (g / 32 % 32) ^^^ (g / 1024 % 32)

/-- Sets of the 16-way sector cache. -/
def State.cacheSets (s : State) : Nat := s.boot.cfg.carve.sectorCache / 65536

/-- Set of a sector: its granule modulo the number of sets (DESIGN CHOICE: the manual gives no index function). -/
def State.cacheSet (s : State) (region sector : Nat) : Nat := s.granule region sector % s.cacheSets

/-- The sector occupies a way of the sector cache: held or arriving in DRAM, or kept until its program is confirmed. -/
def Sector.inCache (x : Sector) : Bool :=
  match x.state with
  | .dram _ => true
  | .filling hbm => !hbm || x.writeback
  | .moving _ _ => true
  | .flash => x.writeback
  | _ => false

/-- The sector occupies the promotion pool of its stack, or has a place there that a promotion transit took (R43). -/
def Sector.inPool (x : Sector) : Bool :=
  match x.state, x.hold with
  | .hbm _, _ => true
  | .filling hbm, .none => hbm
  | .moving _ _, _ => true
  | _, .none => false
  | _, _ => true

def regionOfSectorKey (k : Nat) : Nat := k / 2 ^ 36
def sectorOfKey (k : Nat) : Nat := k % 2 ^ 36

/-- Keys of the sectors that occupy a set. -/
def State.setMembers (s : State) (set : Nat) : List Nat :=
  (s.store.sectors.filter fun e => e.2.inCache &&
    decide (s.cacheSet (regionOfSectorKey e.1) (sectorOfKey e.1) = set)).map (·.1)

/-- The clock hand passes a way, that of a clean sector dropped or of a dirty one written back: after as many ways as the cache has, a sweep ends, and hit counts and promotion attempts
start anew (R41, R44; DESIGN CHOICE: the manual does not say how long a sweep is). -/
def State.passWay (s : State) : State :=
  if s.store.evictions + 1 < 16 * s.cacheSets then
    { s with store := { s.store with evictions := s.store.evictions + 1 } }
  else
    { s with store := { s.store with
        sweep := s.store.sweep + 1, sweepFrom := s.now, evictions := 0
        sectors := s.store.sectors.mapAll {} fun _ x => { x with hits := 0, tried := false } } }

def State.sectorByKey (s : State) (k : Nat) : Sector := s.store.sectors.get {} k

def State.setSectorByKey (s : State) (k : Nat) (x : Sector) : State :=
  { s with store := { s.store with sectors := s.store.sectors.set {} k x } }

/-- Drops the copy of a sector in the sector cache or the promotion pool (R38). -/
def State.dropCopy (s : State) (region sector : Nat) : State :=
  { s with store := { s.store with
      mem := Tab.drop s.store.mem (storeKey region (4096 * sector)) (storeKey region (4096 * sector + 4096))
      poison := s.store.poison.drop (lineKey region (64 * sector)) (lineKey region (64 * sector + 64)) } }

/-- A way for a sector: a free one, else that of a clean sector, which is dropped (R38); else a dirty sector is written
back where its channel takes write-backs (R49), and no way is free yet (R45). The manual speaks of a clock and gives no
reference bits: of the clean sectors of the set the one with the lowest key is replaced, and of the dirty ones that with the
lowest key is written back (DESIGN CHOICE, log entry 19). -/
def State.allocWay (s : State) (region sector : Nat) : State × Bool :=
  let members := s.setMembers (s.cacheSet region sector)
  if members.length < 16 then (s, true)
  else
    match members.find? fun k => decide ((s.sectorByKey k).state = .dram false) with
    | some k =>
      let x := s.sectorByKey k
      (((s.setSectorByKey k { x with state := .flash }).dropCopy (regionOfSectorKey k) (sectorOfKey k)).passWay, true)
    | none =>
      match members.find? fun k => decide ((s.sectorByKey k).state = .dram true) &&
          !(s.store.channels.get {} (nandChannel (s.granule (regionOfSectorKey k) (sectorOfKey k)))).writeStop with
      | some k =>
        if members.any (fun j => (s.sectorByKey j).writeback) then (s, false)
        else
          let x := s.sectorByKey k
          ((s.setSectorByKey k { x with state := .flash, writeback := true }).passWay, false)
      | none => (s, false)

/-! ### Flash translation layer (R46 to R51, R586, R589) -/

/-- Key of a block of a die of a channel. -/
def nandBlockKey (channel die block : Nat) : Nat := (channel * 32 + die) * 2 ^ 24 + block

def State.nandBlock (s : State) (k : Nat) : NandBlock := s.store.blocks.get {} k

def State.setNandBlock (s : State) (k : Nat) (b : NandBlock) : State :=
  { s with store := { s.store with blocks := s.store.blocks.set {} k b } }

def State.nandChan (s : State) (ch : Nat) : NandChannel := s.store.channels.get {} ch

def State.setNandChan (s : State) (ch : Nat) (c : NandChannel) : State :=
  { s with store := { s.store with channels := s.store.channels.set {} ch c } }

def State.setMap (s : State) (t : Tab FlashEntry) : State := { s with store := { s.store with map := t } }

/-- Granules of a block: four to a page (R46, R586). -/
def State.blockGranules (s : State) : Nat := 4 * s.boot.cfg.mem.pagesPerBlock

/-- Blocks of a channel. -/
def State.channelBlocks (s : State) : Nat := s.boot.cfg.mem.dies * s.boot.cfg.mem.blocksPerDie

/-- Key of a channel's block by its number, die after die. -/
def State.blockOf (s : State) (ch n : Nat) : Nat :=
  nandBlockKey ch (n / s.boot.cfg.mem.blocksPerDie) (n % s.boot.cfg.mem.blocksPerDie)

/-- Key of the block that holds a flash map entry of a channel. -/
def State.blockAt (s : State) (ch : Nat) (e : FlashEntry) : Nat := nandBlockKey ch e.die (e.granule / s.blockGranules)

def chanOfBlock (k : Nat) : Nat := k / 2 ^ 24 / 32
/-- Health unit of a block's die: 32 × channel + die. -/
def dieOfBlock (k : Nat) : Nat := k / 2 ^ 24

/-- Blocks of a channel that hold programmed granules or are retired. -/
def State.busyBlocks (s : State) (ch : Nat) : Nat :=
  (s.store.blocks.filter fun e => decide (chanOfBlock e.1 = ch) && (decide (e.2.used ≠ 0) || e.2.retired)).length

def State.freeBlocks (s : State) (ch : Nat) : Nat := s.channelBlocks - s.busyBlocks ch

/-- Free blocks of a channel lie below a share of its blocks, in 1/1,000. -/
def State.belowShare (s : State) (ch share : Nat) : Bool := decide (s.freeBlocks ch * 1000 < s.channelBlocks * share)

/-- The free-block level of a channel, and its write-back stop (R49). -/
def State.flashLevels (s : State) (ch : Nat) : State :=
  let s := s.setLevel 5 ch 2 (s.freeBlocks ch * 1000 / max 1 s.channelBlocks)
  let c := s.nandChan ch
  let stop := s.belowShare ch 5
  let s := s.setNandChan ch { c with writeStop := stop }
  if stop && !c.writeStop then s.bump 5 ch 3 else s

/-- The block that a channel programs next: one begun, else the lowest free one (log entry 63). -/
def State.openBlock (s : State) (ch : Nat) : Option Nat :=
  match s.store.blocks.find? fun e => decide (chanOfBlock e.1 = ch) && !e.2.retired && decide (0 < e.2.used) &&
      decide (e.2.used < s.blockGranules) with
  | some e => some e.1
  | none => ((List.range s.channelBlocks).map (s.blockOf ch)).find? fun k =>
      !(s.nandBlock k).retired && decide ((s.nandBlock k).used = 0)

/-- A logical granule leaves the place that its map entry names. -/
def State.vacate (s : State) (g : Nat) : State :=
  let e := s.store.map.get {} g
  if !e.valid then s
  else
    let k := s.blockAt (nandChannel g) e
    (s.setNandBlock k { s.nandBlock k with valid := (s.nandBlock k).valid - 1 }).setMap (s.store.map.set {} g {})

/-- Place of a granule in NAND: channel, die, and granule of the die. -/
def nandPlace (ch : Nat) (e : FlashEntry) : Nat := (ch * 32 + e.die) * 2 ^ 32 + e.granule

def State.setNand (s : State) (t : Tab (List Byte)) : State := { s with store := { s.store with nand := t } }

/-- The flash codeword of a granule: its header, the encrypted line codewords, and the LDPC parity (R587). -/
def flashCodeword (g seq : Nat) (lines : List Byte) : List Byte :=
  let l := leBytes 8 g ++ leBytes 8 seq ++ lines
  l ++ sliceBytes (Config.ldpc l) 0 176

/-- Programs a logical granule on its channel, as the encrypted line codewords `lines`, and commits it to the flash map (R47,
R587). -/
def State.programGranule (s : State) (g : Nat) (lines : List Byte) : State :=
  let ch := nandChannel g
  match s.openBlock ch with
  | none => s
  | some k =>
    let s := s.vacate g
    let b := s.nandBlock k
    let s := s.setNandBlock k { b with used := b.used + 1, valid := b.valid + 1 }
    let e : FlashEntry := { valid := true, die := k / 2 ^ 24 % 32, granule := k % 2 ^ 24 * s.blockGranules + b.used }
    let s := s.setMap (s.store.map.set {} g e)
    let s := s.setNandChan ch { s.nandChan ch with programSeq := (s.nandChan ch).programSeq + 1 }
    let s := s.setNand (s.store.nand.set [] (nandPlace ch e) (flashCodeword g (s.nandChan ch).programSeq lines))
    (s.bump 6 (dieOfBlock k) 7).flashLevels ch

/-! ### Encryption (R540, R541, R587) -/

/-- The key in a copy of a slot, where the session key-encryption key unwraps it. -/
def State.unwrapCopy (s : State) (c : Option WrappedKey) : Option (BitVec 512) :=
  c.bind fun w => if s.sec.sessionKey = some w.under then some w.key else none

/-- The region's flash key, from the copy of its key slot on either I/O die (R539). -/
def State.slotKey (s : State) (region : Nat) : Option (BitVec 512) :=
  let k := s.sec.keySlots.get {} (s.region region).keySlot.toNat
  (s.unwrapCopy k.die0).or (s.unwrapCopy k.die1)

def State.flashKey (s : State) (region : Nat) : BitVec 512 := (s.slotKey region).getD 0

/-- The region's flash key has been destroyed, so its granules decrypt to nothing that the line code accepts (R541; log
entry 71). -/
def State.keyLost (s : State) (region : Nat) : Bool :=
  decide ((s.region region).keySlot ≠ 0xFFFFFFFF) && (s.slotKey region).isNone

/-- The line codewords of a sector's copy: data, check symbols and poison bits. -/
def State.sectorLines (s : State) (region sector : Nat) : List Byte :=
  (List.range 64).flatMap fun j =>
    lineCodeword (s.poisoned region (64 * sector + j)) (readBytes s region (4096 * sector + 64 * j) 64)

/-- Writes a sector's copy to flash, encrypted under the region's key with the granule's number as tweak (R540). -/
def State.programSector (s : State) (region sector : Nat) : State :=
  let g := s.granule region sector
  s.programGranule g (xtsEncrypt (s.flashKey region) g (s.sectorLines region sector))

/-- The encrypted line codewords of a granule as NAND holds them; none where no map entry is valid. -/
def State.granuleLines (s : State) (g : Nat) : Option (List Byte) :=
  let e := s.store.map.get {} g
  if e.valid then some (sliceBytes (s.store.nand.get [] (nandPlace (nandChannel g) e)) 16 4416) else none

/-- The data and the poison bits of a sector as its granule decrypts; none where there is no granule or no key. -/
def State.flashSector (s : State) (region sector : Nat) : Option (List Byte × List Bool) :=
  if s.keyLost region then none
  else
    let g := s.granule region sector
    (s.granuleLines g).map fun c =>
      let l := xtsDecrypt (s.flashKey region) g c
      ((List.range 64).flatMap fun j => sliceBytes l (69 * j + 1) 64, (List.range 64).map fun j => (nth 0 l (69 * j)).getLsbD 0)

/-- Puts what a granule decrypts to into the sector's copy. -/
def State.fillSector (s : State) (region sector : Nat) (l : List Byte × List Bool) : State :=
  l.2.zipIdx.foldl (fun s p => s.setPoison region (64 * sector + p.2) p.1) (s.writeBytes region (4096 * sector) l.1)

/-! ### Suspension (R590) -/

/-- Write-backs whose program runs on a die: their channel's next block lies there. -/
def State.programsOn (s : State) (ch die : Nat) : List Nat :=
  match s.openBlock ch with
  | none => []
  | some k =>
    if k / 2 ^ 24 % 32 ≠ die then []
    else (s.store.sectors.filter fun e => e.2.writeback &&
      decide (nandChannel (s.granule (regionOfSectorKey e.1) (sectorOfKey e.1)) = ch)).map (·.1)

/-- A read of a sector's granule suspends the programs that run on its die, where the die supports that, and each at most
once. -/
def State.suspendPrograms (s : State) (region sector : Nat) : State :=
  let g := s.granule region sector
  let die := (Tab.get ({} : FlashEntry) s.store.map g).die
  ((s.programsOn (nandChannel g) die).filter fun k => decide ((s.sectorByKey k).suspended = 0)).foldl (fun s k =>
    if Config.suspends (nandChannel g) die then s.setSectorByKey k { s.sectorByKey k with suspended := 1 } else s) s

/-- Once a read of a granule has ended, the programs that it suspended go on. -/
def State.resumePrograms (s : State) (region sector : Nat) : State :=
  let g := s.granule region sector
  ((s.programsOn (nandChannel g) (Tab.get ({} : FlashEntry) s.store.map g).die).filter fun k =>
    decide ((s.sectorByKey k).suspended = 1)).foldl (fun s k =>
      s.setSectorByKey k { s.sectorByKey k with suspended := 2 }) s

/-- The read of a sector from flash begins, into DRAM or into HBM (R38). -/
def State.startFill (s : State) (region sector : Nat) (x : Sector) (hbm : Bool) : State :=
  (s.setSector region sector { x with state := .filling hbm }).suspendPrograms region sector

/-- The retired-block level of a die (R503). -/
def State.retiredLevel (s : State) (die : Nat) : State :=
  s.setLevel 6 die 4 (s.store.blocks.filter fun e => decide (dieOfBlock e.1 = die) && e.2.retired).length

/-- Retires a block (R51, R589). -/
def State.retireBlock (s : State) (k : Nat) : State :=
  let s := s.setNandBlock k { s.nandBlock k with retired := true }
  (s.retiredLevel (dieOfBlock k)).flashLevels (chanOfBlock k)

/-- The wear levels of a die (R503). -/
def State.wearLevels (s : State) (die : Nat) : State :=
  let l := (s.store.blocks.filter fun e => decide (dieOfBlock e.1 = die)).map fun e => e.2.erases
  (s.setLevel 6 die 5 (l.foldl (· + ·) 0 / max 1 s.boot.cfg.mem.blocksPerDie)).setLevel 6 die 6 (l.foldl max 0)

def popcount : Nat → Nat → Nat
  | 0, _ => 0
  | n + 1, v => v % 2 + popcount n (v / 2)

/-- Stacks in use (R591, HBM mask). -/
def State.stacks (s : State) : List Nat := (List.range 8).filter fun k => s.boot.cfg.mem.hbmMask.getLsbD k

def roundUp (v unit : Nat) : Nat := (v + unit - 1) / unit * unit

/-- Sectors of the promotion pool on one stack (R576). -/
def State.poolSectors (s : State) : Nat :=
  if s.stacks.isEmpty then 0 else roundUp (s.boot.cfg.carve.promotion / s.stacks.length) chunkBytes / 4096

def State.poolUsed (s : State) (stack : Nat) : Nat :=
  (s.store.sectors.filter fun e => e.2.inPool && decide (e.2.stack = stack)).length

/-- Demand-held sectors of a stack, oldest hit first found (R43, R44): key and last hit. -/
def State.oldestDemand (s : State) (stack : Nat) : Option (Nat × Nat) :=
  s.store.sectors.foldl (fun best e =>
    match e.2.hold, e.2.state with
    | .demand t, .hbm _ =>
      if e.2.stack = stack then
        match best with
        | some (_, u) => if t < u then some (e.1, t) else best
        | none => some (e.1, t)
      else best
    | _, _ => best) none

/-- Demotes a promoted sector through MOVING (R38). Its way of the sector cache is claimed as the move begins, so that an
eviction runs beside it. Where the set has no way to give, the demotion goes on all the same, since R42 fixes its tick, and the
set holds one sector more until its write-back is confirmed (DESIGN CHOICE, log entry 19). -/
def State.demote (s : State) (k : Nat) : State :=
  let x := s.sectorByKey k
  match x.state with
  | .hbm d =>
    let (s, _) := s.allocWay (regionOfSectorKey k) (sectorOfKey k)
    s.setSectorByKey k { x with state := .moving false d, hold := .none }
  | _ => s

/-- The stack with the most free sectors (R44). Of stacks with equally many, which the manual leaves open, the lowest number is taken
(DESIGN CHOICE, log entry 98). -/
def State.freestStack (s : State) : Option Nat :=
  (s.stacks.foldl (fun best k =>
    let free := s.poolSectors - s.poolUsed k
    match best with
    | some (_, f) => if f < free then some (k, free) else best
    | none => some (k, free)) (none : Option (Nat × Nat))).map (·.1)

/-- Demand promotion of a sector with 16 hits in one sweep (R41, R44): to the stack with the most free sectors, or in the
place of the demand-held sector with the oldest hit when that hit came before this sweep; else skipped and counted. -/
def State.demandPromote (s : State) (region sector : Nat) : State :=
  let x := s.sectorAt region sector
  match x.state, s.freestStack with
  | .dram d, some k =>
    let x := { x with tried := true }
    let up := { x with state := .moving true d, hold := .demand s.now, stack := k }
    if s.poolUsed k < s.poolSectors then s.setSector region sector up
    else
      match s.oldestDemand k with
      | some (v, t) =>
        if t < s.store.sweepFrom then (s.demote v).setSector region sector up
        else (s.setSector region sector x).bump 2 k 6
      | none => (s.setSector region sector x).bump 2 k 6
  | _, _ => s

/-- Counts a hit of a sector (R41, R43). Each line part that an access is served from a copy counts as one hit (DESIGN CHOICE,
log entry 19). -/
def State.touchSector (s : State) (region off : Nat) : State :=
  let r := s.region region
  if r.cls ≠ clsDeep then s
  else
    let sec := off / 4096
    let x := s.sectorAt region sec
    match x.state with
    | .dram _ =>
      let s := s.setSector region sec { x with hits := x.hits + 1 }
      if r.demand && !x.tried && decide (16 ≤ x.hits + 1) then s.demandPromote region sec else s
    | .hbm _ =>
      match x.hold with
      | .demand _ => s.setSector region sec { x with hold := .demand s.now }
      | _ => s
    | _ => s

/-- A line of a DEEP region has no copy in front of flash, so the access to it is no hit (R41). -/
def State.coldSector (s : State) (region off : Nat) : Bool :=
  decide ((s.region region).cls = clsDeep) &&
  match (s.sectorAt region (off / 4096)).state with
  | .zero | .flash | .filling _ => true
  | _ => false

/-- DDR channel of a sector of the sector cache, which counts a stall (R45): the channel pairs in use in turn, as 8 KiB follow
8 KiB, with even 4 KiB pages on D0k and odd ones on D(k+8) (R576). The manual does not say which sectors lie on which pair
(DESIGN CHOICE, log entry 19). -/
def State.stallChannel (s : State) (region sector : Nat) : Nat :=
  let g := s.granule region sector
  let pairs := (List.range 8).filter fun k => decide ((nth {} s.boot.cfg.mem.ddr k).dimms ≠ 0)
  nth 0 pairs (g / 2 % max 1 pairs.length) + 8 * (g % 2)

/-- Counts that a write is held for want of a way, once for each hold (R45). -/
def State.countStall (s : State) (held : Bool) (region sector : Nat) : State :=
  if held then s else s.bump 3 (s.stallChannel region sector) 4

/-- Brings the sector of a DEEP line where the access can be served, or answers what it waits for (R38, R40, R45). `held`: the
access is already held for a way. -/
def State.sectorReady (s : State) (write held : Bool) (region off : Nat) : State × Option Wait :=
  if (s.region region).cls ≠ clsDeep then (s, none)
  else
    let sec := off / 4096
    let x := s.sectorAt region sec
    match x.state with
    | .zero =>
      if !write then (s, none)
      else
        match s.allocWay region sec with
        | (s, true) => (s.setSector region sec { s.sectorAt region sec with state := .dram true, cid := (s.region region).cid }, none)
        | (s, false) => (s.countStall held region sec, some .way)
    | .flash =>
      if x.writeback then (s, some (.sector region sec))
      else
        match s.allocWay region sec with
        | (s, true) => (s.startFill region sec (s.sectorAt region sec) false, some (.sector region sec))
        | (s, false) => (s.countStall (held || !write) region sec, some .way)
    | .filling _ => (s, some (.sector region sec))
    | .dram _ | .hbm _ => (s, none)
    | .moving _ _ => if write then (s, some (.sector region sec)) else (s, none)

/-- A write leaves its sector dirty (R38). -/
def State.dirtySector (s : State) (region off : Nat) : State :=
  if (s.region region).cls ≠ clsDeep then s
  else
    let sec := off / 4096
    let x := s.sectorAt region sec
    match x.state with
    | .zero => s.setSector region sec { x with state := .dram true }
    | .dram _ => s.setSector region sec { x with state := .dram true }
    | .hbm _ => s.setSector region sec { x with state := .hbm true }
    | _ => s

end Sys2Proof.Machine
end

