-- ==== Sys2Proof/Machine/Credit.lean ====
section
/-! DEFINITION. Slot credit of reservations (R202 to R206) and the espresso class of a request (R53). -/
namespace Sys2Proof.Machine

/-- Line rate of a sub-port in quarter bytes per ns, by mode, with the fallback of mode 5 (R203). -/
def portQuarterRate (mode : Nat) (speed : Byte) : Nat :=
  match mode with
  | 1 => 800 | 2 => 400 | 3 => 200 | 4 => 100
  | _ => if speed = 1 then 25 else 50

/-- Depth of a credit in 1/256 byte: 2,208 B at a port, 2,560 B at a stack (R202). -/
def creditDepth (stack : Bool) : Nat := if stack then 2560 * 256 else 2208 * 256

/-- Refill of a credit per ns in 1/256 byte: f/64 of the unit's rate (R202, R203). -/
def State.refillRate (s : State) (r : Reservation) : Nat :=
  if r.stack then 2048 * 4 * r.f
  else portQuarterRate (s.portCfg r.unit).mode (s.subPort (subKey r.unit r.sub)).speed * r.f

/-- A reservation with its credits refilled up to now. -/
def State.refill (s : State) (r : Reservation) : Reservation :=
  let add := s.refillRate r * (s.now - r.refilled)
  let d := creditDepth r.stack
  { r with ingress := min d (r.ingress + add), egress := min d (r.egress + add), credit := min d (r.credit + add)
           refilled := s.now }

inductive CreditKind where
  | ingress
  | egress
  | stack
  deriving DecidableEq, Repr

def Reservation.has (r : Reservation) (k : CreditKind) (n : Nat) : Bool :=
  match k with
  | .ingress => decide (n ≤ r.ingress)
  | .egress => decide (n ≤ r.egress)
  | .stack => decide (n ≤ r.credit)

def Reservation.debit (r : Reservation) (k : CreditKind) (n : Nat) : Reservation :=
  match k with
  | .ingress => { r with ingress := r.ingress - n }
  | .egress => { r with egress := r.egress - n }
  | .stack => { r with credit := r.credit - n }

/-- Takes a credit from the first of the reservations that holds it. -/
def takeFrom (mine : Reservation → Bool) (k : CreditKind) (n : Nat) : List Reservation → Option (List Reservation)
  | [] => none
  | r :: t =>
    if mine r && r.has k n then some (r.debit k n :: t)
    else (takeFrom mine k n t).map (r :: ·)

def State.setReservations (s : State) (l : List Reservation) : State := { s with sky := { s.sky with reservations := l } }

/-- A reservation of a composition at a unit is active. -/
def State.hasReservation (s : State) (cid : Cid) (stack : Bool) (unit sub : Nat) : Bool :=
  s.sky.reservations.any fun r => decide (r.stack = stack) && decide (r.cid = cid) && decide (r.unit = unit) && decide (r.sub = sub)

/-- Debits a credit of the composition at a unit (R205); none where it has not enough. -/
def State.takeCredit (s : State) (cid : Cid) (k : CreditKind) (unit sub bytes : Nat) : Option State :=
  let stack := decide (k = .stack)
  let rs := s.sky.reservations.map s.refill
  (takeFrom (fun r => decide (r.stack = stack) && decide (r.cid = cid) && decide (r.unit = unit) && decide (r.sub = sub))
    k (bytes * 256) rs).map s.setReservations

def State.locked (s : State) : Bool := decide (s.sky.lock = .locked)

/-- Counts a failed point of R205 in the composition's slot-overrun counter. -/
def State.slotOverrun (s : State) (cid : Cid) : State :=
  match s.compIdx cid with
  | some e => s.bump 10 e 1
  | none => s

def State.slotMiss (s : State) (cid : Cid) : State :=
  match s.compIdx cid with
  | some e => s.bump 10 e 0
  | none => s

/-- Line time of a frame of `n` payload bytes at a port: header, MAC header and tag, FCS, preamble and gap, and what its
encapsulation and MACsec add (03, R206, R556). -/
def State.lineTime (s : State) (port n : Nat) : Nat :=
  let c := s.portCfg port
  max 46 (24 + n + (if c.ipv6 then 48 else 0)) + 42 + (if c.macsec then 32 else 0)

/-- The port by which a response to a frame leaves (R18, R564). -/
def State.answerPort (s : State) (h : Hdr) : Nat := (s.route h.src none).getD (subKey h.port h.sub) / 8

/-- Whether a request enters as espresso class (R53, R205, R206), with the ingress credit it takes. The request's line time counts
at the port by which it came, the response's at the port by which it leaves. -/
def State.enterEspresso (s : State) (h : Hdr) (reqBytes respBytes : Nat) : State × Bool :=
  if h.pcp ≠ s.pcpEspresso || !s.locked then (s, false)
  else if !s.hasReservation h.cid false h.port h.sub then (s, false)
  else if s.lineTime h.port reqBytes > 2208 || s.lineTime (s.answerPort h) respBytes > 2208 then (s, false)
  else
    match s.takeCredit h.cid .ingress h.port h.sub (s.lineTime h.port reqBytes) with
    | some s => (s, true)
    | none => (s.slotOverrun h.cid, false)

/-- Where the device holds a line: its HBM stack or its DDR channel, and whether it is pinned or promoted; none for a
sector in flash (R34, R38, R576). -/
inductive Place where
  | hbm (stack : Nat)
  | dram (channel : Nat) (pinned : Bool)
  | flash
  deriving DecidableEq, Repr

def State.placeOf (s : State) (region off : Nat) : Place :=
  let r := s.region region
  let unit := (nth (0, 0) r.chunks (off / chunkBytes)).1
  if r.cls = clsNear then .hbm unit
  else if r.cls = clsFar then .dram (unit + 8 * (off / 4096 % 2)) true
  else
    match (s.sectorAt region (off / 4096)).state with
    | .hbm _ => .hbm (s.sectorAt region (off / 4096)).stack
    | .moving hbm _ => if hbm then .dram (s.stallChannel region (off / 4096)) false else .hbm (s.sectorAt region (off / 4096)).stack
    | .dram _ => .dram (s.stallChannel region (off / 4096)) false
    | _ => .flash

/-- Key of a unit's calibration record: stack k, or 8 + channel. -/
def calibKey (hbm : Bool) (unit : Nat) : Nat := if hbm then unit else 8 + unit

/-- A calibration runs on the unit that holds a line (R594). -/
def State.calibrating (s : State) (region off : Nat) : Option Nat :=
  let k := match s.placeOf region off with
    | .hbm u => some (calibKey true u)
    | .dram c _ => some (calibKey false c)
    | .flash => none
  match k with
  | some k => if (Tab.get ({} : Calib) s.store.calib k).busy.isSome then some k else none
  | none => none

/-- Stack whose credit pays for an espresso access to a line, and the bytes debited; none for a line that is neither pinned nor
promoted (R204). -/
def State.stackCharge (s : State) (region off : Nat) : Option (Nat × Nat) :=
  match s.placeOf region off with
  | .hbm u => some (u, 64)
  | .dram c pinned => if pinned then some (c % 8, 1280) else none
  | .flash => none

/-- An espresso access reaches a line: it stays in the class only where the line is pinned or promoted and its unit does not
calibrate, and, for a read, where no agent holds the line exclusively (R160, R210, R213). Writes, atomics and coherence requests
that leave the class so count as slot misses too, although the manual counts loads and is silent on them (DESIGN CHOICE, log entry
85). -/
def State.meetsLine (s : State) (a : Access) (read : Bool) : State × Bool :=
  if !a.espresso then (s, false)
  else
    let exclusive := read && (s.region a.region).coherent &&
      (match s.findEntry (dirRegion a.region a.position) ((a.offset + a.done) / 64) with
        | some k => decide ((s.dirEntry k).state = .exclusive)
        | none => false)
    if (s.stackCharge a.region (a.offset + a.done)).isNone || exclusive || (s.calibrating a.region (a.offset + a.done)).isSome then
      (s.slotMiss a.cid, false)
    else (s, true)

/-- An espresso access passes its home slice: the line's stack credit is debited, or the access leaves the class (R204, R205). -/
def State.takeStack (s : State) (a : Access) : State × Bool :=
  if !a.espresso then (s, false)
  else
    match s.stackCharge a.region (a.offset + a.done) with
    | none => (s.slotMiss a.cid, false)
    | some (u, n) =>
      match s.takeCredit a.cid .stack u 0 n with
      | some s => (s, true)
      | none => (s.slotOverrun a.cid, false)

end Sys2Proof.Machine
end

