-- ==== Sys2Proof/Machine/Journal.lean ====
section
/-! DEFINITION. The step journal (R398 to R401), writes at the tier, and the replica frames of redundancy groups
(R404 to R406). -/
namespace Sys2Proof.Machine

/-- Records that a reservation holds (R398). -/
def journalRecords (r : Nat) : Nat := (r - 256) / 272

/-- The composition entry of a region's cid. -/
def State.compOfRegion (s : State) (i : Nat) : Option Nat := s.compIdx (s.region i).cid

def Comp.hasRecord (c : Comp) (region block : Nat) : Bool :=
  c.recs.any fun r => decide (r.region = region) && decide (r.block = block)

/-- The prior contents of a 256 B block (R399). -/
def State.blockRecord (s : State) (region block : Nat) (step : W32) : JRec :=
  { region := region, block := block, step := step
    data := readBytes s region (256 * block) 256
    poison := (List.range 4).map fun k => s.poisoned region (4 * block + k) }

/-- A MIRROR_WRITE to a spare is the source's copy of a line: one whole line, the next of those that the source copies in ascending
order on one path (R110, R413). It is taken in every step state and not journalled (R399, R414); every other MIRROR_WRITE is a
replica write of a member, to which R397 and R399 apply. No field tells the two apart, so a replica write of exactly that line that
comes ahead of its copy is taken for it, and the copy then for a replica write (DEDUCED, log entry 84). -/
def State.isCopy (s : State) (region off n : Nat) : Bool :=
  let g := s.groupOf region
  decide ((s.region region).redKind ≠ 0) && decide (g.condition = 2) && decide (g.spareAid = s.aid) &&
    decide (g.spareRegion = region) && decide (n = 64) && decide (off = 64 * g.copied)

/-! The journal as it lies in the reservation (R398): `n` entries of 16 bytes, then `n` slots of 256 bytes. A record's number is
its place in the list. -/

/-- The entry of a record, little-endian (R6, R398). -/
def JRec.entry (r : JRec) : List Byte :=
  leBytes 3 r.region ++ leBytes 1 (1 + 2 * ofBits r.poison) ++ leBytes 5 r.block ++ zeros 3 ++ leBytes 4 r.step.toNat

/-- Place of entry i. -/
def journalEntryAt (i : Nat) : Nat := 16 * i

/-- Place of slot i of a journal of `n` records: slots begin at the first multiple of 256 at or above 16 n. -/
def journalSlotAt (n i : Nat) : Nat := (16 * n + 255) / 256 * 256 + 256 * i

/-- The bytes of a composition's reservation: the entries of the records in use, free entries zero, then the slots. -/
def Comp.journalEntries (c : Comp) : List Byte :=
  sliceBytes (c.recs.flatMap JRec.entry) 0 (journalSlotAt (journalRecords c.journal) 0)

/-- The first write of the step to a block: its prior contents are recorded, or the step turns UNJOURNALLED when no record
is free (R399, R401, R395). -/
def State.journalBlock (s : State) (region block : Nat) : State :=
  match s.compOfRegion region with
  | none => s
  | some e =>
    let c := s.compAt e
    if c.stepState ≠ .open_ ∨ c.hasRecord region block then s
    else if c.recs.length < journalRecords c.journal then
      let rec_ := s.blockRecord region block c.openStep
      (s.setComp e { c with recs := c.recs ++ [rec_] }).bump 9 (40 + homeSlice (4 * block) region / 4) 3
    else
      (s.setComp e { c with stepState := .unjournalled, unjournalled := true }).notice 0x0003
        (beBytes 2 c.cid.toNat ++ beBytes 4 c.openStep.toNat) c.cid

/-- A write of bytes within one line at its tier, journalled where the open step requires it (R21, R399). -/
def State.performPart (s : State) (journalled : Bool) (region off : Nat) (l : List Byte) : State :=
  ((if journalled then s.journalBlock region (off / 256) else s).writeLinePart region off l).dirtySector region off

/-! ### Replica targets -/

/-- Where a replica frame goes: member device, its region, and the position it stands for. -/
structure Target where
  aid : Aid
  region : Nat
  position : Nat
  deriving DecidableEq, Repr

/-- The member at a position, or the spare that is being rebuilt for it when the chunk lies below the cursor, or is the
cursor chunk (R413); none for a failed position with no spare. -/
def Group.target (g : Group) (p chunk : Nat) : Option Target :=
  if g.condition = 2 ∧ g.sparePosition = p then
    (if chunk ≤ g.cursor then some { aid := g.spareAid, region := g.spareRegion, position := p } else none)
  else if g.hasFailed p then none
  else match g.members[p]? with
    | some m => some { aid := m.aid, region := m.region, position := p }
    | none => none

/-- The data position for which this device is the home of a region: the position of its own member, or the failed
position for which it stands in (R411). -/
def State.homePosition (s : State) (region : Nat) (stands : Option Nat) : Option Nat :=
  match stands with
  | some p => some p
  | none =>
    let g := s.groupOf region
    match g.positionOf s.aid region with
    | some p => if p < g.k then some p
      else if g.kind = 1 ∧ g.hasFailed 0 then some 0 else none
    | none => none

/-- Positions to which the home of data position `j` sends replica frames for a chunk: the check positions, and, for a
stand-in, the spare of its own position (R404, R405, R413). -/
def State.replicaTargets (s : State) (region : Nat) (stands : Option Nat) (chunk : Nat) : List Target :=
  let r := s.region region
  if r.redKind = 0 then []
  else
    let g := s.groupOf region
    match s.homePosition region stands with
    | none => []
    | some j =>
      let checks := (List.range g.c).map (g.k + ·)
      let own := g.positionOf s.aid region
      let others := checks.filter fun p => decide (some p ≠ own)
      let spare := if g.hasFailed j ∧ g.condition = 2 ∧ g.sparePosition = j then [j] else []
      (others ++ spare).filterMap fun p => g.target p chunk

/-- The region has no defined group although it is redundant (R403). -/
def State.groupMissing (s : State) (region : Nat) : Bool :=
  decide ((s.region region).redKind ≠ 0) && decide ((s.groupOf region).kind = 0)

/-- Steps and generation that a replica frame carries. -/
def State.replicaStepOf (s : State) (cid : Cid) : W32 :=
  match s.compIdx cid with
  | some e => (s.compAt e).replicaStep
  | none => 0

/-- A replica frame of an access: MIRROR_WRITE with the new bytes, or PARITY_DELTA with the difference (R404, R405). -/
def State.sendReplica (s : State) (acc region group : Nat) (t : Target) (mirror : Bool) (sub off : Nat) (data : List Byte) : State :=
  let cid := (s.region region).cid
  s.issue (.replica acc group t.position)
    { opcode := if mirror then 0x50 else 0x51, dst := t.aid, cid := cid, gen := s.genOf cid, pcp := s.pcpReplica
      payload := addrBytes (mkHandle t.aid t.region) sub off data.length ++
        beBytes 4 (s.replicaStepOf cid).toNat ++ zeros 4 ++ data }

/-- Sends the replica frames for bytes of a line; answers the numbers of those sent. -/
def State.sendReplicas (s : State) (acc region : Nat) (stands : Option Nat) (off : Nat) (old new : List Byte) : State × List Nat :=
  let targets := s.replicaTargets region stands (off / chunkBytes)
  let g := s.groupOf region
  let j := (s.homePosition region stands).getD 0
  targets.foldl (fun (p : State × List Nat) t =>
    let id := p.1.reqs.nextId
    let mirror := decide (g.kind = 1) || decide (t.position < g.k)
    let s := p.1.sendReplica acc region (s.region region).group.toNat t mirror (if mirror then 0 else j) off
      (if mirror then new else xorBytes old new)
    (s, p.2 ++ [id])) (s, [])

/-- Sends version frames for a new publication version (R92, R404, R405). -/
def State.sendVersions (s : State) (acc region : Nat) (stands : Option Nat) (version : Nat) : State × List Nat :=
  let targets := s.replicaTargets region stands 0
  let g := s.groupOf region
  let j := if g.kind = 1 then 0 else (s.homePosition region stands).getD 0
  targets.foldl (fun (p : State × List Nat) t =>
    let id := p.1.reqs.nextId
    let mirror := decide (g.kind = 1) || decide (t.position < g.k)
    let s := p.1.sendReplica acc region (s.region region).group.toNat t mirror 0xFF (if mirror then 0 else j) (beBytes 8 version)
    (s, p.2 ++ [id])) (s, [])

end Sys2Proof.Machine
end

