-- ==== Sys2Proof/Machine/Access.lean ====
section
/-! DEFINITION. Accesses to the store at the point of coherence (04): one line part after the other, with the directory,
the sector states, the step journal and the replica answers that stand before a part; their completions; and the order in
which held accesses go on. -/
namespace Sys2Proof.Machine

/-- Line parts are taken in ascending order (DESIGN CHOICE within R119's unspecified order). -/
def Access.at_ (a : Access) : Nat := a.offset + a.done
def Access.partLen (a : Access) : Nat := min (64 - a.at_ % 64) (a.len - a.done)
def Access.line (a : Access) : Nat := a.at_ / 64

def AccKind.isRead : AccKind → Bool
  | .read | .readAcquire | .readVolatile => true
  | _ => false

/-- Writes and atomics in the sense of R82, R124, R125 and R168. -/
def AccKind.isOrderedWrite : AccKind → Bool
  | .write | .flagged | .atomic => true
  | _ => false

/-- Accesses that R397 treats as writes. -/
def Access.writes (a : Access) : Bool :=
  match a.kind with
  | .write | .flagged | .atomic | .cReadOwn | .cUpgrade | .cWriteback | .mirror | .parity => true
  | .publish => decide (a.expected ≠ BitVec.allOnes 64)
  | _ => false

def Access.sameSource (a b : Access) : Bool := decide (a.src = b.src) && decide (a.cid = b.cid)

/-- Accesses that the order of a source does not touch: merges of C_DATA and writes that restore. -/
def AccKind.unordered : AccKind → Bool
  | .merge | .place => true
  | _ => false

/-- A write of a writer turn that is not issued yet: what it follows is not performed (R327). -/
def State.unissued (s : State) (a : Access) : Bool :=
  match a.follows with
  | some id => s.reqs.held.any fun b => decide (b.id = id)
  | none => false

/-- An earlier access of the same source has not yet dealt with this line (R121, R254): the device itself is the source for all
of its threads, movers and engines. -/
def State.behindOwn (s : State) (a : Access) (line : Nat) : Bool :=
  !a.kind.unordered && s.reqs.held.any fun b => decide (b.id < a.id) && a.sameSource b && decide (b.region = a.region) &&
    !b.kind.unordered && decide (b.at_ / 64 ≤ line) && decide (line ≤ (b.offset + b.len - 1) / 64) && !s.unissued b

/-- Earlier writes and atomics of the source that are not performed (R124, R125, R168). -/
def State.earlierWrites (s : State) (src : Aid) (cid : Cid) (id : Nat) : Bool :=
  s.reqs.held.any fun b => decide (b.id < id) && decide (b.src = src) && decide (b.cid = cid) && b.kind.isOrderedWrite

/-- PAIR_ORDERED holds a write until every earlier one of its source is performed (R124). -/
def State.pairHeld (s : State) (a : Access) : Bool :=
  a.kind.isOrderedWrite &&
  (match s.compIdx a.cid with
    | some e => (s.compAt e).pairOrdered a.gen
    | none => false) &&
  s.earlierWrites a.src a.cid a.id

/-- Another write of the line of an access is in flight (R116, R120, R406, R411). -/
def State.lineInFlight (s : State) (a : Access) (line : Nat) : Bool := s.writeInFlight a.id a.region line

/-- The name of the access's lines in the directory. -/
def Access.dir (a : Access) : Nat := dirRegion a.region a.position

/-- A transition of the line in hand is in progress, or the line is LOST and waits for its restore, so that the access is held: it is
not failed for the fence before that has ended (R149, R163, R397). -/
def State.lineHeld (s : State) (a : Access) : Bool :=
  (s.region a.region).coherent && (s.lineBusy a.dir a.line || s.lineLost a.dir a.line)

def State.fencedCid (s : State) (cid : Cid) : Bool :=
  match s.compIdx cid with
  | some e => (s.compAt e).fenced
  | none => false

/-- A read of a block with a journal record waits while the step is eclipsed (R397, R409). -/
def State.awaitsRestore (s : State) (a : Access) : Bool :=
  match s.compIdx a.cid with
  | some e =>
    let c := s.compAt e
    decide (c.stepState = .eclipsing) && c.hasRecord a.region (a.at_ / 256)
  | none => false

/-- The span of an Owned-mode region is owned by another agent (R164). -/
def State.spanBarred (s : State) (a : Access) : Bool :=
  let o := s.store.spans.get 0 (spanKey a.region (a.at_ / chunkBytes))
  !(s.region a.region).coherent && decide (o ≠ 0) && decide (o ≠ a.owner)

/-! ### Stripes of a parity stand-in (R411) -/

def Group.failedData (g : Group) : List Nat := (List.range g.k).filter g.hasFailed
def Group.liveChecks (g : Group) : List Nat := ((List.range g.c).map (g.k + ·)).filter fun p => !g.hasFailed p

/-- Positions that a reconstruction of data position `p` reads: the surviving data positions, and with two lost data
positions the other check; none when the failures exceed the checks. -/
def Group.stripeReads (g : Group) (own p : Nat) : Option (List Nat) :=
  let lost := g.failedData
  if g.liveChecks.length < lost.length then none
  else
    let data := (List.range g.k).filter fun j => !lost.contains j
    if lost.length ≤ 1 then some data
    else some (data ++ g.liveChecks.filter fun q => decide (q ≠ own) && decide (p < g.k))

/-- The line of data position `p`, from the own check line and the lines read (R405). -/
def Group.solve (g : Group) (own p : Nat) (ownLine : List Byte) (lines : Tab (List Byte)) : List Byte :=
  let lost := g.failedData
  let data := (List.range g.k).filter fun j => !lost.contains j
  let syndrome := fun (m : Nat) (check : List Byte) =>
    data.foldl (fun acc j => xorBytes acc (scaleBytes (parityCoeff m j) (Tab.get [] lines j))) check
  let m := own - g.k
  match lost.filter fun q => decide (q ≠ p) with
  | [] => scaleBytes (gfInv (parityCoeff m p)) (syndrome m ownLine)
  | q :: _ =>
    let a := if m = 0 then syndrome 0 ownLine else syndrome 0 (Tab.get [] lines g.k)
    let b := if m = 0 then syndrome 1 (Tab.get [] lines (g.k + 1)) else syndrome 1 ownLine
    scaleBytes (gfInv (parityCoeff 1 p ^^^ parityCoeff 1 q)) (xorBytes b (scaleBytes (parityCoeff 1 q) a))

/-- The group's spare is a region of this device (R413). -/
def State.isSpare (s : State) (g : Group) (region : Nat) : Bool :=
  decide (g.condition = 2) && decide (g.spareAid = s.aid) && decide (g.spareRegion = region)

/-- The position that a local region holds or, as a spare, is being rebuilt for. -/
def State.ownPosition (s : State) (region : Nat) : Nat :=
  let g := s.groupOf region
  if s.isSpare g region then g.sparePosition else (g.positionOf s.aid region).getD 0

/-- Sends the reads that reconstruct a line (R411). -/
def State.readStripe (s : State) (a : Access) : State × Access :=
  let g := s.groupOf a.region
  match a.position.bind fun p => g.stripeReads (s.ownPosition a.region) p with
  | none => (s, { a with stripeRead := true })
  | some ps =>
    let cid := (s.region a.region).cid
    let pcp := if (s.region a.region).coherent then s.coherencePcp cid else s.pcpReplica
    let r := ps.foldl (fun (q : State × List Nat) p =>
      match g.members[p]? with
      | some m => (q.1.issue (.stripe a.id p)
          { opcode := 0x03, dst := m.aid, cid := cid, gen := q.1.genOf cid, pcp := pcp
            payload := addrBytes (mkHandle m.aid m.region) 0 (64 * a.line) 64 }, q.2 ++ [q.1.reqs.nextId])
      | none => q) (s, ([] : List Nat))
    (r.1, { a with stripeRead := true, stripeIds := r.2 })

/-- The 64 bytes of the line in hand as the home of the data sees them, and its poison bit. -/
def State.lineValue (s : State) (a : Access) : List Byte × Bool :=
  let own := readBytes s a.region (64 * a.line) 64
  let p := s.poisoned a.region a.line
  match a.position with
  | none => (own, p)
  | some pos =>
    let g := s.groupOf a.region
    match g.stripeReads (s.ownPosition a.region) pos with
    | none => (zeros 64, true)
    | some ps =>
      if ps.any fun q => decide ((Tab.get [] a.stripe q).length ≠ 64) then (zeros 64, true)
      else (g.solve (s.ownPosition a.region) pos own a.stripe, p)

/-! ### Atomics (R83) -/

def smin (w a b : Nat) : Nat := if (BitVec.ofNat w a).toInt ≤ (BitVec.ofNat w b).toInt then a else b
def smax (w a b : Nat) : Nat := if (BitVec.ofNat w a).toInt ≤ (BitVec.ofNat w b).toInt then b else a

/-- The value that an atomic leaves, from the prior value and its operands, for an operation of `size` bytes. -/
def atomicResult (op size prior a b : Nat) : Nat :=
  let w := 8 * size
  let a := a % 2 ^ w
  let b := b % 2 ^ w
  match op with
  | 0 => a
  | 1 => if prior = a then b else prior
  | 2 => (prior + a) % 2 ^ w
  | 3 => prior &&& a
  | 4 => prior ||| a
  | 5 => prior ^^^ a
  | 6 => smin w prior a
  | 7 => smax w prior a
  | 8 => min prior a
  | _ => max prior a

/-- Sizes that an operation allows (R83, R84). -/
def atomicSizeOk (op size : Nat) : Bool :=
  decide (op ≤ 9) && (decide (size = 4) || decide (size = 8) || (decide (size = 16) && decide (op ≤ 1)))

/-! ### Completion -/

/-- The poison mask of a read response: bit 63 stands for lines 63 and 64 (R80). -/
def poisonMask (l : List Bool) : Nat :=
  ofBits (l.take 63) + (if nth false l 63 || nth false l 64 then 2 ^ 63 else 0)

/-- Status of a completed access: that of the failed part nearest its start, else POISON for a poisoned read, else OK
(R80, R119). -/
def Access.status (a : Access) : Byte :=
  if a.failed ≠ 0 then a.failed
  else if a.kind.isRead && a.poison.any (fun b => b) then stPoison else stOk

/-- Response payload of a completed access (03). -/
def Access.payload (a : Access) : List Byte :=
  match a.kind with
  | .read | .readAcquire | .readVolatile =>
    if a.failed ≠ 0 then zeros 8 else beBytes 8 (poisonMask a.poison) ++ a.result
  | .atomic => beBytes 16 a.prior
  | .publish => beBytes 8 a.prior
  | .cReadShared | .cReadOwn =>
    if a.failed ≠ 0 then zeros 8 else beBytes 1 (a.granted - 1) ++ zeros 7 ++ a.result
  | .cUpgrade => if a.failed ≠ 0 then zeros 8 else beBytes 1 (a.granted - 1) ++ zeros 7
  | _ => []

/-- A response in version 1: ERROR with no data in place of every failing status (R114). -/
def State.respondV1 (s : State) (h : Hdr) (opcode : Byte) (ok : Bool) (payload : List Byte) : State :=
  s.send { opcode := opcode, resp := true, dst := h.src, src := h.dst, cid := h.cid, status := if ok then 0 else 1
           tag := h.tag, pcp := h.pcp, payload := if ok then payload else [], v1 := true }

/-- The response to an access's frame; an access still in espresso class takes egress credit (R205, R211). -/
def State.respondAccess (s : State) (a : Access) (h : Hdr) (op : Byte) : State :=
  let f : OutFrame :=
    { opcode := op, resp := true, ece := s.echoes h, dst := h.src, src := h.dst, cid := h.cid, gen := h.gen
      status := a.status, tag := h.tag, pcp := h.pcp, payload := a.payload }
  let s := s.unmark h
  if !a.espresso then s.send f
  else
    let k := (s.route h.src none).getD (subKey h.port h.sub)
    match s.takeCredit h.cid .egress (k / 8) (k % 8) (s.lineTime (k / 8) a.payload.length) with
    | some s => s.send { f with credit := true }
    | none => (s.slotOverrun h.cid).send f

def State.setGridReqs (s : State) (l : List GridReq) : State := { s with grid := { s.grid with reqs := l } }

def State.setFailures (s : State) (t : Tab Byte) : State := { s with reqs := { s.reqs with failures := t } }

def State.setFailedAt (s : State) (t : Tab Nat) : State := { s with reqs := { s.reqs with failedAt := t } }

/-- A write of a unit for a request is still to be performed: here, or at another device. -/
def State.unitBusy (s : State) (req : Nat) : Bool :=
  (s.reqs.held.any fun a => match a.origin with
    | .engine n => decide (n = req)
    | _ => false) ||
  s.reqs.issued.any fun r => match r.req with
    | .unitWrite n _ => decide (n = req)
    | _ => false

/-- Notes a failed part of a unit's write: the request's first status other than OK, which a real failure puts in the place of
POISON, and the lowest offset of a failure (R112, R119, R643). -/
def State.unitFails (s : State) (req : Nat) (status : Byte) (off : Nat) : State :=
  let old := Tab.get 0 s.reqs.failures req
  let at_ := Tab.get 0 s.reqs.failedAt req
  let s := if status ≠ stOk ∧ status ≠ stPoison ∧ (at_ = 0 ∨ off < at_) then
    s.setFailedAt (Tab.set 0 s.reqs.failedAt req (off + 1)) else s
  if status ≠ stOk ∧ (old = stOk ∨ old = stPoison) then s.setFailures (Tab.set 0 s.reqs.failures req status) else s

/-- A read of a unit has its answer. -/
def State.answerUnit (s : State) (id : Nat) (x : UnitAnswer) : State :=
  { s with reqs := { s.reqs with units := s.reqs.units.map fun u => if u.id = id then { u with answer := some x } else u } }

/-- A unit's request with no write left to perform gets its response, with the first status other than OK. -/
def State.settleReply (s : State) (req : Nat) : State :=
  match s.reqs.replies.find? fun r => decide (r.req = req) with
  | some r =>
    if s.unitBusy req then s
    else
      let st := Tab.get 0 s.reqs.failures req
      let s := (s.setFailures (Tab.set 0 s.reqs.failures req 0)).setFailedAt (Tab.set 0 s.reqs.failedAt req 0)
      let s := { s with reqs := { s.reqs with replies := s.reqs.replies.filter fun x => decide (x.req ≠ req) } }
      s.respond r.h r.opcode st r.payload
  | none => s

/-- Where a write of a writer turn fails, the turn changes none of its later records. -/
def Access.endsTurnOf (a b : Access) : Bool :=
  decide (a.failed ≠ 0) && match a.turn, b.turn with
    | some t, some u => decide (t.id = u.id) && decide (t.record < u.record)
    | _, _ => false

/-- Completes an access: its answer goes where it came from (R116, R434). A version 1 response, to which R114 gives no payload, carries
the data of a READ without a poison mask, and the prior value of an ATOMIC in 8 bytes (DESIGN CHOICE, log entry 98). -/
def State.completeAccess (s : State) (a : Access) : State :=
  let s := s.setHeld (s.reqs.held.filter fun b => decide (b.id ≠ a.id) && !a.endsTurnOf b)
  let s := if a.kind = .place then s else s.bump 9 (homeSlice (a.offset / 64) a.region) 0
  match a.origin with
  | .frame h op => s.respondAccess a h op
  | .v1 h op =>
    let body := match a.kind with
      | .atomic => beBytes 8 a.prior
      | _ => a.result
    s.respondV1 h op (decide (a.status = stOk)) body
  | .thread id =>
    s.setGridReqs (s.grid.reqs.map fun r => if r.id = id then
      { r with answer := some (a.status, if a.kind = .atomic then beBytes 16 a.prior else a.result,
                               BitVec.ofNat 64 (poisonMask a.poison)) } else r)
  | .engine req => (s.unitFails req a.failed a.failedAt).settleReply req
  | .transition k => (s.modTransition k fun t => { t with merging := false }).finishTransition k
  | .unit id => s.answerUnit id { status := if a.failed = 0 then stOk else a.failed, data := a.result, poison := a.poison }
  | .rebuild _ | .restore _ => s

/-! ### One line part -/

/-- What became of a part: dealt with, or waiting with the access as updated. -/
inductive PartRes where
  | next (a : Access)
  | waits (a : Access) (w : Wait)
  deriving DecidableEq, Repr

/-- A part that fails has no effect (R119). -/
def Access.failPart (a : Access) (st : Byte) (n : Nat) : Access :=
  { a with failed := if a.failed = 0 then st else a.failed, failedAt := if a.failed = 0 then a.at_ else a.failedAt, done := a.done + n, replicated := false, replicas := []
           replicaStatus := 0, stripe := [], stripeIds := [], stripeRead := false, missed := false, wait := none }

def Access.donePart (a : Access) (n : Nat) : Access :=
  { a with done := a.done + n, replicated := false, replicas := [], replicaStatus := 0
           stripe := [], stripeIds := [], stripeRead := false, missed := false, wait := none }

/-- Notes that the sector of the part in hand was in no cache when the tier was asked for it (R41): `cold`, as it was then, and
what the part waits for now. -/
def Access.asked (a : Access) (cold : Bool) (w : Option Wait) : Access :=
  match w with
  | none | some .way | some (.sector _ _) => { a with missed := a.missed || cold }
  | _ => a

/-- A part is served from its sector: a hit unless it had to be brought there (R41). -/
def State.countHit (s : State) (a : Access) : State := if a.missed then s else s.touchSector a.region a.at_

/-- The unit that holds the line is calibrating, and the access waits as cold brew (R213, R594). -/
def State.unitWait (s : State) (a : Access) : Option Wait :=
  (s.calibrating a.region a.at_).map fun k => if k < 8 then .unit 0 k else .unit 1 (k - 8)

/-- What stands before a read part, in order; the state may have started a snoop or a fill. `write` asks for the line's sector as a
write does, for a copy at a spare. -/
def State.readGate (s : State) (a : Access) (write : Bool := false) : State × Option Wait :=
  if s.awaitsRestore a then (s, some (.restore a.cid (a.at_ / 256)))
  else if s.behindOwn a a.line then (s, some .earlier)
  else if s.lineInFlight a a.line then (s, some (.line a.region a.line))
  else
    match s.unitWait a with
    | some w => (s, some w)
    | none =>
      match if (s.region a.region).coherent then s.needHome false a.src a.dir a.line else (s, none) with
      | (s, some w) => (s, some w)
      | (s, none) => s.sectorReady write (decide (a.wait = some .way)) a.region a.at_

def State.readPart (s : State) (a : Access) : State × PartRes :=
  let (s, e) := s.meetsLine a true
  let a := { a with espresso := e }
  let cold := s.coldSector a.region a.at_
  match s.readGate a with
  | (s, some w) => (s, .waits (a.asked cold (some w)) w)
  | (s, none) =>
    let a := a.asked cold none
    let n := a.partLen
    let finish := fun (s : State) (a : Access) =>
      let (v, p) := s.lineValue a
      let (s, e) := s.takeStack a
      (s.countHit a, PartRes.next
        ({ a with espresso := e, result := a.result ++ sliceBytes v (a.at_ % 64) n, poison := a.poison ++ [p] }.donePart n))
    if a.position.isSome && !a.stripeRead then
      let (s, a) := s.readStripe a
      if a.stripeIds.isEmpty then finish s a else (s, .waits a (.stripe a.region (a.at_ / 64)))
    else if !a.stripeIds.isEmpty then (s, .waits a (.stripe a.region (a.at_ / 64)))
    else finish s a

/-- What stands before a write part, in order: a status with which the part fails, or a wait. A C_DATA merge that has not been
performed by the fence fails too: its value is one of the step (R407 step 4, R409). -/
def State.writeGate (s : State) (a : Access) : State × Option (Byte ⊕ Wait) :=
  if a.kind.isOrderedWrite && s.lineHeld a then (s, some (.inr (.line a.region a.line)))
  else if a.kind ≠ .place ∧ s.fencedCid a.cid ∧ ¬ a.copied then (s, some (.inl stAborted))
  else if a.kind.isOrderedWrite && s.spanBarred a then (s, some (.inl stNotOwner))
  else if s.behindOwn a a.line then (s, some (.inr .earlier))
  else if s.pairHeld a then (s, some (.inr .earlier))
  else if a.kind ≠ .place ∧ s.lineInFlight a a.line then (s, some (.inr (.line a.region a.line)))
  else
    match s.unitWait a with
    | some w => (s, some (.inr w))
    | none =>
      match if a.kind.isOrderedWrite && (s.region a.region).coherent then s.needHome true a.src a.dir a.line else (s, none) with
      | (s, some w) => (s, some (.inr w))
      | (s, none) =>
        match s.sectorReady true (decide (a.wait = some .way)) a.region a.at_ with
        | (s, some w) => (s, some (.inr w))
        | (s, none) => (s, none)

/-- The bytes that a write part leaves, from the line's bytes before it. -/
def State.newBytes (s : State) (a : Access) (old : List Byte) : List Byte :=
  let n := a.partLen
  match a.kind with
  | .atomic =>
    let prior := fieldLe old 0 a.len
    leBytes a.len (atomicResult a.atomicOp a.len prior a.opA a.opB)
  | .parity =>
    let g := s.groupOf a.region
    let m := s.ownPosition a.region - g.k
    xorBytes old (scaleBytes (parityCoeff m a.sub) (sliceBytes a.data a.done n))
  | _ => sliceBytes a.data a.done n

/-- Puts the new bytes of a part in place: at the line itself, or, for a parity stand-in, into its own check line
(R404, R405, R411). -/
def State.applyPart (s : State) (a : Access) (old new : List Byte) : State :=
  let journalled := !(decide (a.kind = .place) || a.copied)
  let bytes := match a.position with
    | none => new
    | some p =>
      let m := s.ownPosition a.region - (s.groupOf a.region).k
      xorBytes (readBytes s a.region a.at_ new.length) (scaleBytes (parityCoeff m p) (xorBytes old new))
  let s := s.performPart journalled a.region a.at_ bytes
  if a.taint.contains a.line then s.setPoison a.region a.line true else s

/-- Kinds of write that the home of a line sends on to its replicas (R404, R405). -/
def AccKind.replicates : AccKind → Bool
  | .mirror | .parity | .place => false
  | _ => true

/-- A write, atomic, write-back, merge or replica write of one line part. -/
def State.writePart (s : State) (a : Access) : State × PartRes :=
  let n := a.partLen
  let (s, e) := s.meetsLine a false
  let a := { a with espresso := e }
  let cold := s.coldSector a.region a.at_
  match s.writeGate a with
  | (s, some (.inl st)) => (s, .next (a.failPart st n))
  | (s, some (.inr w)) => (s, .waits (a.asked cold (some w)) w)
  | (s, none) =>
    let a := a.asked cold none
    let apply := fun (s : State) (a : Access) (old new : List Byte) =>
      let (s, e) := s.takeStack a
      ((s.applyPart a old new).countHit a, PartRes.next ({ a with espresso := e }.donePart n))
    if a.position.isSome && !a.stripeRead then
      let (s, a) := s.readStripe a
      (s, if a.stripeIds.isEmpty then .next a else .waits a (.stripe a.region a.line))
    else if !a.stripeIds.isEmpty then (s, .waits a (.stripe a.region a.line))
    else
      let (v, p) := s.lineValue a
      let old := sliceBytes v (a.at_ % 64) n
      if a.kind = .atomic ∧ p then (s, .next (({ a with prior := 0 }).failPart stPoison n))
      else
        let new := s.newBytes a old
        let a := if a.kind = .atomic then { a with prior := fieldLe old 0 a.len } else a
        if a.kind.replicates && decide (new ≠ old) && !a.replicated then
          if !a.replicas.isEmpty then (s, .waits a .replica)
          else
            let (s, ids) := s.sendReplicas a.id a.region a.position a.at_ old new
            if ids.isEmpty then apply s a old new else (s, .waits { a with replicas := ids } .replica)
        else if a.replicaStatus ≠ 0 then (s, .next (a.failPart a.replicaStatus n))
        else apply s a old new

/-- The publication version that a PUBLISH sees: the region's, or the one a check member keeps for a failed position. -/
def State.versionOf (s : State) (a : Access) : W64 :=
  match a.position with
  | none => (s.region a.region).version
  | some p => (s.groupOf a.region).versions.get 0 p

def State.setVersion (s : State) (a : Access) (v : W64) : State :=
  match a.position with
  | none => s.modRegion a.region fun r => { r with version := v }
  | some p =>
    let i := (s.region a.region).group.toNat
    let g := s.groupOf a.region
    { s with comps := { s.comps with groups := s.comps.groups.set {} i { g with versions := g.versions.set 0 p v } } }

/-- PUBLISH at the home slice of line 0 (R85, R168, R169, R406). One whose new version is on its way to the replicas, or is there and
is about to be set, holds every other PUBLISH of the region, so that no two pass for one expected version. A PUBLISH accesses no line,
so it takes no stack credit: the manual, which debits the accesses of lines (R204, R205), says nothing of it (DESIGN CHOICE, log entry
98). -/
def State.publishPart (s : State) (a : Access) : State × PartRes :=
  let cur := s.versionOf a
  if a.expected = BitVec.allOnes 64 then
    (s, .next { a with done := 1, prior := cur.toNat, failed := stSuperseded })
  else if s.fencedCid a.cid then (s, .next { a with done := 1, failed := stAborted })
  else if s.earlierWrites a.src a.cid a.id then (s, .waits a .earlier)
  else if a.replicated then
    if a.replicaStatus ≠ 0 then (s, .next { a with done := 1, failed := a.replicaStatus })
    else (s.setVersion a (cur + 1), .next { a with done := 1, prior := (cur + 1).toNat })
  else if !a.replicas.isEmpty then (s, .waits a .replica)
  else if s.reqs.held.any (fun b => decide (b.id ≠ a.id) && decide (b.region = a.region) && decide (b.kind = .publish) &&
      (!b.replicas.isEmpty || b.replicated)) then (s, .waits a (.line a.region 0))
  else if cur ≠ a.expected then (s, .next { a with done := 1, prior := cur.toNat, failed := stSuperseded })
  else if cur + 1 = BitVec.allOnes 64 then (s, .next { a with done := 1, failed := stInvalid })
  else
    let (s, ids) := s.sendVersions a.id a.region a.position (cur + 1).toNat
    if ids.isEmpty then (s.setVersion a (cur + 1), .next { a with done := 1, prior := (cur + 1).toNat })
    else (s, .waits { a with replicas := ids } .replica)

/-- The grant of a coherence request goes out, with its poison bit, and with the line's data where it carries them or home owes
them in C_DATA; they come from the tier, or from the stripe at a parity stand-in (R148, R411). Those data may have to be waited for: a
calibration may have begun during the snoop, or the sector may have left its cache (R38, R213, R594). -/
def State.giveGrant (s : State) (a : Access) (g : Nat) (owed : Bool) : State × PartRes :=
  let a := { a with granted := 1 + g, owed := owed }
  let inGrant := decide (a.kind ≠ .cUpgrade) && !bitOf g 2
  let finish := fun (s : State) (a : Access) =>
    let (v, p) := if inGrant || owed then s.lineValue a else ([], s.poisoned a.region a.line)
    let (s, e) := s.takeStack a
    let s := if owed then s.sendCData a v else s
    let s := if inGrant || owed then s.countHit a else s
    (s, PartRes.next { a with
      done := a.len, granted := a.granted + (if p then 128 else 0), owed := false, espresso := e, result := if inGrant then v else []
      stripe := [], stripeRead := false })
  if !inGrant && !owed then finish s a
  else
    let (s, e) := s.meetsLine a false
    let a := { a with espresso := e }
    match s.unitWait a with
    | some w => (s, .waits a w)
    | none =>
      let cold := s.coldSector a.region a.at_
      match s.sectorReady false (decide (a.wait = some .way)) a.region a.at_ with
      | (s, some w) => (s, .waits (a.asked cold (some w)) w)
      | (s, none) =>
        let a := a.asked cold none
        if a.position.isSome && !a.stripeRead then
          let (s, a) := s.readStripe a
          if a.stripeIds.isEmpty then finish s a else (s, .waits a (.stripe a.region a.line))
        else if !a.stripeIds.isEmpty then (s, .waits a (.stripe a.region a.line))
        else finish s a

/-- C_READ_SHARED, C_READ_OWN, C_UPGRADE and C_WRITEBACK (R148). A request that a busy entry holds is not failed for the fence
(R149). -/
def State.cohPart (s : State) (a : Access) : State × PartRes :=
  if a.granted ≠ 0 then s.giveGrant a (a.granted - 1) a.owed
  else if s.lineHeld a then (s, .waits a (.line a.region a.line))
  else if a.kind ≠ .cReadShared ∧ s.fencedCid a.cid then (s, .next { a with done := a.len, failed := stAborted })
  else if s.behindOwn a a.line then (s, .waits a .earlier)
  else if s.lineInFlight a a.line then (s, .waits a (.line a.region a.line))
  else if a.kind = .cReadShared && s.awaitsRestore a then (s, .waits a (.restore a.cid (a.at_ / 256)))
  else
    let (s, e) := s.meetsLine a (decide (a.kind ≠ .cWriteback))
    let a := { a with espresso := e }
    match s.unitWait a with
    | some w => (s, .waits a w)
    | none =>
      let cold := s.coldSector a.region a.at_
      match if a.kind = .cWriteback then (s, none) else s.sectorReady false (decide (a.wait = some .way)) a.region a.at_ with
      | (s, some w) => (s, .waits (a.asked cold (some w)) w)
      | (s, none) =>
        let a := a.asked cold none
        match s.cohRequest a a.line with
        | (s, .grant g owed) => s.giveGrant a g owed
        | (s, .discard) => (s, .next { a with done := a.len })
        | (s, .waits w) =>
          match (s.heldAccess a.id).map fun b => (b.granted, b.owed) with
          | some (0, _) | none => (s, .waits a w)
          | some (g, owed) => s.giveGrant a (g - 1) owed
        | (s, .writeBack k) =>
          match s.writePart a with
          | (s, .next b) => (if b.failed = 0 then s.freeEntry k else s, .next b)
          | r => r

/-- What stands before a line of a copy: what stands before a read, and at a spare a place for the line that is written. -/
def State.copyGate (s : State) (a : Access) : State × Option Wait := s.readGate a (s.isSpare (s.groupOf a.region) a.region)

/-- A line copied in a rebuild: by the source to the spare, or, at a spare for a check position, computed from the data
positions (R405, R413). -/
def State.copyPart (s : State) (a : Access) : State × PartRes :=
  let g := s.groupOf a.region
  let finish := fun (s : State) (v : List Byte) (p : Bool) =>
    if s.isSpare g a.region then
      (((s.writeBytes a.region (64 * a.line) v).setPoison a.region a.line p).dirtySector a.region a.at_, PartRes.next (a.donePart 64))
    else
      let cid := (s.region a.region).cid
      (s.issue (.rebuild (s.region a.region).group.toNat)
        { opcode := 0x50, dst := g.spareAid, cid := cid, gen := s.genOf cid, pcp := s.pcpReplica
          payload := addrBytes (mkHandle g.spareAid g.spareRegion) 0 (64 * a.line) 64 ++
            beBytes 4 (s.replicaStepOf cid).toNat ++ zeros 4 ++ v },
        PartRes.next (a.donePart 64))
  match s.copyGate a with
  | (s, some w) => (s, .waits a w)
  | (s, none) =>
    if s.isSpare g a.region then
      if !a.stripeRead then
        let r := (List.range g.k).foldl (fun (q : State × List Nat) p =>
          match g.members[p]? with
          | some m => (q.1.issue (.stripe a.id p)
              { opcode := 0x03, dst := m.aid, cid := (s.region a.region).cid, gen := q.1.genOf (s.region a.region).cid
                pcp := if (s.region a.region).coherent then q.1.coherencePcp (s.region a.region).cid else q.1.pcpReplica
                payload := addrBytes (mkHandle m.aid m.region) 0 (64 * a.line) 64 },
              q.2 ++ [q.1.reqs.nextId])
          | none => q) (s, ([] : List Nat))
        (r.1, .waits { a with stripeRead := true, stripeIds := r.2 } (.stripe a.region a.line))
      else if !a.stripeIds.isEmpty then (s, .waits a (.stripe a.region a.line))
      else
        let m := g.sparePosition - g.k
        let whole := (List.range g.k).all fun j => decide ((Tab.get [] a.stripe j).length = 64)
        finish s ((List.range g.k).foldl (fun acc j => xorBytes acc (scaleBytes (parityCoeff m j) (Tab.get [] a.stripe j)))
          (zeros 64)) (!whole)
    else if a.position.isSome && !a.stripeRead then
      let (s, a) := s.readStripe a
      (s, if a.stripeIds.isEmpty then .next a else .waits a (.stripe a.region a.line))
    else if !a.stripeIds.isEmpty then (s, .waits a (.stripe a.region a.line))
    else
      let (v, p) := s.lineValue a
      finish s v p

def State.onePart (s : State) (a : Access) : State × PartRes :=
  match a.kind with
  | .read | .readAcquire | .readVolatile => s.readPart a
  | .publish => s.publishPart a
  | .cReadShared | .cReadOwn | .cUpgrade | .cWriteback => s.cohPart a
  | .copy => s.copyPart a
  | _ => s.writePart a

/-- A bound on the turns that an access can take at its line parts: one or two for each of them. -/
def Access.turns (a : Access) : Nat := 2 * ((a.offset + a.len) / 64 - a.offset / 64 + 2)

/-- Runs the parts of a held access until it completes or waits; `fuel` bounds the turns. -/
def State.runAccess (s : State) : Nat → Access → State
  | 0, a => s.modHeld a.id fun _ => a
  | fuel + 1, a =>
    match s.onePart a with
    | (s, .next b) =>
      if b.len ≤ b.done then s.completeAccess b
      else (s.modHeld b.id fun _ => b).runAccess fuel b
    | (s, .waits b w) => s.modHeld b.id fun _ => { b with wait := some w }

/-- Gives every held access that is not parked its turn, in order of acceptance. -/
def State.pumpPass (s : State) : List Nat → State
  | [] => s
  | id :: t =>
    match s.heldAccess id with
    | some a => State.pumpPass (if a.parked || s.unissued a then s else s.runAccess a.turns a) t
    | none => State.pumpPass s t

def State.pumpRounds (s : State) : Nat → State
  | 0 => s
  | fuel + 1 =>
    let s' := s.pumpPass (s.reqs.held.map (·.id))
    if s'.reqs.held.length < s.reqs.held.length then s'.pumpRounds fuel else s'

/-- Held accesses go on in order of acceptance until none completes any more. -/
def State.pump (s : State) : State := s.pumpRounds (s.reqs.held.length + 1)

def Access.fromThread (a : Access) : Bool :=
  match a.origin with
  | .thread _ => true
  | _ => false

/-- Admits an access under the next number of the order of acceptance and lets the held accesses go on (R117). A flagged
store or PUBLISH behind earlier writes of its source is parked (R125, R168); that of a grid thread has waited at its core, for the
thread's own writes alone (R126, R254). -/
def State.submit (s : State) (a : Access) : State :=
  let id := s.reqs.nextId
  let park := (decide (a.kind = .flagged) || decide (a.kind = .publish)) && !a.fromThread &&
    s.earlierWrites a.src a.cid id
  ({ s with reqs := { s.reqs with nextId := id + 1, held := s.reqs.held ++ [{ a with id := id, parked := park }] } }).pump

end Sys2Proof.Machine
end

