-- ==== Sys2Proof/Machine/Ingress.lean ====
section
/-! DEFINITION. What happens to an arriving frame before its opcode's own handling: the order of ingress checks (R72), the
hop check (R104), header checks (R69), trailer check (R95), admission (R74) and the composition check (R427). -/
namespace Sys2Proof

/-- The fields of a request's header that are zero in requests are zero (R67, R70). -/
def Hdr.zeroed (h : Hdr) : Bool := decide (h.status = 0) && decide (h.reserved = 0)

end Sys2Proof
namespace Sys2Proof.Machine

/-- The frame can arrive: the device is in service and the sub-port is UP (R13, R551). -/
def State.arrives (s : State) (port sub : Nat) : Bool :=
  s.inService && decide ((s.subPort (subKey port sub)).link = .up)

/-- A link frame HOP_ACK or HOP_NAK to the partner of a sub-port (R107). -/
def linkFrame (s : State) (opcode : Byte) (k : Nat) (payload : List Byte) : OutFrame :=
  { opcode := opcode, notice := true, dst := (s.subPort k).partner, src := s.aid, pcp := s.pcpControl, payload := payload
    entry := s.switch.fwd.get 0 (s.subPort k).partner.toNat }

/-- HOP_ACK: pcp, flags, hop_ack, hop epoch (R107). Flag [0] asks for resynchronisation, flag [1] announces fresh state. -/
def hopAckFrame (s : State) (k pcp flags : Nat) : OutFrame :=
  let h := (s.subPort k).hops.get {} pcp
  linkFrame s 0x7E k (beBytes 1 pcp ++ beBytes 1 flags ++ beBytes 2 (h.rxNext - 1).toNat ++ beBytes 4 h.epoch.toNat)

def hopNakFrame (s : State) (k pcp : Nat) : OutFrame :=
  let h := (s.subPort k).hops.get {} pcp
  linkFrame s 0x7F k (beBytes 1 pcp ++ zeros 1 ++ beBytes 2 h.rxNext.toNat)

def State.modHop (s : State) (k pcp : Nat) (f : Hop → Hop) : State :=
  s.modSub k fun p => { p with hops := p.hops.mod {} pcp f }

/-- Queues a frame at a sub-port; nothing is queued for a port that drains (R491). -/
def State.queueAt (s : State) (k : Nat) (f : OutFrame) : State :=
  if s.portDrain (k / 8) then s else s.modSub k fun p => { p with egress := p.egress ++ [f] }

/-- Frees the replay copies up to and including the acknowledged hop_seq (R103, R212). -/
def Hop.acked (h : Hop) (ack : BitVec 16) : Hop :=
  let passed := fun (q : BitVec 16) => decide ((ack - q).toNat < 32768)
  { h with
    replay := h.replay.filter fun r => !passed r.frame.hopSeq
    until_ := h.until_.filter fun q => !passed q
    pendingReplay := h.pendingReplay.filter fun f => !passed f.hopSeq }

/-- The hop check of the lossless PCPs (R104): whether the frame goes on, and the state. An in-order frame is acknowledged
at once by a HOP_ACK. -/
def hopCheck (h : Hdr) (s : State) : Bool × State :=
  let k := subKey h.port h.sub
  if !s.lossless h.port h.pcp then (true, s)
  else
    let s := s.modHop k h.pcp fun p => p.acked h.hopAck
    let p := (s.subPort k).hops.get {} h.pcp
    let behind := (p.rxNext - h.hopSeq).toNat
    if behind = 0 then
      let s := s.modHop k h.pcp fun p => { p with rxNext := p.rxNext + 1, ackSent := h.hopSeq, nakSent := none }
      (true, s.queueAt k (hopAckFrame s k h.pcp 0))
    else if behind ≤ 32768 then (false, s.queueAt k (hopAckFrame s k h.pcp 0))
    else
      let recent := match p.nakSent with
        | some (e, t) => decide (e = p.rxNext.toNat) && decide (s.now < t + 1000)
        | none => false
      if recent then (false, s)
      else
        let s := s.modHop k h.pcp fun p => { p with nakSent := some (p.rxNext.toNat, s.now) }
        (false, s.queueAt k (hopNakFrame s k h.pcp))

/-- Line rate in Gb/s by the speed code of ETH_LINK_STATUS (R548). -/
def speedGbps (speed : Byte) : Nat :=
  match speed.toNat with
  | 1 => 50 | 2 => 100 | 3 => 200 | 4 => 400 | 5 => 800 | 6 => 1600
  | _ => 0

/-! ### Packet buffer (R557 to R559) -/

/-- Bytes that a frame of `n` bytes after the TFP header takes in the buffer: with its MAC header, tag and FCS. -/
def bufferBytes (n : Nat) : Nat := n + 46

def OutFrame.bytes (f : OutFrame) : Nat :=
  bufferBytes (f.payload.length + if f.counter.isSome then 40 else 0)

def sumTab (t : Tab Nat) : Nat := t.foldl (fun n e => n + e.2) 0

def Hop.replayBytes (h : Hop) : Nat := h.replay.foldl (fun n r => n + r.frame.bytes) 0

/-- The shared pool of a die: 64 MiB less its lossless headroom. -/
def State.sharedPool (s : State) (die : Nat) : Nat :=
  64 * mib - (List.range 16).foldl (fun n i =>
    let p := s.portCfg (16 * die + i)
    n + 1024 * subPorts p.mode * ((List.range 8).foldl (fun m q =>
      if p.lossless.getLsbD q then m + nth 0 p.headroom q else m) 0)) 0

/-- What lies in a die's shared pool: frames charged there and replay copies (R561). -/
def State.sharedUsed (s : State) (die : Nat) : Nat :=
  s.switch.subs.foldl (fun n e => if e.1 / 128 = die then
    n + sumTab e.2.shared + e.2.hops.foldl (fun m h => m + h.2.replayBytes) 0 else n) 0

def State.sharedFree (s : State) (k : Nat) : Nat := s.sharedPool (k / 128) - s.sharedUsed (k / 128)

def State.alpha (s : State) : Nat := bitsOf s.switch.bufferCtl.toNat 16 3

/-- The shared charge of a sub-port and PCP has reached T = F × 2^−alpha. -/
def State.chargeFull (s : State) (k pcp : Nat) : Bool :=
  decide (s.sharedFree k ≤ (s.subPort k).shared.get 0 pcp * 2 ^ s.alpha)

/-- Where an arriving frame is charged: the shared pool (false) or the headroom (true); none where it is discarded. -/
def State.bufferPlace (s : State) (k pcp n : Nat) : Option Bool :=
  if !s.chargeFull k pcp then some false
  else if s.lossless (k / 8) pcp && decide ((s.subPort k).headroom.get 0 pcp + n ≤ 1024 * nth 0 (s.portCfg (k / 8)).headroom pcp)
  then some true
  else none

def satAdd32 (a : W32) : W32 := if a = BitVec.allOnes 32 then a else a + 1

/-- Charges a frame to its ingress sub-port and PCP. -/
def State.charge (s : State) (k pcp n : Nat) (head : Bool) : State :=
  s.modSub k fun p =>
    if head then { p with headroom := p.headroom.mod 0 pcp fun v => v + n } else { p with shared := p.shared.mod 0 pcp fun v => v + n }

/-- A frame leaves the buffer. -/
def State.uncharge (s : State) (f : OutFrame) : State :=
  match f.ingress with
  | none => s
  | some (k, head) =>
    s.modSub k fun p =>
      if head then { p with headroom := p.headroom.mod 0 f.pcp fun v => v - f.bytes }
      else { p with shared := p.shared.mod 0 f.pcp fun v => v - f.bytes }

/-! ### Pause frames that the device sends (R558) -/

/-- A priority flow control frame for one PCP: EtherType, opcode, enable vector, eight timers (R554), to the address that the
standard reserves for it. -/
def pauseFrame (s : State) (pcp quanta : Nat) : OutFrame :=
  { pcp := s.pcpControl
    rawTo := 0x0180C2000001
    raw := some (beBytes 2 0x8808 ++ beBytes 2 0x0101 ++ beBytes 2 (2 ^ pcp) ++
      (List.range 8).flatMap fun q => beBytes 2 (if q = pcp then quanta else 0)) }

/-- Sends XOFF for a PCP whose shared charge has reached T, and XON once the charges have fallen enough; nothing at a port that
drains (R491). -/
def State.flowPcp (s : State) (k pcp : Nat) : State :=
  if !s.lossless (k / 8) pcp || s.portDrain (k / 8) then s
  else
    let p := s.subPort k
    match p.xoff.get none pcp with
    | none =>
      if s.chargeFull k pcp then
        (s.modSub k fun p => { p with xoff := p.xoff.set none pcp (some s.now) }).queueAt k (pauseFrame s pcp 0xFFFF)
      else s
    | some _ =>
      let slack := 2 * ((s.portCfg (k / 8)).mtu + 22)
      if (p.shared.get 0 pcp + slack) * 2 ^ s.alpha < s.sharedFree k ∧ p.headroom.get 0 pcp = 0 then
        (s.modSub k fun p => { p with xoff := p.xoff.set none pcp none }).queueAt k (pauseFrame s pcp 0)
      else s

/-- Flow control of every sub-port of a die that has a charge or holds its partner paused. -/
def State.flowControl (s : State) (die : Nat) : State :=
  (s.switch.subs.filter fun e => decide (e.1 / 128 = die)).foldl (fun s e =>
    (List.range 8).foldl (fun s q => s.flowPcp e.1 q) s) s

/-! ### Frames that the device has consumed and leaves at ingress (R227, R557) -/

/-- The frame stays in the packet buffer, charged to its sub-port and PCP, so that its PCP is paused in the end. -/
def State.leaveAtIngress (s : State) (h : Hdr) : State :=
  let k := subKey h.port h.sub
  let n := bufferBytes h.length
  let head := (s.bufferPlace k h.pcp n).getD false
  (State.charge { s with switch := { s.switch with atIngress := s.switch.atIngress ++ [(h, head)] } } k h.pcp n head).flowControl (k / 128)

/-- The unit that the frame waits for takes it out of the packet buffer. -/
def State.takeFromIngress (s : State) (h : Hdr) : State :=
  match s.switch.atIngress.find? fun e => decide (e.1 = h) with
  | none => s
  | some e =>
    let s := { s with switch := { s.switch with atIngress := s.switch.atIngress.erase e } }
    (s.uncharge { pcp := h.pcp, payload := zeros h.length, ingress := some (subKey h.port h.sub, e.2) }).flowControl (h.port / 16)

/-- A PCP of the bulk class, or of none (R52, R568). -/
def State.bulkPcp (s : State) (pcp : Nat) : Bool :=
  decide (pcp ≠ s.pcpControl) && decide (pcp ≠ s.pcpEspresso) && decide (pcp ≠ s.pcpReplica)

/-- Bulk-class bytes of a sub-port's frames that wait for the main die (R569). -/
def State.bulkWaiting (s : State) (k : Nat) : Nat :=
  s.switch.atIngress.foldl (fun n e =>
    if subKey e.1.port e.1.sub = k ∧ s.bulkPcp e.1.pcp then n + bufferBytes e.1.length else n) 0

/-- A bulk-class frame that the device consumes is marked while the queue that it joins lies above the ECN threshold: the
response will carry ece (R71, R569). -/
def State.markConsumed (s : State) (h : Hdr) : State :=
  let k := subKey h.port h.sub
  if s.answersTo h.dst && s.bulkPcp h.pcp && decide (bitsOf s.switch.bufferCtl.toNat 0 16 * speedGbps (s.subPort k).speed < 8 * s.bulkWaiting k) then
    State.bump { s with switch := { s.switch with marks := s.switch.marks ++ [(h.src, h.tag)] } } 0 h.port 12
  else s

/-- Counts a frame that the buffer does not take in ETH_SUB_DROP. -/
def State.bufferDrop (s : State) (k pcp : Nat) : State :=
  s.modSub k fun p =>
    if s.lossless (k / 8) pcp then { p with dropHeadroom := satAdd32 p.dropHeadroom } else { p with dropLossy := satAdd32 p.dropLossy }

/-- The frame comes in the encapsulation that its port's record sets (R62). -/
def State.encapOk (s : State) (h : Hdr) : Bool :=
  match h.encap with
  | .layer2 e => !(s.portCfg h.port).ipv6 && decide (e = s.boot.cfg.device.etherType)
  | .udp p _ => (s.portCfg h.port).ipv6 && decide (p = s.boot.cfg.device.udpPort)

/-- Steps 1 to 3 of R72 for a frame whose fixed payload, trailer included, is `fixed` bytes (R63, R69), which the packet
buffer takes (R557, R559); `k` goes on. A port
that drains accepts no such frame (R491); without a live MACsec association only opcodes 0x70 to 0x75 pass (`mgmt`,
R535). -/
def linkChecks (mgmt : Bool) (h : Hdr) (fixed : Nat) (k : State → State) (s : State) : State :=
  if !s.arrives h.port h.sub then s
  else
    let s := s.advanceTo h.now
    if s.portDrain h.port then s
    else
      match h.check with
      | .fcsError => s.bump 0 h.port 2
      | .macsecFailure => s.bump 0 h.port 15
      | .passed =>
        if !mgmt && s.macClosed h.port h.sub then s.bump 0 h.port 15
        else
          let s := s.bump 0 h.port 0
          if !h.tagged then s.bump 0 h.port 13
          else if !s.encapOk h then s.bump 0 h.port 14
          else if (s.bufferPlace (subKey h.port h.sub) h.pcp (bufferBytes h.length)).isNone then
            s.bufferDrop (subKey h.port h.sub) h.pcp
          else
            let (goes, s) := hopCheck h s
            if !goes then s
            else if h.received < h.length || h.length < fixed then s.bump 0 h.port 14
            else k (s.markConsumed h)

/-- Those steps for a frame of version 1, which has no hop check (R114). -/
def linkChecksV1 (h : Hdr) (k : State → State) (s : State) : State :=
  if !s.arrives h.port h.sub then s
  else
    let s := s.advanceTo h.now
    if s.portDrain h.port then s
    else
      match h.check with
      | .fcsError => s.bump 0 h.port 2
      | .macsecFailure => s.bump 0 h.port 15
      | .passed =>
        if s.macClosed h.port h.sub then s.bump 0 h.port 15
        else
          let s := s.bump 0 h.port 0
          if !h.tagged then s.bump 0 h.port 13
          else if !s.encapOk h then s.bump 0 h.port 14
          else if (s.bufferPlace (subKey h.port h.sub) h.pcp (bufferBytes h.length)).isNone then
            s.bufferDrop (subKey h.port h.sub) h.pcp
          else if h.received < h.length then s.bump 0 h.port 14
          else k (s.markConsumed h)

/-- A frame consumed at one of the device's AIDs (R18). A frame for another AID is no command of the consumed rows. -/
def consumed (h : Hdr) (fixed : Nat) (k : State → State) (s : State) : State :=
  if s.answersTo h.dst then linkChecks false h fixed k s else s

/-- The fixed payload of an opcode, in a request or notice and in a response, trailer included (R69, R75, R94). -/
def fixedPayload (op : Byte) (resp : Bool) : Nat :=
  match op.toNat, resp with
  | 0x01, false | 0x02, false | 0x03, false | 0x04, false | 0x05, false => 16
  | 0x01, true | 0x02, true | 0x03, true => 8
  | 0x06, false => 8
  | 0x07, false => 48 | 0x07, true => 16
  | 0x08, false => 16 | 0x08, true => 8
  | 0x10, false | 0x11, false | 0x12, false | 0x14, false | 0x15, false | 0x17, false | 0x18, false => 16
  | 0x13, false | 0x16, false => 80
  | 0x10, true | 0x11, true | 0x12, true => 8
  | 0x20, false | 0x21, false | 0x22, false | 0x23, false | 0x24, false => 16
  | 0x20, true | 0x22, true | 0x23, true => 8
  | 0x25, false | 0x25, true => 8
  | 0x30, false => 16 | 0x30, true => 8
  | 0x31, false => 28
  | 0x32, false => 16
  | 0x33, false => 32
  | 0x34, false => 8
  | 0x38, false => 48 | 0x38, true => 8
  | 0x39, false => 24
  | 0x3A, false => 64 | 0x3A, true => 16
  | 0x3C, false | 0x3D, false => 44
  | 0x3C, true | 0x3D, true => 8
  | 0x40, false | 0x41, false | 0x42, false | 0x43, false | 0x40, true | 0x41, true | 0x42, true | 0x43, true => 48
  | 0x50, false | 0x51, false => 24
  | 0x60, false => 16
  | 0x70, false | 0x71, false => 48
  | 0x70, true | 0x71, true | 0x74, true | 0x75, true => 40
  | 0x72, false | 0x72, true | 0x73, false => 104
  | 0x74, false => 56
  | 0x75, false => 48
  | _, _ => 0

/-- The response to a request that the device has issued: steps 1 to 3 of R72, then the request that it answers, by its tag, from the
agent that the request went to. Any other response has nobody to wait for it. -/
def answerTo (h : Hdr) (k : Issued → State → State) (s : State) : State :=
  let asked := s.reqs.issued.find? fun r => decide (r.id = h.tag.toNat) && decide (r.dst = h.src)
  consumed h (match asked with
    | some r => fixedPayload r.opcode true
    | none => 0) (fun s => match asked with
    | some r => k r s
    | none => s) s

/-- A frame that R73 accepts from nobody: discarded, and counted against its composition or the device. -/
def senderRejected (h : Hdr) (s : State) : State :=
  if h.cid = 0 then s.bump 11 0 6 else s.violation h.cid h.src h.port 7

def State.registered (s : State) (a : Aid) : Bool := s.boot.cfg.managers.any fun m => decide (m.aid = a)

/-- The tag of a trailer verifies under the sender's key (R94, R532). -/
def tagOk (h : Hdr) (t : Trailer) (s : State) : Bool :=
  decide (t.tag = Config.kmac (s.managerKey h.src) (t.text ++ beBytes 8 t.counter.toNat) mgmtString)

/-- The sender is a registered manager, the counter exceeds the last one accepted from it, and its upper bits hold the current
epoch (R95, R532). -/
def trailerFresh (h : Hdr) (t : Trailer) (s : State) : Bool :=
  s.registered h.src && decide ((s.sec.lastCounter.get 0 h.src.toNat).toNat < t.counter.toNat) &&
    decide (bitsOf t.counter.toNat 40 24 = s.sec.epoch)

/-- The trailer check of authenticated opcodes (R95, R532). -/
def trailerOk (h : Hdr) (t : Trailer) (s : State) : Bool := trailerFresh h t s && tagOk h t s

/-- What follows the header checks of an authenticated frame: the trailer is checked and its counter recorded (R72 step 5). -/
def trailerChecked (h : Hdr) (t : Trailer) (k : State → State) (s : State) : State :=
  if trailerOk h t s then
    k { s with sec := { s.sec with lastCounter := s.sec.lastCounter.set 0 h.src.toNat t.counter } }
  else s.bump 11 0 5

/-- An authenticated step frame of a registered manager (R72 step 5, R95). -/
def authenticated (h : Hdr) (t : Trailer) (fixed : Nat) (k : State → State) (s : State) : State :=
  consumed h (fixed + 40) (trailerChecked h t k) s

/-- An authenticated management frame, opcodes 0x70 to 0x75 (R72 step 5, R95, R535). -/
def managed (h : Hdr) (t : Trailer) (fixed : Nat) (k : State → State) (s : State) : State :=
  if s.answersTo h.dst then linkChecks true h (fixed + 40) (trailerChecked h t k) s else s

/-- A request whose header has a non-zero status or reserved field is answered by `bad` (R67, R70). -/
def zeroChecked (h : Hdr) (bad k : State → State) (s : State) : State := if h.zeroed then k s else bad s

/-- Steps 1 to 5 of R427: none where they hold, else the reason of R431. -/
def memberCheck (s : State) (h : Hdr) : Option Nat :=
  match s.activeIdx h.cid with
  | none => some 1
  | some e =>
    let c := s.compAt e
    if !c.accepts h.gen then some 2
    else if s.comps.expelled.contains h.src then some 3
    else if !c.member h.src then some 4
    else
      let mask := match c.agent h.src with
        | some a => a.ports
        | none => 0
      if !mask.getLsbD h.port then some 5 else none

/-- A region that a frame names and that belongs on this device is ASSIGNED to the cid. A pointer to a region of another
device is checked there. -/
def regionCheck (s : State) (cid : Cid) (rh : Handle) : Bool :=
  if s.answersTo (handleAid rh) then s.assignedTo rh cid else true

/-- The composition check (R427): the regions of the address block must lie on this device; those of pointers are checked
where they lie. -/
def compositionCheck (s : State) (h : Hdr) (block pointers : List Handle) : Option Nat :=
  match memberCheck s h with
  | some r => some r
  | none =>
    if block.all (fun rh => s.assignedTo rh h.cid) && pointers.all (fun rh => regionCheck s h.cid rh) then none
    else some 6

/-- What follows the header checks of a member's request: admission (R74, R444), the field checks (R70, R641: `valid`
answers the status of a failing one), then the composition check with the answer of R102 for a violation; under cid 0 no frame
comes from a composition member, so R73 discards it; `k` goes on (R72 steps 6 and 7). -/
def memberChecked (h : Hdr) (opcode : Byte) (valid : Option Byte) (fail zero : List Byte) (block pointers : List Handle)
    (k : State → State) (s : State) : State :=
  if !s.boot.admitted || s.comps.selfExpelled then s.respond h opcode stNotAdmitted fail
  else match if h.zeroed then valid else some stInvalid with
    | some st => s.respond h opcode st fail
    | none =>
      match compositionCheck s h block pointers with
      | some reason =>
        if h.cid = 0 then senderRejected h s else (s.violation h.cid h.src h.port reason).respond h opcode stOk zero
      | none => k s

/-- A member's request. -/
def memberRequest (h : Hdr) (opcode : Byte) (fixed : Nat) (valid : Option Byte) (fail zero : List Byte)
    (block pointers : List Handle) (k : State → State) (s : State) : State :=
  consumed h fixed (memberChecked h opcode valid fail zero block pointers k) s

end Sys2Proof.Machine
end

