-- ==== Sys2Proof/Machine/DataFrames.lean ====
section
/-! DEFINITION. Data, coherence and ownership frames (03, 04, 05): READ to PUBLISH, the C_ requests, OWN_TAKE and OWN_GIVE, and
the events that end what they wait for. -/
namespace Sys2Proof.Machine

abbrev Out := Host.Outcome State Fault Refusal

/-- The local copy of a failed member's region that this device serves by reconstruction: the failed position (R411). -/
def State.standsFor (s : State) (rh : Handle) : Option Nat :=
  if handleAid rh = s.aid then none
  else
    let g := s.groupOf ((s.localRegion rh).getD 0)
    if g.kind = 2 then
      match g.positionOf (handleAid rh) (handleIndex rh) with
      | some p => if g.hasFailed p then some p else none
      | none => none
    else none

/-- Bits of the rights field (R31). -/
abbrev rightRead : Nat := 0
abbrev rightWrite : Nat := 1
abbrev rightAtomic : Nat := 2

/-- The composition's agent holds a right at a region (R430). Rights that a handoff offer removed count as held for a write or
atomic alone (`ordered`): the refusal for that is HANDOFF_PENDING (R57, R58). -/
def State.hasRight (s : State) (h : Hdr) (ordered : Bool) (i right : Nat) : Bool :=
  let r := s.region i
  let ro := match s.activeIdx h.cid with
    | some e => (s.compAt e).isReadOnly h.src
    | none => true
  (r.rights.getLsbD right || (ordered && r.heldRights.getLsbD right)) && (decide (right = rightRead) || !ro)

/-! ### Objects (R55, R61)

An object of the device's own has its index as key. The record of another anchor's object has that anchor's AID in its key: a
holder of the object's first region keeps it, and is itself the anchor once it has taken the region over (R61, R411). -/

def objectKey (own : Aid) (oh : Handle) : Nat :=
  if handleAid oh = own then handleIndex oh else 2 ^ 40 + oh.toNat

/-- The handle of the object with a key. -/
def State.objectHandle (s : State) (key : Nat) : Handle :=
  if key < 2 ^ 40 then mkHandle s.aid key else BitVec.ofNat 40 key

/-- Records on this device of the regions of an object for which the device is the anchor; none for the copy of another anchor's
record. -/
def State.objectRegions (s : State) (key : Nat) (o : ObjRec) : List Nat :=
  (o.regions.filter fun j => decide (j ≠ 0)).filterMap fun j =>
    s.localRegion (mkHandle (handleAid (s.objectHandle key)) j)

/-- The device is the anchor of an object: the object is its own, or its first region has been taken over. -/
def State.anchors (s : State) (key : Nat) : Bool :=
  decide (key < 2 ^ 40) ||
  match (s.store.objects.get {} key).regions with
  | j :: _ => (s.localRegion (mkHandle (handleAid (s.objectHandle key)) j)).isSome
  | [] => false

/-- The region belongs to an object under handoff from this composition (R58). -/
def State.handoffPending (s : State) (i : Nat) (cid : Cid) : Bool :=
  s.store.objects.any fun e => decide (e.2.state = 2) && decide (e.2.ownerCid = cid) && (s.objectRegions e.1 e.2).contains i

/-- The agent that a write counts for: the on-behalf AID while it is a live member, else the sender (R81, R164). -/
def State.ownerOf (s : State) (h : Hdr) (onBehalf : Aid) : Aid :=
  match s.activeIdx h.cid with
  | some e => if onBehalf ≠ 0 && (s.compAt e).member onBehalf then onBehalf else h.src
  | none => h.src

/-- Every 2 MiB span that an access touches is owned by another agent. -/
def State.allBarred (s : State) (i off len : Nat) (owner : Aid) : Bool :=
  !(s.region i).coherent && (List.range ((off + len - 1) / chunkBytes - off / chunkBytes + 1)).all fun k =>
    let o := s.store.spans.get 0 (spanKey i (off / chunkBytes + k))
    decide (o ≠ 0) && decide (o ≠ owner)

/-- The first refusal that concerns the whole of an admitted request, in the order of R642. -/
def State.refusal (s : State) (h : Hdr) (a : Access) (right : Nat) : Option Byte :=
  let r := s.region a.region
  let coherence := match a.kind with
    | .cReadShared | .cReadOwn | .cUpgrade | .cWriteback => true
    | _ => false
  if a.writes && s.fencedCid h.cid then some stAborted
  else if coherence && !r.coherent then some stInvalid
  else if r.coherent && decide (h.pcp ≠ s.coherencePcp h.cid) then some stInvalid
  else if a.writes && !decide (a.kind = .cReadOwn) && !decide (a.kind = .cUpgrade) && s.groupMissing a.region then some stBusy
  else if !s.hasRight h a.kind.isOrderedWrite a.region right then some stDenied
  else if r.size < a.offset + a.len then some stBounds
  else if a.kind.isOrderedWrite && s.handoffPending a.region h.cid then some stHandoffPending
  else if a.kind.isOrderedWrite && s.allBarred a.region a.offset a.len a.owner then some stNotOwner
  else none

/-- Admits a data or coherence request that passed the composition check, or answers the refusal of R642. -/
def admitAccess (h : Hdr) (opcode : Byte) (fail : List Byte) (rh : Handle) (right reqBytes respBytes : Nat) (a : Access)
    (s : State) : State :=
  let a := { a with origin := .frame h opcode, src := h.src, cid := h.cid, gen := h.gen
                    region := (s.localRegion rh).getD 0, position := s.standsFor rh }
  match s.refusal h a right with
  | some st => s.respond h opcode st fail
  | none =>
    let (s, e) := s.enterEspresso h reqBytes respBytes
    s.submit { a with espresso := e }

/-- Range checks of a read (R70, R79, R131). -/
def readValid (a : Addr) : Option Byte :=
  if a.sub ≠ 0 ∨ a.count.toNat < 1 ∨ 4096 < a.count.toNat then some stInvalid else none

def readFrame (h : Hdr) (opcode : Byte) (kind : AccKind) (a : Addr) (s : State) : State :=
  memberRequest h opcode 16 (readValid a) (zeros 8) (zeros (8 + a.count.toNat)) [a.rh] []
    (admitAccess h opcode (zeros 8) a.rh rightRead 16 (8 + a.count.toNat)
      { kind := kind, offset := a.offset.toNat, len := a.count.toNat }) s

/-- READ (R115). -/
def execRead (h : Hdr) (a : Addr) (s : State) : Out := .next (readFrame h 0x01 .read a s)

/-- READ_ACQUIRE, served as a READ_VOLATILE (R134). -/
def execReadAcquire (h : Hdr) (a : Addr) (s : State) : Out := .next (readFrame h 0x02 .readAcquire a s)

/-- READ_VOLATILE (R133). -/
def execReadVolatile (h : Hdr) (a : Addr) (s : State) : Out := .next (readFrame h 0x03 .readVolatile a s)

/-- Field checks of a write (R70, R641). -/
def writeValid (h : Hdr) (a : Addr) (data : List Byte) : Option Byte :=
  let n := bitsOf a.count.toNat 0 13
  if a.sub ≠ 0 ∨ bitsOf a.count.toNat 13 3 ≠ 0 ∨ data.length ≠ n ∨ h.length ≠ 16 + n ∨ n < 1 ∨ 4096 < n then some stInvalid
  else none

def writeFrame (h : Hdr) (opcode : Byte) (kind : AccKind) (a : Addr) (data : List Byte) (s : State) : State :=
  memberRequest h opcode 16 (writeValid h a data) [] [] [a.rh] []
    (fun s => admitAccess h opcode [] a.rh rightWrite (16 + data.length) 0
      { kind := kind, offset := a.offset.toNat, len := data.length, data := data
        owner := s.ownerOf h (BitVec.ofNat 16 (bitsOf a.count.toNat 16 16)) } s) s

/-- WRITE (R116). -/
def execWrite (h : Hdr) (a : Addr) (data : List Byte) (s : State) : Out := .next (writeFrame h 0x04 .write a data s)

/-- WRITE_FLAGGED: held behind every earlier write and atomic of its source, then a WRITE (R125). -/
def execWriteFlagged (h : Hdr) (a : Addr) (data : List Byte) (s : State) : Out :=
  .next (writeFrame h 0x05 .flagged a data s)

def State.setWaiting (s : State) (l : List Waiting) : State := { s with reqs := { s.reqs with waiting := l } }

def State.takeId (s : State) : Nat × State :=
  (s.reqs.nextId, { s with reqs := { s.reqs with nextId := s.reqs.nextId + 1 } })

/-- An earlier write or atomic of an agent to the device is not performed (R82). -/
def State.earlierOfAgent (s : State) (src : Aid) (id : Nat) : Bool :=
  s.reqs.held.any fun b => decide (b.id < id) && decide (b.src = src) && b.kind.isOrderedWrite

/-- RELEASE: completes at once, or waits for the earlier writes and atomics of its agent (R82, R130). -/
def execRelease (h : Hdr) (s : State) : Out :=
  .next (memberRequest h 0x06 8 none [] [] [] [] (fun s =>
    let (id, s) := s.takeId
    if s.earlierOfAgent h.src id then s.setWaiting (s.reqs.waiting ++ [{ id := id, h := h }])
    else s.respond h 0x06 stOk []) s)

/-- RELEASE_COMPLETE: the earlier writes of a waiting RELEASE are performed (R82). -/
def execReleaseComplete (now id : Nat) (s : State) : Out :=
  .next (s.serving fun s => let s := s.advanceTo now
    match s.reqs.waiting.find? fun w => decide (w.id = id) && w.give.isNone with
    | some w =>
      if s.earlierOfAgent w.h.src id then s
      else (s.setWaiting (s.reqs.waiting.filter fun x => decide (x.id ≠ id))).respond w.h 0x06 stOk []
    | none => s)

/-- Field checks of an atomic (R70, R84). -/
def atomicValid (a : Addr) : Option Byte :=
  if !atomicSizeOk a.sub.toNat a.count.toNat ∨ a.offset.toNat % a.count.toNat ≠ 0 then some stInvalid else none

/-- ATOMIC (R83, R84, R138). -/
def execAtomic (h : Hdr) (a : Addr) (opA opB : BitVec 128) (s : State) : Out :=
  .next (memberRequest h 0x07 48 (atomicValid a) (zeros 16) (zeros 16) [a.rh] []
    (admitAccess h 0x07 (zeros 16) a.rh rightAtomic 48 16
      { kind := .atomic, owner := h.src, offset := a.offset.toNat, len := a.count.toNat, atomicOp := a.sub.toNat
        opA := opA.toNat, opB := opB.toNat }) s)

/-- PUBLISH (R85, R168, R169). -/
def execPublish (h : Hdr) (rh : Handle) (expected : W64) (s : State) : Out :=
  .next (memberRequest h 0x08 16 none (zeros 8) (zeros 8) [rh] []
    (admitAccess h 0x08 (zeros 8) rh (if expected = BitVec.allOnes 64 then rightRead else rightWrite) 16 8
      { kind := .publish, owner := h.src, expected := expected }) s)

/-- A parked flagged store or PUBLISH goes on once its source's earlier writes are performed. -/
def unpark (now id : Nat) (kind : AccKind) (s : State) : State :=
  s.serving fun s =>
  let s := s.advanceTo now
  match s.heldAccess id with
  | some a =>
    if a.kind = kind ∧ a.parked ∧ ¬ s.earlierWrites a.src a.cid id then
      (s.modHeld id fun a => { a with parked := false }).pump
    else s
  | none => s

/-- FLAGGED_STORE_PERFORM (R125). -/
def execFlaggedStorePerform (now id : Nat) (s : State) : Out := .next (unpark now id .flagged s)

/-- PUBLISH_PERFORM (R168). -/
def execPublishPerform (now id : Nat) (s : State) : Out := .next (unpark now id .publish s)

/-! ### Coherence requests -/

/-- Field checks of a coherence request (R70, R86). -/
def cohValid (a : Addr) : Option Byte :=
  if a.sub ≠ 0 ∨ a.offset.toNat % 64 ≠ 0 ∨ bitsOf a.count.toNat 0 16 ≠ 0 then some stInvalid else none

def cohFrame (h : Hdr) (opcode : Byte) (fixed : Nat) (kind : AccKind) (right : Nat) (fail zero : List Byte) (a : Addr)
    (data : List Byte) (s : State) : State :=
  memberRequest h opcode fixed (cohValid a) fail zero [a.rh] []
    (admitAccess h opcode fail a.rh right fixed zero.length
      { kind := kind, owner := h.src, offset := a.offset.toNat, len := 64, data := data }) s

/-- C_READ_SHARED (R148). -/
def execCReadShared (h : Hdr) (a : Addr) (s : State) : Out :=
  .next (cohFrame h 0x10 16 .cReadShared rightRead (zeros 8) (zeros 72) a [] s)

/-- C_READ_OWN (R148). -/
def execCReadOwn (h : Hdr) (a : Addr) (s : State) : Out :=
  .next (cohFrame h 0x11 16 .cReadOwn rightWrite (zeros 8) (zeros 72) a [] s)

/-- C_UPGRADE (R148). -/
def execCUpgrade (h : Hdr) (a : Addr) (s : State) : Out :=
  .next (cohFrame h 0x12 16 .cUpgrade rightWrite (zeros 8) (zeros 8) a [] s)

/-- C_WRITEBACK (R148): 64 B of line data follow the address block. -/
def execCWriteback (h : Hdr) (a : Addr) (data : List Byte) (s : State) : Out :=
  .next (cohFrame h 0x13 80 .cWriteback rightWrite [] [] a (sliceBytes data 0 64) s)

/-- C_SNOOP_INV is accepted from nobody (R73): the device never holds a line under a grant. R74 answers every coherence request before
admission with NOT_ADMITTED, and R73 has this one discarded: it is discarded, and counted, before admission too (DESIGN CHOICE, log entry
98). -/
def execCSnoopInv (h : Hdr) (_a : Addr) (s : State) : Out := .next (consumed h 16 (senderRejected h) s)

/-- C_SNOOP_FWD is accepted from nobody (R73), before admission too (log entry 98). -/
def execCSnoopFwd (h : Hdr) (_a : Addr) (s : State) : Out := .next (consumed h 16 (senderRejected h) s)

/-- The composition check of C_DATA, whose region has to be ASSIGNED to the cid (R427 step 6). The C_DATA that a revoke's own recall
asks for names a region that is DRAINING: home has asked for it, so it passes (R159; DEDUCED, log entry 99). -/
def cDataCheck (s : State) (h : Hdr) (rh : Handle) (line : Nat) : Option Nat :=
  match memberCheck s h with
  | some r => some r
  | none =>
    if s.assignedTo rh h.cid then none
    else
      match s.localRegion rh with
      | none => some 6
      | some i =>
        let asked : Bool := match (s.findEntry (dirRegion i (s.standsFor rh)) line).bind s.transition with
          | some t => t.toHome && t.agents.contains h.src
          | none => false
        if (s.region i).cid = h.cid ∧ (s.region i).state = .draining ∧ asked = true then none else some 6

/-- C_DATA to home: merged into the tier for the transition that awaits it, or discarded (R148, R407 step 4, R427). One under cid 0
comes from no composition member, so R73 discards it. -/
def execCData (h : Hdr) (a : Addr) (data : List Byte) (s : State) : Out :=
  .next (consumed h 80 (fun s =>
    let line := a.offset.toNat / 64
    if h.cid = 0 then senderRejected h s
    else match cDataCheck s h a.rh line with
    | some reason => s.violation h.cid h.src h.port reason
    | none =>
      let i := (s.localRegion a.rh).getD 0
      match s.findEntry (dirRegion i (s.standsFor a.rh)) line with
      | none => s
      | some k =>
        match s.transition k with
        | none => s
        | some t =>
          if !t.toHome || !t.agents.contains h.src || t.gotData then s
          else if t.after = .discard || s.fencedCid (s.dirEntry k).cid then
            s.modTransition k fun t => { t with gotData := true }
          else
            (s.modTransition k fun t => { t with gotData := true, merging := true }).submit
              { kind := .merge, origin := .transition k, src := s.aid, owner := s.aid, cid := h.cid, gen := h.gen
                region := i, position := s.standsFor a.rh, offset := 64 * line, len := 64, data := sliceBytes data 0 64 }) s)

/-- A holder has answered a snoop (R149, R161). -/
def State.snoopAnswered (s : State) (id k : Nat) (agent : Aid) (status : Byte) : State :=
  let s := { s with reqs := { s.reqs with issued := s.reqs.issued.filter fun x => decide (x.id ≠ id) } }
  ((s.modTransition k fun t =>
    { t with agents := t.agents.filter fun a => decide (a ≠ agent)
             present := t.present || decide (status = stOk) }).finishTransition k).pump

/-- SNOOP_ANSWER: the answer to a snoop of the device arrives, however late (R149, R161). -/
def execSnoopAnswer (h : Hdr) (s : State) : Out :=
  .next (answerTo h (fun r s =>
    match r.req with
    | .snoop k agent => s.snoopAnswered r.id k agent h.status
    | _ => s) s)

/-! ### Ownership spans (R164 to R167) -/

def State.setSpan (s : State) (i chunk : Nat) (a : Aid) : State :=
  { s with store := { s.store with spans := s.store.spans.set 0 (spanKey i chunk) a } }

/-- What OWN_TAKE and OWN_GIVE share: checks in the order of R642, then the row of R165. -/
def ownRequest (h : Hdr) (opcode : Byte) (a : Addr) (k : Nat → State → State) (s : State) : State :=
  memberRequest h opcode 16 (cohValid a) [] [] [a.rh] [] (fun s =>
    let i := (s.localRegion a.rh).getD 0
    if (s.region i).coherent then s.respond h opcode stInvalid []
    else if !s.hasRight h false i rightWrite then s.respond h opcode stDenied []
    else if (s.region i).size ≤ a.offset.toNat then s.respond h opcode stBounds []
    else k i s) s

/-- OWN_TAKE (R165). -/
def execOwnTake (h : Hdr) (a : Addr) (s : State) : Out :=
  .next (ownRequest h 0x17 a (fun i s =>
    let c := a.offset.toNat / chunkBytes
    let o := s.store.spans.get 0 (spanKey i c)
    if o = 0 then (s.setSpan i c h.src).respond h 0x17 stOk []
    else if o = h.src then s.respond h 0x17 stOk []
    else s.respond h 0x17 stBusy []) s)

/-- OWN_GIVE: the owner's earlier writes and atomics are performed before the owner is cleared (R165). -/
def execOwnGive (h : Hdr) (a : Addr) (s : State) : Out :=
  .next (ownRequest h 0x18 a (fun i s =>
    let c := a.offset.toNat / chunkBytes
    if s.store.spans.get 0 (spanKey i c) ≠ h.src then s.respond h 0x18 stNotOwner []
    else
      let (id, s) := s.takeId
      if s.earlierOfAgent h.src id then
        s.setWaiting (s.reqs.waiting ++ [{ id := id, h := h, give := some (i, c) }])
      else (s.setSpan i c 0).respond h 0x18 stOk []) s)

/-- OWN_GIVE_COMPLETE: the earlier writes of the giver are performed (R165). -/
def execOwnGiveComplete (now id : Nat) (s : State) : Out :=
  .next (s.serving fun s => let s := s.advanceTo now
    match s.reqs.waiting.find? fun w => decide (w.id = id) with
    | some w =>
      match w.give with
      | some (i, c) =>
        if s.earlierOfAgent w.h.src id then s
        else
          let s := s.setWaiting (s.reqs.waiting.filter fun x => decide (x.id ≠ id))
          let s := if s.store.spans.get 0 (spanKey i c) = w.h.src then s.setSpan i c 0 else s
          s.respond w.h 0x18 stOk []
      | none => s
    | none => s)

end Sys2Proof.Machine
end

