-- ==== Sys2Proof/Machine/Objects.lean ====
section
/-! DEFINITION. Request-state objects and their handoff between agents (R54 to R60), and the revoke that drains a region. -/
namespace Sys2Proof.Machine

def State.object (s : State) (i : Nat) : ObjRec := s.store.objects.get {} i

def State.setObject (s : State) (i : Nat) (o : ObjRec) : State :=
  { s with store := { s.store with objects := s.store.objects.set {} i o } }

def State.setRegions (s : State) (t : Tab Region) : State := { s with store := { s.store with regions := t } }

/-- Recalls every entry of a region that no transition holds, by C_SNOOP_INV with target home (R159). -/
def State.recallRegion (s : State) (i : Nat) : State :=
  (s.dir.entries.filter fun e => decide (regionOfDir e.2.region = i) && decide (e.2.state ≠ .free)).foldl (fun s e =>
    let s := if (s.dirEntry e.1).busy then s else s.resolveLost e.1
    let d := s.dirEntry e.1
    if d.busy || decide (d.state = .free) || decide (d.state = .lost) then s
    else s.startTransition e.1 false (s.sharers e.1 false none) s.aid .home) s

def State.regionEntries (s : State) (i : Nat) : Bool :=
  s.dir.entries.any fun e => decide (regionOfDir e.2.region = i) && decide (e.2.state ≠ .free)

/-! ### Copies of a record at the holders of the first region (R61)

The manual names the traffic and no frame for it. The model takes a MIRROR_WRITE whose sub is 0xFE: its address block names the
holder's region, its offset is the object handle, its count 64, and its data the record as R55 lays it out (DESIGN CHOICE, log
entry 18). -/

/-- The object record (R55). -/
def ObjRec.bytes (o : ObjRec) : List Byte :=
  leBytes 1 o.state ++ leBytes 1 o.count ++ leBytes 2 o.ownerAid.toNat ++ leBytes 2 o.ownerCid.toNat ++
    leBytes 2 o.recvAid.toNat ++ leBytes 2 o.recvCid.toNat ++ zeros 2 ++ leBytes 4 o.seq.toNat ++ leBytes 8 o.deadline ++
    sliceBytes (o.regions.flatMap (leBytes 3)) 0 36 ++ zeros 4

/-- A record from its bytes. -/
def parseObject (l : List Byte) : ObjRec :=
  { state := fieldLe l 0 1, count := fieldLe l 1 1, ownerAid := BitVec.ofNat 16 (fieldLe l 2 2)
    ownerCid := BitVec.ofNat 16 (fieldLe l 4 2), recvAid := BitVec.ofNat 16 (fieldLe l 6 2)
    recvCid := BitVec.ofNat 16 (fieldLe l 8 2), seq := BitVec.ofNat 32 (fieldLe l 12 4), deadline := fieldLe l 16 8
    regions := (List.range (min 12 (fieldLe l 1 1))).map fun j => fieldLe l (24 + 3 * j) 3 }

def objectSub : Nat := 0xFE

/-- Sends an object's record to one holder. -/
def State.sendObject (s : State) (key i : Nat) (o : ObjRec) (t : Target) : State :=
  let cid := (s.region i).cid
  s.issue (.object key)
    { opcode := 0x50, dst := t.aid, cid := cid, gen := s.genOf cid, pcp := s.pcpReplica
      payload := addrBytes (mkHandle t.aid t.region) objectSub (s.objectHandle key).toNat 64 ++
        beBytes 4 (s.replicaStepOf cid).toNat ++ zeros 4 ++ o.bytes }

/-- The first region of an object as it lies here, and the failed position for which the device stands in there. -/
def State.firstRegion (s : State) (key : Nat) (o : ObjRec) : Option (Nat × Option Nat) :=
  match o.regions with
  | j :: _ =>
    let rh := mkHandle (handleAid (s.objectHandle key)) j
    (s.localRegion rh).map fun i => (i, s.standsFor rh)
  | [] => none

/-- Changes an object's record; where the record itself changes, the holders of its first region are sent the new one (R61). -/
def State.putObject (s : State) (key : Nat) (o : ObjRec) : State :=
  let old := s.object key
  let s := s.setObject key o
  if o.bytes = old.bytes then s
  else
    let first := match s.firstRegion key o with
      | some x => some x
      | none => s.firstRegion key old
    match first with
    | some (i, stands) => (s.replicaTargets i stands 0).foldl (fun s t => s.sendObject key i o t) s
    | none => s

/-- Revokes an ASSIGNED region: it drains, and its directory entries are recalled (R32, R159). -/
def State.revoke (s : State) (i : Nat) : State :=
  let r := s.region i
  let s := s.setRegion i { r with state := .draining, lastDrain := (r.cid, r.gen) }
  if r.coherent then s.recallRegion i else s

/-- Assigns a region to a composition: every span loses its owner (R32, R167, R426). -/
def State.assign (s : State) (i : Nat) (cid : Cid) (gen : Gen) (rights : Byte) : State :=
  let s := s.modRegion i fun r => { r with state := .assigned, cid := cid, gen := gen, rights := rights &&& 7, heldRights := 0 }
  { s with store := { s.store with spans := s.store.spans.drop (spanKey i 0) (spanKey (i + 1) 0) } }

/-- The key of the object that a handle names, where this device is its anchor: the owner of the handle's AID, or the device that
has taken over that AID's object (R56, R61). -/
def State.objectIdx (s : State) (oh : Handle) : Option Nat :=
  let key := objectKey s.aid oh
  if handleAid oh = s.aid then if handleIndex oh < s.boot.cfg.carve.objects then some key else none
  else if s.anchors key then some key else none

/-- HANDOFF_DONE to a party, naming the owner (R87). -/
def State.sendDone (s : State) (i : Nat) (o : ObjRec) (dest : Aid) (cid : Cid) : State :=
  s.send { opcode := 0x24, notice := true, dst := dest, src := s.aid, cid := cid, gen := s.genOf cid, pcp := s.pcpControl
           payload := beBytes 5 (s.objectHandle i).toNat ++ zeros 3 ++ beBytes 4 o.seq.toNat ++
             beBytes 2 o.ownerAid.toNat ++ beBytes 2 o.ownerCid.toNat }

/-- Ends a handoff without transfer: the sender's rights return and both parties hear that it still owns the object
(R59). -/
def State.revertHandoff (s : State) (i : Nat) : State :=
  let o := s.object i
  let s := (s.objectRegions i o).foldl (fun s j =>
    s.modRegion j fun r => { r with rights := r.rights ||| r.heldRights, heldRights := 0 }) s
  let o' := { o with state := 1, recvAid := 0, recvCid := 0, deadline := 0, accepting := false, noticeSent := false }
  ((s.putObject i o').sendDone i o' o.ownerAid o.ownerCid).sendDone i o' o.recvAid o.recvCid

/-- The seq payload of the responses to OFFER, ACCEPT and DECLINE (R87). -/
def seqPayload (seq : W32) : List Byte := beBytes 4 seq.toNat ++ zeros 4

/-- An object frame of a member (R72, R427), from a sender that its row of the opcode map names (R73: `sender`, on the object's
record); `k` gets the object's index. -/
def objectRequest (h : Hdr) (opcode : Byte) (fixed : Nat) (oh : Handle) (sender : ObjRec → Bool) (k : Nat → State → State)
    (s : State) : State :=
  consumed h fixed (fun s =>
    if s.boot.admitted && !s.comps.selfExpelled && h.zeroed && ((s.objectIdx oh).any fun i => !sender (s.object i)) then
      senderRejected h s
    else
      memberChecked h opcode none (zeros 8) (zeros 8) [] [] (fun s =>
        match s.objectIdx oh with
        | some i => k i s
        | none => s.respond h opcode stInvalid (zeros 8)) s) s

/-- HANDOFF_OFFER (R57 step 1, R58, R60). An offer from owner_aid under another cid than owner_cid is answered NOT_OWNER like one
of another agent: the manual speaks of the agent alone (DESIGN CHOICE, log entry 86). -/
def execHandoffOffer (h : Hdr) (oh : Handle) (recvAid : Aid) (recvCid : Cid) (s : State) : Out :=
  .next (objectRequest h 0x20 16 oh (fun _ => true) (fun i s =>
    let o := s.object i
    if o.ownerAid ≠ h.src ∨ o.ownerCid ≠ h.cid ∨ o.state = 0 then s.respond h 0x20 stNotOwner (seqPayload o.seq)
    else if o.state = 2 then s.respond h 0x20 stBusy (seqPayload o.seq)
    else
      let o' := { o with
        state := 2, recvAid := recvAid, recvCid := recvCid, seq := o.seq + 1, noticeSent := false, accepting := false
        deadline := s.now / 1000 + s.boot.cfg.device.handoffDeadline }
      let s := (s.objectRegions i o).foldl (fun s j =>
        s.modRegion j fun r => { r with rights := r.rights &&& 1, heldRights := r.rights &&& 6 }) s
      (s.putObject i o').respond h 0x20 stOk (seqPayload o'.seq)) s)

/-- No write or atomic of the object's regions is in flight (R57 step 2). -/
def State.objectWritesDone (s : State) (key : Nat) (o : ObjRec) : Bool :=
  !(s.reqs.held.any fun a => a.writes && (s.objectRegions key o).contains a.region)

/-- The revoke of R57 step 3, once the handoff is accepted and the notice of step 2 has gone out: the regions that the sender's
composition holds drain. -/
def State.takeHandoff (s : State) (key : Nat) : State :=
  let o := s.object key
  if !o.accepting || !o.noticeSent then s
  else (s.objectRegions key o).foldl (fun s j =>
    if (s.region j).state = .assigned ∧ (s.region j).cid = o.ownerCid then s.revoke j else s) s

/-- OBJECT_WRITES_DRAINED: the receiver is notified once the sender's writes have landed (R57 step 2). -/
def execObjectWritesDrained (now obj : Nat) (s : State) : Out :=
  .next (s.serving fun s => let s := s.advanceTo now
    let o := s.object obj
    if o.state = 2 ∧ ¬ o.noticeSent ∧ s.anchors obj ∧ s.objectWritesDone obj o then
      ((s.setObject obj { o with noticeSent := true }).send
        { opcode := 0x21, notice := true, dst := o.recvAid, src := s.aid, cid := o.recvCid, gen := s.genOf o.recvCid
          pcp := s.pcpControl
          payload := beBytes 5 (s.objectHandle obj).toNat ++ zeros 3 ++ beBytes 4 o.seq.toNat ++ zeros 4 }).takeHandoff obj
    else s)

/-- Common part of ACCEPT and DECLINE: another sender than the receiver that a PENDING object names is not accepted (R73);
EXPIRED for a stale sequence or an object no longer PENDING (R60). While an accepted handoff drains, its object still reads
PENDING; a further accept or decline is answered EXPIRED, since the handoff has its one winner (DESIGN CHOICE, log entry 86). -/
def receiverFrame (h : Hdr) (opcode : Byte) (oh : Handle) (seq : W32) (k : Nat → ObjRec → State → State) (s : State) : State :=
  objectRequest h opcode 16 oh (fun o => decide (o.state ≠ 2) || (decide (o.recvAid = h.src) && decide (o.recvCid = h.cid))) (fun i s =>
    let o := s.object i
    if o.state ≠ 2 ∨ o.accepting ∨ o.seq ≠ seq then s.respond h opcode stExpired (seqPayload o.seq)
    else k i o s) s

/-- HANDOFF_ACCEPT: the regions are revoked from the sender and drain (R57 step 3); one that comes before the notice of step 2
is taken, and its revoke follows the notice. -/
def execHandoffAccept (h : Hdr) (oh : Handle) (seq : W32) (s : State) : Out :=
  .next (receiverFrame h 0x22 oh seq (fun i o s =>
    ((s.setObject i { o with accepting := true }).takeHandoff i).respond h 0x22 stOk (seqPayload o.seq)) s)

/-- HANDOFF_DECLINE (R59). -/
def execHandoffDecline (h : Hdr) (oh : Handle) (seq : W32) (s : State) : Out :=
  .next (receiverFrame h 0x23 oh seq (fun i o s => (s.revertHandoff i).respond h 0x23 stOk (seqPayload o.seq)) s)

/-- HANDOFF_DEADLINE: the deadline passes without an accept (R59). -/
def execHandoffDeadline (now obj : Nat) (s : State) : Out :=
  .next (s.serving fun s => let s := s.advanceTo now
    let o := s.object obj
    if o.state = 2 ∧ ¬ o.accepting ∧ s.anchors obj ∧ o.deadline * 1000 ≤ s.now then s.revertHandoff obj else s)

/-- HANDOFF_NOTICE is accepted from nobody (R73). -/
def execHandoffNotice (h : Hdr) (_oh : Handle) (_seq : W32) (s : State) : Out := .next (consumed h 16 (senderRejected h) s)

/-- HANDOFF_DONE is accepted from nobody (R73). -/
def execHandoffDone (h : Hdr) (_oh : Handle) (_seq : W32) (_a : Aid) (_c : Cid) (s : State) : Out :=
  .next (consumed h 16 (senderRejected h) s)

/-- OBJECT_QUERY from a member of the owner's or receiver's composition (R56). -/
def execObjectQuery (h : Hdr) (oh : Handle) (s : State) : Out :=
  .next (objectRequest h 0x25 8 oh
    (fun o => decide (o.state ≠ 0) && (decide (h.cid = o.ownerCid) || (decide (o.state = 2) && decide (h.cid = o.recvCid))))
    (fun i s =>
      let o := s.object i
      s.respond h 0x25 stOk (beBytes 1 o.state ++ zeros 1 ++ beBytes 2 o.ownerAid.toNat ++ beBytes 4 o.seq.toNat)) s)

end Sys2Proof.Machine
end

