-- ==== Sys2Proof/Machine/Orders.lean ====
section
/-! DEFINITION. Management orders: their envelope, the results kept for repeated orders (R96, R421), and the answers of
orders that complete later. -/
namespace Sys2Proof.Machine

/-- Requests of the device that nobody waits for any more. -/
def State.dropIssued (s : State) (p : Issued → Bool) : State :=
  { s with reqs := { s.reqs with issued := s.reqs.issued.filter fun r => !p r } }

/-- The copies of a rebuild that ends or starts over: neither held nor awaited any more (R32, R413, R414). -/
def State.dropCopies (s : State) (groups : List Nat) : State :=
  (s.setHeld (s.reqs.held.filter fun a => match a.origin with
    | .rebuild k => !groups.contains k
    | _ => true)).dropIssued fun r => match r.req with
    | .rebuild k => groups.contains k
    | _ => false

/-- The payload of an MGMT_ORDER response: order_id, reserved, result (R96). -/
def orderPayload (id : W32) (result : List Byte) : List Byte := beBytes 4 id.toNat ++ zeros 4 ++ body56 result

def State.setResults (s : State) (l : List KeptResult) : State := { s with comps := { s.comps with results := l } }

/-- Keeps a new order, and of each manager only the last 64 (R421). -/
def State.keepOrder (s : State) (m : Aid) (id : W32) : State :=
  let mine := (s.comps.results.filter fun r => decide (r.manager = m)).length
  let rest := if mine < 64 then s.comps.results
    else s.comps.results.eraseP fun r => decide (r.manager = m)
  s.setResults (rest ++ [{ manager := m, orderId := id }])

/-- Completes an order: its result is kept, and answered to the order and to its repetitions (R96, R421). -/
def State.finishOrder (s : State) (o : OrderRef) (status : Byte) (result : List Byte) : State :=
  let p := orderPayload o.orderId result
  let mine := fun (r : KeptResult) => decide (r.manager = o.h.src) && decide (r.orderId = o.orderId) && !r.complete
  let late := (s.comps.results.filter mine).flatMap (·.waiting)
  let s := s.setResults (s.comps.results.map fun r =>
    if mine r then { r with status := status, result := body56 result, complete := true, waiting := [] } else r)
  late.foldl (fun s h => s.respondAuth h 0x72 status p) (s.respondAuth o.h 0x72 status p)

/-- An order of a registered manager. A repeated order gets the kept result, or its answer with the running one's
(R421); a device that has expelled itself carries out none (R444). -/
def orderRequest (o : Order) (k : OrderRef → State → State) (s : State) : State :=
  managed o.hdr o.trailer 64 (zeroChecked o.hdr (·.respondAuth o.hdr 0x72 stInvalid (orderPayload o.orderId [])) fun s =>
    match s.comps.results.find? fun r => decide (r.manager = o.hdr.src) && decide (r.orderId = o.orderId) with
    | some r =>
      if r.complete then s.respondAuth o.hdr 0x72 r.status (orderPayload o.orderId r.result)
      else s.setResults (s.comps.results.map fun r =>
        if r.manager = o.hdr.src ∧ r.orderId = o.orderId then { r with waiting := r.waiting ++ [o.hdr] } else r)
    | none =>
      let ref : OrderRef := { h := o.hdr, orderId := o.orderId }
      let s := s.keepOrder o.hdr.src o.orderId
      if s.comps.selfExpelled then s.finishOrder ref stNotAdmitted [] else k ref s) s

end Sys2Proof.Machine
end

