-- ==== Sys2Proof/Machine/Comps.lean ====
section
/-! DEFINITION. Compositions: their orders, generations and meters (R417 to R426, R440, R441), and agents declared dead
(R162, R163). -/
namespace Sys2Proof.Machine

/-- Headers of the engine requests in service or waiting: moves, look-ups, searches, checkpoint work. -/
def State.engineRequests (s : State) : List Hdr :=
  (s.movers.queue ++ s.movers.ingress).map (·.h) ++ s.movers.movers.filterMap (fun e => e.2.req.map (·.h)) ++
    s.movers.parked.map (·.req.h) ++ (s.emb.ingress ++ s.emb.queue ++ s.emb.service).map (·.h) ++ s.reqs.replies.map (·.h) ++
    s.indexes.flatMap (fun e => ((e.2.waiting ++ e.2.ingress).map (·.h)) ++ e.2.batches.flatMap fun b => b.reqs.map (·.h)) ++
    (s.ckpt.ingress ++ s.ckpt.queue ++ s.ckpt.service).map (·.h) ++
    (s.reqs.arrivals.filter fun a => a.ref.isNone).map (·.h)

/-- Requests of a generation that are admitted and not completed (R417, inflight_floor). -/
def State.inflightOf (s : State) (cid : Cid) (g : Gen) : Nat :=
  (s.reqs.held.filter fun a => decide (a.cid = cid) && decide (a.gen = g)).length +
    (s.reqs.waiting.filter fun w => decide (w.h.cid = cid) && decide (w.h.gen = g)).length +
    (s.engineRequests.filter fun h => decide (h.cid = cid) && decide (h.gen = g)).length

/-- inflight_floor of a composition entry: zero while F = G (R417). -/
def State.inflightFloor (s : State) (c : Comp) : Nat := if c.gen = c.genFloor then 0 else s.inflightOf c.cid c.genFloor

/-- Code of a composition entry's state. -/
def CompState.code : CompState → Nat
  | .free => 0 | .active => 1 | .releasing => 2

/-- Code of a step state (R395). -/
def StepState.code : StepState → Nat
  | .closed => 0 | .open_ => 1 | .unjournalled => 2 | .sealed => 3 | .fenced => 4 | .eclipsing => 5

/-- The lowest FREE entry among `n` from `e`. -/
def State.lowestEntry (s : State) : Nat → Nat → Option Nat
  | 0, _ => none
  | n + 1, e => if (s.compAt e).state = .free then some e else s.lowestEntry n (e + 1)

/-- The session is a SERVICE session (R511). -/
def State.inServiceSession (s : State) : Bool := s.sec.serviceSession

/-- The generation is one that the device kept for the cid (R420). -/
def State.keptGen (s : State) (cid : Cid) (g : Gen) : Bool :=
  match s.comps.kept.get none cid.toNat with
  | some (a, b) => decide (g = a) || decide (g = b)
  | none => false

def State.setJournalUsed (s : State) (n : Nat) : State := { s with comps := { s.comps with journalUsed := n } }

/-- COMP_CREATE (R417, R419, R420, R491, R511). -/
def execCompCreate (o : Order) (cid : Cid) (gen : Gen) (modes : Byte) (faultAgent : Aid) (journal : W64) (ring : Ptr)
    (ringCount : W32) (s : State) : Out :=
  .next (orderRequest o (fun ref s =>
    if s.inServiceSession then s.finishOrder ref stInvalid []
    else if (s.compIdx cid).isSome || s.memoryDrain then s.finishOrder ref stBusy []
    else if cid = 0 ∨ journal.toNat % chunkBytes ≠ 0 ∨ ringCount.toNat < 1 ∨ 65536 < ringCount.toNat ∨ s.keptGen cid gen then
      s.finishOrder ref stInvalid []
    else if s.boot.cfg.carve.journal < s.comps.journalUsed + journal.toNat then s.finishOrder ref stNoSpace []
    else
      match s.lowestEntry 1024 0 with
      | none => s.finishOrder ref stNoSpace []
      | some e =>
        ((s.setJournalUsed (s.comps.journalUsed + journal.toNat)).setComp e
          { cid := cid, state := .active, gen := gen, genFloor := gen, modes := modes &&& 0x3F, faultAgent := faultAgent
            faultCount := ringCount.toNat, ring := ring, journal := journal.toNat, retired := gen }).finishOrder ref stOk []) s)

/-- An order on an ACTIVE composition; INVALID otherwise (R420). -/
def activeOrder (o : Order) (cid : Cid) (k : OrderRef → Nat → State → State) (s : State) : State :=
  orderRequest o (fun ref s =>
    match s.activeIdx cid with
    | some e => k ref e s
    | none => s.finishOrder ref stInvalid []) s

/-- COMP_AGENT (R418 to R420). -/
def execCompAgent (o : Order) (cid : Cid) (action flags : Byte) (aid : Aid) (ports : W32) (s : State) : Out :=
  .next (activeOrder o cid (fun ref e s =>
    let c := s.compAt e
    if action = 0 then
      if (c.agent aid).isSome then
        (s.setComp e { c with agents := c.agents.map fun a =>
          if a.aid = aid then { a with readOnly := flags.getLsbD 0, ports := ports } else a }).finishOrder ref stOk []
      else if 256 ≤ c.agents.length then s.finishOrder ref stNoSpace []
      else (s.setComp e { c with agents := c.agents ++ [{ aid := aid, readOnly := flags.getLsbD 0, ports := ports }] }).finishOrder
        ref stOk []
    else if action = 1 then
      (s.setComp e { c with agents := c.agents.filter fun a => decide (a.aid ≠ aid) }).finishOrder ref stOk []
    else s.finishOrder ref stInvalid []) s)

/-- The modes byte after an advance: bit [1] takes the mode of the old G, bit [0] the operand's (R423, R424). -/
def advancedModes (old operand : Byte) : Byte :=
  (old &&& 0x3C) ||| (if old.getLsbD 0 then 2 else 0) ||| (if operand.getLsbD 0 then 1 else 0)

/-- COMP_ADVANCE (R424). -/
def execCompAdvance (o : Order) (cid : Cid) (modes : Byte) (s : State) : Out :=
  .next (activeOrder o cid (fun ref e s =>
    let c := s.compAt e
    if c.gen ≠ c.genFloor then s.finishOrder ref stBusy []
    else
      (s.setComp e { c with
        gen := c.gen + 1, modes := advancedModes c.modes modes, dead := []
        agents := c.agents.map fun a => { a with dead := false } }).finishOrder ref stOk (beBytes 1 (c.gen + 1).toNat)) s)

/-- MGMT_NOTICE 0x0006, GEN_RETIRED (R425). -/
def State.genRetired (s : State) (cid : Cid) (g : Gen) : State :=
  s.notice 0x0006 (beBytes 2 cid.toNat ++ beBytes 1 g.toNat) cid

/-- COMP_RETIRE (R425). -/
def execCompRetire (o : Order) (cid : Cid) (s : State) : Out :=
  .next (activeOrder o cid (fun ref e s =>
    let c := s.compAt e
    if c.gen = c.genFloor then (s.finishOrder ref stOk (beBytes 4 0)).genRetired cid c.retired
    else (s.setComp e { c with retiring := true }).finishOrder ref stOk (beBytes 4 (s.inflightFloor c))) s)

/-- GENERATION_RETIRED: every request of F is completed (R425). -/
def execGenerationRetired (now : Nat) (cid : Cid) (s : State) : Out :=
  .next (s.serving fun s => let s := s.advanceTo now
    match s.activeIdx cid with
    | none => s
    | some e =>
      let c := s.compAt e
      if !c.retiring || s.inflightFloor c ≠ 0 then s
      else (s.setComp e { c with genFloor := c.gen, retiring := false, retired := c.genFloor }).genRetired cid c.genFloor)

def sat64 (n : Nat) : Nat := min maxU64 n

/-- The meters in the order of the COMP_METER result, rounded down to their units (R419, R440). -/
def Meters.bytes (m : Meters) : List Byte :=
  beBytes 8 (sat64 (m.active / 1000)) ++ beBytes 8 (sat64 (m.hbm / (mib * 1000000))) ++
    beBytes 8 (sat64 (m.portSlot / 1000)) ++ beBytes 8 (sat64 (m.stackSlot / 1000)) ++ beBytes 8 (sat64 (m.clusters / 1000))

/-- COMP_METER (R419, R441). -/
def execCompMeter (o : Order) (cid : Cid) (flags : Byte) (s : State) : Out :=
  .next (activeOrder o cid (fun ref e s =>
    let m := (s.compAt e).meters
    let s := if flags.getLsbD 0 then s.modComp e fun c => { c with meters := {} } else s
    s.finishOrder ref stOk m.bytes) s)

/-- COMP_QUERY (R419, R420). -/
def execCompQuery (o : Order) (cid : Cid) (s : State) : Out :=
  .next (orderRequest o (fun ref s =>
    match s.compIdx cid with
    | some e =>
      let c := s.compAt e
      s.finishOrder ref stOk (beBytes 1 c.state.code ++ beBytes 1 c.gen.toNat ++ beBytes 1 c.genFloor.toNat ++
        beBytes 1 c.stepState.code ++ beBytes 4 c.committed.toNat ++ beBytes 4 (s.inflightFloor c) ++
        beBytes 2 c.agents.length ++ zeros 2 ++ beBytes 8 c.violations ++ beBytes 2 c.lastSrc.toNat ++
        beBytes 1 c.lastPort.toNat ++ beBytes 1 c.lastReason.toNat)
    | none =>
      let (g, f) := (s.comps.kept.get none cid.toNat).getD (0, 0)
      s.finishOrder ref stOk (zeros 1 ++ beBytes 1 g.toNat ++ beBytes 1 f.toNat)) s)

/-! ### Agents declared dead (R162, R163) -/

/-- Entries EXCLUSIVE for an agent in a composition: those on the composition's exclusive lists whose holder it is. -/
def State.exclusiveOf (s : State) (cid : Cid) (a : Aid) : List Nat :=
  (s.dir.entries.filter fun e => decide (e.2.cid = cid) && decide (e.2.state = .exclusive) && decide (e.2.ptrs = [a])).map (·.1)

/-- Makes a line LOST: it stays on its exclusive list (R146), and a transition of it ends, so that its request waits for the line's
restore (R162, R163). -/
def State.makeLost (s : State) (k : Nat) : State :=
  let s := s.setTransitions (s.dir.transitions.filter fun t => decide (t.key ≠ k))
  let s := s.dropIssued fun r => match r.req with
    | .snoop j _ => decide (j = k)
    | _ => false
  let s := s.setDir k { s.dirEntry k with state := .lost, busy := false }
  s.resolveLost k

/-- Snoops of a composition's lines that await an agent's answer count as answered NOT_PRESENT (R162). -/
def State.forgetSnoops (s : State) (cid : Cid) (a : Aid) : State :=
  let keys := (s.dir.transitions.filter fun t => t.agents.contains a && decide ((s.dirEntry t.key).cid = cid)).map (·.key)
  let s := s.dropIssued fun r => match r.req with
    | .snoop j b => decide (b = a) && keys.contains j
    | _ => false
  keys.foldl (fun s k =>
    (s.modTransition k fun t => { t with agents := t.agents.filter fun b => decide (b ≠ a) }).finishTransition k) s

/-- Spans of a composition's regions that an agent owns. -/
def State.spansOf (s : State) (cid : Cid) (a : Aid) : List Nat :=
  (s.store.spans.filter fun e => decide (e.2 = a) && decide ((s.region (e.1 / 2 ^ 27)).cid = cid)).map (·.1)

/-- The effects of AGENT_DEAD for an agent of a composition entry (R162, R445). -/
def State.agentDies (s : State) (e : Nat) (a : Aid) : State :=
  let cid := (s.compAt e).cid
  let s := s.modComp e fun c => { c with
    dead := if c.dead.contains a then c.dead else c.dead ++ [a]
    agents := c.agents.map fun x => if x.aid = a then { x with dead := true } else x }
  let s := (s.exclusiveOf cid a).foldl State.makeLost s
  let s := s.forgetSnoops cid a
  let gone := s.spansOf cid a
  let s := { s with store := { s.store with spans := s.store.spans.filter fun e => !gone.contains e.1 } }
  s.pump

/-- AGENT_DEAD (R162). -/
def execAgentDead (o : Order) (aid : Aid) (cid : Cid) (s : State) : Out :=
  .next (activeOrder o cid (fun ref e s =>
    let lines := (s.exclusiveOf cid aid).length
    let spans := (s.spansOf cid aid).length
    (s.agentDies e aid).finishOrder ref stOk (beBytes 4 lines ++ beBytes 4 spans)) s)

end Sys2Proof.Machine
end

