-- ==== Sys2Proof/Machine/Operands.lean ====
section
/-! DEFINITION. Operands of grid instructions: scalar, vector and mask registers with their poison bits (R270, R271), scratch
(R280), and the elements of a vector register (R296, R297). -/
namespace Sys2Proof.Machine

/-! ### Cores, clusters, threads -/

def State.core (s : State) (k : Nat) : Core := s.grid.cores.get {} k

def State.setCores (s : State) (t : Tab Core) : State := { s with grid := { s.grid with cores := t } }

def State.setCore (s : State) (k : Nat) (c : Core) : State := s.setCores (s.grid.cores.set {} k c)

def State.ctx (s : State) (t : Thread) : Ctx := (s.core t.core).threads.get {} t.ctx

def Core.setCtx (c : Core) (k : Nat) (x : Ctx) : Core := { c with threads := c.threads.set {} k x }

def State.setCtx (s : State) (t : Thread) (x : Ctx) : State := s.setCore t.core ((s.core t.core).setCtx t.ctx x)

/-- The cluster of a core 32·y + x: bit c = 8·cy + cx of a mask (R10, 08). -/
def clusterOf (core : Nat) : Nat := 8 * (core / 128) + core % 32 / 4

/-- The sixteen cores of a cluster. -/
def coresOf (c : Nat) : List Nat :=
  (List.range 16).map fun j => 32 * (4 * (c / 8) + j / 4) + 4 * (c % 8) + j % 4

def State.cluster (s : State) (c : Nat) : Cluster := s.grid.clusters.get {} c

def State.setCluster (s : State) (c : Nat) (x : Cluster) : State :=
  { s with grid := { s.grid with clusters := s.grid.clusters.set {} c x } }

def State.program (s : State) (c p : Nat) : Program := (s.cluster c).programs.get {} p

def State.setProgram (s : State) (c p : Nat) (x : Program) : State :=
  s.setCluster c { s.cluster c with programs := (s.cluster c).programs.set {} p x }

def State.threadCluster (s : State) (t : Thread) : Cluster := s.cluster (clusterOf t.core)

/-- The program of a thread. -/
def State.programOf (s : State) (t : Thread) : Program := s.program (clusterOf t.core) (s.ctx t).program

/-! ### Registers -/

/-- A scalar register; s0 reads as zero (R270). -/
def Ctx.reg (c : Ctx) (n : BitVec 3) : W64 := if n = 0 then 0 else c.regs.get 0 n.toNat

/-- Its poison bit; s0 has none (R271). -/
def Ctx.regPoison (c : Ctx) (n : BitVec 3) : Bool := if n = 0 then false else c.poison.get false n.toNat

/-- Writes a scalar register and its poison bit; s0 ignores writes (R270). -/
def Ctx.setReg (c : Ctx) (n : BitVec 3) (v : W64) (p : Bool) : Ctx :=
  if n = 0 then c else { c with regs := c.regs.set 0 n.toNat v, poison := c.poison.set false n.toNat p }

def Slot.vec (x : Slot) (n : Nat) : Vec := x.v.get 0 n
def Slot.vecPoison (x : Slot) (n : Nat) : Bool := x.vPoison.get false n

def Slot.setVec (x : Slot) (n : Nat) (v : Vec) (p : Bool) : Slot :=
  { x with v := x.v.set 0 n v, vPoison := x.vPoison.set false n p }

/-- A mask register; m0 reads as all ones (R270). -/
def Slot.mask (x : Slot) (n : Nat) : W64 := if n = 0 then BitVec.allOnes 64 else x.m.get 0 n

def Slot.maskPoison (x : Slot) (n : Nat) : Bool := if n = 0 then false else x.mPoison.get false n

def Slot.setMask (x : Slot) (n : Nat) (v : W64) (p : Bool) : Slot :=
  if n = 0 then x else { x with m := x.m.set 0 n v, mPoison := x.mPoison.set false n p }

/-- The slot that a thread holds. -/
def State.slotOf (s : State) (t : Thread) : Slot := (s.core t.core).slots.get {} ((s.ctx t).slot.getD 0)

def State.setSlot (s : State) (t : Thread) (x : Slot) : State :=
  let c := s.core t.core
  s.setCore t.core { c with slots := c.slots.set {} ((s.ctx t).slot.getD 0) x }

/-! ### Scratch (R252, R271, R280) -/

def Core.scratchByte (c : Core) (a : Nat) : Byte := Tab.get 0 c.scratch a

def Core.readScratch (c : Core) : Nat → Nat → List Byte
  | _, 0 => []
  | a, n + 1 => c.scratchByte a :: c.readScratch (a + 1) n

/-- Poison of the scratch line of each of `n` bytes from an address. -/
def Core.readPoison (c : Core) (a n : Nat) : List Bool := (List.range n).map fun j => c.scratchPoison.get false ((a + j) / 64)

def putBytes : Nat → List Byte → List Host.Cell → List Host.Cell
  | _, [], m => m
  | a, b :: t, m => putBytes (a + 1) t (Tab.set 0 m a b)

/-- Poison of the lines that a scratch write touches, from the poison of its bytes: a line that receives a poisoned byte is
poisoned, one that is written whole with clean bytes is clean, any other keeps its bit (R271). -/
def scratchLines (a n : Nat) (p : List Bool) (t : Tab Bool) : Tab Bool :=
  if n = 0 then t else
  (List.range ((a + n - 1) / 64 - a / 64 + 1)).foldl (fun t j =>
    let line := a / 64 + j
    let lo := max a (64 * line)
    let hi := min (a + n) (64 * line + 64)
    if ((p.drop (lo - a)).take (hi - lo)).any fun b => b then t.set false line true
    else if hi - lo = 64 then t.set false line false else t) t

/-- Writes bytes with their poison to absolute scratch. -/
def Core.writeScratch (c : Core) (a : Nat) (l : List Byte) (p : List Bool) : Core :=
  { c with scratch := putBytes a l c.scratch, scratchPoison := scratchLines a l.length p c.scratchPoison }

/-- Every byte of the access lies in the program's window (R280). -/
def Program.inWindow (p : Program) (a : Int) (n : Nat) : Bool := decide (0 ≤ a) && decide (a + n ≤ p.scratchBytes)

/-! ### Elements (R296, R297) -/

/-- Element `i` of width `w` of a register. -/
def vecElem (w : Nat) (v : Vec) (i : Nat) : Nat := bitsOf v.toNat (w * i) w

/-- A register from its elements of width `w`. -/
def vecOf (w : Nat) (f : Nat → Nat) : Vec :=
  BitVec.ofNat 512 ((List.range (512 / w)).foldl (fun acc i => acc + (f i % 2 ^ w) * 2 ^ (w * i)) 0)

/-- The mask bit that governs element `i`: for 128-element types bit i/2 (R297). -/
def governs (ty : ElemTy) (m : W64) (i : Nat) : Bool :=
  if elemCount ty = 128 then m.getLsbD (i / 2) else m.getLsbD i

/-- Some element of the type is masked off. -/
def partly (ty : ElemTy) (m : W64) : Bool := (List.range (elemCount ty)).any fun i => !governs ty m i

/-- The value of element `i` of a register. -/
def elemNum (ty : ElemTy) (v : Vec) (i : Nat) : Num := decodeElem ty (vecElem (elemWidth ty) v i)

/-- Types by the field of an instruction. -/
def fieldTy (t : BitVec 4) : Option ElemTy := elemTyOf t.toNat

end Sys2Proof.Machine
end

