-- ==== Sys2Proof/Machine/GridOps.lean ====
section
/-! DEFINITION. What grid instructions share: issue (R247, R250, R272, R277), faults and halts (R249, R309, R312), vector slots
(R257), mailboxes (R259 to R261), and requests to the store with their responses (R253, R285, R289 to R291). -/
namespace Sys2Proof.Machine

/-! ### Fault causes (R309) -/

abbrev gcHalt : Byte := 0x00
abbrev gcIllegal : Byte := 0x01
abbrev gcCodeRange : Byte := 0x02
abbrev gcScratchRange : Byte := 0x03
abbrev gcAlign : Byte := 0x04
abbrev gcNoSlot : Byte := 0x05
abbrev gcResource : Byte := 0x06
abbrev gcOperand : Byte := 0x07
abbrev gcPoisonUse : Byte := 0x08
abbrev gcPoisonStore : Byte := 0x09
abbrev gcAccess : Byte := 0x0A
abbrev gcExternal : Byte := 0x0B

/-! ### Threads -/

/-- The instruction is executed: pc goes to the next (R272). After the last instruction of a program of 8,192 words that is index 8,192,
for which the 13 bits of R270 have no room: pc keeps it, the next issue faults with CODE_RANGE, and the latch shows its low 13 bits, zero
(DESIGN CHOICE, log entry 98). -/
def State.retire (s : State) (t : Thread) (c : Ctx) : State := s.setCtx t { c with pc := c.pc + 1 }

/-- A waiting thread's instruction completes: the thread is READY at the next instruction (R249). -/
def State.resumeThread (s : State) (t : Thread) (c : Ctx) : State :=
  s.setCtx t { c with pc := c.pc + 1, state := .ready, wait := .none }

/-- The program to whose allotment a slot of a core belongs. -/
def State.slotProgram (s : State) (core slot : Nat) : Option Nat :=
  ((s.cluster (clusterOf core)).programs.find? fun e =>
    decide (e.2.slot0 ≤ slot) && decide (slot < e.2.slot0 + e.2.slots)).map (·.1)

/-- A freed slot goes to the thread of its program that has waited longest, or is free (R257). -/
def State.freeSlot (s : State) (core slot : Nat) : State :=
  let c := s.core core
  match c.slotWait.find? fun w => decide (some w.2 = s.slotProgram core slot) with
  | some w =>
    let s := s.setCore core { c with slotWait := c.slotWait.filter fun x => decide (x.1 ≠ w.1) }
    let x := s.ctx ⟨core, w.1⟩
    s.resumeThread ⟨core, w.1⟩ { x with slot := some slot }
  | none => s.setCore core { c with held := c.held.filter fun x => decide (x ≠ slot) }

def State.setLost (s : State) (l : List LostWrite) : State := { s with grid := { s.grid with lost := l } }

/-- Requests of a thread have nobody to answer any more: their responses are discarded (R249). -/
def State.orphanRequests (s : State) (t : Thread) : State :=
  let waits := s.grid.reqs.any fun r => decide (r.thread = t) && r.heldStore
  let s := s.setGridReqs (s.grid.reqs.map fun r => if r.thread = t then { r with orphan := true } else r)
  s.setLost ((s.grid.lost.filter fun x => waits || decide (x.thread ≠ t)).map fun (x : LostWrite) =>
    if x.thread = t then { x with orphan := true } else x)

/-- Takes a thread off every wait list. -/
def State.leaveQueues (s : State) (t : Thread) : State :=
  let c := s.core t.core
  let s := s.setCore t.core { c with
    recvWait := c.recvWait.filter fun w => decide (w.1 ≠ t.ctx), slotWait := c.slotWait.filter fun w => decide (w.1 ≠ t.ctx) }
  match (s.ctx t).wait with
  | .send target _ =>
    let d := s.core target
    s.setCore target { d with sendWait := d.sendWait.filter fun w => decide (w.thread ≠ t) }
  | _ => s

/-- Halts a thread: its slot is released, and later responses for it are discarded (R249, R309). -/
def State.haltThread (s : State) (t : Thread) (cause : Byte) : State :=
  if (s.ctx t).state = .free ∨ (s.ctx t).state = .halted then s
  else
    let s := (s.leaveQueues t).orphanRequests t
    let c := s.ctx t
    let slot := c.slot
    let s := s.setCtx t { c with state := .halted, cause := cause, slot := none, wait := .none }
    match slot with
    | some k => s.freeSlot t.core k
    | none => s

/-- Drops flagged stores still held at the core for a thread (R407, R482). -/
def State.dropHeld (s : State) (t : Thread) : State :=
  (s.setGridReqs (s.grid.reqs.filter fun r => !(r.heldStore && decide (r.thread = t)))).setLost
    (s.grid.lost.filter fun x => decide (x.thread ≠ t))

/-- The layout of GRD_FAULT_LATCH (R312). -/
def latchWord (cause status : Byte) (program thread index : Nat) (lost : Bool) : W64 :=
  BitVec.ofNat 64 (cause.toNat + status.toNat * 2 ^ 8 + program % 4 * 2 ^ 16 + thread % 2048 * 2 ^ 18 +
    index % 8192 * 2 ^ 29 + (if lost then 2 ^ 62 else 0) + 2 ^ 63)

/-- Latches the first fault of a program on a core; a further one sets lost (R312). -/
def State.latchFault (s : State) (t : Thread) (cause status : Byte) : State :=
  let c := s.core t.core
  let x := s.ctx t
  let old := c.latches.get 0 x.program
  let new := if old.getLsbD 63 then old ||| (1 <<< 62)
    else latchWord cause status x.program (t.ctx - (s.programOf t).ctx0) x.pc false
  s.setCore t.core { c with latches := c.latches.set 0 x.program new }

/-- A fault: latched, counted, and the thread halts; the instruction has no effect (R309, R312). -/
def State.fault (s : State) (t : Thread) (cause : Byte) (status : Byte := 0) : State :=
  let s := s.latchFault t cause status
  let s := match s.compIdx (s.threadCluster t).cid with
    | some e => s.bump 10 e 4
    | none => s
  s.haltThread t cause

/-! ### Issue -/

/-- A thread of the core may issue: it is READY, its program is active on an ASSIGNED cluster that is not isolated for a test
(R247, R250, R496). -/
def State.mayIssue (s : State) (t : Thread) : Bool :=
  let cl := s.threadCluster t
  decide ((s.ctx t).state = .ready) && decide (cl.state = .assigned) && decide (cl.active = some (s.ctx t).program) &&
    !cl.testing

/-- An instruction issues: the thread may issue, and the word at its pc is the instruction's; an index beyond the code is a
CODE_RANGE fault (R272, R277). -/
def gridStep (i : Issue) (cmd : Instr) (k : Thread → State → State) (s : State) : State :=
  if !s.inService then s
  else
    let s := s.advanceTo i.now
    let t := i.thread
    if !s.mayIssue t then s
    else
      let code := (s.programOf t).code
      let pc := (s.ctx t).pc
      if code.length ≤ pc then s.fault t gcCodeRange
      else if decide (encodeGrid cmd = code[pc]?) && gridOperandsOk cmd then k t s
      else s

/-! ### Mailboxes (R259 to R262, R294) -/

/-- The queue is allotted to a program resident in the core's cluster. -/
def State.queueAllotted (s : State) (core queue : Nat) : Bool :=
  (s.cluster (clusterOf core)).programs.any fun e =>
    e.2.resident && decide (e.2.queue0 ≤ queue) && decide (queue < e.2.queue0 + e.2.queues)

/-- The core lies in a cluster assigned to a composition. -/
def State.coreAssigned (s : State) (core : Nat) (cid : Cid) : Bool :=
  decide ((s.cluster (clusterOf core)).state = .assigned) && decide ((s.cluster (clusterOf core)).cid = cid)

/-- Messages in a queue or on their way into it, those of another composition not counted, which are discarded; a queue to which nothing is delivered never fills (R259, R260). -/
def State.queueFull (s : State) (cid : Cid) (core queue : Nat) : Bool :=
  s.coreAssigned core cid && s.queueAllotted core queue &&
    decide (16 ≤ ((s.core core).queues.get [] queue).length +
      (s.grid.transit.filter fun m => decide (m.target = core) && decide (m.queue = queue) && decide (m.fromCid = cid)).length)

/-- Partition row of a core, 16·q + row. -/
def partitionRow (core : Nat) : Nat := 16 * (2 * (core / 512) + core % 32 / 16) + core / 32 % 16

/-- Router column and row of a logical core: where flits for it are sent (R474). The network interface that forms them holds the skip
columns. -/
def State.routerOf (s : State) (core : Nat) : Nat × Nat :=
  let lx := core % 32 % 16
  let px := if lx < s.grid.skip.get 16 (partitionRow core) then lx else lx + 1
  (if core % 32 < 16 then px else 17 + px, core / 32)

def State.setTransit (s : State) (l : List InTransit) : State := { s with grid := { s.grid with transit := l } }

def State.postMessage (s : State) (t : Thread) (cid : Cid) (target queue : Nat) (m : Message) : State :=
  s.setTransit (s.grid.transit ++
    [{ fromCore := t.core, fromCid := cid, target := target, queue := queue, msg := m, router := s.routerOf target }])

/-- Poison of a message byte by byte: one bit for each 8 bytes. -/
def Message.bytePoison (m : Message) : List Bool := m.poison.flatMap fun b => List.replicate 8 b

/-- A message reaches a receiver: its bytes go to the receiver's area, its length to sd (R293, R294). -/
def State.receiveInto (s : State) (t : Thread) (addr : Nat) (sd : BitVec 3) (m : Message) : State :=
  let c := s.core t.core
  let s := s.setCore t.core (c.writeScratch addr m.data m.bytePoison)
  let x := s.ctx t
  s.resumeThread t (x.setReg sd (BitVec.ofNat 64 m.data.length) false)

/-- Senders blocked on a queue go on, in the order in which they began to wait, while it has space (R260). -/
def State.wakeSenders (s : State) (core queue : Nat) : Nat → State
  | 0 => s
  | fuel + 1 =>
    let c := s.core core
    match c.sendWait.find? fun w => decide (w.queue = queue) with
    | none => s
    | some w =>
      let cid := (s.threadCluster w.thread).cid
      if s.queueFull cid core queue then s
      else
        let s := s.setCore core { c with sendWait := c.sendWait.filter fun x => decide (x.thread ≠ w.thread) }
        let s := s.postMessage w.thread cid core queue w.msg
        let x := s.ctx w.thread
        let sd := match x.wait with
          | .send _ sd => sd
          | _ => 0
        (s.resumeThread w.thread (x.setReg sd 0 false)).wakeSenders core queue fuel

/-- A delivered message goes to the thread that has waited longest for the queue, or into the queue (R261). -/
def State.deliverMessage (s : State) (core queue : Nat) (m : Message) : State :=
  let c := s.core core
  match c.recvWait.find? fun w => decide (w.2 = queue) with
  | some w =>
    let s := s.setCore core { c with recvWait := c.recvWait.filter fun x => decide (x.1 ≠ w.1) }
    match (s.ctx ⟨core, w.1⟩).wait with
    | .recv _ addr sd => (s.receiveInto ⟨core, w.1⟩ addr sd m).wakeSenders core queue 1
    | _ => s
  | none => s.setCore core { c with queues := c.queues.mod [] queue fun l => l ++ [m] }

/-- Counts a message that is discarded (R259, R431). -/
def State.countDiscard (s : State) (m : InTransit) : State :=
  if (s.cluster (clusterOf m.target)).cid = m.fromCid ∧ (s.cluster (clusterOf m.target)).state ≠ .free ∧ m.target < 1024 then
    match s.compIdx m.fromCid with
    | some e => s.bump 10 e 3
    | none => s
  else s.violation m.fromCid s.aid 0xFF 8

/-- MAILBOX_DELIVERY: the message at a place of the list of those on their way arrives, if none from its core to its queue
goes before it (R259, R261). -/
def execMailboxDelivery (now idx : Nat) (s : State) : Out :=
  .next (s.serving fun s => let s := s.advanceTo now
    match s.grid.transit[idx]? with
    | none => s
    | some m =>
      if (s.grid.transit.take idx).any fun x => decide (x.fromCore = m.fromCore) && decide (x.target = m.target) &&
          decide (x.queue = m.queue) then s
      else
        let s := s.setTransit (s.grid.transit.eraseIdx idx)
        if s.coreAssigned m.target m.fromCid && s.queueAllotted m.target m.queue then
          s.deliverMessage m.target m.queue m.msg
        else (s.countDiscard m).wakeSenders m.target m.queue 1)

/-! ### Requests to the store -/

/-- Header that stands for an access of a unit of this device: its own AID, at the coherence PCP of the composition
(R142, R429). -/
def State.unitHdr (s : State) (cid : Cid) : Hdr :=
  { now := s.now, port := 0xFF, sub := 0, pcp := s.coherencePcp cid, tagged := true, check := .passed, ce := false
    dst := s.aid, src := s.aid, cid := cid, gen := s.genOf cid, length := 0, received := 0, tag := 0, hopSeq := 0, hopAck := 0 }

/-- That header with the agent in whose request the unit works: its write rights are the ones that count (R430). -/
def State.unitHdrOf (s : State) (cid : Cid) (agent : Aid) : Hdr :=
  let h := s.unitHdr cid
  if agent = 0 then h else { h with src := agent }

/-- Requests of a core that have no response yet, absorbed ones included (R253, R482). -/
def State.outstanding (s : State) (core : Nat) : Nat := (s.grid.reqs.filter fun r => decide (r.thread.core = core)).length

/-- The core holds 256 requests, and the thread waits in READY (R253). -/
def State.coreFull (s : State) (core : Nat) : Bool := decide (256 ≤ s.outstanding core)

def GridReq.writes (r : GridReq) : Bool := r.isWrite || decide (r.opcode = 0x07)

/-- Earlier writes and atomics of the thread are not performed or timed out (R129, R291). -/
def State.threadWrites (s : State) (t : Thread) (id : Nat) : Bool :=
  s.grid.reqs.any fun r => decide (r.thread = t) && !r.orphan && decide (r.id < id) && r.writes

/-- An earlier write or atomic of a request's thread is not performed: it is under way, of a thread since halted too, or it timed
out (R126). -/
def State.behindWrites (s : State) (r : GridReq) : Bool :=
  (s.grid.reqs.any fun x => decide (x.thread = r.thread) && decide (x.orphan = r.orphan) && decide (x.id < r.id) && x.writes) ||
    s.grid.lost.any fun x => decide (x.thread = r.thread) && decide (x.orphan = r.orphan) && decide (x.id < r.id)

def accKindOf (opcode : Byte) : AccKind :=
  match opcode.toNat with
  | 0x01 => .read | 0x02 => .readAcquire | 0x03 => .readVolatile
  | 0x05 => .flagged | 0x07 => .atomic
  | _ => .write

def rightOf (opcode : Byte) : Nat :=
  match opcode.toNat with
  | 0x01 | 0x02 | 0x03 => rightRead
  | 0x07 => rightAtomic
  | _ => rightWrite

/-- PCP of a grid request to another device (R142, R255). -/
def State.gridPcp (s : State) (p : Program) (cid : Cid) (rh : Handle) : Nat :=
  if Config.remoteCoherent rh then s.coherencePcp cid else if p.pcp = 6 then s.pcpEspresso else s.pcpBulk

def State.answerReq (s : State) (id : Nat) (st : Byte) (data : List Byte) : State :=
  s.setGridReqs (s.grid.reqs.map fun r => if r.id = id then { r with answer := some (st, data, 0) } else r)

/-- A local access takes part in the scheduled class only while the composition reserves the line's stack (R205, R255). -/
def State.gridEspresso (s : State) (cid : Cid) (region off : Nat) : Bool :=
  s.locked && (match s.placeOf region off with
    | .hbm u => s.hasReservation cid true u 0
    | .dram c _ => s.hasReservation cid true (c % 8) 0
    | .flash => false)

/-- Payload of a grid request to another device (R78, R81, R83, R285). -/
def GridReq.payload (r : GridReq) : List Byte :=
  addrBytes r.rh r.sub.toNat r.offset r.len ++
    (if r.isWrite then r.data else if r.opcode = 0x07 then beBytes 16 r.opA ++ beBytes 16 r.opB else [])

/-- Sends a request of a thread: to the home slice on this device after the checks of R429 and R642, or to the device that
the handle names (R285). -/
def State.launch (s : State) (r : GridReq) : State :=
  let cid := r.cid
  if s.answersTo (handleAid r.rh) then
    if !s.assignedTo r.rh cid then
      (s.violation cid s.aid 0xFF 9).answerReq r.id stOk (zeros (if r.opcode = 0x07 then 16 else r.len))
    else
      let i := (s.localRegion r.rh).getD 0
      let a : Access :=
        { kind := accKindOf r.opcode, origin := .thread r.id, src := s.aid, owner := s.aid, cid := cid, gen := s.genOf cid
          region := i, position := s.standsFor r.rh, offset := r.offset, len := r.len, data := r.data
          atomicOp := r.sub.toNat, opA := r.opA, opB := r.opB, espresso := s.gridEspresso cid i r.offset }
      match s.refusal (s.unitHdr cid) a (rightOf r.opcode) with
      | some st => s.answerReq r.id st []
      | none => s.submit a
  else
    s.issue (.thread r.id)
      { opcode := r.opcode, dst := handleAid r.rh, cid := cid, gen := s.genOf cid, pcp := r.pcp, payload := r.payload }

/-- Two requests touch a common line. -/
def GridReq.sharesLine (r x : GridReq) : Bool :=
  decide (r.rh = x.rh) && decide (r.offset / 64 ≤ (x.offset + x.len - 1) / 64) && decide (x.offset / 64 ≤ (r.offset + r.len - 1) / 64)

/-- A request waits at its core: a flagged store for the thread's earlier writes (R126, R291), any request for an earlier one
of its thread to its line that waits (R254). -/
def State.holdsAtCore (s : State) (r : GridReq) : Bool :=
  (decide (r.opcode = 0x05) && s.behindWrites r) ||
    s.grid.reqs.any fun x => x.heldStore && decide (x.thread = r.thread) && decide (x.id < r.id) && r.sharesLine x

/-- A thread issues a request, or holds it at the core. -/
def State.request (s : State) (t : Thread) (r : GridReq) : State :=
  let (id, s) := s.takeId
  let cid := (s.threadCluster t).cid
  let r := { r with id := id, thread := t, cid := cid, local_ := s.answersTo (handleAid r.rh), dst := handleAid r.rh
                    pcp := s.gridPcp (s.programOf t) cid r.rh }
  let r := { r with heldStore := s.holdsAtCore r }
  let s := s.setGridReqs (s.grid.reqs ++ [r])
  if r.heldStore then s else s.launch r

/-- Poison bit of the line that byte `j` of a transfer from a store offset lies in (R80). -/
def linePoison (mask : W64) (offset j : Nat) : Bool := mask.getLsbD (min 63 ((offset + j) / 64 - offset / 64))

/-- A thread's RELEASE completes once its earlier writes are done: sd takes the store status, which is cleared (R291). -/
def State.settleRelease (s : State) (t : Thread) : State :=
  let c := s.ctx t
  match c.wait with
  | .release sd =>
    if s.threadWrites t s.reqs.nextId then s
    else s.resumeThread t ({ c with status := 0 }.setReg sd (BitVec.ofNat 64 c.status.toNat) false)
  | _ => s

/-- A request leaves its core. -/
def State.letGo (s : State) (r : GridReq) : State :=
  if s.holdsAtCore r then s
  else
    (s.setGridReqs (s.grid.reqs.map fun (x : GridReq) => if x.id = r.id then { x with heldStore := false } else x)).launch
      { r with heldStore := false }

/-- After a write or atomic of a thread ends, requests held at the core may go, in program order, and a RELEASE may complete. -/
def State.writeEnded (s : State) (t : Thread) : State :=
  ((s.grid.reqs.filter fun r => decide (r.thread = t) && r.heldStore).foldl State.letGo s).settleRelease t

def State.gridReq (s : State) (id : Nat) : Option GridReq := s.grid.reqs.find? fun r => decide (r.id = id)

/-- A request leaves the core. -/
def State.dropReq (s : State) (id : Nat) : State :=
  (s.setGridReqs (s.grid.reqs.filter fun r => decide (r.id ≠ id))).dropIssued fun x => decide (x.req = .thread id)

/-- What a response writes to the destination of its thread (R286 to R289). -/
def State.writeDestination (s : State) (r : GridReq) (data : List Byte) (mask : W64) : State :=
  let t := r.thread
  let c := s.ctx t
  let bad := decide (mask ≠ 0)
  match c.wait with
  | .load sd n => s.resumeThread t (c.setReg sd (BitVec.ofNat 64 (fieldLe data 0 n)) bad)
  | .amo sd n => s.resumeThread t (c.setReg sd (BitVec.ofNat 64 (if bad then 0 else ofBe (sliceBytes data 0 16) % 2 ^ (8 * n))) bad)
  | .vload vd =>
    let s := s.setSlot t ((s.slotOf t).setVec vd.toNat (BitVec.ofNat 512 (fieldLe data 0 64)) bad)
    s.resumeThread t (s.ctx t)
  | .block addr n off =>
    let k := s.core t.core
    let s := s.setCore t.core (k.writeScratch addr (sliceBytes data 0 n) ((List.range n).map fun j => linePoison mask off j))
    s.resumeThread t (s.ctx t)
  | _ => s

/-- The response to a load, atomic or block transfer (R289): OK and POISON write the destination, any other status is an
ACCESS fault. -/
def State.loadAnswered (s : State) (r : GridReq) (status : Byte) (data : List Byte) (mask : W64) : State :=
  let s := s.dropReq r.id
  if r.orphan then s.writeEnded r.thread
  else if status = stOk then (s.writeDestination r data 0).writeEnded r.thread
  else if status = stPoison then (s.writeDestination r data (if mask = 0 then BitVec.allOnes 64 else mask)).writeEnded r.thread
  else (s.fault r.thread gcAccess status).writeEnded r.thread

/-- What answers a request of the core: the home slice on this device, or a response frame of the device that the request went to. -/
def State.gridAnswer (s : State) (r : GridReq) (via : Option Hdr) (k : Byte → State → State) : State :=
  match via with
  | none => if r.local_ then s.serving (k stOk) else s
  | some h => answerTo h (fun q s => if q.req = .thread r.id then k h.status s else s) s

/-- The time of an event at a core, or of the frame that brings it. -/
def answeredAt (now : Nat) (via : Option Hdr) : Nat :=
  match via with
  | none => now
  | some h => h.now

/-- GRID_RESPONSE: the answer of the home slice, or of another device (R249, R289). -/
def execGridResponse (now id : Nat) (via : Option Hdr) (data : List Byte) (poison : W64) (s : State) : Out :=
  .next (match s.gridReq id with
    | none => s
    | some r =>
      if r.isWrite || r.heldStore then s
      else s.advanceTo (answeredAt now via) |>.gridAnswer r via fun st s =>
        match r.local_, r.answer with
        | true, some (st, d, m) => s.loadAnswered r st d m
        | true, none => s
        | false, _ => s.loadAnswered r st data poison)

/-- A store of a thread ends: a failing status goes into the store status unless one is there (R290). -/
def State.storeAnswered (s : State) (r : GridReq) (status : Byte) : State :=
  let s := s.dropReq r.id
  let c := s.ctx r.thread
  let s := if r.orphan ∨ status = stOk ∨ c.status.extractLsb' 0 8 ≠ 0 then s
    else s.setCtx r.thread { c with status := (c.status &&& 0x100#9) ||| status.setWidth 9 }
  s.writeEnded r.thread

/-- STORE_COMPLETION: the response to an ST, VST or BPUT (R290, R291). -/
def execStoreCompletion (now id : Nat) (via : Option Hdr) (s : State) : Out :=
  .next (match s.gridReq id with
    | none => s
    | some r =>
      if !r.isWrite || r.heldStore then s
      else s.advanceTo (answeredAt now via) |>.gridAnswer r via fun st s =>
        match r.local_, r.answer with
        | true, some (st, _, _) => s.storeAnswered r st
        | true, none => s
        | false, _ => s.storeAnswered r st)

/-- A request of a thread times out: a load completes with zeros and poison, a write sets bit [8] of the store status
(R112, R256, R290). Of a write or an atomic nobody knows then that it was performed, so no flagged store behind it is sent (R126). -/
def State.threadTimeout (s : State) (id : Nat) : State :=
  match s.gridReq id with
  | none => s
  | some r =>
    if r.isWrite then
      let s := s.dropReq id
      let s := s.setLost (s.grid.lost ++ [{ id := r.id, thread := r.thread, cid := r.cid, orphan := r.orphan }])
      let c := s.ctx r.thread
      let s := if r.orphan then s else s.setCtx r.thread { c with status := c.status ||| 0x100#9 }
      s.writeEnded r.thread
    else
      let s := if r.writes then
          s.setLost (s.grid.lost ++ [{ id := r.id, thread := r.thread, cid := r.cid, orphan := r.orphan }])
        else s
      s.loadAnswered r stPoison (zeros 4096) (BitVec.allOnes 64)

end Sys2Proof.Machine
end

