-- ==== Sys2Proof/Machine/GridScalar.lean ====
section
/-! DEFINITION. The grid's scalar, control, scratch, message and SYS instructions (R276 to R283, R292 to R294). -/
namespace Sys2Proof.Machine

/-! ### Shared forms -/

/-- The first check that fails is the fault; none failing, the instruction goes on (R309). -/
def State.guarded (s : State) (t : Thread) (checks : List (Bool × Byte)) (go : State) : State :=
  match checks.find? fun c => c.1 with
  | some c => s.fault t c.2
  | none => go

/-- Writes sd with its poison bit and goes to the next instruction. -/
def State.writeReg (s : State) (t : Thread) (sd : BitVec 3) (v : W64) (p : Bool) : State :=
  s.retire t ((s.ctx t).setReg sd v p)

/-- sd ← op sa sb; the poison of both sources goes to sd (R271, R276). -/
def aluOp (op : W64 → W64 → W64) (f : FmtR) (t : Thread) (s : State) : State :=
  let c := s.ctx t
  s.writeReg t f.sd (op (c.reg f.sa) (c.reg f.sb)) (c.regPoison f.sa || c.regPoison f.sb)

/-- sd ← op sa, of one source. -/
def aluOne (op : W64 → W64) (f : FmtR) (t : Thread) (s : State) : State :=
  let c := s.ctx t
  s.writeReg t f.sd (op (c.reg f.sa)) (c.regPoison f.sa)

/-- sd ← op sa imm, of one source and an immediate already extended (R274). -/
def immOp (op : W64 → W64) (f : FmtI) (t : Thread) (s : State) : State :=
  let c := s.ctx t
  s.writeReg t f.sd (op (c.reg f.sa)) (c.regPoison f.sa)

def boolW (b : Bool) : W64 := if b then 1 else 0

def sextImm (f : FmtI) : W64 := f.imm.signExtend 64
def zextImm (f : FmtI) : W64 := f.imm.setWidth 64

/-- Amount of a shift by a register: its bits [5:0]. -/
def shiftAmount (b : W64) : Nat := (b.extractLsb' 0 6).toNat

/-! ### ALU (R276) -/

def execAdd (i : Issue) (f : FmtR) (s : State) : Out := .next (gridStep i (.add i f) (aluOp (fun a b => a + b) f) s)
def execSub (i : Issue) (f : FmtR) (s : State) : Out := .next (gridStep i (.sub i f) (aluOp (fun a b => a - b) f) s)
def execAnd (i : Issue) (f : FmtR) (s : State) : Out := .next (gridStep i (.and i f) (aluOp (fun a b => a &&& b) f) s)
def execOr (i : Issue) (f : FmtR) (s : State) : Out := .next (gridStep i (.or i f) (aluOp (fun a b => a ||| b) f) s)
def execXor (i : Issue) (f : FmtR) (s : State) : Out := .next (gridStep i (.xor i f) (aluOp (fun a b => a ^^^ b) f) s)

def execSll (i : Issue) (f : FmtR) (s : State) : Out :=
  .next (gridStep i (.sll i f) (aluOp (fun a b => a <<< shiftAmount b) f) s)

def execSrl (i : Issue) (f : FmtR) (s : State) : Out :=
  .next (gridStep i (.srl i f) (aluOp (fun a b => a >>> shiftAmount b) f) s)

def execSra (i : Issue) (f : FmtR) (s : State) : Out :=
  .next (gridStep i (.sra i f) (aluOp (fun a b => a.sshiftRight (shiftAmount b)) f) s)

def execSlt (i : Issue) (f : FmtR) (s : State) : Out :=
  .next (gridStep i (.slt i f) (aluOp (fun a b => boolW (decide (a.toInt < b.toInt))) f) s)

def execSltu (i : Issue) (f : FmtR) (s : State) : Out :=
  .next (gridStep i (.sltu i f) (aluOp (fun a b => boolW (decide (a.toNat < b.toNat))) f) s)

def execMul (i : Issue) (f : FmtR) (s : State) : Out := .next (gridStep i (.mul i f) (aluOp (fun a b => a * b) f) s)

def execMulhu (i : Issue) (f : FmtR) (s : State) : Out :=
  .next (gridStep i (.mulhu i f) (aluOp (fun a b => BitVec.ofNat 64 (a.toNat * b.toNat / 2 ^ 64)) f) s)

def execDivu (i : Issue) (f : FmtR) (s : State) : Out :=
  .next (gridStep i (.divu i f) (aluOp (fun a b => if b = 0 then BitVec.allOnes 64 else BitVec.ofNat 64 (a.toNat / b.toNat)) f) s)

def execRemu (i : Issue) (f : FmtR) (s : State) : Out :=
  .next (gridStep i (.remu i f) (aluOp (fun a b => if b = 0 then a else BitVec.ofNat 64 (a.toNat % b.toNat)) f) s)

def execMin (i : Issue) (f : FmtR) (s : State) : Out :=
  .next (gridStep i (.min i f) (aluOp (fun a b => if a.toInt ≤ b.toInt then a else b) f) s)

def execMax (i : Issue) (f : FmtR) (s : State) : Out :=
  .next (gridStep i (.max i f) (aluOp (fun a b => if a.toInt ≤ b.toInt then b else a) f) s)

/-- SEXTB ignores sb, its poison too (DEDUCED from "sb ignored"; log entry 40). -/
def execSextb (i : Issue) (f : FmtR) (s : State) : Out :=
  .next (gridStep i (.sextb i f) (aluOne (fun a => (a.extractLsb' 0 8).signExtend 64) f) s)

def execSexth (i : Issue) (f : FmtR) (s : State) : Out :=
  .next (gridStep i (.sexth i f) (aluOne (fun a => (a.extractLsb' 0 16).signExtend 64) f) s)

def execSextw (i : Issue) (f : FmtR) (s : State) : Out :=
  .next (gridStep i (.sextw i f) (aluOne (fun a => (a.extractLsb' 0 32).signExtend 64) f) s)

/-! ### Immediates (R274, R275) -/

def execAddi (i : Issue) (f : FmtI) (s : State) : Out :=
  .next (gridStep i (.addi i f) (immOp (fun a => a + sextImm f) f) s)

def execAndi (i : Issue) (f : FmtI) (s : State) : Out :=
  .next (gridStep i (.andi i f) (immOp (fun a => a &&& zextImm f) f) s)

def execOri (i : Issue) (f : FmtI) (s : State) : Out :=
  .next (gridStep i (.ori i f) (immOp (fun a => a ||| zextImm f) f) s)

def execXori (i : Issue) (f : FmtI) (s : State) : Out :=
  .next (gridStep i (.xori i f) (immOp (fun a => a ^^^ zextImm f) f) s)

def execSlti (i : Issue) (f : FmtI) (s : State) : Out :=
  .next (gridStep i (.slti i f) (immOp (fun a => boolW (decide (a.toInt < (sextImm f).toInt))) f) s)

def execSltiu (i : Issue) (f : FmtI) (s : State) : Out :=
  .next (gridStep i (.sltiu i f) (immOp (fun a => boolW (decide (a.toNat < (sextImm f).toNat))) f) s)

/-- SHI: imm[5:0] is the amount, imm[7:6] chooses SLL, SRL or SRA. -/
def shiValue (f : FmtI) (a : W64) : W64 :=
  let n := (f.imm.extractLsb' 0 6).toNat
  match (f.imm.extractLsb' 6 2).toNat with
  | 0 => a <<< n
  | 1 => a >>> n
  | _ => a.sshiftRight n

def execShi (i : Issue) (f : FmtI) (s : State) : Out := .next (gridStep i (.shi i f) (immOp (shiValue f) f) s)

def execLui (i : Issue) (f : FmtU) (s : State) : Out :=
  .next (gridStep i (.lui i f) (fun t s => s.writeReg t f.sd ((f.imm.signExtend 64) <<< 20) false) s)

/-! ### Control (R277) -/

/-- A target is an instruction index within the code. -/
def State.targetOk (s : State) (t : Thread) (z : Int) : Bool :=
  decide (0 ≤ z) && decide (z < (s.programOf t).code.length)

/-- Goes to a target with sd ← pc + 1. -/
def State.jump (s : State) (t : Thread) (sd : BitVec 3) (z : Int) : State :=
  let c := s.ctx t
  s.setCtx t { c.setReg sd (BitVec.ofNat 64 (c.pc + 1)) false with pc := z.toNat }

def execJal (i : Issue) (f : FmtU) (s : State) : Out :=
  .next (gridStep i (.jal i f) (fun t s =>
    let z : Int := (s.ctx t).pc + f.imm.toInt
    s.guarded t [(!s.targetOk t z, gcCodeRange)] (s.jump t f.sd z)) s)

/-- The target is sa as a signed number plus imm20 (DEDUCED; log entry 41). -/
def execJalr (i : Issue) (f : FmtI) (s : State) : Out :=
  .next (gridStep i (.jalr i f) (fun t s =>
    let c := s.ctx t
    let z : Int := (c.reg f.sa).toInt + f.imm.toInt
    s.guarded t [(c.regPoison f.sa, gcPoisonUse), (!s.targetOk t z, gcCodeRange)] (s.jump t f.sd z)) s)

/-- A branch: both operands unpoisoned (R310), the target within the code taken or not (R277). -/
def branchOp (test : W64 → W64 → Bool) (f : FmtB) (t : Thread) (s : State) : State :=
  let c := s.ctx t
  let z : Int := c.pc + f.off.toInt
  s.guarded t [(c.regPoison f.sa || c.regPoison f.sb, gcPoisonUse), (!s.targetOk t z, gcCodeRange)]
    (s.setCtx t { c with pc := if test (c.reg f.sa) (c.reg f.sb) then z.toNat else c.pc + 1 })

def execBeq (i : Issue) (f : FmtB) (s : State) : Out := .next (gridStep i (.beq i f) (branchOp (fun a b => decide (a = b)) f) s)
def execBne (i : Issue) (f : FmtB) (s : State) : Out := .next (gridStep i (.bne i f) (branchOp (fun a b => decide (a ≠ b)) f) s)

def execBlt (i : Issue) (f : FmtB) (s : State) : Out :=
  .next (gridStep i (.blt i f) (branchOp (fun a b => decide (a.toInt < b.toInt)) f) s)

def execBge (i : Issue) (f : FmtB) (s : State) : Out :=
  .next (gridStep i (.bge i f) (branchOp (fun a b => decide (b.toInt ≤ a.toInt)) f) s)

def execBltu (i : Issue) (f : FmtB) (s : State) : Out :=
  .next (gridStep i (.bltu i f) (branchOp (fun a b => decide (a.toNat < b.toNat)) f) s)

def execBgeu (i : Issue) (f : FmtB) (s : State) : Out :=
  .next (gridStep i (.bgeu i f) (branchOp (fun a b => decide (b.toNat ≤ a.toNat)) f) s)

/-- A word that R275 makes ILLEGAL. -/
def execReservedInstruction (i : Issue) (word : W32) (s : State) : Out :=
  .next (gridStep i (.reservedInstruction i word)
    (fun t s => if (decodeGrid i word).isNone then s.fault t gcIllegal else s) s)

/-! ### Scratch (R280 to R282) -/

/-- Bytes of a size field of SM and RM (R274). -/
def sizeBytes (k : BitVec 2) : Nat := 2 ^ k.toNat

/-- Bytes of the size bit of SA and AM. -/
def wideBytes (k : BitVec 1) : Nat := if k = 0 then 4 else 8

/-- Scratch address of SM and SA formats within the program's window. -/
def scratchAddr (base : W64) (imm : Int) : Int := base.toNat + imm

/-- Absolute scratch address of an address in the window of a thread's program. -/
def State.absAddr (s : State) (t : Thread) (a : Int) : Nat := (s.programOf t).scratch0 + a.toNat

def State.outOfWindow (s : State) (t : Thread) (a : Int) (n : Nat) : Bool := !(s.programOf t).inWindow a n

def State.scratchPoisoned (s : State) (t : Thread) (a : Int) (n : Nat) : Bool :=
  ((s.core t.core).readPoison (s.absAddr t a) n).any fun b => b

def State.scratchBytesAt (s : State) (t : Thread) (a : Int) (n : Nat) : List Byte :=
  (s.core t.core).readScratch (s.absAddr t a) n

/-- Writes scratch of a thread's window, every byte with one poison. -/
def State.putScratch (s : State) (t : Thread) (a : Int) (l : List Byte) (p : Bool) : State :=
  s.setCore t.core ((s.core t.core).writeScratch (s.absAddr t a) l (List.replicate l.length p))

def execSld (i : Issue) (f : FmtSM) (s : State) : Out :=
  .next (gridStep i (.sld i f) (fun t s =>
    let c := s.ctx t
    let n := sizeBytes f.size
    let a := scratchAddr (c.reg f.sa) f.imm.toInt
    s.guarded t [(c.regPoison f.sa, gcPoisonUse), (s.outOfWindow t a n, gcScratchRange)]
      (s.writeReg t f.sd (BitVec.ofNat 64 (ofLe (s.scratchBytesAt t a n))) (s.scratchPoisoned t a n))) s)

def execSst (i : Issue) (f : FmtSM) (s : State) : Out :=
  .next (gridStep i (.sst i f) (fun t s =>
    let c := s.ctx t
    let n := sizeBytes f.size
    let a := scratchAddr (c.reg f.sa) f.imm.toInt
    let s' := s.putScratch t a (leBytes n (c.reg f.sd).toNat) (c.regPoison f.sd)
    s.guarded t [(c.regPoison f.sa, gcPoisonUse), (s.outOfWindow t a n, gcScratchRange)] (s'.retire t (s'.ctx t))) s)

/-- Operand A of an atomic: sd on entry for CAS, else sb (R282). -/
def atomicA (fn : BitVec 4) (c : Ctx) (sd sb : BitVec 3) : Nat := if fn = 1 then (c.reg sd).toNat else (c.reg sb).toNat

/-- An operand of an atomic is poisoned. -/
def atomicPoison (fn : BitVec 4) (c : Ctx) (sd sb : BitVec 3) : Bool := c.regPoison sb || (decide (fn = 1) && c.regPoison sd)

def execSamo (i : Issue) (f : FmtSA) (s : State) : Out :=
  .next (gridStep i (.samo i f) (fun t s =>
    let c := s.ctx t
    let n := wideBytes f.size
    let a := scratchAddr (c.reg f.sa) 0
    let prior := ofLe (s.scratchBytesAt t a n)
    let bad := s.scratchPoisoned t a n
    let new := atomicResult f.fn.toNat n prior (atomicA f.fn c f.sd f.sb) (c.reg f.sb).toNat
    let s' := s.putScratch t a (leBytes n new) (bad || atomicPoison f.fn c f.sd f.sb)
    s.guarded t [(decide (9 < f.fn.toNat), gcIllegal), (c.regPoison f.sa, gcPoisonUse),
        (decide (a % n ≠ 0), gcAlign), (s.outOfWindow t a n, gcScratchRange)]
      (s'.writeReg t f.sd (BitVec.ofNat 64 prior) bad)) s)

/-! ### Messages (R292 to R294) -/

/-- A thread begins to wait. -/
def State.await (s : State) (t : Thread) (st : ThreadState) (w : ThreadWait) : State :=
  s.setCtx t { s.ctx t with state := st, wait := w }

/-- The message of SEND, read at issue, with the poison of its source lines. -/
def State.messageAt (s : State) (t : Thread) (a : Int) (n : Nat) : Message :=
  { data := s.scratchBytesAt t a n
    poison := (List.range (n / 8)).map fun (j : Nat) => s.scratchPoisoned t (a + 8 * j) 8 }

def execSend (i : Issue) (f : FmtSend) (s : State) : Out :=
  .next (gridStep i (.send i f) (fun t s =>
    let c := s.ctx t
    let n := (f.len.toNat + 1) * 8
    let a := scratchAddr (c.reg f.sa) 0
    let b := c.reg f.sb
    let target := 32 * bitsOf b.toNat 8 5 + bitsOf b.toNat 0 5
    let queue := bitsOf b.toNat 16 4
    let cid := (s.threadCluster t).cid
    let m := s.messageAt t a n
    let d := s.core target
    s.guarded t [(c.regPoison f.sa || c.regPoison f.sb, gcPoisonUse), (decide (a % 8 ≠ 0), gcAlign),
        (s.outOfWindow t a n, gcScratchRange)]
      (if !s.queueFull cid target queue then (s.postMessage t cid target queue m).writeReg t f.sd 0 false
       else if f.blk = 0 then s.writeReg t f.sd 1 false
       else (s.setCore target { d with sendWait := d.sendWait ++ [{ thread := t, queue := queue, msg := m }] }).await t
              .waitMsg (.send target f.sd))) s)

def execRecv (i : Issue) (f : FmtRecv) (s : State) : Out :=
  .next (gridStep i (.recv i f) (fun t s =>
    let c := s.ctx t
    let p := s.programOf t
    let q := f.queue.toNat
    let a := scratchAddr (c.reg f.sa) 0
    let k := s.core t.core
    s.guarded t [(!(decide (p.queue0 ≤ q) && decide (q < p.queue0 + p.queues)), gcResource),
        (c.regPoison f.sa, gcPoisonUse), (s.outOfWindow t a 64, gcScratchRange)]
      (match k.queues.get [] q with
       | m :: rest =>
         ((s.setCore t.core { k with queues := k.queues.set [] q rest }).receiveInto t (s.absAddr t a) f.sd m).wakeSenders
           t.core q 1
       | [] =>
         if f.blk = 0 then s.writeReg t f.sd 0 false
         else (s.setCore t.core { k with recvWait := k.recvWait ++ [(t.ctx, q)] }).await t .waitMsg
                (.recv q (s.absAddr t a) f.sd))) s)

/-! ### SYS (R278, R279) -/

def execHalt (i : Issue) (f : FmtR) (s : State) : Out :=
  .next (gridStep i (.halt i f) (fun t s => (s.retire t (s.ctx t)).haltThread t gcHalt) s)

/-- Makes a resident program active on a cluster (R247). -/
def State.activate (s : State) (c p : Nat) : State := s.setCluster c { s.cluster c with active := some p }

/-- A SWITCH of this thread reaches the cluster after its program has stopped being active: the thread stands at a SWITCH it had
issued, and the program is resident but not active. (DESIGN CHOICE, log 90: an inactive program issues nothing, so its SWITCH
command is the arrival of one issued before.) -/
def State.lateSwitch (s : State) (t : Thread) (cmd : Instr) : Bool :=
  let cl := s.threadCluster t
  let c := s.ctx t
  decide (c.state = .ready) && decide (cl.state = .assigned) && !cl.testing && decide (cl.active ≠ some c.program) &&
    (s.programOf t).resident && decide (encodeGrid cmd = (s.programOf t).code[c.pc]?) && gridOperandsOk cmd

/-- SWITCH: applied in order of arrival. One that names the active program, or arrives after its own program has stopped being
active, is discarded; one that names a program that is not resident is a RESOURCE fault (R279). -/
def execSwitch (i : Issue) (f : FmtR) (s : State) : Out :=
  if s.inService && (s.advanceTo i.now).lateSwitch i.thread (.switch i f) then
    let s := s.advanceTo i.now
    let c := s.ctx i.thread
    .next (s.guarded i.thread [(c.regPoison f.sa, gcPoisonUse)] (s.retire i.thread c))
  else .next (gridStep i (.switch i f) (fun t s =>
    let c := s.ctx t
    let p := bitsOf (c.reg f.sa).toNat 0 2
    let k := clusterOf t.core
    let s' := s.retire t c
    s.guarded t [(c.regPoison f.sa, gcPoisonUse), (!(s.program k p).resident, gcResource)] (s'.activate k p)) s)

/-- The count is LOCKED and at or past a target (R251). -/
def State.tickReached (s : State) (target : W64) : Bool := s.locked && decide (target.toNat ≤ s.sky.count.toNat)

def execTwait (i : Issue) (f : FmtR) (s : State) : Out :=
  .next (gridStep i (.twait i f) (fun t s =>
    let c := s.ctx t
    let v := c.reg f.sa
    s.guarded t [(c.regPoison f.sa, gcPoisonUse)]
      (if s.tickReached v then s.retire t c else s.await t .waitTick (.tick v))) s)

def execRdsdc (i : Issue) (f : FmtR) (s : State) : Out :=
  .next (gridStep i (.rdsdc i f)
    (fun t s => s.writeReg t f.sd (if s.locked then s.sky.count else BitVec.allOnes 64) false) s)

/-- A vector slot of the program's allotment that no thread holds. Of several R257 does not say which: the lowest is granted (DESIGN
CHOICE, log entry 98). -/
def State.freeSlotOf (s : State) (t : Thread) : Option Nat :=
  let p := s.programOf t
  (List.range p.slots).map (fun j => p.slot0 + j) |>.find? fun k => !(s.core t.core).held.contains k

def execSacq (i : Issue) (f : FmtR) (s : State) : Out :=
  .next (gridStep i (.sacq i f) (fun t s =>
    let c := s.ctx t
    let k := s.core t.core
    match c.slot with
    | some _ => s.retire t c
    | none =>
      match s.freeSlotOf t with
      | some x => (s.setCore t.core { k with held := k.held ++ [x] }).retire t { c with slot := some x }
      | none => (s.setCore t.core { k with slotWait := k.slotWait ++ [(t.ctx, c.program)] }).await t .waitSlot .slot) s)

def execSrel (i : Issue) (f : FmtR) (s : State) : Out :=
  .next (gridStep i (.srel i f) (fun t s =>
    let c := s.ctx t
    match c.slot with
    | some x => (s.retire t { c with slot := none }).freeSlot t.core x
    | none => s.retire t c) s)

/-- RELEASE waits for the thread's earlier writes and atomics, then returns and clears the store status (R129, R291). The table of R249
has no row for a thread that waits so: it is in WAIT_MEM (DESIGN CHOICE, log entry 98). -/
def execSysRelease (i : Issue) (f : FmtR) (s : State) : Out :=
  .next (gridStep i (.sysRelease i f) (fun t s => (s.await t .waitMem (.release f.sd)).settleRelease t) s)

def execRdinfo (i : Issue) (f : FmtR) (s : State) : Out :=
  .next (gridStep i (.rdinfo i f) (fun t s =>
    let c := s.ctx t
    let p := s.programOf t
    s.writeReg t f.sd (BitVec.ofNat 64 (c.program % 4 + p.queue0 * 2 ^ 4 + p.queues * 2 ^ 8 + p.accs * 2 ^ 16 +
      p.slots * 2 ^ 20 + s.aid.toNat * 2 ^ 24)) false) s)

def execRdcyc (i : Issue) (f : FmtR) (s : State) : Out :=
  .next (gridStep i (.rdcyc i f) (fun t s => s.writeReg t f.sd (BitVec.ofNat 64 (s.coreCyc / 4)) false) s)

end Sys2Proof.Machine
end

