-- ==== Sys2Proof/Machine/Measure.lean ====
section
/-! DEFINITION. Measurement registers (R527). -/
namespace Sys2Proof.Machine

/-- A hash of 64 bytes as bytes. -/
def hashBytes (h : BitVec 512) : List Byte := beBytes 64 h.toNat

/-- First 32 bytes of a 64-byte hash: the 256-bit output of SHAKE256. -/
def hash256 (h : BitVec 512) : BitVec 256 := h.extractLsb' 256 256

/-- M ← SHAKE256(M ‖ e) with 512 bits of output. -/
def extendMeasure (m : BitVec 512) (e : List Byte) : BitVec 512 := Config.shake512 (hashBytes m ++ e)

/-- Extends M3. -/
def State.extendM3 (s : State) (e : List Byte) : State := { s with sec := { s.sec with m3 := extendMeasure s.sec.m3 e } }

end Sys2Proof.Machine
end

