-- ==== Sys2Proof/Machine/Units.lean ====
section
/-! DEFINITION. Reads and writes that a unit of the device makes on its own behalf: loaders, walkers, movers, engines, roasters,
the search program (R139, R429, R643). A read of a local region is an access at its home slice, and one of another device a request
frame whose response comes later; either way the unit keeps the answer until it has used it, and until then its event is taken
again. -/
namespace Sys2Proof.Machine

/-- What a read of a unit gave. -/
structure Got where
  data : List Byte := []
  /-- Poison of each byte. -/
  poison : List Bool := []
  /-- Status of a read that failed (R643), else OK. -/
  status : Byte := 0
  /-- The read has no answer yet. -/
  waits : Bool := false
  deriving DecidableEq, Repr

def Got.poisoned (g : Got) : Bool := g.poison.any fun b => b

/-- The unit may go on with the bytes. -/
def Got.usable (g : Got) : Bool := !g.waits && decide (g.status = stOk)

/-- The access that stands for a read or write of a unit. -/
def State.unitAccess (s : State) (kind : AccKind) (cid : Cid) (rh : Handle) (off len : Nat) : Access :=
  { kind := kind, id := s.reqs.nextId, src := s.aid, owner := s.aid, cid := cid, gen := s.genOf cid
    region := (s.localRegion rh).getD 0, position := s.standsFor rh, offset := off, len := len }

/-- Addresses of the frames of a read or write: at most 4,096 bytes each. Where several are needed, they meet at line
boundaries, so that no line is read twice (R219, R380; the cuts are the model's choice, log entry 81). -/
def cuts (off n : Nat) : List (Nat × Nat) :=
  if n ≤ 4096 then (if n = 0 then [] else [(off, n)])
  else
    let first := 4096 - off % 64
    (off, first) :: (List.range ((n - first + 4095) / 4096)).map fun k =>
      (off + first + 4096 * k, min 4096 (n - first - 4096 * k))

/-- PCP of a unit's accesses to another device: the coherence PCP for a Coherent-mode region, else the unit's own (R142). -/
def State.unitPcp (s : State) (cid : Cid) (rh : Handle) (own : Option Nat) : Nat :=
  if Config.remoteCoherent rh then s.coherencePcp cid else own.getD s.pcpBulk

/-! ### Reads -/

def State.setUnits (s : State) (l : List UnitRead) : State := { s with reqs := { s.reqs with units := l } }

/-- The read of a range that an asker has made already. -/
def State.unitFor (s : State) (u : Asker) (cid : Cid) (rh : Handle) (c : Nat × Nat) : Option UnitRead :=
  s.reqs.units.find? fun x => decide (x.asker = u) && decide (x.cid = cid) && decide (x.rh = rh) && decide (x.off = c.1) &&
    decide (x.len = c.2)

/-- Sends a unit's read to another device (R219, R285). -/
def State.readRemote (s : State) (u : Asker) (opcode : Byte) (pcp : Nat) (cid : Cid) (rh : Handle) (c : Nat × Nat) : State :=
  let id := s.reqs.nextId
  (s.setUnits (s.reqs.units ++ [{ id := id, asker := u, cid := cid, rh := rh, off := c.1, len := c.2 }])).issue .unit
    { opcode := opcode, dst := handleAid rh, cid := cid, gen := s.genOf cid, pcp := pcp, payload := addrBytes rh 0 c.1 c.2 }

/-- Some unit's reads are served in the scheduled class of their composition, as a grid read is (R255, R325): those of the embedding
engines. -/
def Asker.scheduled : Asker → Bool
  | .gather _ | .bag _ _ | .look _ _ _ => true
  | _ => false

/-- A unit's read of a local region: the check of R429 at issue and the refusals of R642, then an access at the home slice. -/
def State.readLocal (s : State) (u : Asker) (cid : Cid) (rh : Handle) (off n : Nat) : State :=
  let (id, s) := s.takeId
  let note := fun (s : State) (x : Option UnitAnswer) =>
    s.setUnits (s.reqs.units ++ [{ id := id, asker := u, cid := cid, rh := rh, off := off, len := n, answer := x }])
  if !s.assignedTo rh cid then
    note (s.violation cid s.aid 0xFF 9) (some { data := zeros n, poison := List.replicate (linesOf off n) false })
  else
    let a := s.unitAccess .read cid rh off n
    match s.refusal (s.unitHdr cid) a rightRead with
    | some st => note s (some { status := st })
    | none => (note s none).submit { a with origin := .unit id, espresso := u.scheduled && s.gridEspresso cid a.region off }

/-- The answers to the parts of a read, in order: none while one is missing. -/
def State.unitAnswers (s : State) (u : Asker) (cid : Cid) (rh : Handle) : List (Nat × Nat) → Option (List ((Nat × Nat) × UnitAnswer))
  | [] => some []
  | c :: t =>
    match (s.unitFor u cid rh c).bind (·.answer), s.unitAnswers u cid rh t with
    | some x, some l => some ((c, x) :: l)
    | _, _ => none

/-- The bytes of answers and their poison, or the first failing status. -/
def gotOf (l : List ((Nat × Nat) × UnitAnswer)) : Got :=
  match l.find? fun e => decide (e.2.status ≠ stOk) with
  | some e => { status := e.2.status }
  | none =>
    { data := l.flatMap fun e => sliceBytes e.2.data 0 e.1.2
      poison := l.flatMap fun e => (List.range e.1.2).map fun j => nth false e.2.poison ((e.1.1 + j) / 64 - e.1.1 / 64) }

/-- The frames or the one access that a read takes. -/
def State.unitParts (s : State) (rh : Handle) (off n : Nat) : List (Nat × Nat) :=
  if n = 0 then [] else if s.answersTo (handleAid rh) then [(off, n)] else cuts off n

/-- A read of a unit for an asker under a cid: what it has not asked for yet it asks for, and it has its bytes once every part is
answered. `own` is the PCP of the unit's remote reads where that is not PCP 2, and `opcode` their opcode. -/
def State.unitRead (s : State) (u : Asker) (cid : Cid) (rh : Handle) (off n : Nat) (own : Option Nat := none) (opcode : Byte := 0x01) :
    State × Got :=
  let parts := s.unitParts rh off n
  let s := parts.foldl (fun s c =>
    if (s.unitFor u cid rh c).isSome then s
    else if s.answersTo (handleAid rh) then s.readLocal u cid rh c.1 c.2
    else s.readRemote u opcode (s.unitPcp cid rh own) cid rh c) s
  (s, match s.unitAnswers u cid rh parts with
    | some l => gotOf l
    | none => { waits := true })

/-- A read that a manager's order makes of a region of which the device is home, whichever composition holds it. -/
def State.orderRead (s : State) (u : Asker) (rh : Handle) (off n : Nat) : State × Got :=
  let cid := (s.region (handleIndex rh)).cid
  let s := if n = 0 ∨ (s.unitFor u cid rh (off, n)).isSome then s
    else
      let (id, s) := s.takeId
      (s.setUnits (s.reqs.units ++ [{ id := id, asker := u, cid := cid, rh := rh, off := off, len := n }])).submit
        { s.unitAccess .read cid rh off n with origin := .unit id }
  (s, match s.unitAnswers u cid rh (if n = 0 then [] else [(off, n)]) with
    | some l => gotOf l
    | none => { waits := true })

/-- What a read of a unit that asks for nothing new finds. -/
def State.unitPeek (s : State) (u : Asker) (cid : Cid) (rh : Handle) (off n : Nat) : Got :=
  match s.unitAnswers u cid rh (s.unitParts rh off n) with
  | some l => gotOf l
  | none => { waits := true }

/-- A unit is done with what it has read, or is ended: its answers are dropped, and so are its local reads that wait. A read that
another device still owes stays a request of the device's own (R111, R407). -/
def State.forgetIf (s : State) (p : Asker → Bool) : State :=
  let mine := (s.reqs.units.filter fun x => p x.asker).map (·.id)
  let s := s.setHeld (s.reqs.held.filter fun a => match a.origin with
    | .unit id => !mine.contains id
    | _ => true)
  s.setUnits (s.reqs.units.filter fun x => !p x.asker)

def State.forget (s : State) (u : Asker) : State := s.forgetIf fun x => decide (x = u)

def State.setArrivals (s : State) (l : List Arrival) : State := { s with reqs := { s.reqs with arrivals := l } }

/-- A request or order whose first reads have to wait is held, with what the first of them gave (R115). -/
def State.holdArrival (s : State) (a : Arrival) : State := s.setArrivals (s.reqs.arrivals ++ [a])

/-! ### Writes -/

/-- A request of an engine is numbered past the movers. -/
def engineReq (id : Nat) : Nat := 64 + id

/-- Answers a request once its writes are performed. -/
def State.replyWhenDone (s : State) (req : Nat) (h : Hdr) (opcode : Byte) (payload : List Byte) : State :=
  State.settleReply { s with reqs := { s.reqs with
    replies := s.reqs.replies ++ [{ req := req, h := h, opcode := opcode, payload := payload }] } } req

/-- A write of a unit for request `req`, on behalf of `agent` where it serves one's request; the lines of `taint` are left poisoned
(R139). A local write becomes an access at the home slice; another device is sent WRITE frames, which have no field for poison (R81),
and a frame that is not answered in time counts against the request as POISON (R112). `behalf` is the agent that the frame names (R81),
and ownership counts the write for it. Answers the status of a refusal (R430, R642). -/
def State.unitWrite (s : State) (req : Nat) (cid : Cid) (agent behalf : Aid) (rh : Handle) (off : Nat) (data : List Byte)
    (taint : List Nat) (own : Option Nat := none) : State × Byte :=
  if data = [] then (s, stOk)
  else if !s.answersTo (handleAid rh) then
    ((cuts off data.length).foldl (fun s c =>
      s.issue (.unitWrite req c.1)
        { opcode := 0x04, dst := handleAid rh, cid := cid, gen := s.genOf cid, pcp := s.unitPcp cid rh own
          payload := addrBytes rh 0 c.1 (c.2 + behalf.toNat * 65536) ++ sliceBytes data (c.1 - off) c.2 }) s, stOk)
  else if !s.assignedTo rh cid then (s.violation cid s.aid 0xFF 9, stOk)
  else
    let a := { s.unitAccess .write cid rh off data.length with
               origin := .engine req, data := data, taint := taint, owner := s.ownerOf (s.unitHdr cid) behalf }
    match s.refusal (s.unitHdrOf cid agent) a rightWrite with
    | some st => (s, st)
    | none => (s.submit a, stOk)

/-- First status other than OK of a request's local writes. -/
def State.unitFailure (s : State) (req : Nat) : Byte := Tab.get 0 s.reqs.failures req

/-- Lowest offset of a part of a request's local writes that failed. -/
def State.failedFrom (s : State) (req : Nat) : Option Nat :=
  match Tab.get 0 s.reqs.failedAt req with
  | 0 => none
  | n + 1 => some n

/-- Forgets a request's failure once it is answered. -/
def State.clearFailure (s : State) (req : Nat) : State :=
  (s.setFailures (Tab.set 0 s.reqs.failures req 0)).setFailedAt (Tab.set 0 s.reqs.failedAt req 0)

/-- Lines of a destination that hold a byte computed from a poisoned one. -/
def taintOf (off : Nat) (p : List Bool) : List Nat :=
  ((p.zipIdx.filter fun x => x.1).map fun x => (off + x.2) / 64).eraseDups

end Sys2Proof.Machine
end

