-- ==== Sys2Proof/Machine/GridOrders.lean ====
section
/-! DEFINITION. Clusters and programs: assignment and release (R239 to R241), loading, starting, switching and unloading
(R242 to R248), and the halting of a composition's threads (R249, R269). -/
namespace Sys2Proof.Machine

/-! ### Clusters -/

/-- Clusters that a mask names: bit c = 8·cy + cx. -/
def clustersOf (mask : W64) : List Nat := (List.range 64).filter fun c => mask.getLsbD c

def coresOfMask (mask : W64) : List Nat := (clustersOf mask).flatMap coresOf

/-- The partition of a cluster: Q0 to Q3 by quadrant (R10). -/
def partitionOf (c : Nat) : Nat := 2 * (c / 32) + c % 8 / 4

/-- The named clusters are all in one state. -/
def State.allIn (s : State) (cs : List Nat) (st : ClusterState) : Bool := cs.all fun c => decide ((s.cluster c).state = st)

/-- The named clusters are ASSIGNED to one composition: its cid. -/
def State.sharedCid (s : State) (mask : W64) : Option Cid :=
  match clustersOf mask with
  | [] => none
  | c :: cs =>
    if s.allIn (c :: cs) .assigned && cs.all fun d => decide ((s.cluster d).cid = (s.cluster c).cid) then some (s.cluster c).cid
    else none

/-- A grid order on ASSIGNED clusters of one composition; INVALID otherwise (R241). -/
def State.onClusters (s : State) (ref : OrderRef) (mask : W64) (k : Cid → State → State) : State :=
  match s.sharedCid mask with
  | some cid => k cid s
  | none => s.finishOrder ref stInvalid []

/-- A grid order that names a program, 0 to 3. -/
def State.onProgram (s : State) (ref : OrderRef) (mask : W64) (p : Nat) (k : Cid → State → State) : State :=
  s.onClusters ref mask fun cid s => if 3 < p then s.finishOrder ref stInvalid [] else k cid s

/-- An order that waits behind a reset names one of the clusters (R481). -/
def State.deferredOn (s : State) (mask : W64) : Bool := s.grid.deferred.any fun d => decide (d.mask &&& mask ≠ 0)

def State.defer (s : State) (d : Deferred) : State := { s with grid := { s.grid with deferred := s.grid.deferred ++ [d] } }

/-- A grid order: it runs, or waits its turn behind a reset of one of its clusters (R481). -/
def gridOrder (o : Order) (mask : W64) (op : GridOp) (run : OrderRef → State → State) (s : State) : State :=
  orderRequest o (fun ref s => if s.deferredOn mask then s.defer { order := some ref, mask := mask, op := op } else run ref s) s

/-- CLUSTER_ASSIGN: the cid names an ACTIVE composition (DESIGN CHOICE; log entry 46). -/
def State.doAssign (s : State) (ref : OrderRef) (mask : W64) (cid : Cid) : State :=
  let cs := clustersOf mask
  match cs with
  | [] => s.finishOrder ref stInvalid []
  | c :: _ =>
    let st := (s.cluster c).state
    if st = .unavailable ∨ !s.allIn cs st ∨ (s.activeIdx cid).isNone then s.finishOrder ref stInvalid []
    else if st ≠ .free ∨ cs.any (fun d => decide ((s.block 3 (partitionOf d)).drain ≠ 0)) then s.finishOrder ref stBusy []
    else
      (cs.foldl (fun s d => s.setCluster d { s.cluster d with state := .assigned, cid := cid }) s).finishOrder ref stOk []

/-- Halts every thread of a core that is not FREE. -/
def State.haltCore (s : State) (core : Nat) (cause : Byte) : State :=
  ((s.core core).threads.map (·.1)).foldl (fun s k => s.haltThread ⟨core, k⟩ cause) s

def State.haltCores (s : State) (cores : List Nat) (cause : Byte) : State := cores.foldl (fun s k => s.haltCore k cause) s

/-- Senders blocked on any queue of a core to which nothing is delivered any more go on (R259, R260). -/
def State.freeSenders (s : State) (core : Nat) : State :=
  (List.range 16).foldl (fun s q => s.wakeSenders core q (s.core core).sendWait.length) s

/-- The order of a load is who its reads are for. -/
def OrderRef.asker (ref : OrderRef) : Asker := .frame ref.h.src ref.h.tag

def ProgramJob.asker (j : ProgramJob) : Asker := j.order.asker

/-- Loads that name one of the clusters end with ABORTED, since the clusters leave their composition (DESIGN CHOICE; log
entry 47). -/
def State.abortLoads (s : State) (cs : List Nat) : State :=
  let hit := fun (j : ProgramJob) => j.load && (clustersOf j.mask).any fun c => cs.contains c
  let gone := s.grid.jobs.filter hit
  let s := { s with grid := { s.grid with jobs := s.grid.jobs.filter fun j => !hit j } }
  gone.foldl (fun s j =>
    let s := s.forget j.asker
    ((clustersOf j.mask).foldl (fun s c => if j.checked then s.setProgram c j.program {} else s) s).finishOrder j.order stAborted []) s

/-- Clusters become RELEASING: their threads halt and mailbox delivery to them ends (R239). -/
def State.releaseClusters (s : State) (cs : List Nat) : State :=
  let s := s.abortLoads cs
  let s := cs.foldl (fun s c => s.haltCores (coresOf c) gcExternal) s
  let s := cs.foldl (fun s c => s.setCluster c { s.cluster c with state := .releasing, active := none }) s
  cs.foldl (fun s c => (coresOf c).foldl State.freeSenders s) s

/-- Some named cluster serves an attached index (R348). -/
def State.searchHeld (s : State) (mask : W64) : Bool := (clustersOf mask).any fun c => (s.cluster c).search

/-- CLUSTER_RELEASE: completes when every named cluster is FREE (R241). -/
def State.doRelease (s : State) (ref : OrderRef) (mask : W64) : State :=
  s.onClusters ref mask fun _ s =>
    if s.searchHeld mask then s.finishOrder ref stBusy []
    else
      let s := s.releaseClusters (clustersOf mask)
      { s with grid := { s.grid with releases := s.grid.releases ++ [(ref, mask)] } }

/-- Requests of a cluster have all been answered or timed out (R239). -/
def State.clusterQuiet (s : State) (c : Nat) : Bool := !s.grid.reqs.any fun r => decide (clusterOf r.thread.core = c)

/-- CLUSTER_QUIESCED (R239). -/
def execClusterQuiesced (now cluster : Nat) (s : State) : Out :=
  .next (s.serving fun s => let s := s.advanceTo now
    if (s.cluster cluster).state = .releasing ∧ s.clusterQuiet cluster then
      s.setCluster cluster { s.cluster cluster with state := .zeroing }
    else s)

/-- Zeroes everything in the cores of a cluster but the fault latches (R240). -/
def State.zeroCluster (s : State) (c : Nat) : State :=
  (coresOf c).foldl (fun s k => s.setCore k { latches := (s.core k).latches }) s

/-- Releases whose clusters are all FREE complete (R241). -/
def State.settleReleases (s : State) : State :=
  let done := fun (r : OrderRef × W64) => s.allIn (clustersOf r.2) .free
  (s.grid.releases.filter done).foldl (fun s r => s.finishOrder r.1 stOk [])
    { s with grid := { s.grid with releases := s.grid.releases.filter fun r => !done r } }

/-- Clusters assigned to a composition. -/
def State.clustersOfCid (s : State) (cid : Cid) : List Nat :=
  (s.grid.clusters.filter fun e => decide (e.2.cid = cid) && decide (e.2.state = .assigned)).map (·.1)

/-- Halts every thread of every cluster assigned to a composition (R269). -/
def State.haltComposition (s : State) (cid : Cid) : State :=
  (s.clustersOfCid cid).foldl (fun s c => s.haltCores (coresOf c) gcExternal) s

/-! ### Programs -/

/-- A program descriptor as read (R242). -/
structure Descriptor where
  prog : Program
  code : Ptr
  image : Ptr
  imageBytes : Nat
  imageStride : Nat
  reserved : Bool
  deriving DecidableEq, Repr

def parseDescriptor (l : List Byte) : Descriptor :=
  { prog := { codeBytes := fieldLe l 0 4, threads := fieldLe l 4 2, slots := fieldLe l 6 1, accs := fieldLe l 7 1
              scratchBytes := fieldLe l 8 4, queues := fieldLe l 12 1, pcp := fieldLe l 13 1, entry := fieldLe l 28 4 }
    code := fieldPtr l 16, image := fieldPtr l 32, imageBytes := fieldLe l 44 4, imageStride := fieldLe l 48 8
    reserved := decide (fieldLe l 14 2 = 0) && decide (fieldLe l 56 8 = 0) }

/-- Every field lies within its values (R242, R243). -/
def Descriptor.valid (d : Descriptor) : Bool :=
  let p := d.prog
  decide (p.codeBytes % 4 = 0) && decide (4 ≤ p.codeBytes) && decide (p.codeBytes ≤ 32768) && decide (1 ≤ p.threads) &&
    decide (p.threads ≤ 2048) && decide (p.slots ≤ 8) && decide (p.accs ≤ 8) && decide (p.scratchBytes % 4096 = 0) &&
    decide (p.scratchBytes ≤ 262144) && decide (p.queues ≤ 16) && (decide (p.pcp = 2) || decide (p.pcp = 6)) &&
    decide (p.entry < p.codeBytes / 4) && decide (d.imageBytes ≤ p.scratchBytes) && d.reserved

/-- The program number is in use on a cluster. -/
def Program.used (p : Program) : Bool := p.resident || p.loading || p.unloading

/-- Sum over the programs in use on a cluster. -/
def Cluster.total (c : Cluster) (f : Program → Nat) : Nat := c.programs.foldl (fun n e => n + f e.2) 0

/-- With the programs in use, a new one stays within each core's resources (R243). -/
def Cluster.fits (c : Cluster) (p : Program) : Bool :=
  decide (c.total (·.codeBytes) + p.codeBytes ≤ 32768) && decide (c.total (·.threads) + p.threads ≤ 2048) &&
    decide (c.total (·.slots) + p.slots ≤ 8) && decide (c.total (·.accs) + p.accs ≤ 8) &&
    decide (c.total (·.scratchBytes) + p.scratchBytes ≤ 262144) && decide (c.total (·.queues) + p.queues ≤ 16)

/-- The lowest run of `n` queue numbers that no program of the cluster holds. -/
def Cluster.queueRun (c : Cluster) (n : Nat) : Option Nat :=
  (List.range 17).find? fun q => decide (q + n ≤ 16) &&
    c.programs.all fun e => decide (e.2.queues = 0) || decide (q + n ≤ e.2.queue0) || decide (e.2.queue0 + e.2.queues ≤ q)

/-- The program with its share of each core: contexts, slots, accumulators and scratch are named by the program's number
(log entry 48). -/
def Program.placed (x : Program) (p queue0 : Nat) : Program :=
  { x with ctx0 := 2048 * p, slot0 := 8 * p, acc0 := 8 * p, scratch0 := 262144 * p, queue0 := queue0 }

/-- Reserves a program's share on every named cluster, or the status of R243. -/
def State.reserveProgram (s : State) (cs : List Nat) (p : Nat) (x : Program) : State × Byte :=
  if cs.any fun c => (s.program c p).used then (s, stBusy)
  else if cs.any fun c => !(s.cluster c).fits x || ((s.cluster c).queueRun x.queues).isNone then (s, stNoSpace)
  else
    (cs.foldl (fun s c =>
      s.setProgram c p { x.placed p (((s.cluster c).queueRun x.queues).getD 0) with loading := true }) s, stOk)

/-- Reads and checks the descriptor of a load; the status, or none while the read waits (R243, R244, R643). -/
def State.checkLoad (s : State) (cid : Cid) (j : ProgramJob) : State × Option (Byte × ProgramJob) :=
  match s.unitRead j.asker cid j.desc.rh j.desc.offset.toNat 64 with
  | (s, g) =>
    if g.waits then (s, none)
    else if g.status ≠ stOk then (s, some (g.status, j))
    else
      let d := parseDescriptor g.data
      if !d.valid then (s, some (stInvalid, j))
      else
        let (s, st) := s.reserveProgram (clustersOf j.mask) j.program d.prog
        (s, some (st, { j with checked := true, code := d.code, image := d.image, imageBytes := d.imageBytes
                               imageStride := d.imageStride, raw := g.data }))

def State.setJobs (s : State) (l : List ProgramJob) : State := { s with grid := { s.grid with jobs := l } }

/-- PROGRAM_LOAD (R243, R244). -/
def State.doLoad (s : State) (ref : OrderRef) (mask : W64) (program : Nat) (desc : Ptr) : State :=
  s.onProgram ref mask program fun cid s =>
    let j : ProgramJob := { order := ref, mask := mask, program := program, desc := desc, load := true }
    match s.checkLoad cid j with
    | (s, none) => s.setJobs (s.grid.jobs ++ [j])
    | (s, some (st, j)) =>
      let s := s.forget j.asker
      if st = stOk then s.setJobs (s.grid.jobs ++ [j]) else s.finishOrder ref st []

/-- Frees a program's share of a core and zeroes it (R244, R246). -/
def State.clearShare (s : State) (core p : Nat) (x : Program) : State :=
  let k := s.core core
  s.setCore core { k with
    threads := k.threads.drop (2048 * p) (2048 * p + 2048), slots := k.slots.drop (8 * p) (8 * p + 8)
    accs := k.accs.drop (8 * p) (8 * p + 8), scratch := Tab.drop k.scratch (262144 * p) (262144 * p + 262144)
    scratchPoison := k.scratchPoison.drop (4096 * p) (4096 * p + 4096)
    queues := k.queues.drop x.queue0 (x.queue0 + x.queues), latches := k.latches.set 0 p 0 }

/-- Words of the code (R272). -/
def codeWords (l : List Byte) (n : Nat) : List W32 := (List.range (n / 4)).map fun i => BitVec.ofNat 32 (fieldLe l (4 * i) 4)

/-- Reads of the scratch images of a list of cores (R244): status, or the images. -/
def State.readImages (s : State) (cid : Cid) (j : ProgramJob) : List Nat → State × Option (Byte × List (Nat × Got))
  | [] => (s, some (stOk, []))
  | k :: t =>
    match s.unitRead j.asker cid j.image.rh (j.image.offset.toNat + j.imageStride * k) j.imageBytes with
    | (s, g) =>
      if g.waits then (s, none)
      else if g.status ≠ stOk then (s, some (g.status, []))
      else
        match s.readImages cid j t with
        | (s, some (st, l)) => (s, some (st, (k, g) :: l))
        | (s, none) => (s, none)

/-- A load that fails loads nothing (R643). -/
def State.failLoad (s : State) (j : ProgramJob) (st : Byte) : State :=
  let s := (clustersOf j.mask).foldl (fun s c => if j.checked then s.setProgram c j.program {} else s) s
  ((s.setJobs (s.grid.jobs.filter fun x => decide (x ≠ j))).forget j.asker).finishOrder j.order st []

/-- Puts code and images in place on every core. -/
def State.placeProgram (s : State) (j : ProgramJob) (code : List W32) (images : List (Nat × Got)) : State :=
  let s := (clustersOf j.mask).foldl (fun s c =>
    let x := s.program c j.program
    let s := (coresOf c).foldl (fun s k => s.clearShare k j.program x) s
    s.setProgram c j.program { x with code := code, resident := true, loading := false }) s
  images.foldl (fun s (e : Nat × Got) =>
    s.setCore e.1 ((s.core e.1).writeScratch (262144 * j.program) e.2.data e.2.poison)) s

/-- A completed load extends its composition's measurement (R527). -/
def State.measureLoad (s : State) (cid : Cid) (j : ProgramJob) (code : List Byte) : State :=
  match s.compIdx cid with
  | some e => s.modComp e fun c => { c with
      mc := extendMeasure c.mc (beBytes 8 j.mask.toNat ++ beBytes 1 j.program ++ hashBytes (Config.shake512 (j.raw ++ code))) }
  | none => s

/-- PROGRAM_LOADED: descriptor, code and images are read, and the order completes (R244). -/
def programLoaded (now idx : Nat) (s : State) : State :=
    let s := s.advanceTo now
    match s.grid.jobs[idx]? with
    | none => s
    | some j0 =>
      match s.sharedCid j0.mask with
      | none => s
      | some cid =>
        if !j0.load then s
        else
          match if j0.checked then (s, some (stOk, j0)) else s.checkLoad cid j0 with
          | (s, none) => s
          | (s, some (st, j)) =>
            let s := s.setJobs (s.grid.jobs.map fun x => if x = j0 then j else x)
            if st ≠ stOk then s.failLoad j st
            else
              let n := (s.program (((clustersOf j.mask).head?).getD 0) j.program).codeBytes
              match s.unitRead j.asker cid j.code.rh j.code.offset.toNat n with
              | (s, g) =>
                if g.waits then s
                else if g.status ≠ stOk then s.failLoad j g.status
                else
                  match if j.image.rh = 0 then (s, some (stOk, [])) else s.readImages cid j (coresOfMask j.mask) with
                  | (s, none) => s
                  | (s, some (st, images)) =>
                    if st ≠ stOk then s.failLoad j st
                    else
                      let s := (s.placeProgram j (codeWords g.data n) images).measureLoad cid j g.data
                      ((s.setJobs (s.grid.jobs.filter fun x => decide (x ≠ j))).forget j.asker).finishOrder j.order stOk []

/-- The program is resident on every named cluster. -/
def State.residentOn (s : State) (mask : W64) (p : Nat) : Bool := (clustersOf mask).all fun c => (s.program c p).resident

/-- Some thread of the program is neither FREE nor HALTED (R245). -/
def State.programRuns (s : State) (mask : W64) (p : Nat) : Bool :=
  (coresOfMask mask).any fun k => (s.core k).threads.any fun e =>
    decide (e.1 / 2048 = p) && decide (e.2.state ≠ .free) && decide (e.2.state ≠ .halted)

/-- A context as PROGRAM_START leaves it: READY at the entry, with s1 to s7 (R245). Its store status stays, since no rule of
"The near-memory grid" zeroes it here (R270). -/
def startedCtx (core p index entry : Nat) (args : List W64) (status : BitVec 9) : Ctx :=
  let base : Ctx := { state := .ready, program := p, pc := entry, status := status }
  let c := (base.setReg 1 (BitVec.ofNat 64 (core % 32 + core / 32 * 256)) false).setReg 2 (BitVec.ofNat 64 index) false
  (List.range 5).foldl (fun c i => c.setReg (BitVec.ofNat 3 (3 + i)) (nth 0 args i) false) c

/-- Starts a program's threads on a core: contexts READY, masks and accumulators zero (R245). -/
def State.startCore (s : State) (core p : Nat) (x : Program) (args : List W64) : State :=
  let k := s.core core
  let threads := (List.range x.threads).foldl (fun t i => let old := Tab.get {} t (2048 * p + i)
    t.set {} (2048 * p + i) (startedCtx core p i x.entry args old.status)) k.threads
  let slots := k.slots.mapAll {} fun j y => if j / 8 = p then { y with m := [], mPoison := [] } else y
  s.setCore core { k with threads := threads, slots := slots, accs := k.accs.drop (8 * p) (8 * p + 8) }

def State.startProgram (s : State) (mask : W64) (p : Nat) (args : List W64) : State :=
  (clustersOf mask).foldl (fun s c =>
    ((coresOf c).foldl (fun s k => s.startCore k p (s.program c p) args) s).activate c p) s

/-- PROGRAM_START (R245, R247, R348). -/
def State.doStart (s : State) (ref : OrderRef) (mask : W64) (p : Nat) (args : List W64) : State :=
  s.onProgram ref mask p fun _ s =>
    if s.searchHeld mask then s.finishOrder ref stBusy []
    else if !s.residentOn mask p then s.finishOrder ref stInvalid []
    else if s.programRuns mask p then s.finishOrder ref stBusy []
    else (s.startProgram mask p args).finishOrder ref stOk []

/-- PROGRAM_SWITCH (R247, R248, R348). -/
def State.doSwitch (s : State) (ref : OrderRef) (mask : W64) (p : Nat) : State :=
  s.onProgram ref mask p fun _ s =>
    if s.searchHeld mask then s.finishOrder ref stBusy []
    else if !s.residentOn mask p then s.finishOrder ref stInvalid []
    else ((clustersOf mask).foldl (fun s c => s.activate c p) s).finishOrder ref stOk []

/-- Begins the unloading of a program: its threads halt, nothing is delivered to its queues any more, and a cluster on which
it was active has no active program (R246). -/
def State.beginUnload (s : State) (mask : W64) (p : Nat) (ref : OrderRef) : State :=
  let s := (coresOfMask mask).foldl (fun s k =>
    (((s.core k).threads.map (·.1)).filter fun c => decide (c / 2048 = p)).foldl (fun s c => s.haltThread ⟨k, c⟩ gcExternal) s) s
  let s := (clustersOf mask).foldl (fun s c =>
    let cl := s.cluster c
    let x := s.program c p
    let s := s.setCluster c { cl with active := if cl.active = some p then none else cl.active }
    s.setProgram c p { x with resident := false, unloading := true }) s
  let s := (coresOfMask mask).foldl State.freeSenders s
  s.setJobs (s.grid.jobs ++ [{ order := ref, mask := mask, program := p }])

/-- PROGRAM_UNLOAD (R246, R348). -/
def State.doUnload (s : State) (ref : OrderRef) (mask : W64) (p : Nat) : State :=
  s.onProgram ref mask p fun _ s =>
    if s.searchHeld mask then s.finishOrder ref stBusy []
    else if !s.residentOn mask p then s.finishOrder ref stInvalid []
    else s.beginUnload mask p ref

/-- Requests of a program's threads on the named clusters have all been answered or timed out. -/
def State.programQuiet (s : State) (mask : W64) (p : Nat) : Bool :=
  !s.grid.reqs.any fun r => (clustersOf mask).contains (clusterOf r.thread.core) && decide (r.thread.ctx / 2048 = p)

/-- PROGRAM_UNLOADED: the program's resources are zeroed and free (R246). -/
def programUnloaded (now idx : Nat) (s : State) : State :=
    let s := s.advanceTo now
    match s.grid.jobs[idx]? with
    | none => s
    | some j =>
      if j.load || !s.programQuiet j.mask j.program then s
      else
        let s := (clustersOf j.mask).foldl (fun s c =>
          let x := s.program c j.program
          if x.unloading then ((coresOf c).foldl (fun s k => s.clearShare k j.program x) s).setProgram c j.program {} else s) s
        (s.setJobs (s.grid.jobs.filter fun x => decide (x ≠ j))).finishOrder j.order stOk []

end Sys2Proof.Machine
end

