-- ==== Sys2Proof/Machine/Movers.lean ====
section
/-! DEFINITION. Bulk movers (07): MOVE and its queue, descriptors, the walk of a host's page tables, segments and staging
blocks, faults and RESUME, and range invalidation. -/
namespace Sys2Proof.Machine

/-! ### Movers and descriptors -/

def State.mover (s : State) (m : Nat) : Mover := s.movers.movers.get {} m

def State.setMovers (s : State) (x : Movers) : State := { s with movers := x }

def State.setMover (s : State) (m : Nat) (x : Mover) : State :=
  s.setMovers { s.movers with movers := s.movers.movers.set {} m x }

/-- States of a descriptor (R221). -/
abbrev dsTranslating : Nat := 1
abbrev dsMoving : Nat := 2
abbrev dsParked : Nat := 3
abbrev dsDone : Nat := 4
abbrev dsAborted : Nat := 5
abbrev dsFailed : Nat := 6

/-- The header of a descriptor (R221). -/
def parseDesc (p : Ptr) (l : List Byte) : Desc :=
  let fl := fieldLe l 1 1
  { ptr := p, op := fieldLe l 0 1, srcVirtual := bitOf fl 0, dstVirtual := bitOf fl 1, runCapacity := fieldLe l 4 4
    length := fieldLe l 8 8, srcAddr := fieldLe l 16 8, dstAddr := fieldLe l 24 8
    srcRef := if bitOf fl 0 then fieldPtr l 32 else { rh := BitVec.ofNat 40 (fieldLe l 32 5), offset := 0 }
    dstRef := if bitOf fl 1 then fieldPtr l 44 else { rh := BitVec.ofNat 40 (fieldLe l 44 5), offset := 0 }
    pattern := BitVec.ofNat 64 (fieldLe l 56 8)
    srcPad := fieldLe l 37 1, dstPad := fieldLe l 49 1 }

/-- The conditions of R224 that the header decides. -/
def Desc.valid (d : Desc) (own : Aid) : Bool :=
  decide (d.op ≤ 2) && decide (1 ≤ d.length) && decide (d.length ≤ 268435456) &&
    !(decide (d.op = 1) && (d.srcVirtual || decide (d.srcAddr ≠ 0) || decide (d.srcRef.rh ≠ 0))) &&
    !(decide (d.op = 2) && (decide (d.length % 8 ≠ 0) || decide (d.srcAddr % 8 ≠ 0) || decide (d.dstAddr % 8 ≠ 0) ||
      (!d.dstVirtual && decide (handleAid d.dstRef.rh ≠ own))))

/-- Where the next descriptor of the MOVE begins (R223). -/
def Desc.after (d : Desc) : Nat := d.ptr.offset.toNat + (96 + 16 * d.runCapacity + 63) / 64 * 64

/-- A write of the device into a descriptor, for request `req`: one that is refused is a failure of the request (R229). -/
def State.putHeader (s : State) (req : Nat) (h : Hdr) (p : Ptr) (at_ : Nat) (l : List Byte) : State :=
  match s.unitWrite req h.cid h.src 0 p.rh (p.offset.toNat + at_) l [] with
  | (s, st) => s.unitFails req st (p.offset.toNat + at_)

/-- State, status and bytes_done of a descriptor that ends or parks. The header of R221 has no field of its own for the faulting
position of R230: bytes_done, the prefix before which the walk began, takes it (DESIGN CHOICE, log entry 98). -/
def State.markDesc (s : State) (req : Nat) (h : Hdr) (d : Desc) (state : Nat) (status : Byte) : State :=
  (s.putHeader req h d.ptr 2 (leBytes 1 state ++ [status])).putHeader req h d.ptr 72 (leBytes 8 d.bytesDone)

/-- A request for writes that nobody waits for, or that something other than a mover waits for. -/
def State.newReq (s : State) : Nat × State :=
  match s.takeId with
  | (id, s) => (engineReq id, s)

/-- INVAL_ACK (R89). -/
def State.invalAck (s : State) (h : Hdr) (id : W32) (engine total : Nat) : State :=
  s.send { opcode := 0x34, notice := true, dst := h.src, src := s.aid, cid := h.cid, gen := h.gen, pcp := s.pcpControl
           payload := beBytes 4 id.toNat ++ beBytes 1 engine ++ beBytes 1 total ++ zeros 2 }

/-- A mover acknowledges every invalidation that it holds; what a walk has read before is of no more use (R235). -/
def State.ackAll (s : State) (m : Nat) : State :=
  let x := s.mover m
  if x.inval.isEmpty then s
  else
    x.inval.foldl (fun s v => s.invalAck v.h v.id m v.total) ((s.setMover m { x with inval := [] }).forget (.mover m))

/-- Writes of a mover that is done with its MOVE go on without it. -/
def State.detach (s : State) (m : Nat) : State :=
  let (id, s) := s.takeId
  let s := s.setHeld (s.reqs.held.map fun a => if a.origin = .engine m then { a with origin := .unit id } else a)
  let s := { s with reqs := { s.reqs with issued := s.reqs.issued.map fun (r : Issued) => match r.req with
    | .unitWrite n _ => if n = m then { r with req := .unit } else r
    | _ => r } }
  s.clearFailure m

/-- A mover has nothing to do any more. -/
def State.freeMover (s : State) (m : Nat) : State := (((s.ackAll m).forget (.mover m)).detach m).setMover m {}

/-- Where places of the queue of R227 are free, MOVEs left at ingress enter, and leave the packet buffer. -/
def State.refillQueue (s : State) : State :=
  let n := 256 - s.movers.queue.length
  (s.movers.ingress.take n).foldl (fun s q => s.takeFromIngress q.h)
    (s.setMovers { s.movers with queue := s.movers.queue ++ s.movers.ingress.take n, ingress := s.movers.ingress.drop n })

/-- The response to a MOVE: descriptors completed (R88). -/
def State.answerMove (s : State) (q : MoveReq) (status : Byte) : State :=
  s.respond q.h 0x30 (if status = stOk && q.poisoned then stPoison else status) (beBytes 2 q.done ++ zeros 6)

/-- A MOVE completes and its mover is idle. -/
def State.endMove (s : State) (m : Nat) (status : Byte) : State :=
  match (s.mover m).req with
  | none => s
  | some q =>
    ((s.ackAll m).answerMove q status).freeMover m |>.bump 9 (44 + m) 0

/-- A descriptor fails: FAILED with its status, and the MOVE ends with it (R224, R229). -/
def State.failDesc (s : State) (m : Nat) (d : Desc) (status : Byte) : State :=
  match (s.mover m).req with
  | none => s
  | some q => (s.markDesc m q.h d dsFailed status).endMove m status

/-- The writes into a mover's descriptor that are performed have failed (R229). -/
def State.headerFails (s : State) (m : Nat) : Bool := decide (s.unitFailure m ≠ stOk) && decide (s.unitFailure m ≠ stPoison)

/-- Reads the header of the MOVE's next descriptor and sets it TRANSLATING (R228); the mover tries again at the next
dispatch while the read waits. -/
def State.startDesc (s : State) (m : Nat) : State :=
  match (s.mover m).req with
  | none => s
  | some q =>
    match s.unitRead (.mover m) q.h.cid q.next.rh q.next.offset.toNat 96 with
    | (s, g) =>
      let d := { parseDesc q.next g.data with bytesDone := q.resume.getD 0, tainted := nth false g.poison 56 }
      let s := if g.waits then s else s.forget (.mover m)
      if g.waits then s
      else if g.status ≠ stOk then s.failDesc m d g.status
      else
        let s := s.setMover m { s.mover m with req := some { q with poisoned := q.poisoned || g.poisoned, resume := none } }
        if !d.valid s.aid then s.failDesc m d stInvalid
        else
          let s := s.putHeader m q.h d.ptr 2 (leBytes 1 dsTranslating)
          s.setMover m { s.mover m with state := .translating, desc := some d }

/-- A mover with no request takes the next of the queue (R227). -/
def State.dispatch (s : State) (m : Nat) : State :=
  match (s.mover m).req, s.movers.queue with
  | none, q :: rest =>
    let s := s.setMovers { s.movers with queue := rest }
    ((s.setMover m { s.mover m with req := some q, state := .translating }).refillQueue).startDesc m
  | some _, _ => if (s.mover m).desc.isNone then s.startDesc m else s
  | none, [] => s

/-- The lowest idle mover. -/
def State.idleMover (s : State) : Option Nat := (List.range 64).find? fun m => (s.mover m).req.isNone

/-- Engine requests of a fenced composition complete with ABORTED (R397). -/
def engineRequest (h : Hdr) (opcode : Byte) (fixed : Nat) (valid : Option Byte) (fail zero : List Byte) (pointers : List Handle)
    (k : State → State) (s : State) : State :=
  memberRequest h opcode fixed valid fail zero [] pointers (fun s =>
    if s.fencedCid h.cid then s.respond h opcode stAborted fail else k s) s

/-- MOVE (R225, R227). -/
def execMove (h : Hdr) (desc : Ptr) (count : BitVec 16) (s : State) : Out :=
  .next (engineRequest h 0x30 16 (if count.toNat < 1 ∨ 256 < count.toNat then some stInvalid else none) (zeros 8) (zeros 8)
    [desc.rh] (fun s =>
      let i := (s.localRegion desc.rh).getD 0
      if handleAid desc.rh ≠ s.aid ∨ clsDeep ≤ (s.region i).cls then s.respond h 0x30 stInvalid (zeros 8)
      else
        let q : MoveReq := { h := h, first := desc, count := count.toNat, next := desc }
        if s.movers.queue.length < 256 then
          let s := s.setMovers { s.movers with queue := s.movers.queue ++ [q] }
          match s.idleMover with
          | some m => s.dispatch m
          | none => s
        else (s.setMovers { s.movers with ingress := s.movers.ingress ++ [q] }).leaveAtIngress h) s)

/-- MOVER_DISPATCH (R227). -/
def execMoverDispatch (now mover : Nat) (s : State) : Out :=
  .next (s.serving fun s => let s := s.advanceTo now
    if 64 ≤ mover then s else s.dispatch mover)

/-- FAULT is accepted from nobody (R73). -/
def execFault (h : Hdr) (_desc : Ptr) (_mover _access _reason : Byte) (_index : W32) (_va : W64) (s : State) : Out :=
  .next (consumed h 28 (senderRejected h) s)

/-- INVAL_ACK is accepted from nobody (R73). -/
def execInvalAck (h : Hdr) (_invalId : W32) (_engine _total : Byte) (s : State) : Out :=
  .next (consumed h 8 (senderRejected h) s)

/-! ### The walk (R214 to R220) -/

/-- One aperture of a root record (R214). -/
structure Aperture where
  base : Nat
  size : Nat
  rh : Handle
  offset : Nat
  deriving DecidableEq, Repr

/-- A root record as a walk read it. -/
structure Root where
  format : Nat := 0
  fmt : FormatRec := {}
  pa : Nat := 0
  apertures : List Aperture := []
  deriving DecidableEq, Repr

def Root.find (r : Root) (p : Nat) : Option Aperture := r.apertures.find? fun a => decide (a.base ≤ p) && decide (p < a.base + a.size)

/-- What a walk reads with: the mover that it walks for keeps what it has read until the walk ends (R216, R219). -/
structure WalkIO where
  st : State
  cid : Cid
  mover : Nat

/-- A read that a walk makes once. The walk goes no further while one waits, so that at most two are in flight (R219). -/
def WalkIO.read (w : WalkIO) (rh : Handle) (off n : Nat) : WalkIO × Got :=
  match w.st.unitRead (.mover w.mover) w.cid rh off n with
  | (s, g) => ({ w with st := s }, g)

/-- A 64 B line, read once in a walk. -/
def WalkIO.line (w : WalkIO) (rh : Handle) (n : Nat) : WalkIO × Got := w.read rh (64 * n) 64

/-- Eight bytes at an offset. -/
def WalkIO.entry (w : WalkIO) (rh : Handle) (off : Nat) : WalkIO × Got :=
  match w.line rh (off / 64) with
  | (w, a) =>
    if off % 64 ≤ 56 then
      (w, { a with data := sliceBytes a.data (off % 64) 8, poison := if a.poisoned then [true] else [] })
    else
      match w.line rh (off / 64 + 1) with
      | (w, b) =>
        (w, { data := sliceBytes (a.data ++ b.data) (off % 64) 8, poison := if a.poisoned || b.poisoned then [true] else []
              status := if a.status ≠ stOk then a.status else b.status, waits := a.waits || b.waits })

inductive PageRes where
  | page (rh : Handle) (offset size : Nat) (w a : Bool) (whole : Nat)
  | fault (reason level : Nat) (entry : Nat)
  | waits
  deriving DecidableEq, Repr

/-- Reasons of a fault (R230). -/
abbrev frNotPresent : Nat := 0
abbrev frRights : Nat := 1
abbrev frFormat : Nat := 2

/-- The property `k` of a bit descriptor holds in an entry (R217). Whether it holds where the format names no bit for it, the manual
does not say but for the leaf and atomic properties (R220): a free value. -/
def holdsBit (e k : Nat) (d : Byte) : Bool :=
  if d = 0xFF then Config.noneHolds k else bitOf e (bitsOf d.toNat 0 6) == d.getLsbD 6

/-- The write right of an entry, and its atomic right, which follows the writable bit where the format names no other. -/
def FormatRec.grantsWrite (f : FormatRec) (e : Nat) : Bool := holdsBit e 1 f.writable
def FormatRec.grantsAtomic (f : FormatRec) (e : Nat) : Bool := if f.atomic = 0xFF then f.grantsWrite e else holdsBit e 2 f.atomic

/-- The address field of an entry, every other bit cleared. -/
def addrField (f : FormatRec) (e : Nat) : Nat := bitsOf e f.addrLo (f.addrHi + 1 - f.addrLo) * 2 ^ f.addrLo

/-- Virtual width of a format (R218). -/
def FormatRec.width (f : FormatRec) : Nat := f.granule + (f.bits.take f.levels).foldl (· + ·) 0

/-- The bits of a virtual address above its width are zero, or a sign extension (R220). -/
def upperOk (va width : Nat) (signed : Bool) : Bool :=
  let top := va / 2 ^ width % 2 ^ (64 - width)
  if signed && bitOf va (width - 1) then decide (top = 2 ^ (64 - width) - 1) else decide (top = 0)

/-- The levels of a walk from level `i` on, with `n` left (R220). -/
def walkLevels (root : Root) (va access : Nat) : Nat → Nat → Nat → Nat → Bool → Bool → Nat → WalkIO → WalkIO × PageRes
  | 0, i, _, _, _, _, e, io => (io, .fault frFormat i e)
  | n + 1, i, pa, shift, w, a, e0, io =>
    let f := root.fmt
    let shift := shift - nth 0 f.bits i
    let p := (pa + 8 * (va / 2 ^ shift % 2 ^ nth 0 f.bits i)) % 2 ^ 64
    match root.find p with
    | none => (io, .fault frFormat i e0)
    | some ap =>
      match io.entry ap.rh (ap.offset + (p - ap.base)) with
      | (io, g) =>
        if g.waits then (io, .waits)
        else if g.status ≠ stOk ∨ g.poisoned then (io, .fault frFormat i e0)
        else
          let e := ofLe g.data
          if !holdsBit e 0 f.present then (io, .fault frNotPresent i e)
          else
            let last := decide (i + 1 = f.levels)
            let leaf := last || (decide (0 < i) && f.blocks.getLsbD i && decide (f.leaf ≠ 0xFF) && holdsBit e 3 f.leaf)
            let takes := f.flags.getLsbD 1 || leaf
            let w := w && (!takes || f.grantsWrite e)
            let a := a && (!takes || f.grantsAtomic e)
            let pa := addrField f e
            let size := 2 ^ shift
            if !leaf then
              if pa % (8 * 2 ^ nth 0 f.bits (i + 1)) ≠ 0 then (io, .fault frFormat i e)
              else walkLevels root va access n (i + 1) pa shift w a e io
            else if pa % size ≠ 0 then (io, .fault frFormat i e)
            else
              match root.find pa with
              | none => (io, .fault frFormat i e)
              | some out =>
                if out.base + out.size < pa + size then (io, .fault frFormat i e)
                else if (access = 1 ∧ !w) ∨ (access = 2 ∧ !a) then (io, .fault frRights i e)
                else (io, .page out.rh (out.offset + (pa - out.base) + va % size) (size - va % size) w a size)

/-- One page of a virtual side: its place from the address on, and the bytes left in the page. -/
def walkPage (root : Root) (va access : Nat) (io : WalkIO) : WalkIO × PageRes :=
  let f := root.fmt
  if !upperOk va f.width (f.flags.getLsbD 0) then (io, .fault frFormat 0 0)
  else walkLevels root va access f.levels 0 root.pa f.width true true 0 io

/-- Adds a page to the runs, merged with the last one where it continues it with equal rights (R223). -/
def addRun (l : List Run) (x : Run) : List Run :=
  match l.getLast? with
  | some y =>
    if y.rh = x.rh ∧ y.dest = x.dest ∧ y.writeRight = x.writeRight ∧ y.atomicRight = x.atomicRight ∧
        y.offset + y.length = x.offset then
      l.dropLast ++ [{ y with length := y.length + x.length }]
    else l ++ [x]
  | none => [x]

/-- Adds a page to the stretches of pages of one size. -/
def addPage (l : List PageSpan) (x : PageSpan) : List PageSpan :=
  match l.getLast? with
  | some y => if y.dest = x.dest ∧ y.size = x.size ∧ y.hi = x.lo then l.dropLast ++ [{ y with hi := x.hi }] else l ++ [x]
  | none => [x]

/-- What the translation of a side came to: its runs, and the pages that they were made of. -/
inductive SideRes where
  | runs (l : List Run) (p : List PageSpan)
  | fault (f : WalkFault)
  | waits
  deriving DecidableEq, Repr

/-- Translates `left` bytes from a virtual address, which lies at position `pos`; `fuel` bounds the pages. -/
def walkSide (root : Root) (rootPtr : Ptr) (dest : Bool) (access : Nat) :
    Nat → Nat → Nat → Nat → List Run → List PageSpan → WalkIO → WalkIO × SideRes
  | 0, _, _, _, acc, pages, io => (io, .runs acc pages)
  | fuel + 1, pos, va, left, acc, pages, io =>
    if left = 0 then (io, .runs acc pages)
    else
      match walkPage root va access io with
      | (io, .waits) => (io, .waits)
      | (io, .fault reason level entry) =>
        (io, .fault { access := access, reason := reason, level := level, side := if dest then 1 else 0, format := root.format
                      va := va, entry := BitVec.ofNat 64 entry, root := rootPtr })
      | (io, .page rh off size w a whole) =>
        let n := min size left
        walkSide root rootPtr dest access fuel (pos + n) ((va + n) % 2 ^ 64) (left - n)
          (addRun acc { rh := rh, dest := dest, writeRight := w, atomicRight := a, offset := off, length := n })
          (addPage pages { dest := dest, lo := pos, hi := pos + n, size := whole }) io

/-- Reads a root record once for a walk: none while a read waits, else its format index, with no record where that or its aperture
count fails every walk (R214, R216). -/
def readRoot (p : Ptr) (io : WalkIO) : WalkIO × Option (Nat × Option Root) :=
  match io.read p.rh p.offset.toNat 32 with
  | (io, g) =>
    if g.waits then (io, none)
    else
      let n := fieldLe g.data 1 1
      let k := fieldLe g.data 0 1
      match io.st.boot.cfg.formats[k]? with
      | none => (io, some (k, none))
      | some f =>
        if g.status ≠ stOk ∨ g.poisoned ∨ n < 1 ∨ 32 < n then (io, some (k, none))
        else
          match io.read p.rh (p.offset.toNat + 32) (32 * n) with
          | (io, b) =>
            if b.waits then (io, none)
            else if b.status ≠ stOk ∨ b.poisoned then (io, some (k, none))
            else
              (io, some (k, some { format := k, fmt := f, pa := fieldLe g.data 8 8
                                   apertures := (List.range n).map fun j =>
                                     { base := fieldLe b.data (32 * j) 8, size := fieldLe b.data (32 * j + 8) 8,
                                       rh := BitVec.ofNat 40 (fieldLe b.data (32 * j + 16) 5), offset := fieldLe b.data (32 * j + 24) 8 } }))

/-- Translates positions `lo` to `hi - 1` of one side of a descriptor; a side that is not virtual has no runs. -/
def walkRange (d : Desc) (dest : Bool) (lo hi : Nat) (io : WalkIO) : WalkIO × SideRes :=
  let virt := if dest then d.dstVirtual else d.srcVirtual
  let p := if dest then d.dstRef else d.srcRef
  let va := ((if dest then d.dstAddr else d.srcAddr) + lo) % 2 ^ 64
  let access := if !dest then 0 else if d.op = 2 then 2 else 1
  if !virt then (io, .runs [] [])
  else
    match readRoot p io with
    | (io, none) => (io, .waits)
    | (io, some (k, none)) =>
      (io, .fault { access := access, reason := frFormat, side := if dest then 1 else 0, format := k, va := va, root := p })
    | (io, some (_, some root)) => walkSide root p dest access ((hi - lo) / 4096 + 2) lo va (hi - lo) [] [] io

/-- Both sides, the source first. -/
def walkBoth (d : Desc) (lo hi : Nat) (io : WalkIO) : WalkIO × SideRes :=
  match walkRange d false lo hi io with
  | (io, .runs a p) =>
    match walkRange d true lo hi io with
    | (io, .runs b q) => (io, .runs (a ++ b) (p ++ q))
    | x => x
  | x => x

/-! ### Places of a side -/

/-- The place of a position in the runs of one side: region, offset, bytes left in the run. -/
def placeIn : List Run → Nat → Option (Handle × Nat × Nat)
  | [], _ => none
  | x :: t, k => if k < x.length then some (x.rh, x.offset + k, x.length - k) else placeIn t (k - x.length)

def Desc.sideRuns (d : Desc) (dest : Bool) : List Run := d.runs.filter fun x => x.dest == dest

/-- The place of a position of a side. -/
def Desc.place (d : Desc) (dest : Bool) (pos : Nat) : Option (Handle × Nat × Nat) :=
  if dest && !d.dstVirtual then some (d.dstRef.rh, d.dstAddr + pos, d.length - pos)
  else if !dest && !d.srcVirtual then some (d.srcRef.rh, d.srcAddr + pos, d.length - pos)
  else placeIn (d.sideRuns dest) (pos - d.base)

/-- The runs of a stretch of `n` bytes from position `k` of a side's runs. -/
def sliceRuns : List Run → Nat → Nat → List Run
  | [], _, _ => []
  | x :: t, k, n =>
    if n = 0 then []
    else if x.length ≤ k then sliceRuns t (k - x.length) n
    else
      let m := min (x.length - k) n
      { x with offset := x.offset + k, length := m } :: sliceRuns t 0 (n - m)

/-- The pieces of a side from the performed prefix on. -/
def Desc.pieces (d : Desc) (dest : Bool) : List (Handle × Nat × Nat) :=
  if dest && !d.dstVirtual then [(d.dstRef.rh, d.dstAddr + d.bytesDone, d.length - d.bytesDone)]
  else if !dest && !d.srcVirtual then [(d.srcRef.rh, d.srcAddr + d.bytesDone, d.length - d.bytesDone)]
  else (d.sideRuns dest).map fun x => (x.rh, x.offset, x.length)

/-- The source and destination ranges of a COPY overlap (R226). -/
def Desc.overlaps (d : Desc) : Bool :=
  decide (d.op = 0) && (d.pieces false).any fun a => (d.pieces true).any fun b =>
    decide (a.1 = b.1) && decide (a.2.1 < b.2.1 + b.2.2) && decide (b.2.1 < a.2.1 + a.2.2)

/-- The source of a descriptor before anything moves, where it lies on this device: it is read as the mover's other reads are. What
another device reads out, it chooses itself. -/
def State.sourceBytes (s : State) (m : Nat) (cid : Cid) (d : Desc) : State × Got :=
  if !((d.pieces false).all fun p => s.answersTo (handleAid p.1)) then (s, {})
  else
    (d.pieces false).foldl (fun (x : State × Got) p =>
      match x.1.unitRead (.mover m) cid p.1 p.2.1 p.2.2 with
      | (s, g) =>
        (s, { data := x.2.data ++ g.data, poison := x.2.poison ++ g.poison, waits := x.2.waits || g.waits
              status := if x.2.status ≠ stOk then x.2.status else g.status })) (s, {})

def runBytes (x : Run) : List Byte :=
  leBytes 5 x.rh.toNat ++
    [BitVec.ofNat 8 ((if x.dest then 1 else 0) + (if x.writeRight then 2 else 0) + (if x.atomicRight then 4 else 0))] ++
    leBytes 6 x.offset ++ leBytes 4 x.length

/-- Once the runs and run_count are performed, the state becomes MOVING (R228); a write that failed ends the descriptor (R229). -/
def State.settleRuns (s : State) (m : Nat) : State :=
  let x := s.mover m
  match x.req, x.desc with
  | some q, some d =>
    if !x.laid ∨ s.unitBusy m then s
    else if s.headerFails m then s.failDesc m d (s.unitFailure m)
    else
      match if d.overlaps then s.sourceBytes m q.h.cid d else (s, {}) with
      | (s, g) =>
        if g.waits then s
        else if g.status ≠ stOk then s.failDesc m d g.status
        else
          let s := s.forget (.mover m)
          let s := s.putHeader m q.h d.ptr 2 (leBytes 1 dsMoving)
          s.setMover m { s.mover m with
            state := .moving, laid := false, desc := some { d with before := g.data, beforePoison := g.poison }, again := [] }
  | _, _ => s

/-- A walk has ended: its runs and run_count are written, and then the descriptor moves (R228); what exceeds run_capacity, or an
ACCUMULATE into another device's region, is INVALID (R224). -/
def State.beginMoving (s : State) (m : Nat) (q : MoveReq) (d : Desc) : State :=
  if d.runCapacity < d.runs.length ∨ (d.op = 2 ∧ (d.sideRuns true).any fun x => decide (handleAid x.rh ≠ s.aid)) then
    s.failDesc m d stInvalid
  else
    let s := if d.runs = [] then s else s.putHeader m q.h d.ptr 96 (d.runs.flatMap runBytes)
    let s := (s.putHeader m q.h d.ptr 64 (leBytes 4 d.runs.length)).forget (.mover m)
    (s.setMover m { s.mover m with state := .translating, laid := true, desc := some d, again := [] }).settleRuns m

/-! ### Parking (R230 to R232) -/

/-- The fault record of 64 B (R230). -/
def faultRecord (p : Parked) : List Byte :=
  let f := p.fault
  leBytes 1 1 ++ leBytes 1 f.access ++ leBytes 1 f.reason ++ leBytes 1 f.level ++ leBytes 1 f.side ++ leBytes 1 p.mover ++
    leBytes 1 f.format ++ zeros 1 ++ leBytes 4 p.seq.toNat ++ leBytes 4 f.sdc.toNat ++ ptrBytesLe p.desc.ptr ++ zeros 4 ++
    leBytes 8 f.va ++ leBytes 8 f.entry.toNat ++ ptrBytesLe f.root ++ zeros 4

def State.setParked (s : State) (l : List Parked) : State := s.setMovers { s.movers with parked := l }

/-- FAULT to the fault agent, with the ring index of the record (R230). -/
def State.sendFault (s : State) (c : Comp) (p : Parked) : State :=
  s.send { opcode := 0x31, notice := true, dst := c.faultAgent, src := s.aid, cid := c.cid, gen := s.genOf c.cid, pcp := s.pcpControl
           payload := ptrBytesBe p.desc.ptr ++ beBytes 1 p.mover ++ beBytes 1 p.fault.access ++ beBytes 1 p.fault.reason ++
             zeros 1 ++ beBytes 4 (p.seq.toNat % max 1 c.faultCount) ++ beBytes 8 p.fault.va }

/-- FAULT goes out once PARKED and the record are written. -/
def State.settleFault (s : State) (idx : Nat) : State :=
  match s.movers.parked[idx]? with
  | none => s
  | some p =>
    match p.record, s.compIdx p.req.h.cid with
    | some id, some e =>
      if s.unitBusy (engineReq id) || s.unitBusy p.mark then s
      else
        let s := ((s.setParked (s.movers.parked.set idx { p with record := none })).clearFailure (engineReq id)).clearFailure p.mark
        s.sendFault (s.compAt e) p
    | _, _ => s

/-- Writes the record of a parked descriptor into its slot once the slot's valid byte reads 0; a slot found taken, or not to be read,
is checked again later, and the wait is counted once (R230, R231). -/
def State.recordFault (s : State) (idx : Nat) : State :=
  match s.movers.parked[idx]? with
  | none => s
  | some p =>
    match s.compIdx p.req.h.cid with
    | none => s
    | some e =>
      let c := s.compAt e
      let off := c.ring.offset.toNat + 64 * (p.seq.toNat % max 1 c.faultCount)
      match s.unitRead (.slot p.seq.toNat) c.cid c.ring.rh off 1 with
      | (s, g) =>
        let s := if g.waits then s else s.forget (.slot p.seq.toNat)
        if g.waits then s
        else if g.status ≠ stOk ∨ nth 0 g.data 0 ≠ 0 then
          let s := s.setParked (s.movers.parked.set idx { p with waited := true, checked := some s.now })
          if p.waited then s else s.bump 10 e 2
        else
          let (id, s) := s.takeId
          let s := (s.unitWrite (engineReq id) c.cid 0 0 c.ring.rh off (faultRecord p) []).1
          (s.setParked (s.movers.parked.set idx { p with recorded := true, record := some id })).settleFault idx

/-- Parks a mover's descriptor: PARKED is written, the mover is free, and the record goes to the ring. -/
def State.park (s : State) (m : Nat) (f : WalkFault) : State :=
  match (s.mover m).req, (s.mover m).desc with
  | some q, some d =>
    let (req, s) := s.newReq
    let s := s.markDesc req q.h d dsParked stOk
    let seq := match s.compIdx q.h.cid with
      | some e => (s.compAt e).faultSeq + 1
      | none => 0
    let s := match s.compIdx q.h.cid with
      | some e => s.modComp e fun c => { c with faultSeq := seq }
      | none => s
    let p : Parked := { req := q, desc := d, mover := m, fault := f, seq := seq, mark := req }
    let s := (s.ackAll m).setParked (s.movers.parked ++ [p])
    let s := (s.freeMover m).bump 9 (44 + m) 3
    s.recordFault (s.movers.parked.length - 1)
  | _, _ => s

/-- A walk faults: the descriptor parks, or the mover stalls with it while 4,096 are parked (R232). -/
def State.walkFaults (s : State) (m : Nat) (f : WalkFault) : State :=
  let f := { f with sdc := if s.locked then s.sky.count.setWidth 32 else 0 }
  let s := s.forget (.mover m)
  if s.movers.parked.length < 4096 then s.park m f
  else s.setMover m { s.mover m with state := .stalled, fault := some f }

/-- WALK (R219, R220, R223, R228). An invalidation that has come meanwhile is acknowledged, and the walk starts over (R235). The walk
waits for the write of TRANSLATING, and where that failed the descriptor ends (R229). -/
def execWalk (now mover : Nat) (s : State) : Out :=
  .next (s.serving fun s => let s := s.advanceTo now
    let x := s.mover mover
    match x.req, x.desc with
    | some q, some d =>
      if x.state ≠ .translating ∨ s.unitBusy mover then s
      else if s.headerFails mover then s.failDesc mover d (s.unitFailure mover)
      else if x.laid && x.inval.isEmpty then s.settleRuns mover
      else if x.laid then s
      else
        let s := s.ackAll mover
        match walkBoth d d.bytesDone d.length { st := s, cid := q.h.cid, mover := mover } with
        | (io, .waits) => io.st
        | (io, .fault f) => (io.st.bump 9 (108 + mover % 16) 3).walkFaults mover f
        | (io, .runs l p) =>
          (io.st.bump 9 (108 + mover % 16) 3).beginMoving mover q { d with runs := l, pages := p, base := d.bytesDone }
    | _, _ => s)

/-- FAULT_SLOT_CHECK (R231). -/
def execFaultSlotCheck (now idx : Nat) (s : State) : Out :=
  .next (s.serving fun s => let s := s.advanceTo now
    match s.movers.parked[idx]? with
    | some p =>
      if p.recorded then s.settleFault idx
      else if (p.checked.any fun t => decide (s.now < t + 10000)) then s
      else s.recordFault idx
    | none => s)

/-- PARKED_SLOT_FREE (R232). -/
def execParkedSlotFree (now mover : Nat) (s : State) : Out :=
  .next (s.serving fun s => let s := s.advanceTo now
    let x := s.mover mover
    match x.fault with
    | some f =>
      if x.state = .stalled ∧ s.movers.parked.length < 4096 then s.park mover f else s
    | none => s)

/-- RESUME of the composition's fault agent (R73, R233). A frame of any other sender is rejected before its other fields are looked at,
and a returned descriptor joins the queue of R227 also where that holds 256 MOVEs already: the manual says neither (DESIGN CHOICE, log
entry 98). -/
def execResume (h : Hdr) (desc : Ptr) (action : Byte) (s : State) : Out :=
  .next (consumed h 16 (fun s =>
    let agent := match s.activeIdx h.cid with
      | some e => decide ((s.compAt e).faultAgent = h.src)
      | none => false
    if s.boot.admitted && !s.comps.selfExpelled && !agent then senderRejected h s
    else
      memberChecked h 0x32 (if 1 < action.toNat then some stInvalid else none) [] [] [] [desc.rh] (fun s =>
        if s.fencedCid h.cid then s.respond h 0x32 stAborted []
        else
          match s.movers.parked.find? fun p => decide (p.desc.ptr = desc) && decide (p.req.h.cid = h.cid) with
          | none => s.respond h 0x32 stInvalid []
          | some p =>
            let s := s.setParked (s.movers.parked.filter fun x => decide (x ≠ p))
            if action = 0 then
              (s.setMovers { s.movers with
                queue := s.movers.queue ++ [{ p.req with next := p.desc.ptr, resume := some p.desc.bytesDone }] }).respond h 0x32 stOk []
            else
              let (req, s) := s.newReq
              ((s.markDesc req p.req.h p.desc dsAborted stAborted).answerMove p.req stAborted).respond h 0x32 stOk []) s) s)

/-! ### Segments (R226, R229, R237) -/

/-- Staging blocks of the pool. -/
def State.stagingBlocks (s : State) : Nat := s.boot.cfg.carve.staging / 65536

/-- Positions of a descriptor that have a segment or are performed. -/
def Mover.nextPos (x : Mover) (d : Desc) : Nat := x.segments.foldl (fun n g => max n (g.1 + g.2)) d.bytesDone

/-- The mover has a translated segment waiting for a block. -/
def State.wantsBlock (s : State) (m : Nat) : Bool :=
  let x := s.mover m
  match x.desc with
  | some d => decide (x.state = .moving) && x.inval.isEmpty && x.again.isEmpty && (x.wrote || !s.unitBusy m) && decide (x.segments.length < 16) && decide (x.nextPos d < d.length)
  | none => false

def State.blocksHeld (s : State) : Nat := s.movers.movers.foldl (fun n e => n + e.2.segments.length) 0

/-- Length of the segment at a position: 64 KiB, cut at the end of the descriptor and of a run of either side. -/
def Desc.segment (d : Desc) (pos : Nat) : Nat :=
  let left := fun (dest : Bool) => ((d.place dest pos).map fun p => p.2.2).getD 0
  min (min 65536 (d.length - pos)) (min (if d.op = 1 then d.length - pos else left false) (left true))

/-- STAGING_GRANT: the next mover in turn takes a free block (R237). -/
def execStagingGrant (now mover : Nat) (s : State) : Out :=
  .next (s.serving fun s => let s := s.advanceTo now
    let turn := ((List.range 64).map fun j => (s.movers.lastGrant + 1 + j) % 64).find? fun m => s.wantsBlock m
    if turn ≠ some mover ∨ s.stagingBlocks ≤ s.blocksHeld then s
    else
      let x := s.mover mover
      match x.desc with
      | some d =>
        let pos := x.nextPos d
        let s := s.setMover mover { x with segments := x.segments ++ [(pos, d.segment pos)] }
        s.setMovers { s.movers with lastGrant := mover }
      | none => s)

/-- The 8 B elements of an ACCUMULATE: FETCH_ADD at the home slice each (R226). -/
def State.addElements (s : State) (m : Nat) (h : Hdr) (rh : Handle) (off : Nat) (data : List Byte) (taint : List Nat) :
    Nat → State
  | 0 => s
  | n + 1 =>
    let s := s.addElements m h rh off data taint n
    let a := { s.unitAccess .atomic h.cid rh (off + 8 * n) 8 with
               origin := .engine m, atomicOp := 2, opA := fieldLe data (8 * n) 8, taint := taint
               owner := s.ownerOf (s.unitHdr h.cid) h.src, position := s.standsFor rh }
    s.submit a

/-- What an ACCUMULATE meets as a whole at its destination. -/
def State.addRefusal (s : State) (h : Hdr) (rh : Handle) (off n : Nat) : Option Byte :=
  if !s.assignedTo rh h.cid then some stOk
  else
    s.refusal (s.unitHdrOf h.cid h.src)
      { s.unitAccess .atomic h.cid rh off n with owner := s.ownerOf (s.unitHdr h.cid) h.src } rightAtomic

/-- Source bytes of a COPY's segment: where the ranges overlap, each destination line takes the line as it was or as it is,
unspecified which (R226). -/
def State.chooseLines (s : State) (d : Desc) (pos off : Nat) (g : Got) : State × Got :=
  if d.before = [] then (s, g)
  else
    let original := fun (j : Nat) => Config.pick (s.free + ((off + j) / 64 - off / 64))
    let s' := { s with free := s.free + linesOf off g.data.length }
    (s', { g with
      data := g.data.zipIdx.map fun x => if original x.2 then nth x.1 d.before (pos + x.2 - d.base) else x.1
      poison := g.poison.zipIdx.map fun x => if original x.2 then nth x.1 d.beforePoison (pos + x.2 - d.base) else x.1 })

/-- Reads and writes of the first segment in progress: the state, and the status that ends the descriptor, or none while a
read waits. -/
def State.runSegment (s : State) (m : Nat) (q : MoveReq) (d : Desc) (pos n : Nat) : State × Option (Byte × Bool) :=
  match d.place true pos with
  | none => (s, some (stOk, false))
  | some (drh, doff, _) =>
    let src := if d.op = 1 then
        some (s, ({ data := (List.range n).map fun i => nth 0 (leBytes 8 d.pattern.toNat) ((pos + i) % 8)
                    poison := List.replicate n d.tainted } : Got))
      else match d.place false pos with
        | some (rh, off, _) => some (s.unitRead (.mover m) q.h.cid rh off n)
        | none => none
    match src with
    | none => (s, some (stOk, false))
    | some (s, g) =>
      let s := if g.waits then s else s.forget (.mover m)
      if g.waits then (s, none)
      else if g.status ≠ stOk then (s, some (g.status, false))
      else
        let (s, g) := if d.op = 0 then s.chooseLines d pos doff g else (s, g)
        let taint := taintOf doff g.poison
        if d.op = 2 then
          match s.addRefusal q.h drh doff n with
          | some st =>
            if st = stOk then (s.violation q.h.cid s.aid 0xFF 9, some (stOk, g.poisoned)) else (s, some (st, g.poisoned))
          | none => (s.addElements m q.h drh doff g.data taint (n / 8), some (stOk, g.poisoned))
        else
          let (s, st) := s.unitWrite m q.h.cid q.h.src q.h.src drh doff g.data taint
          (s, some (st, g.poisoned))

/-- SEGMENT_DONE: the first segment's source is read and its writes are performed; its block returns to the pool (R229,
R237). The runs are written before the first byte moves (R228). Where a write fails, bytes_done is the performed prefix (R221). -/
def execSegmentDone (now mover : Nat) (s : State) : Out :=
  .next (s.serving fun s => let s := s.advanceTo now
    let x := s.mover mover
    match x.req, x.desc, x.segments with
    | some q, some d, (pos, n) :: rest =>
      let finish := fun (s : State) =>
        let st := s.unitFailure mover
        if s.unitBusy mover then s
        else if st ≠ stOk ∧ st ≠ stPoison then
          let off := ((d.place true pos).map fun p => p.2.1).getD 0
          s.failDesc mover { d with bytesDone := pos + ((s.failedFrom mover).map fun k => k - off).getD 0 } st
        else
          let s := s.clearFailure mover
          let y := s.mover mover
          let q' := { (y.req.getD q) with poisoned := (y.req.getD q).poisoned || decide (st = stPoison) }
          s.setMover mover { y with segments := rest, wrote := false, desc := some { d with bytesDone := pos + n }, req := some q' }
      if x.wrote then finish s
      else if !x.inval.isEmpty || !x.again.isEmpty || s.unitBusy mover then s
      else if s.headerFails mover then s.failDesc mover d (s.unitFailure mover)
      else
        match s.runSegment mover q d pos n with
        | (s, none) => s
        | (s, some (st, bad)) =>
          if st ≠ stOk ∧ st ≠ stPoison then s.failDesc mover d st
          else
            finish (s.setMover mover { s.mover mover with
              wrote := true, req := some { q with poisoned := q.poisoned || bad || decide (st = stPoison) } })
    | _, _, _ => s)

/-- DESCRIPTOR_DONE: DONE and OK are written; then the mover takes the MOVE's next descriptor or completes the MOVE, or, where that
write failed, ends it (R228, R229). -/
def execDescriptorDone (now mover : Nat) (s : State) : Out :=
  .next (s.serving fun s => let s := s.advanceTo now
    let x := s.mover mover
    match x.req, x.desc with
    | some q, some d =>
      if x.state ≠ .moving ∨ !x.segments.isEmpty ∨ d.bytesDone ≠ d.length ∨ s.unitBusy mover then s
      else
        let s := if x.marked then s
          else (s.markDesc mover q.h d dsDone stOk).setMover mover { x with marked := true }
        if s.unitBusy mover then s
        else if s.headerFails mover then s.failDesc mover d (s.unitFailure mover)
        else
          let q := { q with done := q.done + 1, next := { d.ptr with offset := BitVec.ofNat 48 d.after } }
          let s := s.ackAll mover
          let s := s.setMover mover { s.mover mover with req := some q, desc := none, state := .translating, marked := false }
          if q.done = q.count then s.endMove mover stOk else s.startDesc mover
    | _, _ => s)

/-! ### Range invalidation (R234, R235) -/

/-- Positions of a virtual side that an invalidation names; a side that passes 2^64 goes on at address 0. Root pointers are the same
byte for byte; one in a frame has a zero reserved byte. -/
def Desc.hits (d : Desc) (dest : Bool) (root : Ptr) (start len : Nat) : List (Nat × Nat) :=
  let addr := if dest then d.dstAddr else d.srcAddr
  if !(if dest then d.dstVirtual else d.srcVirtual) ∨ (if dest then d.dstRef else d.srcRef) ≠ root ∨
      (if dest then d.dstPad else d.srcPad) ≠ 0 then []
  else
    [start, start + 2 ^ 64].filterMap fun start =>
      if start + len ≤ addr ∨ addr + d.length ≤ start then none
      else some (max addr start - addr, min (addr + d.length) (start + len) - addr)

/-- Those positions with the rest of the pages in which they lie, as the walk found them (R235). -/
def Desc.wholePages (d : Desc) (dest : Bool) (e : Nat × Nat) : Nat × Nat :=
  let addr := if dest then d.dstAddr else d.srcAddr
  let span := fun (p : Nat) => d.pages.find? fun x => x.dest == dest && decide (x.lo ≤ p) && decide (p < x.hi)
  ((match span e.1 with
      | some x => max x.lo (e.1 - (addr + e.1) % x.size)
      | none => e.1),
   (match span (e.2 - 1) with
      | some x => min x.hi (e.2 - 1 + (x.size - (addr + (e.2 - 1)) % x.size))
      | none => e.2))

/-- The mover holds or walks a descriptor that the invalidation concerns (R234). -/
def Mover.concerned (x : Mover) (h : Hdr) (root : Ptr) (start len : Nat) : Bool :=
  match x.req, x.desc with
  | some q, some d =>
    decide (q.h.cid = h.cid) && !((d.hits false root start len).isEmpty && (d.hits true root start len).isEmpty)
  | _, _ => false

/-- INVAL_RANGE (R89, R234). A mover that waits for its accesses keeps the block of the segment that it writes, and no other
(R237). -/
def execInvalRange (h : Hdr) (root : Ptr) (invalId : W32) (start len : W64) (s : State) : Out :=
  .next (memberRequest h 0x33 32 (if len = 0 ∨ 2 ^ 64 < start.toNat + len.toNat then some stInvalid else none) [] [] [] [root.rh]
    (fun s =>
      let s := s.respond h 0x33 stOk []
      let ms := (List.range 64).filter fun m => (s.mover m).concerned h root start.toNat len.toNat
      if ms = [] then s.invalAck h invalId 0xFF 0
      else
        ms.foldl (fun s m =>
          let x := s.mover m
          let v : Inval := { src := h.src, h := h, id := invalId, total := ms.length, root := root, start := start.toNat, len := len.toNat }
          s.setMover m { x with inval := x.inval ++ [v], segments := if x.wrote then x.segments.take 1 else [] }) s) s)

/-- Stretches of pages without positions `lo` to `hi - 1`. -/
def cutPages (l : List PageSpan) (lo hi : Nat) : List PageSpan :=
  l.flatMap fun x => [{ x with hi := min x.hi lo }, { x with lo := max x.lo hi }].filter fun y => decide (y.lo < y.hi)

/-- Translates again a stretch of positions of a side; the rest keeps its runs. -/
def rewalkPart (d : Desc) (dest : Bool) (e : Nat × Nat) (old : List Run) (pages : List PageSpan) (io : WalkIO) : WalkIO × SideRes :=
  let (lo, hi) := ({ d with pages := pages } : Desc).wholePages dest e
  let lo := max lo d.bytesDone
  if hi ≤ lo then (io, .runs old pages)
  else
    match walkRange d dest lo hi io with
    | (io, .runs l p) =>
      (io, .runs ((sliceRuns old 0 (lo - d.bytesDone) ++ l ++ sliceRuns old (hi - d.bytesDone) (d.length - hi)).foldl addRun [])
        (cutPages pages lo hi ++ p))
    | x => x

/-- Translates again the parts of a side that an invalidation names. -/
def rewalkSide (d : Desc) (dest : Bool) (v : Inval) (io : WalkIO) : WalkIO × SideRes :=
  (d.hits dest v.root v.start v.len).foldl (fun (x : WalkIO × SideRes) e =>
    match x.2 with
    | .runs old p => rewalkPart d dest e old p x.1
    | _ => x)
    (io, .runs (sliceRuns (d.sideRuns dest) (d.bytesDone - d.base) (d.length - d.bytesDone)) (d.pages.filter fun x => x.dest == dest))

/-- Every invalidation that a mover has acknowledged, one after the other. -/
def rewalk (d : Desc) : List Inval → WalkIO → WalkIO × (Desc × SideRes)
  | [], io => (io, (d, .runs d.runs d.pages))
  | v :: t, io =>
    match rewalkSide d false v io with
    | (io, .runs a p) =>
      match rewalkSide d true v io with
      | (io, .runs b q) => rewalk { d with runs := a ++ b, pages := p ++ q, base := if a ++ b = [] then d.base else d.bytesDone } t io
      | (io, x) => (io, (d, x))
    | (io, x) => (io, (d, x))

/-- INVAL_QUIESCE: once the mover's accesses under the overlap are performed, it acknowledges; then it walks the overlapping pages
again, and continues when that walk has ended (R235). -/
def execInvalQuiesce (now mover : Nat) (s : State) : Out :=
  .next (s.serving fun s => let s := s.advanceTo now
    let x := s.mover mover
    match x.req, x.desc with
    | some q, some d =>
      if (x.inval.isEmpty && x.again.isEmpty) || x.wrote || s.unitBusy mover then s
      else if x.marked || (decide (x.state ≠ .moving) && !x.laid) then s.ackAll mover
      else if s.headerFails mover then s.failDesc mover d (s.unitFailure mover)
      else
        let again := x.again ++ x.inval
        let s := s.ackAll mover
        let s := s.setMover mover { s.mover mover with segments := [], again := again }
        match rewalk d again { st := s, cid := q.h.cid, mover := mover } with
        | (io, (_, .waits)) => io.st
        | (io, (_, .fault f)) => io.st.walkFaults mover f
        | (io, (d, .runs _ _)) => io.st.beginMoving mover q d
    | _, _ => s)

/-- Every open MOVE of a composition completes with ABORTED (R229, R397); `answer` false drops them without responses
(R233, R437). -/
def State.abortMoves (s : State) (cid : Cid) (answer : Bool) : State :=
  let mine := fun (q : MoveReq) => decide (q.h.cid = cid)
  let waiting := (s.movers.queue ++ s.movers.ingress ++ s.movers.parked.map (·.req)).filter mine
  let s := if answer then waiting.foldl (fun s q => s.answerMove q stAborted) s else s
  let gone := s.movers.ingress.filter mine
  let s := s.setMovers { s.movers with
    queue := s.movers.queue.filter (fun q => !mine q), ingress := s.movers.ingress.filter (fun q => !mine q)
    parked := s.movers.parked.filter fun p => !mine p.req }
  let s := (gone.foldl (fun s q => s.takeFromIngress q.h) s).refillQueue
  (List.range 64).foldl (fun s m =>
    match (s.mover m).req with
    | some q =>
      if !mine q then s
      else if answer then s.endMove m stAborted
      else s.freeMover m
    | none => s) s

end Sys2Proof.Machine
end

