-- ==== Sys2Proof/Machine/Embedding.lean ====
section
/-! DEFINITION. Embedding tables (10): GATHER_POOL with its look-ups and bags, the writer turns of ROW_WRITE, and the migration
of rows. -/
namespace Sys2Proof.Machine

/-! ### Tables and records (R313 to R316) -/

def parseTable (l : List Byte) : EmbTable :=
  { code := fieldLe l 0 1, replacing := decide (fieldLe l 1 1 = 1), curGen := BitVec.ofNat 8 (fieldLe l 2 1)
    nextGen := BitVec.ofNat 8 (fieldLe l 3 1), elements := fieldLe l 4 2, rows := fieldLe l 8 8, primary := fieldPtr l 16
    hotSlots := fieldLe l 28 4, hot := fieldPtr l 32, retain := fieldPtr l 48 }

/-- An area lies in a region of which this device is home, at a line-aligned offset. -/
def State.areaOk (s : State) (p : Ptr) : Bool := (s.localRegion p.rh).isSome && decide (p.offset.toNat % 64 = 0)

/-- The conditions of R313 and R314; `retains` where the request needs a retain area while the table is REPLACING. -/
def State.tableOk (s : State) (l : List Byte) (retains : Bool) : Bool :=
  let t := parseTable l
  decide (t.code ≤ 1) && decide (fieldLe l 1 1 ≤ 1) && (!t.replacing || decide (t.nextGen = t.curGen + 1)) &&
    decide (16 ≤ t.elements) && decide (t.elements ≤ 4096) && decide (t.elements % 16 = 0) && decide (fieldLe l 6 2 = 0) &&
    decide (1 ≤ t.rows) && decide (t.rows ≤ 2 ^ 40) && decide (fieldLe l 44 4 = 0) && decide (fieldLe l 60 4 = 0) &&
    s.areaOk t.primary &&
    (decide (t.hotSlots = 0) || (s.areaOk t.hot && decide ((s.region ((s.localRegion t.hot.rh).getD 0)).cls = clsNear))) &&
    (decide (t.retain.rh = 0) || s.areaOk t.retain) && !(retains && t.replacing && decide (t.retain.rh = 0))

/-- Stride of a row record (R315). -/
def EmbTable.stride (t : EmbTable) : Nat := (16 + (if t.code = 0 then t.elements else t.elements / 2) + 15) / 16 * 16

def EmbTable.primaryAt (t : EmbTable) (r : Nat) : RowAt := ⟨t.primary.rh, t.primary.offset.toNat + r * t.stride⟩
def EmbTable.hotAt (t : EmbTable) (k : Nat) : RowAt := ⟨t.hot.rh, t.hot.offset.toNat + k * t.stride⟩
def EmbTable.retainAt (t : EmbTable) (r : Nat) : RowAt := ⟨t.retain.rh, t.retain.offset.toNat + r * t.stride⟩

/-- A row record as bytes (R315). -/
structure RowRec where
  seq : Nat := 0
  gen : Byte := 0
  rstate : Nat := 0
  fresh : Bool := false
  scale : Nat := 0
  offset : Nat := 0
  link : Nat := 0
  codes : List Byte := []
  deriving DecidableEq, Repr

def parseRow (l : List Byte) : RowRec :=
  { seq := fieldLe l 0 4, gen := BitVec.ofNat 8 (fieldLe l 4 1), rstate := fieldLe l 5 1 % 8, fresh := bitOf (fieldLe l 5 1) 3
    scale := fieldLe l 6 2, offset := fieldLe l 8 2, link := fieldLe l 10 6, codes := l.drop 16 }

/-- The record's fields after its seq. -/
def RowRec.tail (r : RowRec) : List Byte :=
  [r.gen, BitVec.ofNat 8 (r.rstate + (if r.fresh then 8 else 0))] ++ leBytes 2 r.scale ++ leBytes 2 r.offset ++ leBytes 6 r.link ++ r.codes

/-- States of a primary record. -/
abbrev rsHome : Nat := 0
abbrev rsMigrating : Nat := 1
abbrev rsMoved : Nat := 2
abbrev rsReturning : Nat := 3

/-- Code of element j (R315, R316). -/
def rowCode (t : EmbTable) (codes : List Byte) (j : Nat) : Int :=
  if t.code = 0 then signedOf 8 (nth 0 codes j).toNat else signedOf 4 ((nth 0 codes (j / 2)).toNat / 16 ^ (j % 2))

/-- at_or_below of R328. -/
def atOrBelow (v g : Byte) : Bool := decide ((g - v).toNat < 128)

/-! ### Writer turns (R327) -/

/-- The access is a write of a writer turn. -/
def Access.ofTurn (a : Access) (id : Nat) : Bool :=
  match a.turn with
  | some u => decide (u.id = id)
  | none => false

/-- A change of one record in a writer turn: the record as the turn found it, the fields that it leaves, whether it writes the codes,
and which bytes of what it writes were computed from poisoned ones (R139). -/
structure RowChange where
  at_ : RowAt
  f : RowRec → RowRec
  whole : Bool := true
  bad : List Bool := []
  old : RowRec := {}

/-- The writes of one record: seq + 1, the other fields, seq + 2. -/
def State.recordWrites (s : State) (req : Nat) (cid : Cid) (onBehalf : Aid) (turn : Turn) (c : RowChange) : List Access :=
  let p := c.at_
  let new := c.f c.old
  let w := fun (k : Nat) (l : List Byte) =>
    { s.unitAccess .write cid p.rh (p.off + k) l.length with
      origin := .engine req, data := l, owner := s.ownerOf (s.unitHdr cid) onBehalf
      taint := taintOf (p.off + k) (((c.bad.drop k).take l.length)), turn := some turn }
  [w 0 (leBytes 4 (c.old.seq + 1)), w 4 (if c.whole then new.tail else new.tail.take 12), w 0 (leBytes 4 (c.old.seq + 2))]

/-- Admits writes of which each is issued once the one before it is performed. -/
def State.chain (s : State) (after : Option Nat) : List Access → State
  | [] => s
  | a :: l =>
    let id := s.reqs.nextId
    (State.chain { s with reqs := { s.reqs with nextId := id + 1, held := s.reqs.held ++ [{ a with id := id, follows := after }] } }
      (some id) l)

/-- A writer turn of a row: its records one after the other. A record whose region has left the composition is a violation, and its
part of the turn is left out (R429). -/
def State.writerTurn (s : State) (req : Nat) (cid : Cid) (onBehalf : Aid) (row : RowAt) (l : List RowChange) : State :=
  let bad := l.filter fun c => !s.assignedTo c.at_.rh cid
  let good := l.filter fun c => s.assignedTo c.at_.rh cid
  let accesses := good.zipIdx.flatMap fun c =>
    s.recordWrites req cid onBehalf { row := row, id := s.reqs.nextId, record := c.2 } c.1
  ((bad.foldl (fun s _ => s.violation cid s.aid 0xFF 9) s).chain none accesses).pump

/-- A turn of the row has begun: it reads its records, or writes them. -/
def State.turnUnderWay (s : State) (row : RowAt) : Bool :=
  (s.emb.claims.any fun c => decide (c.1 = row)) || s.reqs.held.any fun a => decide ((a.turn.map (·.row)) = some row)

/-- A held look-up keeps the row's turns from starting (R329). -/
def State.rowLocked (s : State) (row : RowAt) : Bool := s.emb.locks.any fun x => decide (x.1 = row)

/-- The next turn of a row begins for an asker: no other is under way, no held look-up has the row, and no ROW_WRITE of the row
arrived earlier (R327, R329). -/
def State.mayTurn (s : State) (u : Asker) (row : RowAt) : Bool :=
  s.emb.claims.contains (row, u) ||
  (!s.turnUnderWay row && !s.rowLocked row && !s.reqs.arrivals.any fun a => decide (a.row = some row))

def State.claim (s : State) (u : Asker) (row : RowAt) : State :=
  if s.emb.claims.contains (row, u) then s else { s with emb := { s.emb with claims := s.emb.claims ++ [(row, u)] } }

/-- Askers are done: what they have read is dropped, and turns that they have only begun are given up. -/
def State.closeIf (s : State) (p : Asker → Bool) : State :=
  let s := s.forgetIf p
  { s with emb := { s.emb with claims := s.emb.claims.filter fun c => !p c.2 } }

def State.close (s : State) (u : Asker) : State := s.closeIf fun x => decide (x = u)

/-- The first 16 bytes of records, as a turn finds them. -/
structure Heads where
  recs : List RowRec := []
  poisoned : Bool := false
  status : Byte := 0
  waits : Bool := false
  deriving DecidableEq, Repr

def Heads.usable (x : Heads) : Bool := !x.waits && decide (x.status = stOk)

def State.readHeads (s : State) (u : Asker) (cid : Cid) (l : List RowAt) : State × Heads :=
  l.foldl (fun (x : State × Heads) p =>
    match x.1.unitRead u cid p.rh p.off 16 with
    | (s, g) =>
      (s, { recs := x.2.recs ++ [parseRow g.data], poisoned := x.2.poisoned || g.poisoned
            status := if x.2.status ≠ stOk then x.2.status else g.status, waits := x.2.waits || g.waits })) (s, {})

/-- The first refusal that the records of a turn meet at their regions (R430, R642). -/
def State.turnRefusal (s : State) (cid : Cid) (onBehalf : Aid) (t : EmbTable) (ps : List RowAt) : Option Byte :=
  ps.findSome? fun p =>
    if !s.assignedTo p.rh cid then none
    else
      s.refusal (s.unitHdrOf cid onBehalf) { s.unitAccess .write cid p.rh p.off t.stride with
        owner := s.ownerOf (s.unitHdr cid) onBehalf } rightWrite

/-! ### ROW_WRITE (R331 to R333) -/

/-- Records that a ROW_WRITE changes, in order, by the table of R332; `bad` tells which bytes of the current copy are poisoned, which
the retain copy passes on (R139). -/
def rowTargets (t : EmbTable) (tableGen : Byte) (row : Nat) (primary current : RowRec) (bad : List Bool) (write : RowRec → RowRec) :
    List RowChange :=
  let p := t.primaryAt row
  let hot := t.hotAt primary.link
  let setFresh := fun (x : RowRec) => { x with fresh := true }
  let hotWrite := fun (x : RowRec) => { write x with link := row + 1 }
  let currents : List RowChange :=
    if primary.rstate = rsMigrating then [{ at_ := p, f := fun x => setFresh (write x) }, { at_ := hot, f := hotWrite }]
    else if primary.rstate = rsMoved then [{ at_ := hot, f := write }]
    else if primary.rstate = rsReturning then [{ at_ := hot, f := write }, { at_ := p, f := fun x => setFresh (write x) }]
    else [{ at_ := p, f := write }]
  let copy : RowChange :=
    { at_ := t.retainAt row, bad := bad
      f := fun x => { x with gen := current.gen, scale := current.scale, offset := current.offset, codes := current.codes, rstate := 0
                             fresh := false, link := 0 } }
  if !t.replacing then currents
  else if tableGen = t.nextGen then (if current.gen ≠ t.nextGen then copy :: currents else currents)
  else if current.gen = t.nextGen then [{ at_ := t.retainAt row, f := write }]
  else currents

/-- Changes with the records that they find. -/
def withOld (l : List RowChange) (olds : List RowRec) : List RowChange := l.zipWith (fun c x => { c with old := x }) olds

/-- Where the current copy of a row lies (R316). -/
def EmbTable.currentAt (t : EmbTable) (row : Nat) (primary : RowRec) : RowAt :=
  if primary.rstate = rsMoved ∨ primary.rstate = rsReturning then t.hotAt primary.link else t.primaryAt row

/-- A unit's request has met poison (R139). -/
def State.notePoison (s : State) (req : Nat) (bad : Bool) : State :=
  if bad && decide (Tab.get 0 s.reqs.failures req = stOk) then s.setFailures (Tab.set 0 s.reqs.failures req stPoison) else s

/-- A ROW_WRITE past its checks at ingress: it reads the table descriptor, and, when the row's turn is its own, the records that it needs
(R317, R327, R332); `hold` where one of these has to wait, with the row once that is known. -/
def State.rowWrite (s : State) (h : Hdr) (table : Ptr) (row : BitVec 40) (tableGen : Byte) (scale offset : BitVec 16)
    (codes : List Byte) (hold : Option RowAt → State → State) : State :=
  let u : Asker := .frame h.src h.tag
  let ends := fun (s : State) (st : Byte) => (s.close u).respond h 0x39 st []
  match s.unitRead u h.cid table.rh table.offset.toNat 64 (some h.pcp) with
  | (s, g) =>
    if g.waits then hold none s
    else if g.status ≠ stOk then ends s g.status
    else
      let t := parseTable g.data
      let k := row.toNat
      let p := t.primaryAt k
      if !s.tableOk g.data true ∨ (tableGen ≠ t.curGen ∧ !(t.replacing && decide (tableGen = t.nextGen))) ∨ t.rows ≤ k ∨
          codes.length ≠ t.stride - 16 then
        ends s stInvalid
      else if s.assignedTo p.rh h.cid && !s.hasRight h true ((s.localRegion p.rh).getD 0) rightWrite then ends s stDenied
      else if !s.mayTurn u p then hold (some p) s
      else
        match (s.claim u p).readHeads u h.cid [p] with
        | (s, x) =>
          if x.waits then hold (some p) s
          else if x.status ≠ stOk then ends s x.status
          else
            let primary := nth {} x.recs 0
            let place := t.currentAt k primary
            match s.unitRead u h.cid place.rh place.off (if t.replacing && decide (tableGen = t.nextGen) then t.stride else 16) with
            | (s, c) =>
              if c.waits then hold (some p) s
              else if c.status ≠ stOk then ends s c.status
              else
                let write := fun (x : RowRec) => { x with gen := tableGen, scale := scale.toNat, offset := offset.toNat, codes := codes }
                let targets := rowTargets t tableGen k primary (parseRow c.data) c.poison write
                match s.turnRefusal h.cid h.src t (targets.map (·.at_)) with
                | some st => ends s st
                | none =>
                  match s.readHeads u h.cid (targets.map (·.at_)) with
                  | (s, y) =>
                    if y.waits then hold (some p) s
                    else if y.status ≠ stOk then ends s y.status
                    else
                      let (req, s) := (s.close u).newReq
                      let s := s.notePoison req (g.poisoned || x.poisoned || c.poisoned || y.poisoned)
                      (s.writerTurn req h.cid h.src p (withOld targets y.recs)).replyWhenDone req h 0x39 []

/-- ROW_WRITE. -/
def execRowWrite (h : Hdr) (table : Ptr) (row : BitVec 40) (tableGen : Byte) (scale offset : BitVec 16) (codes : List Byte)
    (s : State) : Out :=
  .next (engineRequest h 0x39 24 none [] [] [table.rh] (fun s =>
    s.rowWrite h table row tableGen scale offset codes fun p =>
      (·.holdArrival { what := .rowWrite table row tableGen scale offset codes, h := h, row := p })) s)

/-! ### GATHER_POOL (R319 to R326) -/

def GatherReq.weightType (q : GatherReq) : Nat := bitsOf q.fmt.toNat 2 2
def GatherReq.outType (q : GatherReq) : Nat := bitsOf q.fmt.toNat 0 2
def GatherReq.tagged (q : GatherReq) : Bool := bitOf q.fmt.toNat 4

/-- The output-format byte lies within its values (R319). -/
def fmtOk (f : Byte) : Bool :=
  decide (bitsOf f.toNat 0 2 ≤ 1) && decide (bitsOf f.toNat 2 2 ≤ 2) && decide (bitsOf f.toNat 5 3 = 0)

/-- Bytes of one output vector (R321). -/
def GatherReq.outBytes (q : GatherReq) : Nat :=
  (q.table.elements * (if q.outType = 0 then 4 else 2) + 63) / 64 * 64

def State.setEmb (s : State) (e : Emb) : State := { s with emb := e }

/-- The bag's write is issued and performed. -/
def State.bagWritten (s : State) (x : Bag) : Bool :=
  match x.writes with
  | some req => !s.unitBusy req && (decide (s.unitFailure req = stOk) || decide (s.unitFailure req = stPoison))
  | none => false

/-- The response of a GATHER_POOL: bags written (R88, R323). -/
def State.answerGather (s : State) (q : GatherReq) (status : Byte) : State :=
  let n := (q.bags.filter fun e => s.bagWritten e.2).length
  s.respond q.h 0x38 status (beBytes 4 n ++ zeros 4)

/-- A request's reads, held look-ups and failures are dropped with it. -/
def State.clearGather (s : State) (q : GatherReq) : State :=
  let s := s.forgetIf fun u => match u with
    | .bag r _ | .look r _ _ => decide (r = q.id)
    | _ => false
  let s := s.setEmb { s.emb with locks := s.emb.locks.filter fun x => decide (x.2 ≠ q.id) }
  q.bags.foldl (fun s e => match e.2.writes with
    | some req => s.clearFailure req
    | none => s) s

/-- A GATHER_POOL ends with a status, and its place in service is free. -/
def State.dropGather (s : State) (q : GatherReq) (status : Byte) : State :=
  let s := (s.answerGather q status).clearGather q
  (s.setEmb { s.emb with service := s.emb.service.filter fun x => decide (x.id ≠ q.id) }).bump 9 (16 + q.engine0) 0

def State.setGather (s : State) (q : GatherReq) : State :=
  s.setEmb { s.emb with service := s.emb.service.map fun x => if x.id = q.id then q else x }

/-- Status of a request whose bags are all written or refused (R323, R324). -/
def GatherReq.status (q : GatherReq) : Byte :=
  if q.badIndex then stBounds
  else if q.bags.any fun e => e.2.noVersion then stInvalid
  else if q.poisoned then stPoison
  else stOk

/-- The status with which a request in service ends now, if it ends: every bag is dealt with and its writes are performed (R325). -/
def State.gatherEnd (s : State) (q : GatherReq) : Option Byte :=
  let reqs := q.bags.filterMap fun e => e.2.writes
  let sts := (reqs.map s.unitFailure).filter fun st => decide (st ≠ stOk)
  if reqs.any s.unitBusy then none
  else
    match sts.find? fun st => decide (st ≠ stPoison) with
    | some st => some st
    | none =>
      if (q.bags.filter fun e => e.2.writes.isSome || e.2.refused).length = q.nbags then
        some (if q.status = stOk ∧ sts ≠ [] then stPoison else q.status)
      else none

/-- The oldest frame left at ingress is accepted where the queue of 64 has room: its descriptor is read then (R317, R325). None where
no frame can be accepted, false where its read has to wait. -/
def State.acceptGather (s : State) : Option (State × Bool) :=
  match s.emb.ingress with
  | [] => none
  | q :: more =>
    if 64 ≤ s.emb.queue.length then none
    else
      let u : Asker := .frame q.h.src q.h.tag
      match s.unitRead u q.h.cid q.table.primary.rh q.table.primary.offset.toNat 64 (some q.h.pcp) with
      | (s, g) =>
        if g.waits then some (s, false)
        else
          let s := ((s.forget u).setEmb { s.emb with ingress := more }).takeFromIngress q.h
          if g.status ≠ stOk then some (s.respond q.h 0x38 g.status (zeros 8), true)
          else if !s.tableOk g.data q.tagged then some (s.respond q.h 0x38 stInvalid (zeros 8), true)
          else
            let (id, s) := s.takeId
            some (s.setEmb { s.emb with
              queue := s.emb.queue ++ [{ q with id := id, table := parseTable g.data, poisoned := g.poisoned }] }, true)

/-- Requests enter service while places are free, a request without bags ends there at once, and frames left at ingress enter the
queue (R325). -/
def State.refillGather (s : State) : Nat → State
  | 0 => s
  | fuel + 1 =>
    match s.emb.queue with
    | q :: rest =>
      if s.emb.service.length < 16 then
        let q := { q with engine0 := s.emb.nextEngine }
        let s := s.setEmb { s.emb with
          queue := rest, service := s.emb.service ++ [q], nextEngine := (s.emb.nextEngine + q.nbags) % 16 }
        (if q.nbags = 0 then s.dropGather q q.status else s).refillGather fuel
      else
        match s.acceptGather with
        | some (s, true) => s.refillGather fuel
        | some (s, false) => s
        | none => s
    | [] =>
      match s.acceptGather with
      | some (s, true) => s.refillGather fuel
      | some (s, false) => s
      | none => s

/-- Fills the places of the engines. -/
def State.runGather (s : State) : State := s.refillGather (2 * (s.emb.ingress.length + s.emb.queue.length) + 2)

/-- A GATHER_POOL ends with a status, and others take its place. -/
def State.endGather (s : State) (q : GatherReq) (status : Byte) : State := (s.dropGather q status).runGather

/-- Completes a request whose bags are all dealt with and whose writes are performed (R325). -/
def State.settleGather (s : State) (id : Nat) : State :=
  match s.emb.service.find? fun (q : GatherReq) => decide (q.id = id) with
  | none => s
  | some q =>
    match s.gatherEnd q with
    | some st => s.endGather q st
    | none => s

/-- Frames of the embedding engines that stay at ingress are charged to the packet buffer (R227, R325). -/
def State.chargeGather (s : State) (h : Hdr) : State :=
  if (s.emb.ingress.any fun q => decide (q.h = h)) && !s.switch.atIngress.any fun e => decide (e.1 = h) then s.leaveAtIngress h else s

/-- GATHER_POOL (R314, R317, R325). -/
def execGatherPool (h : Hdr) (table : Ptr) (tableGen fmt : Byte) (bags : W32) (index out : Ptr) (s : State) : Out :=
  .next (engineRequest h 0x38 48 (if fmtOk fmt then none else some stInvalid) (zeros 8) (zeros 8) [table.rh, index.rh, out.rh]
    (fun s =>
      let q : GatherReq := { h := h, table := { primary := table }, tableGen := tableGen, fmt := fmt, index := index, out := out
                             nbags := bags.toNat }
      ((s.setEmb { s.emb with ingress := s.emb.ingress ++ [q] }).runGather).chargeGather h) s)

/-- Bytes of an entry of the index list (R320). -/
def GatherReq.entryBytes (q : GatherReq) : Nat := if q.weightType = 2 then 16 else 8

/-- Weight bits of an entry, as FP32 or BF16; 1.0 in FP32 where there are none. -/
def GatherReq.weightNum (q : GatherReq) (bits : Nat) : Num :=
  match q.weightType with
  | 0 => decodeElem .fp32 0x3F800000
  | 1 => decodeElem .bf16 bits
  | _ => decodeElem .fp32 bits

def GatherReq.parseEntry (q : GatherReq) (l : List Byte) (i : Nat) : Nat × Nat :=
  if q.weightType = 2 then (fieldLe l (16 * i) 8, fieldLe l (16 * i + 8) 4) else (fieldLe l (8 * i) 5, fieldLe l (8 * i + 6) 2)

/-- What reading a bag of the index list came to. -/
inductive BagRes where
  | ready (q : GatherReq)
  | fails (status : Byte)
  | waits
  deriving DecidableEq, Repr

/-- Reads the header of a bag at a place of the index list; a count above 65,536 is outside its values (R320). A header that
arrives poisoned poisons its bag whatever it says; a count outside its values is then taken as none (R324; DESIGN CHOICE, log entry
88). -/
def State.readHeader (s : State) (q : GatherReq) (b start : Nat) : State × BagRes :=
  let x := q.bags.get {} b
  if x.known then (s, .ready q)
  else
    match s.unitRead (.bag q.id b) q.h.cid q.index.rh (q.index.offset.toNat + start) 8 (some q.h.pcp) with
    | (s, g) =>
      let s := if g.waits then s else s.forget (.bag q.id b)
      if g.waits then (s, .waits)
      else if g.status ≠ stOk then (s, .fails g.status)
      else if !g.poisoned ∧ (65536 < fieldLe g.data 0 4 ∨ fieldLe g.data 4 4 ≠ 0) then (s, .fails stInvalid)
      else
        let count := if 65536 < fieldLe g.data 0 4 then 0 else fieldLe g.data 0 4
        (s, .ready { q with
          bags := q.bags.set {} b { x with
            known := true, start := start, count := count, poisoned := x.poisoned || g.poisoned
            sums := List.replicate q.table.elements {} }
          poisoned := q.poisoned || g.poisoned })

/-- Reads the headers of the bags up to bag `b` (R320). -/
def State.readHeaders (s : State) (q : GatherReq) : Nat → State × BagRes
  | 0 => s.readHeader q 0 0
  | b + 1 =>
    match s.readHeaders q b with
    | (s, .ready q) =>
      let p := q.bags.get {} b
      s.readHeader q (b + 1) (p.start + 8 + q.entryBytes * p.count)
    | x => x

/-- Reads a bag's header and entries (R320). -/
def State.readBag (s : State) (q : GatherReq) (b : Nat) : State × BagRes :=
  match s.readHeaders q b with
  | (s, .ready q) =>
    let x := q.bags.get {} b
    if x.entries.isSome then (s, .ready q)
    else
      let n := q.entryBytes * x.count
      match s.unitRead (.bag q.id b) q.h.cid q.index.rh (q.index.offset.toNat + x.start + 8) n (some q.h.pcp) with
      | (s, g) =>
        let s := if g.waits then s else s.forget (.bag q.id b)
        if g.waits then (s, .waits)
        else if g.status ≠ stOk then (s, .fails g.status)
        else
          let es := (List.range x.count).map fun i => q.parseEntry g.data i
          let bad := es.any fun e => decide (q.table.rows ≤ e.1)
          (s, .ready { q with
            bags := q.bags.set {} b { x with entries := some es, poisoned := x.poisoned || g.poisoned, refused := bad }
            badIndex := q.badIndex || bad, poisoned := q.poisoned || (g.poisoned && !bad) })
  | x => x

/-- Outcome of an attempt at a look-up. -/
inductive LookRes where
  | version (rec : RowRec) (poisoned : Bool)
  | noVersion (poisoned : Bool)
  | retry (poisoned : Bool)
  /-- The record is chosen and its header read; its body has to wait. -/
  | body (l : Look)
  | waits
  | fails (status : Byte)
  deriving DecidableEq, Repr

/-- Bytes of a record that lie in the line of its first 16 bytes. -/
def EmbTable.headLen (t : EmbTable) (p : RowAt) : Nat := min t.stride (64 - p.off % 64)

/-- The body of a chosen record, and the second look at its header (R328); `held` for the held look-up, during which no turn of
the row runs. -/
def State.lookBody (s : State) (u : Asker) (cid : Cid) (t : EmbTable) (l : Look) (held : Bool) : State × LookRes :=
  let n := t.headLen l.at_
  if t.stride ≤ n then (s, .version (parseRow l.header) l.poisoned)
  else
    match s.unitRead u cid l.at_.rh (l.at_.off + n) (t.stride - n) with
    | (s, b) =>
      if b.waits then (s, .body l)
      else if b.status ≠ stOk then (s, .fails b.status)
      else
        match s.unitRead u cid l.at_.rh l.at_.off n with
        | (s, h) =>
          let bad := l.poisoned || b.poisoned || h.poisoned
          if h.waits then (s, .body l)
          else if h.status ≠ stOk then (s, .fails h.status)
          else if fieldLe h.data 0 4 ≠ fieldLe l.header 0 4 ∧ !held then (s, .retry bad)
          else (s, .version (parseRow (l.header ++ b.data)) bad)

/-- One attempt of R328, from its headers or, where they are read, from its body; `held` ignores an odd seq or another row's link,
which only a write past the lock can leave then (R329, R334). Every record is read at the point of coherence (R326). -/
def State.lookRow (s : State) (q : GatherReq) (u : Asker) (row : Nat) (at_ : Option Look) (held : Bool) : State × LookRes :=
  let t := q.table
  let cid := q.h.cid
  let header := fun (s : State) (p : RowAt) => s.unitRead u cid p.rh p.off (t.headLen p)
  match at_ with
  | some l => s.lookBody u cid t l held
  | none =>
    let p := t.primaryAt row
    match header s p with
    | (s, g) =>
      if g.waits then (s, .waits)
      else if g.status ≠ stOk then (s, .fails g.status)
      else
        let x := parseRow g.data
        if x.seq % 2 = 1 ∧ !held then (s, .retry g.poisoned)
        else
          let moved := decide (x.rstate = rsMoved) || decide (x.rstate = rsReturning)
          let hot := t.hotAt x.link
          match if moved then header s hot else (s, g) with
          | (s, c) =>
            if c.waits then (s, .waits)
            else if c.status ≠ stOk then (s, .fails c.status)
            else
              let y := parseRow c.data
              let bad := g.poisoned || c.poisoned
              if moved ∧ !held ∧ (y.seq % 2 = 1 ∨ y.link ≠ row + 1) then (s, .retry bad)
              else if !q.tagged || atOrBelow y.gen q.tableGen then
                (s.forget u).lookBody u cid t { at_ := if moved then hot else p, header := c.data, poisoned := bad } held
              else if t.retain.rh = 0 then (s, .noVersion bad)
              else
                let k := t.retainAt row
                match header s k with
                | (s, d) =>
                  let bad := bad || d.poisoned
                  if d.waits then (s, .waits)
                  else if d.status ≠ stOk then (s, .fails d.status)
                  else
                    let z := parseRow d.data
                    if z.seq % 2 = 1 ∧ !held then (s, .retry bad)
                    else if atOrBelow z.gen q.tableGen then
                      (s.forget u).lookBody u cid t { at_ := k, header := d.data, poisoned := bad } held
                    else (s, .noVersion bad)

/-- w × x_j with x_j = c_j × scale + offset, exact (R316, R322); an operand that is not finite sets its flag alone. -/
def addElement (a : AccReg) (w scale offset : Num) (c : Int) : AccReg :=
  match w, scale, offset with
  | .fin ws wm we, .fin ss sm se, .fin os om oe =>
    let x := dyadicAdd (signedMant ss sm * c, se) (signedMant os om, oe)
    let v := signedMant ws wm * x.1
    a.add (.fin (decide (v < 0)) v.natAbs (we + x.2))
  | _, _, _ =>
    [w, scale, offset].foldl (fun a y => match y with
      | .fin _ _ _ => a
      | y => a.add y) a

/-- Adds a row's weighted elements into a bag's accumulators. -/
def Bag.addRow (b : Bag) (q : GatherReq) (weight : Nat) (x : RowRec) : Bag :=
  let w := q.weightNum weight
  let sc := decodeElem .fp16 x.scale
  let of := decodeElem .fp16 x.offset
  { b with sums := b.sums.zipIdx.map fun a => addElement a.1 w sc of (rowCode q.table x.codes a.2) }

/-- Puts the outcome of a look-up into its bag: poison met in any attempt is the bag's (R324). -/
def State.lookedUp (s : State) (q : GatherReq) (b e weight : Nat) (res : LookRes) : State :=
  let x := q.bags.get {} b
  let put := fun (y : Bag) (bad : Bool) => s.setGather { q with
    bags := q.bags.set {} b { y with poisoned := y.poisoned || bad }, poisoned := q.poisoned || bad }
  let ends := fun (y : Bag) (bad : Bool) => (put { y with looks := y.looks.set none e none } bad).forget (.look q.id b e)
  match res with
  | .waits => s
  | .body l => put { x with looks := x.looks.set none e (some l) } false
  | .fails st => s.endGather q st
  | .retry bad => ends { x with failed := x.failed ++ [e] } bad
  | .noVersion bad => ends { x with looked := x.looked ++ [e], noVersion := true } bad
  | .version rec bad => ends { x.addRow q weight rec with looked := x.looked ++ [e] } bad

/-- Attempts at the look-up of an entry that have failed. -/
def Bag.attempts (b : Bag) (e : Nat) : Nat := b.failed.count e

/-- Look-ups that an engine has in flight (R325). -/
def State.lookups (s : State) (engine : Nat) : List Asker :=
  ((s.reqs.units.map (·.asker)).filter fun u => match u with
    | .look r b _ => s.emb.service.any fun q => decide (q.id = r) && decide ((q.engine0 + b) % 16 = engine)
    | _ => false).eraseDups

/-- An engine takes up a look-up only where it has fewer than 1,024 in flight, or this one among them. -/
def State.engineFree (s : State) (q : GatherReq) (bag entry : Nat) : Bool :=
  let l := s.lookups ((q.engine0 + bag) % 16)
  decide (l.length < 1024) || l.contains (.look q.id bag entry)

/-- An entry of a bag whose look-up is still to be made: the request, the row and the weight bits. -/
def State.entryOf (s : State) (req bag entry : Nat) : State × Option (GatherReq × Nat × Nat) :=
  match s.emb.service.find? fun (q : GatherReq) => decide (q.id = req) with
  | none => (s, none)
  | some q =>
    if q.nbags ≤ bag then (s, none)
    else
      match s.readBag q bag with
      | (s, .waits) => (s, none)
      | (s, .fails st) => (s.endGather q st, none)
      | (s, .ready q) =>
        let s := s.setGather q
        let x := q.bags.get {} bag
        match (x.entries.getD [])[entry]? with
        | none => (s, none)
        | some (row, w) => (s, if x.refused || x.looked.contains entry then none else some (q, row, w))

/-- LOOKUP: one of at most five attempts at an entry (R328). -/
def execLookup (now req bag entry : Nat) (s : State) : Out :=
  .next (s.serving fun s => match (s.advanceTo now).entryOf req bag entry with
    | (s, none) => s
    | (s, some (q, row, w)) =>
      if 5 ≤ (q.bags.get {} bag).attempts entry ∨ !s.engineFree q bag entry then s
      else
        match s.lookRow q (.look req bag entry) row ((q.bags.get {} bag).looks.get none entry) false with
        | (s, res) => s.lookedUp q bag entry w res)

/-- The held look-up of a request is over, and the row's turns go on (R329). -/
def State.unlockRow (s : State) (row : RowAt) (req : Nat) : State :=
  s.setEmb { s.emb with locks := s.emb.locks.erase (row, req) }

/-- HELD_LOOKUP (R329): after five failed attempts the row starts no further turn; once the turn in progress is over, the look-up is
made, and the turns go on. -/
def execHeldLookup (now req bag entry : Nat) (s : State) : Out :=
  .next (s.serving fun s => match (s.advanceTo now).entryOf req bag entry with
    | (s, none) => s
    | (s, some (q, row, w)) =>
      let p := q.table.primaryAt row
      if (q.bags.get {} bag).attempts entry < 5 ∨ !s.engineFree q bag entry then s
      else
        let s := if s.emb.locks.contains (p, req) then s else s.setEmb { s.emb with locks := s.emb.locks ++ [(p, req)] }
        if s.turnUnderWay p then s
        else
          match s.lookRow q (.look req bag entry) row ((q.bags.get {} bag).looks.get none entry) true with
          | (s, res) =>
            match res with
            | .waits => s
            | .body l => s.lookedUp q bag entry w (.body l)
            | res => (((s.bump 9 (16 + (q.engine0 + bag) % 16) 3).lookedUp q bag entry w res)).unlockRow p req)

/-- The pooled vector of a bag: each sum rounded once, zeros where it is poisoned (R321, R322, R324). -/
def GatherReq.vector (q : GatherReq) (b : Bag) : List Byte :=
  let ty : ElemTy := if q.outType = 0 then .fp32 else .bf16
  let n := if q.outType = 0 then 4 else 2
  if b.poisoned then zeros q.outBytes
  else sliceBytes (b.sums.flatMap fun a => leBytes n (a.rounded ty .nearestEven)) 0 q.outBytes

/-- BAG_WRITE (R321 to R325). -/
def execBagWrite (now req bag : Nat) (s : State) : Out :=
  .next (s.serving fun s => let s := s.advanceTo now
    match s.emb.service.find? fun (q : GatherReq) => decide (q.id = req) with
    | none => s
    | some q =>
      if q.nbags ≤ bag then s
      else
        match s.readBag q bag with
        | (s, .waits) => s
        | (s, .fails st) => s.endGather q st
        | (s, .ready q) =>
          let s := s.setGather q
          let x := q.bags.get {} bag
          if x.writes.isSome || x.refused then s.settleGather req
          else if (x.entries.getD []).length ≠ x.looked.length then s
          else if x.noVersion then
            (s.setGather { q with bags := q.bags.set {} bag { x with refused := true } }).settleGather req
          else
            let off := q.out.offset.toNat + bag * q.outBytes
            let taint := if x.poisoned then (List.range (linesOf off q.outBytes)).map fun j => off / 64 + j else []
            let (w, s) := s.newReq
            match s.unitWrite w q.h.cid q.h.src 0 q.out.rh off (q.vector x) taint (some q.h.pcp) with
            | (s, st) =>
              if st ≠ stOk then s.endGather q st
              else (s.setGather { q with bags := q.bags.set {} bag { x with writes := some w } }).settleGather req)

/-! ### ROW_MIGRATE (R335 to R337) -/

def State.setMigrateJob (s : State) (j : MigrateJob) : State :=
  s.setEmb { s.emb with jobs := s.emb.jobs.map fun x => if x.id = j.id then j else x }

/-- The asker of a migration job's row is done. -/
def MigrateJob.rowAsker (j : MigrateJob) (u : Asker) : Bool :=
  match u with
  | .row r _ => decide (r = j.id)
  | _ => false

/-- A job leaves the device with its migrations, and its order completes. -/
def State.endJob (s : State) (j : MigrateJob) (status : Byte) (result : List Byte) : State :=
  let s := s.closeIf j.rowAsker
  ((s.setEmb { s.emb with jobs := s.emb.jobs.filter fun x => decide (x.id ≠ j.id)
                          migrations := s.emb.migrations.filter fun m => decide (m.job ≠ j.id) }).clearFailure
    (engineReq j.id)).finishOrder j.order status result

/-- A job whose entries are all migrated or skipped completes. -/
def State.settleMigrate (s : State) (id : Nat) : State :=
  match s.emb.jobs.find? fun (j : MigrateJob) => decide (j.id = id) with
  | none => s
  | some j =>
    if j.todo ≠ [] ∨ j.left ≠ 0 ∨ s.unitBusy (engineReq id) then s
    else s.endJob j (if j.poisoned then stPoison else stOk) (beBytes 4 j.migrated ++ beBytes 4 j.skipped)

/-- What taking an entry came to. -/
inductive EntryRes where
  | begun (poisoned : Bool) (m : Migration)
  | skipped (poisoned : Bool)
  | fails (status : Byte)
  | waits
  deriving DecidableEq, Repr

/-- The writer turn of a job that changes fields of one primary record without its codes. -/
def State.markTurn (s : State) (j : MigrateJob) (u : Asker) (c : RowChange) : State :=
  (s.close u).writerTurn (engineReq j.id) j.cid 0 c.at_ [{ c with whole := false }]

/-- Takes one entry of a ROW_MIGRATE in its row's turn: a migration begins or goes on, or the entry is skipped (R336). `bad` where the
entry was read as poisoned: what is written from its slot is poisoned too (R139). -/
def State.migrateEntry (s : State) (j : MigrateJob) (toHot : Bool) (row slot : Nat) (bad : Bool) : State × EntryRes :=
  let t := j.table
  let p := t.primaryAt row
  let u : Asker := .row j.id row
  let begin_ := fun (s : State) (k : Nat) (b : Bool) =>
    (s, EntryRes.begun b { job := j.id, row := row, slot := k, toHot := toHot })
  if t.rows ≤ row ∨ (s.turnRefusal j.cid 0 t [p]).isSome then (s, .skipped false)
  else if !s.mayTurn u p then (s, .waits)
  else
    match (s.claim u p).readHeads u j.cid [p] with
    | (s, x) =>
      if x.waits then (s, .waits)
      else if x.status ≠ stOk then (s, .fails x.status)
      else
        let old := nth {} x.recs 0
        let skip := fun (s : State) (b : Bool) => (s.close u, EntryRes.skipped b)
        let returning : RowChange := { at_ := p, old := old, f := fun x => { x with rstate := rsReturning, fresh := false } }
        if toHot then
          if old.rstate = rsMigrating then begin_ (s.close u) old.link x.poisoned
          else if old.rstate ≠ rsHome ∨ t.hotSlots ≤ slot then skip s x.poisoned
          else
            match s.readHeads u j.cid [t.hotAt slot] with
            | (s, y) =>
              let b := x.poisoned || y.poisoned
              if y.waits then (s, .waits)
              else if y.status ≠ stOk then (s, .fails y.status)
              else if (nth {} y.recs 0).link ≠ 0 then skip s b
              else
                begin_ (s.markTurn j u { at_ := p, old := old, bad := List.replicate 16 bad
                                         f := fun x => { x with rstate := rsMigrating, link := slot, fresh := false } }) slot b
        else if old.rstate = rsReturning then begin_ (s.close u) old.link x.poisoned
        else if old.rstate = rsMoved then begin_ (s.markTurn j u returning) old.link x.poisoned
        else skip s x.poisoned

/-- Takes the entries of a job in order, as far as their rows allow it now; the status of a read that fails ends the job (R643). -/
def State.runEntries (s : State) (j : MigrateJob) (toHot : Bool) : List (Nat × Nat × Bool) → State
  | [] => (s.setMigrateJob { j with todo := [] }).settleMigrate j.id
  | e :: l =>
    match s.migrateEntry j toHot e.1 e.2.1 e.2.2 with
    | (s, .waits) => s.setMigrateJob { j with todo := e :: l }
    | (s, .fails st) => s.endJob j st []
    | (s, .skipped b) => s.runEntries { j with skipped := j.skipped + 1, poisoned := j.poisoned || b } toHot l
    | (s, .begun b m) =>
      (s.setEmb { s.emb with migrations := s.emb.migrations ++ [m] }).runEntries
        { j with left := j.left + 1, poisoned := j.poisoned || b } toHot l

/-- A job goes on with the entries that had to wait. -/
def State.runJob (s : State) (id : Nat) : State :=
  match s.emb.jobs.find? fun (j : MigrateJob) => decide (j.id = id) with
  | none => s
  | some j => s.runEntries j j.toHot j.todo

/-- A ROW_MIGRATE past its own checks: reads the table descriptor and the list, and becomes a job; `hold` where a read has to wait. -/
def State.rowMigrate (s : State) (ref : OrderRef) (table : Ptr) (direction : Byte) (count : W32) (list : Ptr)
    (hold : State → State) : State :=
  let cid := ref.h.cid
  let ends := fun (s : State) (st : Byte) => (s.forget ref.asker).finishOrder ref st []
  match s.unitRead ref.asker cid table.rh table.offset.toNat 64 with
  | (s, g) =>
    if g.waits then hold s
    else if g.status ≠ stOk then ends s g.status
    else
      let t := parseTable g.data
      if !s.tableOk g.data false ∨ t.hotSlots = 0 then ends s stInvalid
      else
        match s.unitRead ref.asker cid list.rh list.offset.toNat (16 * count.toNat) with
        | (s, l) =>
          if l.waits then hold s
          else if l.status ≠ stOk then ends s l.status
          else
            let (id, s) := (s.forget ref.asker).takeId
            let entry := fun (i : Nat) =>
              (fieldLe l.data (16 * i) 8, fieldLe l.data (16 * i + 8) 4, ((l.poison.drop (16 * i)).take 16).any fun b => b)
            let j : MigrateJob :=
              { id := id, order := ref, cid := cid, table := t, toHot := decide (direction = 0), poisoned := g.poisoned || l.poisoned
                todo := (List.range count.toNat).map entry }
            (s.setEmb { s.emb with jobs := s.emb.jobs ++ [j] }).runJob id

/-- ROW_MIGRATE. -/
def execRowMigrate (o : Order) (table : Ptr) (direction : Byte) (count : W32) (list : Ptr) (s : State) : Out :=
  .next (orderRequest o (fun ref s =>
    let cid := o.hdr.cid
    if (s.activeIdx cid).isNone ∨ 1 < direction.toNat ∨ count.toNat < 1 ∨ 4096 < count.toNat then s.finishOrder ref stInvalid []
    else if s.fencedCid cid then s.finishOrder ref stAborted []
    else s.rowMigrate ref table direction count list
      (·.holdArrival { what := .rowMigrate table direction count list, h := o.hdr, ref := some ref })) s)

/-- The migration at a place of the list ends; `ok` where the row reached its target. -/
def State.endMigration (s : State) (idx : Nat) (j : MigrateJob) (m : Migration) (ok : Bool) : State :=
  let s := s.close (.row j.id m.row)
  let s := s.setEmb { s.emb with migrations := s.emb.migrations.eraseIdx idx }
  (s.setMigrateJob { j with left := j.left - 1, migrated := j.migrated + (if ok then 1 else 0)
                            skipped := j.skipped + (if ok then 0 else 1) }).settleMigrate j.id

/-- The records of the turn that flips a migrating row: the copy goes to the target unless fresh is set (R336). -/
def flipTurn (t : EmbTable) (m : Migration) (primary hot : RowRec) : List RowChange :=
  let copy := parseRow ((m.copy.map fun c => c.2).getD [])
  let put := fun (link : Nat) (x : RowRec) =>
    { x with gen := copy.gen, scale := copy.scale, offset := copy.offset, codes := copy.codes, link := link }
  if m.toHot then
    (if primary.fresh then [] else [({ at_ := t.hotAt m.slot, f := put (m.row + 1), bad := m.poison, old := hot } : RowChange)]) ++
      [{ at_ := t.primaryAt m.row, f := fun x => { x with rstate := rsMoved }, whole := false, old := primary }]
  else
    [{ at_ := t.primaryAt m.row, f := fun x => { (if primary.fresh then x else put 0 x) with rstate := rsHome, link := 0 }
       whole := !primary.fresh, bad := if primary.fresh then [] else m.poison, old := primary },
      { at_ := t.hotAt m.slot, f := fun x => { x with link := 0 }, whole := false, old := hot }]

def State.setMigration (s : State) (idx : Nat) (m : Migration) : State :=
  s.setEmb { s.emb with migrations := s.emb.migrations.set idx m }

/-- The copy of a migration is read outside the writer turn: the source record and its seq. -/
def State.readCopy (s : State) (idx : Nat) (j : MigrateJob) (m : Migration) : State :=
  let u : Asker := .row j.id m.row
  let p := if m.toHot then j.table.primaryAt m.row else j.table.hotAt m.slot
  match s.unitRead u j.cid p.rh p.off j.table.stride with
  | (s, g) =>
    if g.waits then s
    else if g.status ≠ stOk then s.endJob j g.status []
    else
      ((s.forget u).setMigrateJob { j with poisoned := j.poisoned || g.poisoned }).setMigration idx
        { m with copy := some (fieldLe g.data 0 4, g.data), poison := g.poison }

/-- The migration copy turn: in the row's turn, the row flips, or its copy is to be read again (R336). -/
def State.copyTurn (s : State) (idx : Nat) (j : MigrateJob) (m : Migration) : State :=
  let t := j.table
  let p := t.primaryAt m.row
  let u : Asker := .row j.id m.row
  if !s.mayTurn u p then s
  else
    match (s.claim u p).readHeads u j.cid [p, t.hotAt m.slot] with
    | (s, x) =>
      if x.waits then s
      else if x.status ≠ stOk then s.endJob j x.status []
      else
        let primary := nth {} x.recs 0
        let hot := nth {} x.recs 1
        let seq := if m.toHot then primary.seq else hot.seq
        if primary.rstate ≠ (if m.toHot then rsMigrating else rsReturning) then
          s.endMigration idx j m (decide (primary.rstate = (if m.toHot then rsMoved else rsHome)))
        else if !primary.fresh && decide (m.copy.map (·.1) ≠ some seq) then (s.close u).setMigration idx { m with copy := none }
        else
          let changes := flipTurn t m primary hot
          if (s.turnRefusal j.cid 0 t (changes.map (·.at_))).isSome then s.endMigration idx j m false
          else
            let (req, s) := (s.close u).newReq
            let s := s.setMigrateJob { j with poisoned := j.poisoned || x.poisoned }
            (s.writerTurn req j.cid 0 p changes).setMigration idx { m with flip := some req }

/-- MIGRATION_COPY_TURN (R336): reads the copy, or flips the row. A flip whose writes are under way is over once they are performed;
where one of its records refuses the write, its entry counts as skipped. -/
def execMigrationCopyTurn (now idx : Nat) (s : State) : Out :=
  .next (s.serving fun s => let s := s.advanceTo now
    match s.emb.migrations[idx]? with
    | none => s.emb.jobs.foldl (fun s (j : MigrateJob) => s.settleMigrate j.id) s
    | some m =>
      match s.emb.jobs.find? fun (j : MigrateJob) => decide (j.id = m.job) with
      | none => s
      | some j =>
        match m.flip with
        | some req =>
          if s.unitBusy req then s
          else
            let st := s.unitFailure req
            (s.clearFailure req).endMigration idx j m (decide (st = stOk) || decide (st = stPoison))
        | none => if m.copy.isNone then s.readCopy idx j m else s.copyTurn idx j m)

/-! ### Ending a composition's requests (R338, R397, R437) -/

/-- A held arrival is a ROW_WRITE or a ROW_MIGRATE. -/
def Arrival.isRow (a : Arrival) : Bool :=
  match a.what with
  | .rowWrite _ _ _ _ _ _ | .rowMigrate _ _ _ _ => true
  | _ => false

/-- A ROW_WRITE or ROW_MIGRATE whose first reads wait completes with ABORTED. -/
def State.abortRow (s : State) (a : Arrival) : State :=
  if !a.isRow then s
  else
    let s := s.close (.frame a.h.src a.h.tag)
    match a.ref with
    | some ref => s.finishOrder ref stAborted []
    | none => s.respond a.h 0x39 stAborted []

/-- Every GATHER_POOL, ROW_WRITE and ROW_MIGRATE of a composition still in flight completes with ABORTED (R338). -/
def State.abortEmb (s : State) (cid : Cid) : State :=
  let mine := fun (q : GatherReq) => decide (q.h.cid = cid)
  let gone := (s.emb.service ++ s.emb.queue ++ s.emb.ingress).filter mine
  let held := s.reqs.arrivals.filter fun a => decide (a.h.cid = cid)
  let jobs := s.emb.jobs.filter fun j => decide (j.cid = cid)
  let replies := s.reqs.replies.filter fun x => decide (x.h.cid = cid)
  let s := s.setEmb { s.emb with
    service := s.emb.service.filter (fun q => !mine q), queue := s.emb.queue.filter (fun q => !mine q)
    ingress := s.emb.ingress.filter (fun q => !mine q), jobs := s.emb.jobs.filter (fun j => !decide (j.cid = cid))
    migrations := s.emb.migrations.filter fun m => !jobs.any fun j => decide (j.id = m.job) }
  let s := { s with reqs := { s.reqs with
    replies := s.reqs.replies.filter fun x => !decide (x.h.cid = cid)
    arrivals := s.reqs.arrivals.filter fun a => !decide (a.h.cid = cid) || !a.isRow } }
  let s := gone.foldl (fun s q =>
    (((s.answerGather q stAborted).clearGather q).takeFromIngress q.h).forget (.frame q.h.src q.h.tag)) s
  let s := held.foldl (fun s a => s.abortRow a) s
  let s := jobs.foldl (fun s j => ((s.closeIf j.rowAsker).clearFailure (engineReq j.id)).finishOrder j.order stAborted []) s
  (replies.foldl (fun s x => s.respond x.h x.opcode stAborted x.payload) s).runGather

end Sys2Proof.Machine
end

