-- ==== Sys2Proof/Machine/RegionOrders.lean ====
section
/-! DEFINITION. Region orders and the events that complete them (R28 to R32, R36, R99, R140, R141, R426, R436, R438, R539,
R576). -/
namespace Sys2Proof.Machine

/-! ### Chunks (R576) -/

def Pool.free (p : Pool) : Nat := (p.cap - p.fresh) + p.back.length

/-- The next chunk: one never taken before one that was returned (DESIGN CHOICE: chunk numbers show nowhere). -/
def Pool.take (p : Pool) : Nat × Pool :=
  if p.fresh < p.cap then (p.fresh, { p with fresh := p.fresh + 1 })
  else match p.back with
    | [] => (0, p)
    | c :: t => (c, { p with back := t })

/-- The pools of a placement class: stacks, channel pairs, or the logical flash as one. -/
def State.pools (s : State) (cls : Nat) : Tab Pool :=
  if cls = clsNear then s.store.hbm else if cls = clsFar then s.store.dram else [(0, s.store.flashPool)]

def State.setPools (s : State) (cls : Nat) (t : Tab Pool) : State :=
  { s with store :=
    if cls = clsNear then { s.store with hbm := t }
    else if cls = clsFar then { s.store with dram := t }
    else { s.store with flashPool := t.get {} 0 } }

/-- Chunks taken round-robin over units, each unit that has none left skipped. -/
def takeChunks : Nat → List Nat → Tab Pool → List (Nat × Nat) × Tab Pool
  | 0, _, t => ([], t)
  | n + 1, units, t =>
    match units.filter fun u => decide (0 < (Tab.get {} t u).free) with
    | [] => ([], t)
    | u :: rest =>
      let (c, p) := (Tab.get {} t u).take
      let (l, t) := takeChunks n (rest ++ [u]) (Tab.set {} t u p)
      ((u, c) :: l, t)

/-- The units of a pool, starting with the first that has the most free chunks (R576). -/
def unitOrder (t : Tab Pool) : List Nat :=
  let most := t.foldl (fun m e => max m e.2.free) 0
  let keys := t.map (·.1)
  let lead := keys.takeWhile fun u => decide ((Tab.get {} t u).free ≠ most)
  keys.drop lead.length ++ lead

def freeChunks (t : Tab Pool) : Nat := t.foldl (fun n e => n + e.2.free) 0

/-- `n` chunks of a class, or none where the pool has not so many (R32). -/
def State.allocate (s : State) (cls n : Nat) : Option (List (Nat × Nat) × State) :=
  let t := s.pools cls
  if freeChunks t < n then none
  else
    let (l, t) := takeChunks n (unitOrder t) t
    some (l, s.setPools cls t)

def State.giveBack (s : State) (cls : Nat) (l : List (Nat × Nat)) : State :=
  s.setPools cls (l.foldl (fun t c => Tab.mod {} t c.1 fun p => { p with back := p.back ++ [c.2] }) (s.pools cls))

/-! ### Flash keys (R539) -/

/-- No region holds the key slot. -/
def State.keySlotFree (s : State) (k : Nat) : Bool :=
  !s.store.regions.any fun e => decide (e.2.keySlot.toNat = k) || decide (e.2.newKeySlot.toNat = k)

/-- The lowest free key slot among `n` from `k` (DESIGN CHOICE: the manual names a free one). -/
def State.lowestSlot (s : State) : Nat → Nat → Option Nat
  | 0, _ => none
  | n + 1, k => if s.keySlotFree k then some k else s.lowestSlot n (k + 1)

def State.setKey (s : State) (slot : Nat) (key : KeySlot) : State :=
  { s with sec := { s.sec with keySlots := s.sec.keySlots.set {} slot key } }

/-- A key on both I/O dies, wrapped under the session key-encryption key. -/
def State.keyCopies (s : State) (key : BitVec 512) : KeySlot :=
  let w := s.sec.sessionKey.map fun k => ({ under := k, key := key } : WrappedKey)
  { die0 := w, die1 := w }

/-- Draws a key into a free slot; none when all 65,536 are taken. -/
def State.drawKey (s : State) : Option (W32 × State) :=
  match s.lowestSlot 65536 0 with
  | none => none
  | some k =>
    let (n, s) := s.fresh
    some (BitVec.ofNat 32 k, s.setKey k (s.keyCopies (Config.draw n)))

/-- Destroys a region's flash key: both copies of the slot are overwritten, and read back as zeros (R541). -/
def State.destroyKey (s : State) (i : Nat) : State :=
  let k := (s.region i).keySlot
  if k = 0xFFFFFFFF then s else (s.modRegion i fun r => { r with keySlot := 0xFFFFFFFF }).setKey k.toNat {}

/-- Invalidates the flash map entries of logical chunks (R438). -/
def State.dropMap (s : State) (chunks : List (Nat × Nat)) : State :=
  (s.store.map.filter fun e => chunks.any fun c => decide (c.2 = e.1 / 512)).foldl (fun s e => s.vacate e.1) s

/-! ### Orders -/

/-- The placement byte asks for a class and a mode that this device has (R31, R36, R141). -/
def State.placementOk (s : State) (p : Byte) : Bool :=
  let cls := bitsOf p.toNat 0 2
  decide (bitsOf p.toNat 4 4 = 0) && decide (cls ≤ 2) &&
    !(decide (cls = clsDeep) && decide (s.boot.cfg.carve.sectorCache = 0)) &&
    !(p.getLsbD 3 && decide (s.boot.cfg.carve.dirBacking = 0))

/-- The redundancy and parity shape bytes are within their values (R31, R99). -/
def shapeOk (redundancy shape : Byte) : Bool :=
  let kind := bitsOf redundancy.toNat 0 2
  let k := bitsOf shape.toNat 0 4
  let c := bitsOf shape.toNat 4 2
  decide (bitsOf redundancy.toNat 2 6 = 0) && decide (kind ≤ 2) &&
    (if kind = 2 then decide (1 ≤ k) && decide (k ≤ 14) && decide (1 ≤ c) && decide (c ≤ 2) && decide (bitsOf shape.toNat 6 2 = 0)
     else decide (shape = 0))

/-- The FREE index that has been FREE longest (R29). -/
def State.freeIndex (s : State) : Option (Nat × State) :=
  if s.store.nextFresh < s.boot.cfg.carve.regions then
    some (s.store.nextFresh + 1, { s with store := { s.store with nextFresh := s.store.nextFresh + 1 } })
  else match s.store.released with
    | [] => none
    | i :: t => some (i, { s with store := { s.store with released := t } })

def State.takeChunkList (s : State) (n : Nat) : W64 × State :=
  (BitVec.ofNat 64 s.store.chunkTop, { s with store := { s.store with chunkTop := s.store.chunkTop + n } })

/-- A region created within a step has no version at its STEP_OPEN but its first (R170). -/
def State.forgetVersion (s : State) (i : Nat) : State :=
  { s with comps := { s.comps with entries := s.comps.entries.mapAll {} fun _ c => { c with versions := c.versions.set 0 i 0 } } }

/-- Creates a region that passed its checks; none where the pool, the table or the key slots are full. -/
def State.createRegion (s : State) (size : Nat) (placement redundancy shape : Byte) (group : W32) : Option (Nat × State) := do
  let cls := bitsOf placement.toNat 0 2
  let (i, s) ← s.freeIndex
  let (l, s) ← s.allocate cls (size / chunkBytes)
  let (key, s) ← if cls = clsDeep then s.drawKey else some (0xFFFFFFFF, s)
  let (first, s) := s.takeChunkList l.length
  let kind := bitsOf redundancy.toNat 0 2
  let r : Region :=
    { state := .idle, cls := cls, demand := placement.getLsbD 2, coherent := placement.getLsbD 3, redKind := kind
      k := bitsOf shape.toNat 0 4, checks := bitsOf shape.toNat 4 2, size := size, chunkList := first, keySlot := key
      group := if kind = 0 then 0xFFFFFFFF else group, chunks := l }
  some (i, (s.setRegion i r).forgetVersion i)

/-- REGION_CREATE (R28 to R32, R36, R99, R141, R491, R539). -/
def execRegionCreate (o : Order) (size : W64) (placement redundancy shape : Byte) (group : W32) (s : State) : Out :=
  .next (orderRequest o (fun ref s =>
    if size.toNat % chunkBytes ≠ 0 ∨ size.toNat < chunkBytes ∨ 2 ^ 48 < size.toNat then s.finishOrder ref stInvalid []
    else if !s.placementOk placement || !shapeOk redundancy shape then s.finishOrder ref stInvalid []
    else if s.memoryDrain then s.finishOrder ref stBusy []
    else
      match s.createRegion size.toNat placement redundancy shape group with
      | some (i, s) => s.finishOrder ref stOk (beBytes 5 (s.regionHandle i).toNat)
      | none => s.finishOrder ref stNoSpace []) s)

/-- The record that a region order names, or INVALID for a FREE index or one that does not lie here (R32). -/
def namedRegion (ref : OrderRef) (rh : Handle) (k : Nat → State → State) (s : State) : State :=
  match s.localRegion rh with
  | some i => if (s.region i).state = .free then s.finishOrder ref stInvalid [] else k i s
  | none => s.finishOrder ref stInvalid []

/-- REGION_ASSIGN (R32, R167, R426). R99 refuses reserved bits of the bytes of REGION_CREATE alone: bits [7:3] of the rights byte are
dropped and the order is carried out (DESIGN CHOICE, log entry 87). -/
def execRegionAssign (o : Order) (rh : Handle) (rights : Byte) (cid : Cid) (gen : Gen) (s : State) : Out :=
  .next (orderRequest o (fun ref => namedRegion ref rh (fun i s =>
    if (s.region i).state ≠ .idle then s.finishOrder ref stBusy []
    else
      match s.activeIdx cid with
      | some e =>
        if (s.compAt e).gen = gen then (s.assign i cid gen rights).finishOrder ref stOk []
        else s.finishOrder ref stInvalid []
      | none => s.finishOrder ref stInvalid [])) s)

/-- DRAIN_COMPLETE (R100, R436). -/
def State.drainNotice (s : State) (i : Nat) : State :=
  let r := s.region i
  let rh := if r.drainRh = 0 then s.regionHandle i else r.drainRh
  s.notice 0x0001 (beBytes 5 rh.toNat ++ beBytes 2 r.lastDrain.1.toNat ++ beBytes 1 r.lastDrain.2.toNat) r.lastDrain.1

/-- REGION_REVOKE (R32, R159, R436). -/
def execRegionRevoke (o : Order) (rh : Handle) (s : State) : Out :=
  .next (orderRequest o (fun ref => namedRegion ref rh (fun i s =>
    match (s.region i).state with
    | .assigned =>
      let n := s.inflight i
      ((s.revoke i).modRegion i fun r => { r with drainRh := rh }).finishOrder ref stOk (beBytes 4 n)
    | .draining => s.finishOrder ref stOk (beBytes 4 (s.inflight i))
    | .idle => (s.finishOrder ref stOk (beBytes 4 0)).drainNotice i
    | _ => s.finishOrder ref stBusy [])) s)

/-- The region belongs to an object whose handoff was accepted; its drain ends with the handoff (R57). -/
def State.inAcceptedHandoff (s : State) (i : Nat) : Bool :=
  s.store.objects.any fun e => e.2.accepting && (s.objectRegions e.1 e.2).contains i

/-- A drained region is IDLE, and the managers hear of it (R32). -/
def State.endDrain (s : State) (i : Nat) : State :=
  (s.modRegion i fun r => { r with state := .idle, cid := 0 }).drainNotice i

/-- REGION_DRAINED: inflight is zero and no directory entry remains (R32, R159). -/
def execRegionDrained (now region : Nat) (s : State) : Out :=
  .next (s.serving fun s => let s := s.advanceTo now
    if (s.region region).state ≠ .draining ∨ s.inAcceptedHandoff region then s
    else
      let s := s.recallRegion region
      if s.inflight region ≠ 0 ∨ s.regionEntries region then s else s.endDrain region)

/-- HANDOFF_TRANSFER_DONE: the regions have drained, and go by way of IDLE to the receiver with full rights (R32, R57 steps 3 and
4). A region that is not IDLE then, because a manager has given it another end, stays as it is. -/
def execHandoffTransferDone (now obj : Nat) (s : State) : Out :=
  .next (s.serving fun s => let s := s.advanceTo now
    let o := s.object obj
    if o.state ≠ 2 ∨ ¬ o.accepting ∨ ¬ o.noticeSent ∨ ¬ s.anchors obj then s
    else
      let mine := s.objectRegions obj o
      let s := mine.foldl (fun s j => if (s.region j).state = .draining then s.recallRegion j else s) s
      if mine.any fun j => decide ((s.region j).state = .draining) && (decide (s.inflight j ≠ 0) || s.regionEntries j) then s
      else
        match s.activeIdx o.recvCid with
        | none => s
        | some e =>
          let g := (s.compAt e).gen
          let s := mine.foldl (fun s j => if (s.region j).state = .draining then s.endDrain j else s) s
          let s := mine.foldl (fun s j => if (s.region j).state = .idle then s.assign j o.recvCid g 7 else s) s
          let o' := { o with state := 1, ownerAid := o.recvAid, ownerCid := o.recvCid, recvAid := 0, recvCid := 0
                             deadline := 0, accepting := false, noticeSent := false }
          ((s.putObject obj o').sendDone obj o' o.ownerAid o.ownerCid).sendDone obj o' o.recvAid o.recvCid)

/-- A release order to a degraded or rebuilding region stops the rebuild (R32). -/
def State.stopRebuild (s : State) (i : Nat) : State :=
  let r := s.region i
  if r.redKind = 0 then s
  else
    let k := r.group.toNat
    let g := s.comps.groups.get {} k
    if g.condition ≠ 2 then s
    else (s.dropCopies [k]).setGroup k { g with condition := 1, spareAid := 0, spareRegion := 0, sparePosition := 0, copying := false }

/-- Starts the release of an IDLE region: the key first, then every cached copy and map entry (R438, R541). -/
def State.startRelease (s : State) (i : Nat) (ref : Option OrderRef) : State :=
  let s := s.destroyKey i
  let s := if (s.region i).cls = clsDeep then s.dropMap (s.region i).chunks else s
  (((s.wipeRegion i).stopRebuild i).modRegion i fun r => { r with state := .releasing, order := ref })

/-- REGION_RELEASE (R32, R438): it completes once the region is FREE. -/
def execRegionRelease (o : Order) (rh : Handle) (s : State) : Out :=
  .next (orderRequest o (fun ref => namedRegion ref rh (fun i s =>
    if (s.region i).state ≠ .idle then s.finishOrder ref stBusy [] else s.startRelease i (some ref))) s)

/-- RELEASE_ZEROING_DONE: every zeroing write of a release is performed (R32, R37, R438). -/
def execReleaseZeroingDone (now region : Nat) (s : State) : Out :=
  .next (s.serving fun s => let s := s.advanceTo now
    let r := s.region region
    if r.state ≠ .releasing then s
    else
      let s := s.giveBack r.cls r.chunks
      let s := s.setRegion region {}
      let s := { s with store := { s.store with released := s.store.released ++ [region] } }
      match r.order with
      | some ref => s.finishOrder ref stOk []
      | none => s)

/-- REGION_RETIER (R32, R36, R140, R141, R539): the copy to chunks of the new class begins. Of a region that is not IDLE and a
placement that R36 or R141 refuses, the state is answered first, BUSY before INVALID: the manual gives no order (DESIGN CHOICE, log
entry 87). -/
def execRegionRetier (o : Order) (rh : Handle) (placement : Byte) (s : State) : Out :=
  .next (orderRequest o (fun ref => namedRegion ref rh (fun i s =>
    let cls := bitsOf placement.toNat 0 2
    if (s.region i).state ≠ .idle then s.finishOrder ref stBusy []
    else if !s.placementOk placement then s.finishOrder ref stInvalid []
    else
      match s.allocate cls (s.region i).chunks.length with
      | none => s.finishOrder ref stNoSpace []
      | some (l, t) =>
        match if cls = clsDeep then t.drawKey else some (0xFFFFFFFF, t) with
        | none => s.finishOrder ref stNoSpace []
        | some (key, t) => t.modRegion i fun r => { r with
            state := .retiering, newCls := cls, newDemand := placement.getLsbD 2, newCoherent := placement.getLsbD 3
            newChunks := l, newKeySlot := key, order := some ref })) s)

/-- The sectors of a region that hold a byte other than zero or a poison bit, from a list of their keys. -/
def State.writtenSectors (s : State) (i : Nat) : List Nat :=
  let bytes := (s.store.mem.filter fun e => decide (storeKey i 0 ≤ e.1) && decide (e.1 < storeKey (i + 1) 0)).map
    fun e => e.1 % 2 ^ 48 / 4096
  let lines := (s.store.poison.filter fun e => decide (lineKey i 0 ≤ e.1) && decide (e.1 < lineKey (i + 1) 0)).map
    fun e => e.1 % 2 ^ 42 / 64
  (bytes ++ lines).eraseDups

/-- The sector's one copy lies in flash: it is there, or still being read into a tier. -/
def Sector.onlyInFlash (x : Sector) : Bool :=
  !x.writeback && match x.state with
    | .flash | .filling _ => true
    | _ => false

/-- A line whose bytes nobody knows any more (R51). -/
def State.loseLine (s : State) (i line : Nat) : State :=
  let (n, s) := s.fresh
  (s.writeBytes i (64 * line) (leBytes 64 (Config.garbled n).toNat)).setPoison i line true

/-- Reads every sector of a region that lies only in flash, as the copy of a retier does; one that cannot be read has its lines
poisoned (R32, R51, R540). -/
def State.liftSectors (s : State) (i : Nat) : State :=
  ((s.store.sectors.filter fun e => decide (regionOfSectorKey e.1 = i) && e.2.onlyInFlash).map fun e => sectorOfKey e.1).foldl
    (fun s k => match s.flashSector i k with
      | some l => s.fillSector i k l
      | none => (List.range 64).foldl (fun s j => s.loseLine i (64 * k + j)) s) s

/-- RETIER_COPY_DONE: the old chunks are freed, the old key too, and the class and mode change (R32, R140, R539). A sector
that holds data lies in flash after a retier into DEEP. -/
def execRetierCopyDone (now region : Nat) (s : State) : Out :=
  .next (s.serving fun s => let s := s.advanceTo now
    let r := s.region region
    if r.state ≠ .retiering then s
    else
      let s := (if r.cls = clsDeep then s.liftSectors region else s).destroyKey region
      let s := if r.cls = clsDeep then s.dropMap r.chunks else s
      let s := s.giveBack r.cls r.chunks
      let (first, s) := s.takeChunkList r.newChunks.length
      let s := { s with store := { s.store with
        sectors := s.store.sectors.drop (sectorKey region 0) (sectorKey (region + 1) 0) } }
      let s := s.modRegion region fun r => { r with
        state := .idle, cls := r.newCls, demand := r.newDemand, coherent := r.newCoherent, chunks := r.newChunks
        chunkList := first, keySlot := r.newKeySlot, newKeySlot := 0xFFFFFFFF, newCls := 0, newDemand := false
        newCoherent := false, newChunks := [], order := none }
      let s := if r.newCls = clsDeep then
          (s.writtenSectors region).foldl (fun s k =>
            ((s.setSector region k { state := .flash }).programSector region k).dropCopy region k) s
        else s
      match r.order with
      | some ref => s.finishOrder ref stOk []
      | none => s)

end Sys2Proof.Machine
end

