-- ==== Sys2Proof/Machine/Rebuild.lean ====
section
/-! DEFINITION. A line that cannot be corrected: its rebuilding from the other members of its group, or its poisoning (R51, R137,
R405, R573, R574). -/
namespace Sys2Proof.Machine

/-! ### Rebuilding a line that cannot be corrected (R51, R574) -/

/-- One line of the member at a position of a group, as its device answers. -/
def State.memberLine (s : State) (g : Group) (u : Asker) (p line : Nat) : State × Got :=
  match g.members[p]? with
  | some m => s.unitRead u g.cid (mkHandle m.aid m.region) (64 * line) 64 (some s.pcpReplica) 0x03
  | none => (s, { data := zeros 64, poison := List.replicate 64 true })

/-- Lines of some positions, and whether any of them waits, or was poisoned or failed. -/
def State.memberLines (s : State) (g : Group) (u : Asker) (line : Nat) (ps : List Nat) : State × Tab (List Byte) × Bool × Bool :=
  ps.foldl (fun (x : State × Tab (List Byte) × Bool × Bool) p =>
    let (s, got) := x.1.memberLine g u p line
    (s, x.2.1.set [] p got.data, x.2.2.1 || got.waits, x.2.2.2 || got.poisoned || decide (got.status ≠ stOk))) (s, [], false, false)

/-- A line computed from the other members of its group (R405): no answer while a read waits, else the line, or none where that
fails. -/
def State.rebuiltLine (s : State) (region line : Nat) : State × Option (Option (List Byte)) :=
  let x := s.region region
  let g := s.groupOf region
  if x.redKind = 0 ∨ x.redCond ≠ 0 ∨ g.kind = 0 then (s, some none)
  else
    match g.positionOf s.aid region with
    | none => (s, some none)
    | some p =>
      let others := (List.range g.k).filter fun j => decide (j ≠ p)
      let ps := if g.kind = 1 then [1 - p] else if p < g.k then others ++ [g.k] else others
      let (s, t, waits, bad) := s.memberLines g (.line region line) line ps
      let v := if g.kind = 1 then t.get [] (1 - p)
        else if p < g.k then ({ g with failed := [p] } : Group).solve g.k p (t.get [] g.k) t
        else others.foldl (fun acc j => xorBytes acc (scaleBytes (parityCoeff (p - g.k) j) (t.get [] j))) (zeros 64)
      (s, if waits then none else some (if bad then none else some v))

/-- A line that cannot be corrected, once it is known whether the rest of its group gives it: rebuilt, with the poison bit that it had
(R137), else poisoned with the bytes received (R51, R573, R574). -/
def State.mendLine (s : State) (region line : Nat) (v : Option (List Byte)) (received : List Byte) (bit : Bool) : State :=
  let s := s.forget (.line region line)
  match v with
  | some l => (s.writeBytes region (64 * line) l).setPoison region line bit
  | none => (s.writeBytes region (64 * line) received).setPoison region line true

/-- The lines of a sector from the rest of its group, one after the other; no answer while one waits. -/
def State.rebuiltLines (s : State) (region : Nat) : List Nat → State × Option (List (Nat × Option (List Byte)))
  | [] => (s, some [])
  | line :: t =>
    match s.rebuiltLine region line with
    | (s, v) =>
      match s.rebuiltLines region t with
      | (s, l) =>
        (s, match v, l with
          | some v, some l => some ((line, v) :: l)
          | _, _ => none)

/-- The lines of a granule that no decoding recovered: nobody knows their bytes. Rebuilt ones keep the poison bits of the granule
(R137). False while the rest of the group is still being read. -/
def State.mendSector (s : State) (region sector : Nat) : State × Bool :=
  let bits := ((s.flashSector region sector).map (·.2)).getD []
  match s.rebuiltLines region ((List.range 64).map (64 * sector + ·)) with
  | (s, none) => (s, false)
  | (s, some l) =>
    (l.foldl (fun s x =>
      let (n, s) := s.fresh
      s.mendLine region x.1 x.2 (leBytes 64 (Config.garbled n).toNat) (nth false bits (x.1 % 64))) s, true)

/-! ### The die a granule lies in (R588, R589) -/

/-- The die that holds a sector's granule, as a health unit. -/
def State.sectorDie (s : State) (region sector : Nat) : Nat :=
  let g := s.granule region sector
  32 * nandChannel g + (Tab.get ({} : FlashEntry) s.store.map g).die

/-- Counts what a flash read took (R588). A granule that needed soft decisions has its block collected next (R589). -/
def State.countFlashRead (s : State) (region sector retries : Nat) (soft bad : Bool) : State :=
  let g := s.granule region sector
  let ch := nandChannel g
  let s := s.bumpBy 6 (s.sectorDie region sector) 0 retries
  let s := if !bad && (soft || decide (retries ≠ 0)) then s.bump 5 ch 0 else s
  let e := s.store.map.get {} g
  if soft && e.valid then
    let k := s.blockAt ch e
    s.setNandBlock k { s.nandBlock k with early := true }
  else s

end Sys2Proof.Machine
end

