-- ==== Sys2Proof/Machine/SearchIndex.lean ====
section
/-! DEFINITION. Vector indexes (11): descriptors and their parts, reads of the search program and the lens engines, the tail,
predicates and scores, and the graph walk. -/
namespace Sys2Proof.Machine

def State.indexAt (s : State) (i : Nat) : Attached := s.indexes.get {} i

def State.setIndex (s : State) (i : Nat) (a : Attached) : State := { s with indexes := s.indexes.set {} i a }

/-! ### Descriptors (R340, R341) -/

def parseIndex (l : List Byte) : IndexDesc :=
  { kind := fieldLe l 0 1, codeType := fieldLe l 1 1, codeBytes := fieldLe l 2 1, metric := fieldLe l 3 1, dims := fieldLe l 4 2
    vecType := fieldLe l 6 1, attrs := bitOf (fieldLe l 7 1) 0, lists := fieldLe l 8 4, window := fieldLe l 12 4
    directory := fieldPtr l 16, nodes := fieldLe l 28 4, graph := fieldPtr l 32, degree := fieldLe l 44 1, rerank := fieldLe l 46 2
    codebook := fieldPtr l 48, centroids := fieldPtr l 64, vectors := fieldPtr l 80, mergeThreshold := fieldLe l 92 4
    tail := fieldPtr l 96, tailCapacity := fieldLe l 108 4, ids := fieldLe l 112 8 }

def IndexDesc.ivf (d : IndexDesc) : Bool := decide (d.kind = 0)

/-- Bytes of an element of a vector. -/
def IndexDesc.width (d : IndexDesc) : Nat := if d.vecType ≤ 2 then 2 else 1

def IndexDesc.elem (d : IndexDesc) : ElemTy := (elemTyOf d.vecType).getD .bf16

/-- The vector stride v (R340). -/
def IndexDesc.stride (d : IndexDesc) : Nat := roundUp (16 + d.dims * d.width) 64

/-- Subquantisers of a code, and centroids of each (R341, R342). -/
def IndexDesc.subs (d : IndexDesc) : Nat := if d.codeType = 0 then d.codeBytes else 2 * d.codeBytes
def IndexDesc.perSub (d : IndexDesc) : Nat := if d.codeType = 0 then 256 else 16

/-- Stride of a graph node (R346). -/
def IndexDesc.nodeStride (d : IndexDesc) : Nat := roundUp (32 + 4 * d.degree) 64

/-- Stride of a tail record (R351). -/
def IndexDesc.slotStride (d : IndexDesc) : Nat := if d.codeBytes ≤ 32 then 64 else 96

/-- Records of a granule (R344). -/
def IndexDesc.perGranule (d : IndexDesc) : Nat := 4096 / (if d.attrs then d.codeBytes + 8 else d.codeBytes)

/-- The shape in which queries and codebook are read. -/
def IndexDesc.shape (d : IndexDesc) : Nat := ((d.metric * 8 + d.vecType) * 2 + d.codeType) * 8192 + d.dims

/-- Every field of the descriptor lies within its values (R340), and dims is a multiple of M (R341). -/
def indexFieldsOk (l : List Byte) : Bool :=
  let d := parseIndex l
  let common :=
    decide (d.metric ≤ 1) && decide (d.dims % 16 = 0) && decide (16 ≤ d.dims) && decide (d.dims ≤ 4096) &&
      decide (1 ≤ d.vecType) && decide (d.vecType ≤ 4) && decide (fieldLe l 7 1 ≤ 1) && decide (d.window ≤ 100000) &&
      decide (d.degree % 8 = 0) && decide (8 ≤ d.degree) && decide (d.degree ≤ 64) && decide (fieldLe l 45 1 = 0) &&
      decide (d.rerank ≤ 2048) && decide (fieldLe l 60 4 = 0) && decide (fieldLe l 76 4 = 0) && decide (fieldLe l 120 8 = 0) &&
      decide (1024 ≤ d.tailCapacity) && decide (d.tailCapacity ≤ 2 ^ 24) && decide (64 ≤ d.mergeThreshold) &&
      decide (d.mergeThreshold ≤ d.tailCapacity / 2) && decide (d.tail.offset = 0)
  let byKind :=
    if d.kind = 0 then
      decide (d.codeType ≤ 1) && [8, 16, 32, 64].contains d.codeBytes && decide (1 ≤ d.lists) && decide (d.lists ≤ 2 ^ 24) &&
        decide (d.nodes = d.lists) && decide (1 ≤ d.ids) && decide (d.ids ≤ 2 ^ 40) && decide (d.dims % d.subs = 0)
    else
      decide (d.kind = 1) && decide (d.codeType = 0) && decide (d.codeBytes = 0) && decide (d.lists = 0) &&
        decide (d.directory.rh = 0) && decide (d.codebook.rh = 0) && decide (d.centroids.rh = 0) && decide (1 ≤ d.nodes) &&
        decide (d.ids = d.nodes)
  common && byKind

/-- A part lies in a region of this device that is assigned to the composition, in one of the classes (R341, R347). -/
def State.partOk (s : State) (cid : Cid) (classes : List Nat) (p : Ptr) : Bool :=
  s.assignedTo p.rh cid && classes.contains (s.region ((s.localRegion p.rh).getD 0)).cls

def anyClass : List Nat := [clsNear, clsFar, clsDeep]
def pinned : List Nat := [clsNear, clsFar]

/-- A directory entry of a list (R343). -/
structure DirList where
  extent : Ptr := ⟨0, 0⟩
  capacity : Nat := 0
  live : Ptr := ⟨0, 0⟩
  nOld : Nat := 0
  nNew : Nat := 0
  segSeq : Nat := 0
  idarr : Ptr := ⟨0, 0⟩
  deriving DecidableEq, Repr

def parseDirList (l : List Byte) : DirList :=
  { extent := fieldPtr l 0, capacity := fieldLe l 12 4, live := fieldPtr l 16, nOld := fieldLe l 28 4, nNew := fieldLe l 32 4
    segSeq := fieldLe l 40 8, idarr := fieldPtr l 48 }

/-- The parts that a descriptor names, apart from those of its lists. -/
def State.partsOk (s : State) (cid : Cid) (d : IndexDesc) : Bool :=
  s.partOk cid pinned d.vectors && s.partOk cid pinned d.tail && s.partOk cid [clsNear] d.graph &&
    (!d.ivf || (s.partOk cid anyClass d.directory && s.partOk cid [clsNear] d.codebook && s.partOk cid [clsNear] d.centroids))

/-- The parts of each list, as its directory entry names them. -/
def State.listPartsOk (s : State) (cid : Cid) (dir : List Byte) (lists : Nat) : Bool :=
  (List.range lists).all fun i =>
    let e := parseDirList (sliceBytes dir (64 * i) 64)
    s.partOk cid [clsDeep] e.extent && s.partOk cid pinned e.live && s.partOk cid pinned e.idarr

/-! ### Reads of the search program and the lens engines -/

/-- Why a computation over the index cannot go on now. -/
inductive Stop where
  /-- A read has to be made, or waits. -/
  | wait (cid : Cid) (rh : Handle) (off n : Nat) (pcp : Option Nat)
  /-- The lines of a granule that agents hold have to be recalled (R115). -/
  | recall (region off : Nat)
  /-- A granule's sector is being filled (R366). -/
  | fill
  /-- A read failed with a status (R643). -/
  | fail (status : Byte)
  deriving DecidableEq, Repr

/-- A read of a part of the index that the asker has made: bytes, and whether any of them is poisoned. -/
def State.peek (s : State) (u : Asker) (cid : Cid) (p : Ptr) (k n : Nat) (pcp : Option Nat := none) : Except Stop (List Byte × Bool) :=
  let g := s.unitPeek u cid p.rh (p.offset.toNat + k) n
  if g.waits then .error (.wait cid p.rh (p.offset.toNat + k) n pcp)
  else if g.status ≠ stOk then .error (.fail g.status)
  else .ok (g.data, g.poisoned)

/-- A line of the granule at an offset is held by an agent that has to give it back first. -/
def State.snooping (s : State) (region off : Nat) : Bool :=
  (s.region region).coherent && (List.range 64).any fun j => (s.needHome false s.aid (dirRegion region none) (off / 64 + j)).2.isSome

/-- Asks for what a computation stopped for; whether it may go on. -/
def State.kick (s : State) (u : Asker) : Stop → State × Bool
  | .wait cid rh off n pcp =>
    match s.unitRead u cid rh off n pcp with
    | (s, g) => (s, !g.waits)
  | .recall region off =>
    let s := (List.range 64).foldl (fun s j => (s.needHome false s.aid (dirRegion region none) (off / 64 + j)).1) s
    (s, !s.snooping region off)
  | .fill | .fail _ => (s, false)

/-- Runs a computation as far as the reads that it needs are answered: each read that it misses is asked for, and where the answer is
there at once, it goes on. `fuel` bounds the reads of one event; the next event goes on from there. -/
def State.reading {α : Type} (s : State) (u : Asker) (body : State → Except Stop α) : Nat → State × Except Stop α
  | 0 => (s, body s)
  | fuel + 1 =>
    match body s with
    | .error e =>
      match s.kick u e with
      | (s, true) => s.reading u body fuel
      | (s, false) => (s, .error e)
    | x => (s, x)

/-- Reads that one event of the search program makes at most. -/
abbrev eventReads : Nat := 65536

/-- A granule of an extent as a lens engine reads it: straight from flash, after a fill, from the source of a move, zeros where
nothing is stored, and from the copy that is kept while a program is not confirmed; it allocates nothing and counts no hit (R38, R366).
Its 4,096 bytes and the poison of its lines. -/
def State.lensGranule (s : State) (u : Asker) (cid : Cid) (p : Ptr) (g : Nat) : Except Stop (List Byte × List Bool) :=
  let i := (s.localRegion p.rh).getD 0
  let off := p.offset.toNat + 4096 * g
  if !s.assignedTo p.rh cid then (s.peek u cid p (4096 * g) 4096).map fun _ => (zeros 4096, List.replicate 64 false)
  else
    match s.refusal (s.unitHdr cid) (s.unitAccess .read cid p.rh off 4096) rightRead with
    | some st => .error (.fail st)
    | none =>
      let x := s.sectorAt i (off / 4096)
      if s.snooping i off then .error (.recall i off)
      else
        match x.state, x.writeback with
        | .filling _, _ => .error .fill
        | .flash, false => .ok ((s.flashSector i (off / 4096)).getD (zeros 4096, List.replicate 64 true))
        | _, _ => .ok (readBytes s i off 4096, (List.range 64).map fun j => s.poisoned i (off / 64 + j))

/-- Bytes of a granule that has been read, and whether a line of them is poisoned. -/
def granuleBytes (l : List Byte × List Bool) (k n : Nat) : List Byte × Bool :=
  (sliceBytes l.1 k n, (List.range (linesOf k n)).any fun j => nth false l.2 (k / 64 + j))

/-! ### Predicates (R362) -/

/-- The terms of a predicate block lie within their values. -/
def predOk (l : List Byte) : Bool :=
  decide (fieldLe l 0 1 ≤ 8) && (List.range (fieldLe l 0 1)).all fun i =>
    decide (fieldLe l (64 + 16 * i) 1 ≤ 7) && decide (fieldLe l (65 + 16 * i) 1 ≤ 63) && decide (1 ≤ fieldLe l (66 + 16 * i) 1) &&
      decide (fieldLe l (65 + 16 * i) 1 + fieldLe l (66 + 16 * i) 1 ≤ 64)

/-- Result of term i on an attribute word. -/
def predTerm (l : List Byte) (attr i : Nat) : Bool :=
  let f := attr / 2 ^ fieldLe l (65 + 16 * i) 1 % 2 ^ fieldLe l (66 + 16 * i) 1
  let k := fieldLe l (72 + 16 * i) 8
  match fieldLe l (64 + 16 * i) 1 with
  | 0 => decide (f = k)
  | 1 => decide (f ≠ k)
  | 2 => decide (f < k)
  | 3 => decide (f ≤ k)
  | 4 => decide (k < f)
  | 5 => decide (k ≤ f)
  | 6 => decide (f &&& k ≠ 0)
  | _ => decide (f &&& k = k)

/-- A record with this attribute word passes. -/
def predPasses (pred : Option (List Byte)) (attr : Nat) : Bool :=
  match pred with
  | none => true
  | some l =>
    let t := ofBits ((List.range (fieldLe l 0 1)).map (predTerm l attr))
    bitOf (fieldLe l 8 32) t

/-! ### Scores (R367, R368) -/

/-- Exact sum of products of the elements of two vectors. -/
def IndexDesc.dot (d : IndexDesc) (a b : List Byte) : AccReg :=
  (List.range d.dims).foldl (fun acc j =>
    acc.addProduct 0 (decodeElem d.elem (fieldLe a (d.width * j) d.width), decodeElem d.elem (fieldLe b (d.width * j) d.width))) {}

/-- The exact score: squared distance, or negated inner product, rounded once to FP32. -/
def IndexDesc.exactScore (d : IndexDesc) (q x : List Byte) : W32 :=
  let qx := d.dot q x
  let sum : AccReg :=
    if d.metric = 0 then
      let qq := d.dot q q
      let xx := d.dot x x
      { value := qq.value - 2 * qx.value + xx.value, nan := qq.nan || qx.nan || xx.nan
        posInf := qq.posInf || xx.posInf || qx.negInf, negInf := qq.negInf || xx.negInf || qx.posInf }
    else { value := -qx.value, nan := qx.nan, posInf := qx.negInf, negInf := qx.posInf }
  BitVec.ofNat 32 (sum.rounded .fp32 .nearestEven)

/-- Centroid number that a code holds for subquantiser j (R342). -/
def IndexDesc.codeAt (d : IndexDesc) (code : List Byte) (j : Nat) : Nat :=
  if d.codeType = 0 then (nth 0 code j).toNat else (nth 0 code (j / 2)).toNat / 16 ^ (j % 2) % 16

/-- Bytes of a subquantiser's part of a vector, and of its centroid c in the codebook (R342). -/
def IndexDesc.partBytes (d : IndexDesc) : Nat := d.dims / d.subs * d.width
def IndexDesc.queryPart (d : IndexDesc) (q : List Byte) (j : Nat) : List Byte := sliceBytes q (j * d.partBytes) d.partBytes
def IndexDesc.centroid (d : IndexDesc) (codebook : List Byte) (j c : Nat) : List Byte :=
  sliceBytes codebook ((j * d.perSub + c) * d.partBytes) d.partBytes

/-- The approximate score: the sum of the query's table entries, mapped by its scale and bias and rounded once (R367). -/
def IndexDesc.approxScore (d : IndexDesc) (q codebook code : List Byte) : W32 :=
  let sum := (List.range d.subs).foldl (fun n j => n + (Config.searchTable q codebook d.shape (d.queryPart q j)
    (d.centroid codebook j (d.codeAt code j))).toNat) 0
  let (scale, bias) := Config.searchMap q codebook d.shape
  BitVec.ofNat 32 (encodeFloat .fp32 .nearestEven false
    (sumNums .nearestEven [mulNums (decodeElem .fp32 scale.toNat) (intNum sum), decodeElem .fp32 bias.toNat]))

/-- Ascending order of scores; a NaN comes last (log entry 57). -/
def scoreKey (w : W32) : Nat :=
  let m := w.toNat % 2 ^ 31
  if 0x7F800000 < m then 2 ^ 33 else if w.getLsbD 31 then 2 ^ 31 - m else 2 ^ 31 + m

/-- Order of a heap: score, then list, then position (R367). -/
def Candidate.before (a b : Candidate) : Bool :=
  let ka := scoreKey a.score
  let kb := scoreKey b.score
  decide (ka < kb) || (decide (ka = kb) && (decide (a.list < b.list) || (decide (a.list = b.list) && decide (a.position < b.position))))

/-- Inserts into an ascending list. -/
def insertBy {α : Type} (lt : α → α → Bool) (x : α) : List α → List α
  | [] => [x]
  | y :: t => if lt x y then x :: y :: t else y :: insertBy lt x t

/-- Keeps the best h candidates. -/
def heapAdd (h : Nat) (c : Candidate) (l : List Candidate) : List Candidate := (insertBy Candidate.before c l).take h

/-! ### The tail (R350, R351) -/

structure TailHeader where
  merged : Nat := 0
  base : Nat := 0
  merging : Nat := 0
  deriving DecidableEq, Repr

def parseTailHeader (l : List Byte) : TailHeader :=
  { merged := fieldLe l 8 8, base := fieldLe l 16 8, merging := fieldLe l 32 8 }

structure TailRec where
  seq : Nat := 0
  kind : Nat := 0
  list : Nat := 0
  id : Nat := 0
  attr : Nat := 0
  code : List Byte := []
  poisoned : Bool := false
  deriving DecidableEq, Repr

/-- Where the record with a seq lies in the tail region. -/
def IndexDesc.slotAt (d : IndexDesc) (seq : Nat) : Nat := 4096 + (seq - 1) % d.tailCapacity * d.slotStride

/-- A slot as the record with a seq; a slot that holds another seq counts as void. -/
def parseTail (d : IndexDesc) (seq : Nat) (l : List Byte) (poisoned : Bool) : TailRec :=
  { seq := seq, kind := if fieldLe l 0 8 = seq then fieldLe l 8 1 else 0, list := fieldLe l 12 4, id := fieldLe l 16 5
    attr := fieldLe l 24 8, code := sliceBytes l 32 d.codeBytes, poisoned := poisoned }

/-- The records with seq in (lo, hi]. -/
def State.tailRecords (s : State) (u : Asker) (a : Attached) (lo hi : Nat) : Except Stop (List TailRec) :=
  (List.range (hi - lo)).mapM fun i =>
    match s.peek u a.cid a.desc.tail (a.desc.slotAt (lo + 1 + i)) a.desc.slotStride with
    | .ok (l, p) => .ok (parseTail a.desc (lo + 1 + i) l p)
    | .error e => .error e

/-! ### Graph nodes and the walk (R346, R371) -/

structure Node where
  nstate : Nat := 0
  birth : Nat := 0
  death : Nat := 0
  attr : Nat := 0
  neighbours : List Nat := []
  poisoned : Bool := false
  deriving DecidableEq, Repr

def parseNode (d : IndexDesc) (l : List Byte) (poisoned : Bool) : Node :=
  { nstate := fieldLe l 0 1, birth := fieldLe l 8 8, death := fieldLe l 16 8, attr := fieldLe l 24 8
    neighbours := (List.range (min (fieldLe l 1 1) d.degree)).map fun j => fieldLe l (32 + 4 * j) 4, poisoned := poisoned }

def State.graphNode (s : State) (u : Asker) (a : Attached) (x : Nat) : Except Stop Node :=
  match s.peek u a.cid a.desc.graph (a.desc.nodeStride * x) a.desc.nodeStride with
  | .ok (l, p) => .ok (parseNode a.desc l p)
  | .error e => .error e

/-- The vector of an id in the vector store, or none where it is poisoned. -/
def State.storeVector (s : State) (u : Asker) (a : Attached) (x : Nat) : Except Stop (Option (List Byte)) :=
  match s.peek u a.cid a.desc.vectors (a.desc.stride * x + 16) (a.desc.dims * a.desc.width) with
  | .ok (l, p) => .ok (if p then none else some l)
  | .error e => .error e

/-- The vector of a graph node: a centroid of an IVF index (DEDUCED; log entry 56), a vector of the store of a GRAPH index. -/
def State.nodeVector (s : State) (u : Asker) (a : Attached) (x : Nat) : Except Stop (Option (List Byte)) :=
  if a.desc.ivf then
    match s.peek u a.cid a.desc.centroids (a.desc.stride * x) (a.desc.dims * a.desc.width) with
    | .ok (l, p) => .ok (if p then none else some l)
    | .error e => .error e
  else s.storeVector u a x

/-- How far a walk has come: the candidate list in ascending order, each with its expansion mark, and the nodes reached. -/
structure Walking where
  list : List (W32 × Nat × Bool) := []
  seen : List Nat := []
  poisoned : Bool := false
  deriving DecidableEq, Repr

/-- Scores a node and puts it into the candidate list of `width` entries. -/
def State.walkAdd (s : State) (u : Asker) (a : Attached) (q : List Byte) (width : Nat) (w : Walking) (x : Nat) : Except Stop Walking :=
  if w.seen.contains x ∨ a.desc.nodes ≤ x then .ok w
  else
    match s.nodeVector u a x with
    | .error e => .error e
    | .ok none => .ok { w with seen := x :: w.seen, poisoned := true }
    | .ok (some v) =>
      let lt := fun (m n : W32 × Nat × Bool) =>
        decide (scoreKey m.1 < scoreKey n.1) || (decide (scoreKey m.1 = scoreKey n.1) && decide (m.2.1 < n.2.1))
      .ok { w with seen := x :: w.seen, list := (insertBy lt (a.desc.exactScore q v, x, false) w.list).take width }

/-- Best-first walk: the nearest node of the list that is not yet expanded is expanded, until none is left. -/
def State.walkOn (s : State) (u : Asker) (a : Attached) (q : List Byte) (width : Nat) : Nat → Walking → Except Stop Walking
  | 0, w => .ok w
  | fuel + 1, w =>
    match w.list.find? fun e => !e.2.2 with
    | none => .ok w
    | some e =>
      let w := { w with list := w.list.map fun f => if f.2.1 = e.2.1 then (f.1, f.2.1, true) else f }
      match s.graphNode u a e.2.1 with
      | .error st => .error st
      | .ok n =>
        if n.poisoned then s.walkOn u a q width fuel { w with poisoned := true }
        else
          match n.neighbours.foldlM (s.walkAdd u a q width) w with
          | .error st => .error st
          | .ok w => s.walkOn u a q width fuel w

/-- The walk from node 0 with a candidate list of `width` entries. -/
def State.graphWalk (s : State) (u : Asker) (a : Attached) (q : List Byte) (width : Nat) : Except Stop Walking :=
  match s.walkAdd u a q width {} 0 with
  | .ok w => s.walkOn u a q width a.desc.nodes w
  | .error e => .error e

end Sys2Proof.Machine
end

