-- ==== Sys2Proof/Machine/Search.lean ====
section
/-! DEFINITION. Vector search (11): attachment, the merge, SEARCH with its batches, visits and results. -/
namespace Sys2Proof.Machine

def State.modIndex (s : State) (i : Nat) (f : Attached → Attached) : State := s.setIndex i (f (s.indexAt i))

/-! ### Attachment (R347 to R349, R359) -/

/-- The search program (R348). Its code lies in ROM and is not given; neither is what its contexts hold (log entry 54). -/
def searchProgram : Program :=
  { codeBytes := 12288, threads := 256, slots := 4, accs := 2, scratchBytes := 131072, queues := 4, search := true }

/-- Makes the reserved search program resident and active on the clusters, which then serve the index. -/
def State.placeSearch (s : State) (cs : List Nat) (p : Nat) : State :=
  cs.foldl (fun s c =>
    let x := s.program c p
    let s := (coresOf c).foldl (fun s k => s.clearShare k p x) s
    let s := s.setProgram c p { x with resident := true, loading := false }
    let s := s.activate c p
    s.setCluster c { s.cluster c with search := true }) s

/-- The tail header. -/
def State.tailHeader (s : State) (u : Asker) (a : Attached) : Except Stop TailHeader :=
  (s.peek u a.cid a.desc.tail 0 40).map fun r => parseTailHeader r.1

/-- The part at which an interrupted merge goes on, and its merge point (R359). -/
def resumePhase (t : TailHeader) : Nat × Nat :=
  if t.merging = 0 then (0, 0)
  else if t.merged < t.merging then (1, t.merging)
  else if t.base < t.merging then (4, t.merging)
  else (6, t.merging)

/-- MERGE_RESUME (R359), once the tail header is read. -/
def State.wakeMerge (s : State) (i : Nat) : State :=
  let a := s.indexAt i
  if !a.used || !a.resume then s
  else
    match s.reading (.merge i) (fun s => s.tailHeader (.merge i) a) eventReads with
    | (s, .ok t) =>
      let (p, m) := resumePhase t
      (s.forget (.merge i)).modIndex i fun a => { a with resume := false, mergePhase := p, mergePoint := m, grown := [] }
    | (s, .error _) => s

/-- An interrupted merge is to be resumed (R359). -/
def State.resumeMerge (s : State) (i : Nat) : State :=
  if (s.indexAt i).used then
    ((s.forget (.merge i)).modIndex i fun a => { a with resume := true, mergePhase := 0, mergePoint := 0, grown := [] }).wakeMerge i
  else s

/-- Resumes the merges of a composition's indexes, after a ROLLBACK or an ECLIPSE. -/
def State.resumeMerges (s : State) (cid : Cid) : State :=
  (List.range 16).foldl (fun s i => if (s.indexAt i).used ∧ (s.indexAt i).cid = cid then s.resumeMerge i else s) s

/-- Lowest index slot of the 16 that is not in use (R347). -/
def State.freeAttach (s : State) : Option Nat := (List.range 16).find? fun i => !(s.indexAt i).used

/-- SEARCH_ATTACH (R341, R347, R348, R349). -/
def State.doAttach (s : State) (ref : OrderRef) (mask : W64) (frameCid : Cid) (desc : Ptr) (p : Nat) : State :=
  let hold := fun (s : State) => s.holdArrival { what := .attach mask desc p, h := ref.h, ref := some ref }
  let ends := fun (s : State) (st : Byte) => (s.forget ref.asker).finishOrder ref st []
  s.onProgram ref mask p fun cid s =>
    let cs := clustersOf mask
    if cid ≠ frameCid ∨ cs.any fun c => (s.program c p).used then ends s stInvalid
    else
      match s.freeAttach with
      | none => ends s stInvalid
      | some i =>
        match s.unitRead ref.asker cid desc.rh desc.offset.toNat 128 with
        | (s, g) =>
          if g.waits then hold s
          else if g.status ≠ stOk then ends s g.status
          else
            let d := parseIndex g.data
            if !indexFieldsOk g.data || !s.partsOk cid d then ends s stInvalid
            else
              match if d.ivf then s.unitRead ref.asker cid d.directory.rh d.directory.offset.toNat (64 * d.lists)
                else (s, ({} : Got)) with
              | (s, l) =>
                if l.waits then hold s
                else if d.ivf && decide (l.status ≠ stOk) then ends s l.status
                else if d.ivf && !s.listPartsOk cid l.data d.lists then ends s stInvalid
                else
                  match s.reserveProgram cs p searchProgram with
                  | (s, st) =>
                    if st ≠ stOk then ends s st
                    else
                      let s := (s.forget ref.asker).placeSearch cs p
                      let s := s.setIndex i { used := true, ptr := desc, desc := d, cid := cid, mask := mask, program := p }
                      (s.resumeMerge i).finishOrder ref stOk []

/-- Where a reset or an ECLIPSE has halted the search program of an index, its threads start again before the next SEARCH (R349,
R483). -/
def State.restartSearch (s : State) (i : Nat) : State :=
  let a := s.indexAt i
  let halted := (coresOfMask a.mask).any fun k => (s.core k).threads.any fun e =>
    decide (e.1 / 2048 = a.program) && decide (e.2.state = .halted)
  if a.used && halted then s.startProgram a.mask a.program [] else s

/-- The cluster serves another attached index. -/
def State.servesOther (s : State) (i c : Nat) : Bool :=
  s.indexes.any fun e => decide (e.1 ≠ i) && e.2.used && e.2.mask.getLsbD c

/-- The clusters of an index serve it no more. -/
def State.unserve (s : State) (i : Nat) : State :=
  (clustersOf (s.indexAt i).mask).foldl (fun s c =>
    if s.servesOther i c then s else s.setCluster c { s.cluster c with search := false }) s

/-- The response of a SEARCH (R88). -/
def State.answerSearch (s : State) (q : SearchReq) (status : Byte) (snap done : Nat) : State :=
  s.respond q.h 0x3A status (beBytes 8 snap ++ beBytes 4 done ++ zeros 4)

/-- A step of the merge is in progress: some of what it does is done, and some is not (R357). -/
def Attached.inStep (a : Attached) : Bool := decide (a.mergePhase = 3) || decide (a.mergePhase = 5) || decide (a.mergePhase = 7)

/-- What the search program has read for an index is dropped. -/
def State.forgetIndex (s : State) (i : Nat) : State :=
  s.forgetIf fun u => decide (u = .merge i) || decide (u = .batch i) || decide (u = .sweep i) || decide (u = .results i)

/-- A pending detachment completes once every accepted SEARCH has completed and any merge step in progress has reached its end;
frames left at ingress then find no attached index (R349, R360). -/
def State.settleDetach (s : State) (i : Nat) : State :=
  let a := s.indexAt i
  match a.detach with
  | none => s
  | some ref =>
    if !a.waiting.isEmpty || !a.batches.isEmpty || a.inStep || s.unitBusy (engineReq a.mergeReq) then s
    else
      let s := a.ingress.foldl (fun s q => (s.answerSearch q stInvalid 0 0).takeFromIngress q.h) s
      let s := (s.unserve i).forgetIndex i
      let s := s.setIndex i {}
      s.beginUnload a.mask a.program ref

/-- The attached index with a descriptor pointer. -/
def State.attachedAs (s : State) (cid : Cid) (p : Ptr) : Option Nat :=
  (List.range 16).find? fun i => (s.indexAt i).used && decide ((s.indexAt i).ptr = p) && decide ((s.indexAt i).cid = cid)

/-- SEARCH_DETACH (R347, R349). A second one for the same attachment is answered BUSY (log entry 55). -/
def execSearchDetach (o : Order) (desc : Ptr) (s : State) : Out :=
  .next (orderRequest o (fun ref s =>
    match s.attachedAs o.hdr.cid desc with
    | none => s.finishOrder ref stInvalid []
    | some i =>
      if (s.indexAt i).detach.isSome then s.finishOrder ref stBusy []
      else (s.modIndex i fun a => { a with detach := some ref }).settleDetach i) s)

/-- Detaches every index of a composition (R349), or every index on some clusters. -/
def State.detachAll (s : State) (p : Attached → Bool) : State :=
  (List.range 16).foldl (fun s i =>
    let a := s.indexAt i
    if a.used && p a then
      let s := match a.detach with
        | some ref => s.finishOrder ref stOk []
        | none => s
      ((s.unserve i).forgetIndex i).setIndex i {}
    else s) s

/-- A SEARCH to this index whose read of the predicate waits. -/
def State.heldSearch (s : State) (i : Nat) (a : Arrival) : Bool :=
  match a.what with
  | .search index .. => decide (s.attachedAs a.h.cid index = some i)
  | _ => false

/-- Held SEARCHes of an index complete with ABORTED. -/
def State.abortHeldSearches (s : State) (i : Nat) : State :=
  let gone := s.reqs.arrivals.filter (s.heldSearch i)
  let s := s.setArrivals (s.reqs.arrivals.filter fun a => !s.heldSearch i a)
  gone.foldl (fun s a => (s.forget (.frame a.h.src a.h.tag)).respond a.h 0x3A stAborted (zeros 16)) s

/-- The SEARCHes in service of the indexes that `p` picks complete with ABORTED, with `all` the waiting ones too, and their
merges stop where they are (R363, R483). -/
def State.abortSearches (s : State) (all : Bool) (p : Attached → Bool) : State :=
  (List.range 16).foldl (fun s i =>
    let a := s.indexAt i
    if a.used && p a then
      let s := (if all then s.abortHeldSearches i else s).forgetIndex i
      let s := s.setIndex i { a with
        waiting := if all then [] else a.waiting, ingress := if all then [] else a.ingress, batches := []
        mergePhase := 0, mergePoint := 0, grown := [], resume := false }
      let s := a.batches.foldl (fun s b => b.reqs.foldl (fun s q => s.answerSearch q stAborted 0 0) s) s
      let s := (if all then a.waiting ++ a.ingress else []).foldl
        (fun s q => (s.answerSearch q stAborted 0 0).takeFromIngress q.h) s
      s.settleDetach i
    else s) s

/-! ### The merge (R356 to R358) -/

/-- Writes that a part of the merge makes, in order: pointer, offset past it, bytes. -/
abbrev Plan := List (Ptr × Nat × List Byte)

/-- Bytes of a part of the index as the writes planned so far leave them. -/
def State.partBytes (s : State) (u : Asker) (a : Attached) (w : Plan) (p : Ptr) (k n : Nat) : Except Stop (List Byte) :=
  let at_ := p.offset.toNat + k
  (s.peek u a.cid p k n).map fun r => w.foldl (fun l e =>
    let from_ := e.1.offset.toNat + e.2.1
    if e.1.rh = p.rh then
      l.zipIdx.map fun x => if from_ ≤ at_ + x.2 ∧ at_ + x.2 < from_ + e.2.2.length then nth 0 e.2.2 (at_ + x.2 - from_) else x.1
    else l) r.1

def State.dirList (s : State) (u : Asker) (a : Attached) (l : Nat) : Except Stop DirList :=
  (s.peek u a.cid a.desc.directory (64 * l) 64).map fun r => parseDirList r.1

/-- Inserts of a window that no later tombstone of it names (R357 step 1). -/
def keptInserts (l : List TailRec) : List TailRec :=
  l.filter fun x => decide (x.kind = 1) && !l.any fun y => decide (y.kind = 2) && decide (y.id = x.id) && decide (x.seq < y.seq)

/-- Position at which the merge at point M extends a list: where an earlier run of it began, or n_new (R359). -/
def DirList.start (e : DirList) (m : Nat) : Nat := if e.segSeq = m then e.nOld else e.nNew

/-- The first kept insert whose list has no free capacity (R358). -/
def State.overfull (s : State) (u : Asker) (a : Attached) (m : Nat) : List TailRec → Tab Nat → Except Stop (Option TailRec)
  | [], _ => .ok none
  | x :: t, used =>
    match s.dirList u a x.list with
    | .error e => .error e
    | .ok e =>
      let n := used.get 0 x.list
      if e.capacity ≤ e.start m + n then .ok (some x) else s.overfull u a m t (used.set 0 x.list (n + 1))

/-- The merge point that R358 leaves, from a window's records; none where the merge is abandoned, with the insert that stops
it. -/
def State.mergePoint (s : State) (u : Asker) (a : Attached) (base : Nat) (l : List TailRec) : Nat → Nat → Except Stop (Nat ⊕ TailRec)
  | 0, m => .ok (.inl m)
  | fuel + 1, m =>
    let window := l.filter fun x => decide (x.seq ≤ m)
    match s.overfull u a m (keptInserts window) [] with
    | .error e => .error e
    | .ok none => .ok (.inl m)
    | .ok (some x) => if x.seq - 1 ≤ base then .ok (.inr x) else s.mergePoint u a base l fuel (x.seq - 1)

/-- Appends one insert to its list: code, attribute word, id, live bit and vector-store header (R344, R345, R357 step 1). -/
def State.appendInsert (s : State) (u : Asker) (a : Attached) (e : DirList) (w : Plan) (x : TailRec) (pos : Nat) : Except Stop Plan := do
  let d := a.desc
  let n := d.perGranule
  let g := pos / n * 4096
  let live ← s.partBytes u a w e.live (pos / 8) 1
  .ok (w ++ [(e.extent, g + pos % n * d.codeBytes, x.code)] ++
    (if d.attrs then [(e.extent, g + n * d.codeBytes + pos % n * 8, leBytes 8 x.attr)] else []) ++
    [(e.idarr, 8 * pos, leBytes 8 x.id), (e.live, pos / 8, [nth 0 live 0 ||| BitVec.ofNat 8 (2 ^ (pos % 8))]),
      (d.vectors, d.stride * x.id, leBytes 4 x.list ++ leBytes 4 pos ++ [2] ++ zeros 7)])

/-- Appends the inserts of a window, and answers the lists that grow with their former and new counts. -/
def State.appendAll (s : State) (u : Asker) (a : Attached) (m : Nat) (w : Plan) (l : List TailRec) :
    Except Stop (Plan × List (Nat × Nat × Nat)) := do
  let r ← l.foldlM (fun (x : Plan × Tab Nat) t => do
    let e ← s.dirList u a t.list
    let n := x.2.get 0 t.list
    let w ← s.appendInsert u a e x.1 t (e.start m + n)
    .ok (w, x.2.set 0 t.list (n + 1))) (w, [])
  let grown ← r.2.mapM fun e => do
    let d ← s.dirList u a e.1
    .ok (e.1, d.start m, d.start m + e.2)
  .ok (r.1, grown)

/-- Neighbours and count of a node as bytes, written over the node's own. -/
def Attached.setNeighbours (a : Attached) (x : Nat) (l : List Nat) : Plan :=
  let l := l.take a.desc.degree
  let k := a.desc.nodeStride * x
  [(a.desc.graph, k + 1, leBytes 1 l.length), (a.desc.graph, k + 32, l.flatMap fun n => leBytes 4 n)]

/-- Makes an insert a live node and links it: which edges it gets is left open (R357 step 1; log entry 58). -/
def Attached.insertNode (a : Attached) (x : TailRec) : Plan :=
  let k := a.desc.nodeStride * x.id
  if a.desc.nodes ≤ x.id then []
  else
    [(a.desc.graph, k + 8, leBytes 8 x.seq ++ leBytes 8 0 ++ leBytes 8 x.attr), (a.desc.graph, k, [1]),
      (a.desc.vectors, a.desc.stride * x.id, leBytes 8 0 ++ [2] ++ zeros 7)] ++
    (Config.graphLinks x.id x.seq).flatMap fun e =>
      if a.desc.nodes ≤ e.1 then [] else a.setNeighbours e.1 (e.2.filter fun n => decide (n < a.desc.nodes))

/-- Every query with a snapshot that `p` picks has completed. -/
def Attached.noQuery (a : Attached) (p : Batch → Bool) : Bool := !a.batches.any p

/-- What a part of a merge does: its writes, the merge point that it leaves, the lists that it extended, and the insert that stops the
merge (R358). -/
structure MergeDo where
  plan : Plan := []
  point : Nat := 0
  grown : List (Nat × Nat × Nat) := []
  full : Option TailRec := none
  deriving DecidableEq, Repr

/-- Step 1 up to point `top`, shortened where a list is full: merging is set and the inserts go to the index. -/
def State.planInserts (s : State) (u : Asker) (a : Attached) (top : Nat) : Except Stop MergeDo := do
  let head ← s.tailHeader u a
  let l ← s.tailRecords u a head.base top
  let r ← if a.desc.ivf then s.mergePoint u a head.base l (top - head.base + 1) top else .ok (.inl top)
  match r with
  | .inr x => .ok { plan := if head.merging = 0 then [] else [(a.desc.tail, 32, zeros 8)], full := some x }
  | .inl m =>
    let kept := keptInserts (l.filter fun x => decide (x.seq ≤ m))
    let first : Plan := [(a.desc.tail, 32, leBytes 8 m)]
    if a.desc.ivf then
      let (w, grown) ← s.appendAll u a m first kept
      .ok { plan := w, point := m, grown := grown }
    else .ok { plan := first ++ kept.flatMap a.insertNode, point := m }

/-- INDEX_LIST_FULL (R358). -/
def State.indexListFull (s : State) (a : Attached) (x : TailRec) : State :=
  s.notice 0x0060 (beBytes 5 a.ptr.rh.toNat ++ zeros 1 ++ beBytes 6 a.ptr.offset.toNat ++ beBytes 4 x.list ++ beBytes 8 x.seq) a.cid

/-- Step 2: the directory entries of the lists that grew. -/
def Attached.planDirectory (a : Attached) : Plan :=
  a.grown.map fun e =>
    (a.desc.directory, 64 * e.1 + 28, leBytes 4 e.2.1 ++ leBytes 4 e.2.2 ++ leBytes 4 0 ++ leBytes 8 a.mergePoint)

/-- Step 4: what one tombstone does to the index. -/
def State.applyTombstone (s : State) (u : Asker) (a : Attached) (w : Plan) (x : TailRec) : Except Stop Plan := do
  if a.desc.ids ≤ x.id then .ok w
  else if a.desc.ivf then
    let rec_ ← s.partBytes u a w a.desc.vectors (a.desc.stride * x.id) 16
    if fieldLe rec_ 8 1 ≠ 2 ∨ a.desc.lists ≤ fieldLe rec_ 0 4 then .ok w
    else
      let e ← s.dirList u a (fieldLe rec_ 0 4)
      let pos := fieldLe rec_ 4 4
      let b ← s.partBytes u a w e.live (pos / 8) 1
      .ok (w ++ [(e.live, pos / 8, [nth 0 b 0 &&& ~~~(BitVec.ofNat 8 (2 ^ (pos % 8)))])])
  else
    let b ← s.partBytes u a w a.desc.graph (a.desc.nodeStride * x.id) 1
    .ok (if fieldLe b 0 1 = 1 then w ++ [(a.desc.graph, a.desc.nodeStride * x.id + 16, leBytes 8 x.seq)] else w)

/-- A node is deleted at or below the merge point. -/
def Node.gone (n : Node) (m : Nat) : Bool := decide (n.nstate = 1) && decide (n.death ≠ 0) && decide (n.death ≤ m)

/-- The edges of a node after step 6: each edge to a deleted node gives way to edges to that node's live neighbours, nearest
first, up to degree. -/
def State.repairedEdges (s : State) (u : Asker) (a : Attached) (m x : Nat) (n : Node) : Except Stop (List Nat) := do
  let ends ← n.neighbours.mapM fun y => s.graphNode u a y
  let kept := ((n.neighbours.zip ends).filter fun e => !e.2.gone m).map (·.1)
  let next := ((ends.filter fun e => e.gone m).flatMap (·.neighbours)).eraseDups
  let own ← s.peek u a.cid a.desc.vectors (a.desc.stride * x + 16) (a.desc.dims * a.desc.width)
  let near ← next.foldlM (fun (l : List (Nat × Nat)) z => do
    let e ← s.graphNode u a z
    let v ← s.peek u a.cid a.desc.vectors (a.desc.stride * z + 16) (a.desc.dims * a.desc.width)
    .ok (if z = x ∨ e.nstate ≠ 1 ∨ e.gone m ∨ kept.contains z then l
      else insertBy (fun (p q : Nat × Nat) => decide (p.1 < q.1) || (decide (p.1 = q.1) && decide (p.2 < q.2)))
        (scoreKey (a.desc.exactScore own.1 v.1), z) l)) []
  .ok ((kept ++ near.map (·.2)).take a.desc.degree)

/-- Step 6 of a GRAPH index: edges are repaired, then deleted nodes but node 0 are freed. -/
def State.planRepair (s : State) (u : Asker) (a : Attached) : Except Stop Plan := do
  let m := a.mergePoint
  let nodes ← (List.range a.desc.nodes).mapM fun x => s.graphNode u a x
  let gone := fun (x : Nat) => (nth {} nodes x).gone m
  let edges ← nodes.zipIdx.mapM fun e =>
    if decide (e.1.nstate = 1) && e.1.neighbours.any gone then (s.repairedEdges u a m e.2 e.1).map fun l => a.setNeighbours e.2 l
    else .ok []
  .ok (edges.flatten ++ ((List.range a.desc.nodes).filter fun x => decide (x ≠ 0) && gone x).map fun x =>
    (a.desc.graph, a.desc.nodeStride * x, [0]))

/-- What the due part of a merge does. -/
def State.planPart (s : State) (u : Asker) (a : Attached) : Except Stop MergeDo :=
  let m := a.mergePoint
  let tail := fun (k : Nat) (l : List Byte) => ((a.desc.tail, k, l) : Ptr × Nat × List Byte)
  match a.mergePhase with
  | 1 => s.planInserts u a m
  | 2 => .ok { plan := a.planDirectory, point := m }
  | 3 => .ok { plan := [tail 8 (leBytes 8 m)], point := m }
  | 4 => do
    let head ← s.tailHeader u a
    let l ← s.tailRecords u a head.base m
    let w ← (l.filter fun x => decide (x.kind = 2)).foldlM (s.applyTombstone u a) []
    .ok { plan := w, point := m }
  | 5 => .ok { plan := [tail 16 (leBytes 8 m)], point := m }
  | 6 => if a.desc.ivf then .ok { point := m } else (s.planRepair u a).map fun w => { plan := w, point := m }
  | 7 => .ok { plan := [tail 24 (leBytes 8 m), tail 32 (zeros 8)], point := m }
  | _ => .ok { point := m }

/-- Every query that the due part waits for has completed (R357 steps 3 and 5). -/
def Attached.partReady (a : Attached) : Bool :=
  match a.mergePhase with
  | 4 => a.noQuery fun b => decide (b.snapS < a.mergePoint)
  | 6 => a.noQuery fun b => decide (b.snapB < a.mergePoint)
  | _ => true

/-- Runs the due part of a merge, when nothing that it waits for is left; the earlier part's writes are performed. Its reads are those
of the search program, and its writes are the composition's (R429). A detachment that waits lets the step in progress end, and no other
begin (R349). -/
def State.mergePart (s : State) (i : Nat) : State :=
  let a := s.indexAt i
  let u : Asker := .merge i
  if s.unitBusy (engineReq a.mergeReq) || (a.detach.isSome && !a.inStep) || !a.partReady then s
  else
    match s.reading u (fun s => s.planPart u a) eventReads with
    | (s, .error _) => s
    | (s, .ok x) =>
      let (id, s) := (s.forget u).takeId
      let s := x.plan.foldl (fun s e => (s.unitWrite (engineReq id) a.cid 0 0 e.1.rh (e.1.offset.toNat + e.2.1) e.2.2 []).1)
        (s.clearFailure (engineReq a.mergeReq))
      match x.full with
      | some r => (s.setIndex i { a with mergeReq := id, mergePhase := 0, mergePoint := 0 }).indexListFull a r
      | none => s.setIndex i { a with
          mergeReq := id, mergePhase := (a.mergePhase + 1) % 9, mergePoint := x.point
          grown := if a.mergePhase = 1 then x.grown else a.grown }

/-- Runs a merge's parts from `lo` to `hi` as far as they go. -/
def State.mergeParts (s : State) (i lo hi : Nat) : Nat → State
  | 0 => s
  | n + 1 =>
    let p := (s.indexAt i).mergePhase
    if lo ≤ p ∧ p ≤ hi then (s.mergePart i).mergeParts i lo hi n else s

/-- S_v of the tail: its region's version (R350). -/
def State.tailVersion (s : State) (a : Attached) : Nat := (s.region ((s.localRegion a.desc.tail.rh).getD 0)).version.toNat

/-- The conditions under which an event of an index can happen: it is attached and its composition takes writes. -/
def State.indexRuns (s : State) (i : Nat) : Bool := (s.indexAt i).used && decide (i < 16) && !s.fencedCid (s.indexAt i).cid

/-- A merge is due: none runs, and the tail has reached the threshold (R356). -/
def State.mergeDue (s : State) (i : Nat) : State :=
  let a := s.indexAt i
  if a.mergePhase ≠ 0 ∨ a.resume ∨ a.detach.isSome ∨ s.unitBusy (engineReq a.mergeReq) then s
  else
    match s.reading (.merge i) (fun s => s.tailHeader (.merge i) a) eventReads with
    | (s, .ok t) =>
      let s := s.forget (.merge i)
      if a.desc.mergeThreshold ≤ s.tailVersion a - t.base then
        s.modIndex i fun a => { a with mergePhase := 1, mergePoint := s.tailVersion a, grown := [] }
      else s
    | (s, .error _) => s

/-- MERGE_START (R356, R357 steps 1 and 2, R358): a merge begins at the threshold, or an interrupted one goes on. -/
def execMergeStart (now index : Nat) (s : State) : Out :=
  .next (s.serving fun s => let s := s.advanceTo now
    if s.indexRuns index then ((((s.wakeMerge index).mergeDue index).mergeParts index 1 3 3).settleDetach index) else s)

/-- MERGE_TOMBSTONES (R357 steps 3 and 4). -/
def execMergeTombstones (now index : Nat) (s : State) : Out :=
  .next (s.serving fun s => let s := s.advanceTo now
    if s.indexRuns index then ((s.wakeMerge index).mergeParts index 4 5 2).settleDetach index else s)

/-- MERGE_REPAIR (R357 steps 5 and 6). -/
def execMergeRepair (now index : Nat) (s : State) : Out :=
  .next (s.serving fun s => let s := s.advanceTo now
    if s.indexRuns index then ((s.wakeMerge index).mergeParts index 6 8 3).settleDetach index else s)

/-! ### SEARCH (R360 to R363) -/

/-- Bytes from one query to the next, and from one result to the next (R361). -/
def IndexDesc.queryStride (d : IndexDesc) : Nat := roundUp (d.dims * d.width) 64
def resultStride (k : Nat) : Nat := roundUp (16 + 16 * k) 64

/-- A range that lies on this device ends within its region (R27). -/
def State.within (s : State) (p : Ptr) (n : Nat) : Bool :=
  !s.answersTo (handleAid p.rh) || decide (p.offset.toNat + n ≤ (s.region ((s.localRegion p.rh).getD 0)).size)

/-- The conditions of R360 on a request to an attached index. -/
def searchOk (d : IndexDesc) (k probes : Nat) (exact : Bool) (pred : Option (List Byte)) : Bool :=
  (if d.ivf then decide (probes ≤ d.lists) && !(exact && decide (d.rerank < k)) else decide (k ≤ probes)) &&
    (match pred with
    | none => true
    | some l => predOk l && (decide (fieldLe l 0 1 = 0) || d.attrs))

/-- Takes a request into the queue of an index, or leaves it at ingress (R363). -/
def Attached.enqueue (a : Attached) (q : SearchReq) : Attached :=
  if a.waiting.length < 16 ∧ a.ingress.isEmpty then { a with waiting := a.waiting ++ [q] } else { a with ingress := a.ingress ++ [q] }

/-- Frames left at ingress enter the queue while it has room; they are accepted now. -/
def Attached.refill (a : Attached) (now : Nat) : Attached :=
  let n := 16 - a.waiting.length
  { a with waiting := a.waiting ++ (a.ingress.take n).map (fun q => { q with arrived := now }), ingress := a.ingress.drop n }

/-- The queue of an index takes frames that were left at ingress. -/
def State.refillIndex (s : State) (i : Nat) : State :=
  let a := s.indexAt i
  (a.ingress.take (16 - a.waiting.length)).foldl (fun s q => s.takeFromIngress q.h) (s.setIndex i (a.refill s.now))

/-- A SEARCH past its own checks; `hold` where the read of its predicate has to wait. -/
def State.search (s : State) (h : Hdr) (index query : Ptr) (nq : W32) (k probes : BitVec 16) (pred result : Ptr) (flags : Byte)
    (hold : State → State) : State :=
  let u : Asker := .frame h.src h.tag
  match s.attachedAs h.cid index with
  | none => (s.forget u).respond h 0x3A stInvalid (zeros 16)
  | some i =>
    let d := (s.indexAt i).desc
    match if pred.rh = 0 then (s, ({} : Got)) else s.unitRead u h.cid pred.rh pred.offset.toNat 192 (some h.pcp) with
    | (s, g) =>
      let block := if pred.rh = 0 then none else some g.data
      let s := if g.waits then s else s.forget u
      if g.waits then hold s
      else if g.status ≠ stOk then s.respond h 0x3A g.status (zeros 16)
      else if !searchOk d k.toNat probes.toNat (flags.getLsbD 0) block then s.respond h 0x3A stInvalid (zeros 16)
      else if !s.within query ((nq.toNat - 1) * d.queryStride + d.dims * d.width) ||
          !s.within result (nq.toNat * resultStride k.toNat) then s.respond h 0x3A stBounds (zeros 16)
      else
        let (id, s) := (s.restartSearch i).takeId
        let s := s.modIndex i fun a => a.enqueue
          { h := h, id := id, query := query, nq := nq.toNat, k := k.toNat, probes := probes.toNat, pred := block
            predPoison := g.poisoned, result := result, exact := flags.getLsbD 0, arrived := s.now }
        if (s.indexAt i).ingress.any fun q => decide (q.id = id) then s.leaveAtIngress h else s

/-- SEARCH. -/
def execSearch (h : Hdr) (index query : Ptr) (nq : W32) (k probes : BitVec 16) (pred result : Ptr) (flags : Byte)
    (s : State) : Out :=
  let valid := if nq.toNat < 1 ∨ 65536 < nq.toNat ∨ k.toNat < 1 ∨ 1024 < k.toNat ∨ probes.toNat < 1 ∨ 4096 < probes.toNat then
    some stInvalid else none
  let pointers := [index.rh, query.rh, result.rh] ++ (if pred.rh = 0 then [] else [pred.rh])
  .next (engineRequest h 0x3A 64 valid (zeros 16) (zeros 16) pointers (fun s =>
    s.search h index query nq k probes pred result flags
      (·.holdArrival { what := .search index query nq k probes pred result flags, h := h })) s)

/-! ### Batches (R354, R364, R371) -/

/-- Splits the waiting requests into those of the next batch and the rest: accepted within the window of the first, as many
as fit. -/
def formBatch (limit : Nat) : Nat → List SearchReq → List SearchReq × List SearchReq
  | _, [] => ([], [])
  | room, q :: t =>
    if q.arrived ≤ limit ∧ q.nq ≤ room then
      let (a, b) := formBatch limit (room - q.nq) t
      (q :: a, b)
    else
      let (a, b) := formBatch limit room t
      (a, q :: b)

/-- k' of a request (R367). -/
def SearchReq.depth (q : SearchReq) (d : IndexDesc) : Nat := if q.exact then d.rerank else q.k

/-- Candidates kept for a request's queries (R367). -/
def SearchReq.heapSize (q : SearchReq) (d : IndexDesc) (b : Batch) : Nat := min 2048 (q.depth d + b.tombs.length)

/-- The queries of a request from number `n` down to 0, as they are read. -/
def State.readQueries (s : State) (u : Asker) (d : IndexDesc) (q : SearchReq) (taint : Bool) : Nat → Except Stop (List QueryState)
  | 0 => .ok []
  | n + 1 => do
    let l ← s.readQueries u d q taint n
    let g ← s.peek u q.h.cid q.query (n * d.queryStride) (d.dims * d.width) (some q.h.pcp)
    .ok (l ++ [{ req := q.id, number := n, vector := g.1, taint := taint || q.predPoison || g.2 }])

/-- A live node that a snapshot admits (R355, R371). -/
def Batch.admits (b : Batch) (n : Node) : Bool :=
  decide (n.nstate = 1) && decide (n.birth ≤ b.snapM) && (decide (n.death = 0) || decide (b.snapS < n.death))

/-- Walks the graph for one query: the lists it probes, or the candidates of a GRAPH index (R371). -/
def State.walkQuery (s : State) (u : Asker) (a : Attached) (b : Batch) (q : SearchReq) (x : QueryState) : Except Stop QueryState :=
  match s.graphWalk u a x.vector q.probes with
  | .error e => .error e
  | .ok w =>
    let x := { x with poisoned := x.poisoned || w.poisoned }
    if a.desc.ivf then .ok { x with probes := w.list.map fun e => e.2.1 }
    else
      w.list.foldlM (fun (x : QueryState) e =>
        match s.graphNode u a e.2.1 with
        | .error st => .error st
        | .ok n =>
          .ok (if n.poisoned then { x with poisoned := true }
            else if b.admits n && predPasses q.pred n.attr then
              { x with heap := x.heap ++ [{ score := e.1, list := 0xFFFFFFFF, position := e.2.1, id := some e.2.1 }] }
            else x)) x

/-- Walks for every query; a query whose walk fails with a status ends its request alone (R369, R643): the requests with their
statuses, and the queries. -/
def State.walkAll (s : State) (u : Asker) (a : Attached) (b : Batch) :
    List (SearchReq × QueryState) → Except Stop (List (Nat × Byte) × List QueryState)
  | [] => .ok ([], [])
  | e :: l =>
    match s.walkAll u a b l with
    | .error x => .error x
    | .ok (bad, qs) =>
      match s.walkQuery u a b e.1 e.2 with
      | .ok q => .ok (bad, q :: qs)
      | .error (.fail st) => .ok ((e.1.id, st) :: bad, qs)
      | .error x => .error x

/-- Reads the queries of every request of a batch; a request whose read fails keeps its status. -/
def State.readAll (s : State) (u : Asker) (d : IndexDesc) (taint : Bool) (l : List SearchReq) :
    Except Stop (List (SearchReq × List QueryState)) :=
  l.mapM fun q =>
    match s.readQueries u d q taint q.nq with
    | .ok l => .ok (q, l)
    | .error (.fail st) => .ok ({ q with status := st }, [])
    | .error e => .error e

/-- A status that the tail or the codebook gave ends every request of the batch (R643). -/
def State.failBatch (s : State) (l : List SearchReq) (st : Byte) : State := l.foldl (fun s q => s.answerSearch q st 0 0) s

/-- Requests of a batch end with a status, and the others go on without them: a visit in progress passes none of their queries
(R369, R643). -/
def State.failRequests (s : State) (i k : Nat) (b : Batch) (bad : List (Nat × Byte)) : State :=
  let gone := b.reqs.filter fun q => bad.any fun e => decide (e.1 = q.id)
  let s := gone.foldl (fun s q => s.answerSearch q (((bad.find? fun e => decide (e.1 = q.id)).map (·.2)).getD 0) b.snapS 0) s
  let stays := fun (x : QueryState) => !bad.any fun e => decide (e.1 = x.req)
  let b := { b with reqs := b.reqs.filter fun q => !bad.any fun e => decide (e.1 = q.id)
                    queries := b.queries.filter stays, passed := ((b.queries.take b.passed).filter stays).length }
  (s.modIndex i fun a =>
    if b.reqs.isEmpty then { a with batches := a.batches.eraseIdx k } else { a with batches := a.batches.set k b })

/-- The snapshot of a batch and what the tail and the codebook give it (R354, R355). -/
def State.snapshot (s : State) (u : Asker) (a : Attached) : Except Stop (Batch × Bool × Bool) := do
  let t ← s.tailHeader u a
  let v := s.tailVersion a
  let recs ← s.tailRecords u a t.base v
  let book ← if a.desc.ivf then s.peek u a.cid a.desc.codebook 0 (a.desc.perSub * a.desc.dims * a.desc.width) else .ok ([], false)
  let tombs := (recs.filter fun x => decide (x.kind = 2) && !x.poisoned).map (·.id)
  .ok ({ snapS := v, snapM := t.merged, snapB := t.base, tombs := tombs, codebook := book.1 },
    recs.any (fun x => x.poisoned), book.2)

/-- A batch of chosen requests: snapshot, queries and probes; and the requests whose walks failed. -/
def State.formed (s : State) (u : Asker) (a : Attached) (sel : List SearchReq) : Except Stop (Batch × List (Nat × Byte)) := do
  let (b, tailPoison, bookPoison) ← s.snapshot u a
  let l ← s.readAll u a.desc bookPoison sel
  let (bad, qs) ← s.walkAll u a b (l.flatMap fun e => e.2.map fun x => (e.1, { x with poisoned := tailPoison }))
  .ok ({ b with reqs := l.map (·.1), queries := qs },
    bad ++ (l.filter fun e => decide (e.1.status ≠ stOk)).map fun e => (e.1.id, e.1.status))

/-- Starts a batch of chosen requests. The device first restarts its program where it was halted (R349, R483). -/
def State.startBatch (s : State) (i : Nat) (sel rest : List SearchReq) : State :=
  let u : Asker := .batch i
  let s := s.restartSearch i
  let leave := fun (s : State) => (((s.forget u).modIndex i fun a => { a with waiting := rest })).refillIndex i
  match s.reading u (fun s => s.formed u (s.indexAt i) sel) eventReads with
  | (s, .error (.fail st)) => (leave (s.failBatch sel st)).settleDetach i
  | (s, .error _) => s
  | (s, .ok (b, bad)) =>
    let k := (s.indexAt i).batches.length
    let s := (leave s).modIndex i fun a => { a with batches := a.batches ++ [b] }
    if bad.isEmpty then s else (s.failRequests i k b bad).settleDetach i

/-- SEARCH_BATCH: the window of the first waiting request has passed or the batch is full, and the sweep of the batch before
has begun (R364). -/
def execSearchBatch (now index : Nat) (s : State) : Out :=
  .next (s.serving fun s => let s := s.advanceTo now
    let a := s.indexAt index
    if !s.indexRuns index || a.batches.any (fun b => !b.begun) then s
    else
      match a.waiting with
      | [] => s
      | q :: t =>
        let limit := q.arrived + a.desc.window * 1000
        let (sel, rest) := formBatch limit 262144 (q :: t)
        if limit ≤ s.now ∨ rest.any (fun x => decide (x.arrived ≤ limit)) then s.startBatch index sel rest else s)

/-! ### Visits (R355, R365 to R370) -/

/-- Records of a list that a snapshot sees (R355). -/
def DirList.visible (e : DirList) (m : Nat) : Nat := if e.segSeq ≤ m then e.nNew else e.nOld

/-- One record of a list as a lens engine finds it: its code and attribute word; poisoned ones are absent (R370). -/
inductive Scanned where
  | gone
  | poisoned
  | record (code : List Byte) (attr : Nat)
  deriving DecidableEq, Repr

/-- Scans position p of a list whose granules have been read. -/
def State.scan (s : State) (u : Asker) (a : Attached) (e : DirList) (granules : List (List Byte × List Bool)) (p : Nat) : Except Stop Scanned := do
  let d := a.desc
  let n := d.perGranule
  let live ← s.peek u a.cid e.live (p / 8) 1
  if live.2 then .ok .poisoned
  else if !bitOf (nth 0 live.1 0).toNat (p % 8) then .ok .gone
  else
    let g := nth ([], []) granules (p / n)
    let code := granuleBytes g (p % n * d.codeBytes) d.codeBytes
    let attr := if d.attrs then granuleBytes g (n * d.codeBytes + p % n * 8) 8 else (zeros 8, false)
    .ok (if code.2 || attr.2 then .poisoned else .record code.1 (fieldLe attr.1 0 8))

/-- A scanned record enters the heap of a query, where it passes the predicate (R362, R367). -/
def QueryState.take (x : QueryState) (d : IndexDesc) (q : SearchReq) (b : Batch) (list p : Nat) : Scanned → QueryState
  | .gone => x
  | .poisoned => { x with poisoned := true }
  | .record code attr =>
    if predPasses q.pred attr then
      let c : Candidate := { score := d.approxScore x.vector b.codebook code, list := list, position := p }
      { x with heap := heapAdd (q.heapSize d b) c x.heap }
    else x

/-- A tail insert of the window as a query meets it: by its code, or by its vector on the grid for a GRAPH index (R355, R370,
R371). -/
def State.takeTail (s : State) (u : Asker) (a : Attached) (b : Batch) (q : SearchReq) (x : QueryState) (t : TailRec) : Except Stop QueryState :=
  if t.poisoned then .ok { x with poisoned := true }
  else if !predPasses q.pred t.attr then .ok x
  else
    let place : Candidate := { position := 2 ^ 32 + t.seq, id := some t.id }
    if a.desc.ivf then
      let c := { place with score := a.desc.approxScore x.vector b.codebook t.code, list := t.list }
      .ok { x with heap := heapAdd (q.heapSize a.desc b) c x.heap }
    else
      match s.storeVector u a t.id with
      | .error e => .error e
      | .ok none => .ok { x with poisoned := true }
      | .ok (some v) =>
        let c := { place with score := a.desc.exactScore x.vector v, list := 0xFFFFFFFF }
        .ok { x with heap := insertBy Candidate.before c x.heap }

def Batch.reqOf (b : Batch) (x : QueryState) : Option SearchReq := b.reqs.find? fun q => decide (q.id = x.req)

/-- The next list of the sweep that some query probes. -/
def Batch.nextVisit (b : Batch) (lists : Nat) : Option Nat :=
  (b.queries.flatMap (·.probes)).foldl (fun m l =>
    if b.nextList ≤ l ∧ l < lists then
      match m with
      | some k => some (min k l)
      | none => some l
    else m) none

/-- Lens engines that serve a visit, and the poisoned granules that each meets (R370, R503): the granules with their poison. -/
def State.countVisit (s : State) (e : DirList) (granules : List Bool) : State :=
  let i := (s.localRegion e.extent.rh).getD 0
  let engines := (List.range granules.length).map fun g => 124 + nandChannel (s.granule i (e.extent.offset.toNat / 4096 + g))
  let s := engines.eraseDups.foldl (fun s u => s.bump 9 u 0) s
  (engines.zip granules).foldl (fun s x => if x.2 then s.bump 9 x.1 3 else s) s

def Attached.setBatch (a : Attached) (k : Nat) (b : Batch) : Attached := { a with batches := a.batches.set k b }

/-- Queries of one visit: at most min(4,096, 4 MiB ÷ t_b) (R365). -/
def IndexDesc.visitLimit (d : IndexDesc) : Nat :=
  min 4096 (4194304 / max 1 (if d.codeType = 0 then 256 * d.codeBytes else 32 * d.codeBytes))

/-- Takes queries into a visit until one more would exceed the limit or bring a 17th predicate; answers how many of the list the
visit passes, and those it serves. -/
def takeVisit (limit : Nat) (mine : QueryState → Bool) (pred : QueryState → Option (List Byte)) :
    List QueryState → List Nat → List (Option (List Byte)) → Nat → Nat × List Nat
  | [], got, _, at_ => (at_, got)
  | x :: t, got, preds, at_ =>
    if !mine x then takeVisit limit mine pred t got preds (at_ + 1)
    else
      let p := pred x
      let ps := if p.isNone ∨ preds.contains p then preds else p :: preds
      if limit ≤ got.length ∨ 16 < ps.length then (at_, got)
      else takeVisit limit mine pred t (got ++ [at_]) ps (at_ + 1)

/-- The next visit of a list or of the tail: where it ends among the batch's queries, and the queries that it serves. -/
def Batch.visit (b : Batch) (d : IndexDesc) (mine : QueryState → Bool) : Nat × List Nat :=
  takeVisit d.visitLimit mine (fun x => (b.reqOf x).bind (·.pred)) (b.queries.drop b.passed) [] [] b.passed

/-- Some query after the ones passed takes part. -/
def Batch.more (b : Batch) (mine : QueryState → Bool) : Bool := (b.queries.drop b.passed).any mine

/-- The directory entry of a list and its visible records, for a snapshot. -/
def State.visited (s : State) (u : Asker) (a : Attached) (b : Batch) (l : Nat) : Except Stop (DirList × Nat × Bool) :=
  match s.peek u a.cid a.desc.directory (64 * l) 64 with
  | .ok raw => .ok (parseDirList raw.1, (parseDirList raw.1).visible b.snapM, raw.2)
  | .error e => .error e

/-- A visit of one list for the next queries that probe it (R365). -/
def State.visitList (s : State) (u : Asker) (a : Attached) (b : Batch) (l : Nat) : Except Stop (Batch × DirList × List Bool) := do
  let (e, n, bad) ← s.visited u a b l
  let granules ← (List.range ((n + a.desc.perGranule - 1) / a.desc.perGranule)).mapM fun g => s.lensGranule u a.cid e.extent g
  let found ← (List.range n).mapM fun p => s.scan u a e granules p
  let mine := fun (x : QueryState) => x.probes.contains l
  let (stop, served) := b.visit a.desc mine
  let qs := b.queries.zipIdx.map fun x =>
    match b.reqOf x.1 with
    | some q =>
      if served.contains x.2 then
        found.zipIdx.foldl (fun y c => y.take a.desc q b l c.2 c.1) { x.1 with poisoned := x.1.poisoned || bad }
      else x.1
    | none => x.1
  let b := { b with queries := qs, begun := true, passed := stop }
  .ok (if b.more mine then { b with nextList := l } else { b with nextList := l + 1, passed := 0 }, e, granules.map fun g => g.2.any fun x => x)

/-- A visit of the tail for the next queries. -/
def State.visitTail (s : State) (u : Asker) (a : Attached) (b : Batch) : Except Stop Batch := do
  let recs ← s.tailRecords u a b.snapM b.snapS
  let inserts := recs.filter fun t => decide (t.kind = 1) || t.poisoned
  let (stop, served) := b.visit a.desc fun _ => true
  let qs ← b.queries.zipIdx.mapM fun x =>
    match b.reqOf x.1 with
    | some q => if served.contains x.2 then inserts.foldlM (fun y t => s.takeTail u a b q y t) x.1 else .ok x.1
    | none => .ok x.1
  let b := { b with queries := qs, begun := true, passed := stop }
  .ok (if b.more fun _ => true then b else { b with passed := 0, tailDone := true })

/-- Requests with a query of the next visit, which end with the status that a read of the visit gave. -/
def Batch.failed (b : Batch) (d : IndexDesc) (mine : QueryState → Bool) (st : Byte) : List (Nat × Byte) :=
  ((b.visit d mine).2.filterMap fun k => b.queries[k]?).map fun x => (x.req, st)

/-- Granules of a list that its lens engines cannot read: each line is rebuilt or poisoned, and the granule is written again (R51,
R366; DESIGN CHOICE that it is written at once, log entry 89). `bad` names sectors of the extent's region. False while the rest of a
group is still being read. -/
def State.mendGranules (s : State) (a : Attached) (e : DirList) (n : Nat) (bad : List Nat) : State × Bool :=
  let i := (s.localRegion e.extent.rh).getD 0
  if !s.assignedTo e.extent.rh a.cid then (s, true)
  else
    ((List.range ((n + a.desc.perGranule - 1) / a.desc.perGranule)).map fun g => e.extent.offset.toNat / 4096 + g).foldl
      (fun (x : State × Bool) k =>
        let y := x.1.sectorAt i k
        if y.state = .flash && !y.writeback && (bad.contains k || (x.1.flashSector i k).isNone) then
          match x.1.mendSector i k with
          | (s, true) => (((s.bumpAlert 6 (s.sectorDie i k) 1).programSector i k).dropCopy i k, x.2)
          | (s, false) => (s, false)
        else x) (s, true)

/-- LENS_VISIT: the next visit of the sweep of the oldest batch that is still being swept. `bad` names granules, by the sector of
their region, that the visit finds uncorrectable. -/
def execLensVisit (now index : Nat) (bad : List Nat) (s : State) : Out :=
  .next (s.serving fun s => let s := s.advanceTo now
    let a := s.indexAt index
    let u : Asker := .sweep index
    if !s.indexRuns index then s
    else
      match a.batches.zipIdx.find? fun e => !e.1.tailDone with
      | none => s
      | some (b, k) =>
        let ends := fun (s : State) mine st => ((s.forget u).failRequests index k b (b.failed a.desc mine st)).settleDetach index
        match b.nextVisit a.desc.lists with
        | some l =>
          let mine := fun (x : QueryState) => x.probes.contains l
          match s.reading u (fun s => s.visited u a b l) eventReads with
          | (s, .error (.fail st)) => ends s mine st
          | (s, .error _) => s
          | (s, .ok (e, n, _)) =>
            match s.mendGranules a e n bad with
            | (s, false) => s
            | (s, true) =>
              match s.reading u (fun s => s.visitList u a b l) eventReads with
              | (s, .ok (b, e, granules)) => ((s.forget u).countVisit e granules).setIndex index (a.setBatch k b)
              | (s, .error (.fail st)) => ends s mine st
              | (s, .error _) => s
        | none =>
          match s.reading u (fun s => s.visitTail u a b) eventReads with
          | (s, .ok b) => (s.forget u).setIndex index (a.setBatch k b)
          | (s, .error (.fail st)) => ends s (fun _ => true) st
          | (s, .error _) => s)

/-! ### Results (R361, R367 to R370) -/

/-- A candidate with its id: an IVF position's id lies in the list's id array; none where that line is poisoned. -/
def State.withId (s : State) (u : Asker) (a : Attached) (c : Candidate) : Except Stop (Option (Nat × Candidate)) :=
  match c.id with
  | some id => .ok (some (id, c))
  | none => do
    let raw ← s.peek u a.cid a.desc.directory (64 * c.list) 64
    let x ← s.peek u a.cid (parseDirList raw.1).idarr (8 * c.position) 8
    .ok (if raw.2 || x.2 then none else some (fieldLe x.1 0 5, c))

/-- Order of a result: ascending score, then ascending id (R361). -/
def resultBefore (a b : Nat × W32 × Nat) : Bool :=
  decide (scoreKey a.2.1 < scoreKey b.2.1) || (decide (scoreKey a.2.1 = scoreKey b.2.1) && decide (a.1 < b.1))

/-- The entries of a query's result, id, score and list, and whether a candidate was absent for poison (R355, R368, R370). -/
def State.rank (s : State) (u : Asker) (a : Attached) (b : Batch) (q : SearchReq) (x : QueryState) : Except Stop (List (Nat × W32 × Nat) × Bool) := do
  let ided ← x.heap.mapM fun c => s.withId u a c
  let alive := (ided.filterMap fun c => c).filter fun c => !b.tombs.contains c.1
  let sort := fun (l : List (Nat × W32 × Nat)) => l.foldl (fun l e => insertBy resultBefore e l) []
  let lost := ided.any fun c => c.isNone
  if a.desc.ivf && q.exact then
    let scored ← (alive.take (q.depth a.desc)).mapM fun c => do
      let v ← s.storeVector u a c.1
      .ok (v.map fun v => (c.1, a.desc.exactScore x.vector v, c.2.list))
    .ok ((sort (scored.filterMap fun e => e)).take q.k, lost || scored.any fun e => e.isNone)
  else if a.desc.ivf then .ok (sort ((alive.take q.k).map fun c => (c.1, c.2.score, c.2.list)), lost)
  else
    let best := alive.foldl (fun l c => insertBy (fun (x y : Nat × Candidate) => x.2.before y.2) c l) []
    .ok ((sort ((best.take (q.depth a.desc)).map fun c => (c.1, c.2.score, c.2.list))).take q.k, lost)

/-- The bytes of a result (R361). -/
def resultBytes (k : Nat) (exact : Bool) (l : List (Nat × W32 × Nat)) (poison : Bool) : List Byte :=
  let flags := (if l.length < k then 1 else 0) + (if poison then 2 else 0) + (if exact then 0 else 4)
  sliceBytes (leBytes 4 l.length ++ leBytes 1 flags ++ zeros 11 ++
    l.flatMap fun e => leBytes 8 e.1 ++ leBytes 4 e.2.1.toNat ++ leBytes 4 e.2.2) 0 (resultStride k)

/-- What each query of a batch comes to: requests that a failed read ends, and the results: query, entries and poison flag. -/
def State.rankAll (s : State) (u : Asker) (a : Attached) (b : Batch) :
    List (QueryState × SearchReq) → Except Stop (List (Nat × Byte) × List (QueryState × SearchReq × List (Nat × W32 × Nat) × Bool))
  | [] => .ok ([], [])
  | e :: t =>
    match s.rankAll u a b t with
    | .error x => .error x
    | .ok (bad, out) =>
      match s.rank u a b e.2 e.1 with
      | .ok (l, lost) => .ok (bad, (e.1, e.2, l, lost || e.1.poisoned || e.1.taint) :: out)
      | .error (.fail st) => .ok ((e.2.id, st) :: bad, out)
      | .error x => .error x

/-- Queries with their requests. -/
def Batch.pairs (b : Batch) : List (QueryState × SearchReq) := b.queries.filterMap fun x => (b.reqOf x).map fun q => (x, q)

/-- A query, its request, the entries of its result and its poison flag. -/
abbrev Ranked := QueryState × SearchReq × List (Nat × W32 × Nat) × Bool

/-- A result's offset, its bytes, and the lines of it that are written as poisoned. -/
def Ranked.bytes (e : Ranked) (a : Attached) : Nat × List Byte × List Nat :=
  let n := resultStride e.2.1.k
  let off := e.2.1.result.offset.toNat + n * e.1.number
  (off, resultBytes e.2.1.k (e.2.1.exact || !a.desc.ivf) e.2.2.1 e.2.2.2,
    if e.1.taint then (List.range (linesOf off n)).map fun j => off / 64 + j else [])

/-- The result lies on another device, and is the last of its request. -/
def State.probes (s : State) (e : Ranked) : Bool :=
  !s.answersTo (handleAid e.2.1.result.rh) && decide (e.1.number + 1 = e.2.1.nq)

/-- Bytes of a result that are sent in its last frame. -/
def lastCut (off n : Nat) : Nat := ((cuts off n).getLast?.map (·.2)).getD 0

/-- Writes bytes of a result on behalf of the agent that sent the request. -/
def State.putResult (s : State) (a : Attached) (e : Ranked) (off : Nat) (l : List Byte) (taint : List Nat) : State × Byte :=
  s.unitWrite (engineReq e.2.1.id) a.cid e.2.1.h.src 0 e.2.1.result.rh off l taint (some e.2.1.h.pcp)

/-- Of the results of a request that lie in another device's region, the last bytes are sent before anything else: where they lie
outside the region, that device answers BOUNDS and nothing is written (R363). -/
def State.probeResults (s : State) (a : Attached) (l : List Ranked) : State :=
  l.foldl (fun s e =>
    if !s.probes e then s
    else
      let (off, data, taint) := e.bytes a
      let m := data.length - lastCut off data.length
      (s.putResult a e (off + m) (data.drop m) taint).1) s

/-- Keeps the first status other than OK of a request. -/
def noteStatus (l : List SearchReq) (id : Nat) (st : Byte) : List SearchReq :=
  l.map fun q => if q.id = id ∧ (q.status = stOk ∨ (q.status = stPoison ∧ st ≠ stOk)) then { q with status := st } else q

/-- A request has already failed with BOUNDS: at its probe, or at a local write. -/
def State.outOfBounds (s : State) (l : List SearchReq) (id : Nat) : Bool :=
  decide (s.unitFailure (engineReq id) = stBounds) || l.any fun q => decide (q.id = id) && decide (q.status = stBounds)

/-- Writes the results of a batch, the last first, and notes POISON and failures at its requests (R363). -/
def State.writeResults (s : State) (a : Attached) (l : List Ranked) (reqs : List SearchReq) : State × List SearchReq :=
  l.reverse.foldl (fun (x : State × List SearchReq) e =>
    if x.1.outOfBounds x.2 e.2.1.id then x
    else
      let (off, data, taint) := e.bytes a
      let data := if x.1.probes e then data.take (data.length - lastCut off data.length) else data
      match x.1.putResult a e off data taint with
      | (s, st) => (s, noteStatus (if e.2.2.2 then noteStatus x.2 e.2.1.id stPoison else x.2) e.2.1.id st)) (s, reqs)

/-- Answers the requests of a batch whose writes are all performed. -/
def State.settleBatch (s : State) (i k : Nat) : State :=
  match (s.indexAt i).batches[k]? with
  | none => s
  | some b =>
    if !b.written || b.reqs.any (fun q => s.unitBusy (engineReq q.id)) then s
    else
      let s := b.reqs.foldl (fun s q =>
        let f := s.unitFailure (engineReq q.id)
        let st := if f = stOk ∨ (f = stPoison ∧ q.status ≠ stOk) then q.status else f
        let done := if st = stOk ∨ st = stPoison then q.nq else 0
        (s.answerSearch q st b.snapS done).clearFailure (engineReq q.id)) s
      (s.modIndex i fun a => { a with batches := a.batches.eraseIdx k }).settleDetach i

/-- SEARCH_RESULTS: re-ranks and writes the results of the oldest swept batch, those on other devices once their probes are answered;
its responses follow once they are performed. -/
def execSearchResults (now index : Nat) (s : State) : Out :=
  .next (s.serving fun s => let s := s.advanceTo now
    let a := s.indexAt index
    let u : Asker := .results index
    if !s.indexRuns index then s
    else
      match a.batches.zipIdx.find? fun e => e.1.tailDone with
      | none => s
      | some (b, k) =>
        if b.written then s.settleBatch index k
        else if b.probed && b.reqs.any fun q => s.unitBusy (engineReq q.id) then s
        else
          match s.reading u (fun s => s.rankAll u a b b.pairs) eventReads with
          | (s, .error _) => s
          | (s, .ok (e :: bad, _)) => ((s.forget u).failRequests index k b (e :: bad)).settleDetach index
          | (s, .ok ([], l)) =>
            if !b.probed && l.any s.probes then
              (s.probeResults a l).modIndex index fun a => a.setBatch k { b with probed := true }
            else
              match (s.forget u).writeResults a l b.reqs with
              | (s, reqs) =>
                (s.modIndex index fun a => a.setBatch k { b with reqs := reqs, written := true }).settleBatch index k)

end Sys2Proof.Machine
end

