-- ==== Sys2Proof/Machine/Resets.lean ====
section
/-! DEFINITION. Grid orders as they take their turns, and the resets of cores, clusters and partitions (R479 to R485). -/
namespace Sys2Proof.Machine

/-! ### Resets (R480 to R485) -/

/-- Every core that a reset reaches. -/
def resetCores (op : GridOp) (mask : W64) : List Nat :=
  match op with
  | .reset 0 x y _ => [32 * y + x]
  | _ => coresOfMask mask

/-- Contexts of the resident programs of a core. -/
def State.residentContexts (s : State) (core : Nat) : List (Nat × Nat) :=
  ((s.cluster (clusterOf core)).programs.filter fun e => e.2.resident).flatMap fun e =>
    (List.range e.2.threads).map fun i => (e.1, e.2.ctx0 + i)

/-- A thread context as a reset leaves it: HALTED with cause EXTERNAL, its registers and store status as after start. -/
def resetCtx (p : Nat) : Ctx := { state := .halted, cause := gcExternal, program := p }

/-- Resets one thread: what it has at the core is dropped, what it has sent goes on without it (R482). -/
def State.resetThread (s : State) (core p k : Nat) : State :=
  let s := (s.dropHeld ⟨core, k⟩).haltThread ⟨core, k⟩ gcExternal
  s.setCtx ⟨core, k⟩ (resetCtx p)

def State.resetCore (s : State) (core : Nat) : State :=
  (s.residentContexts core).foldl (fun s e => s.resetThread core e.1 e.2) s

/-- Threads of a core that a reset halts: those not HALTED before (log entry 59). -/
def State.toHalt (s : State) (core : Nat) : Nat :=
  ((s.residentContexts core).filter fun e => decide ((s.ctx ⟨core, e.2⟩).state ≠ .halted)).length

/-- Requests of a core that lie past its network interface. -/
def State.networkRequests (s : State) (core : Nat) : Nat :=
  (s.grid.reqs.filter fun r => decide (r.thread.core = core) && !r.heldStore).length

/-- RESET_DONE (R485). -/
def State.resetDone (s : State) (op : GridOp) (cause : Nat) (mask : W64) (halted : Nat) (cids : List Cid) : State :=
  match op with
  | .reset scope x y q =>
    s.notice 0x0090 (beBytes 1 scope ++ beBytes 1 cause ++ beBytes 1 (if scope = 0 then x else 0) ++
      beBytes 1 (if scope = 0 then y else 0) ++ beBytes 1 (if scope = 2 then q else 0) ++ zeros 3 ++
      beBytes 8 (if scope = 1 then mask.toNat else 0) ++ beBytes 4 halted ++ (cids.take 16).flatMap fun c => beBytes 2 c.toNat)
  | _ => s

/-- Applies a reset: threads halt, searches in service end, and the order and the notice are sent (R481 to R485). -/
def State.applyReset (s : State) (d : Deferred) : State :=
  let cores := resetCores d.op d.mask
  let halted := (cores.map s.toHalt).foldl (· + ·) 0
  let out := (cores.map s.networkRequests).foldl (· + ·) 0
  let cids := ((cores.filter fun k => decide (0 < s.toHalt k)).map fun k => (s.cluster (clusterOf k)).cid).eraseDups
  let hit := fun (a : Attached) => decide (a.mask &&& d.mask ≠ 0)
  let s := cores.foldl State.resetCore s
  let s := match d.op, cores with
    | .reset 0 _ _ _, k :: _ => s.bump 8 (partitionOf (clusterOf k)) 2
    | _, _ => s
  let s := s.abortSearches false hit
  let s := (List.range 16).foldl (fun s i => if (s.indexAt i).used ∧ hit (s.indexAt i) then s.resumeMerge i else s) s
  let s := match d.order with
    | some ref => s.finishOrder ref stOk (beBytes 4 halted ++ beBytes 4 out)
    | none => s
  s.resetDone d.op (if d.order.isSome then 0 else 1) d.mask halted cids

/-- A load, unload or release in progress names one of the clusters. -/
def State.jobsOn (s : State) (mask : W64) : Bool :=
  (s.grid.jobs.any fun j => decide (j.mask &&& mask ≠ 0)) || s.grid.releases.any fun r => decide (r.2 &&& mask ≠ 0)

/-- Runs an order that waited. -/
def State.runDeferred (s : State) (d : Deferred) : State :=
  match d.order, d.op with
  | _, .reset _ _ _ _ => s.applyReset d
  | some ref, .assign cid => s.doAssign ref d.mask cid
  | some ref, .release => s.doRelease ref d.mask
  | some ref, .load p desc => s.doLoad ref d.mask p desc
  | some ref, .start p args => s.doStart ref d.mask p args
  | some ref, .switch p => s.doSwitch ref d.mask p
  | some ref, .unload p => s.doUnload ref d.mask p
  | some ref, .attach cid desc p => s.doAttach ref d.mask cid desc p
  | none, _ => s

def GridOp.isReset : GridOp → Bool
  | .reset _ _ _ _ => true
  | _ => false

/-- The first waiting order whose turn has come: nothing before it names one of its clusters, and a reset has no load, unload or
release in progress before it. -/
def State.dueDeferred (s : State) : Option (Deferred × Nat) :=
  s.grid.deferred.zipIdx.find? fun e =>
    !(s.grid.deferred.take e.2).any (fun d => decide (d.mask &&& e.1.mask ≠ 0)) && !(e.1.op.isReset && s.jobsOn e.1.mask)

/-- Waiting orders take their turns (R481). -/
def State.settleDeferred (s : State) : State := go (s.grid.deferred.length + 1) s
where
  go : Nat → State → State
    | 0, s => s
    | n + 1, s =>
      match s.dueDeferred with
      | none => s
      | some (d, k) => go n (State.runDeferred { s with grid := { s.grid with deferred := s.grid.deferred.eraseIdx k } } d)

/-- The block's own test runs. -/
def State.ownTestRuns (s : State) (cls unit : Nat) : Bool :=
  match (s.block cls unit).test with
  | some t => t.running
  | none => false

/-- A test runs on the block: its own, or a device-class test, which tests every block (R495). -/
def State.testRuns (s : State) (cls unit : Nat) : Bool := s.ownTestRuns cls unit || s.ownTestRuns 5 0

/-- A partition is under test. -/
def State.underTest (s : State) (q : Nat) : Bool := s.testRuns 3 q

/-- Clusters of a partition. -/
def partitionMask (q : Nat) : W64 :=
  BitVec.ofNat 64 (ofBits ((List.range 64).map fun c => decide (partitionOf c = q)))

/-- Clusters that a RESET reaches; none where its operands name nothing. -/
def resetMask (scope x y partition : Nat) (mask : W64) : Option W64 :=
  match scope with
  | 0 => if x < 32 ∧ y < 32 then some (1 <<< clusterOf (32 * y + x)) else none
  | 1 => if mask = 0 then none else some mask
  | 2 => if partition < 4 then some (partitionMask partition) else none
  | _ => none

/-- RESET. -/
def execReset (o : Order) (scope x y partition : Byte) (mask : W64) (s : State) : Out :=
  .next (orderRequest o (fun ref s =>
    match resetMask scope.toNat x.toNat y.toNat partition.toNat mask with
    | none => s.finishOrder ref stInvalid []
    | some m =>
      let cs := clustersOf m
      if scope ≠ 2 ∧ cs.any fun c => decide ((s.cluster c).state = .unavailable) then s.finishOrder ref stInvalid []
      else if cs.any fun c => s.underTest (partitionOf c) then s.finishOrder ref stBusy []
      else
        (s.defer { order := some ref, mask := m, op := .reset scope.toNat x.toNat y.toNat partition.toNat }).settleDeferred) s)

/-- CORE_ERROR (R484): a core reset, or poison where the error struck scratch, a slot or an accumulator. -/
def execCoreError (now core : Nat) (place : CoreErrorWhere) (s : State) : Out :=
  .next (let s := s.advanceTo now
    if 1024 ≤ core ∨ !s.inService then s
    else
      let q := partitionOf (clusterOf core)
      let s := s.bumpAlert 8 q 1
      let k := s.core core
      let reset := fun (s : State) =>
        (s.defer { mask := 1 <<< clusterOf core, op := .reset 0 (core % 32) (core / 32) 0 }).settleDeferred
      match place with
      | .context | .instructionStore | .pipeline => reset s
      | .scratch line => s.setCore core { k with scratchPoison := k.scratchPoison.set false line true }
      | .slotReg slot reg =>
        s.setCore core { k with slots := k.slots.mod {} slot fun x => { x with vPoison := x.vPoison.set false reg true } }
      | .slotMask slot mask =>
        s.setCore core { k with slots := k.slots.mod {} slot fun x => { x with mPoison := x.mPoison.set false mask true } }
      | .accumulator e => s.setCore core { k with accs := k.accs.mod {} e fun x => { x with poison := true } })

/-! ### Grid orders -/

/-- CLUSTER_ASSIGN. -/
def execClusterAssign (o : Order) (mask : W64) (cid : Cid) (s : State) : Out :=
  .next (gridOrder o mask (.assign cid) (fun ref s => s.doAssign ref mask cid) s)

/-- CLUSTER_ZEROED (R239, R240); resets that waited for the release take their turn (R481). -/
def execClusterZeroed (now cluster : Nat) (s : State) : Out :=
  .next (s.serving fun s => let s := s.advanceTo now
    if (s.cluster cluster).state = .zeroing then
      (((s.zeroCluster cluster).setCluster cluster { state := .free }).settleReleases).settleDeferred
    else s)

/-- CLUSTER_RELEASE. -/
def execClusterRelease (o : Order) (mask : W64) (s : State) : Out :=
  .next (gridOrder o mask .release (fun ref s => (s.doRelease ref mask).settleDeferred) s)

/-- PROGRAM_LOAD. -/
def execProgramLoad (o : Order) (mask : W64) (program : Byte) (desc : Ptr) (s : State) : Out :=
  .next (gridOrder o mask (.load program.toNat desc) (fun ref s => s.doLoad ref mask program.toNat desc) s)

/-- PROGRAM_LOADED (R244). -/
def execProgramLoaded (now idx : Nat) (s : State) : Out :=
  .next (s.serving fun s => (programLoaded now idx s).settleDeferred)

/-- PROGRAM_START. -/
def execProgramStart (o : Order) (mask : W64) (program : Byte) (args : List W64) (s : State) : Out :=
  .next (gridOrder o mask (.start program.toNat args) (fun ref s => s.doStart ref mask program.toNat args) s)

/-- PROGRAM_SWITCH. -/
def execProgramSwitch (o : Order) (mask : W64) (program : Byte) (s : State) : Out :=
  .next (gridOrder o mask (.switch program.toNat) (fun ref s => s.doSwitch ref mask program.toNat) s)

/-- PROGRAM_UNLOAD. -/
def execProgramUnload (o : Order) (mask : W64) (program : Byte) (s : State) : Out :=
  .next (gridOrder o mask (.unload program.toNat) (fun ref s => s.doUnload ref mask program.toNat) s)

/-- PROGRAM_UNLOADED (R246). -/
def execProgramUnloaded (now idx : Nat) (s : State) : Out :=
  .next (s.serving fun s => (programUnloaded now idx s).settleDeferred)

/-- SEARCH_ATTACH. -/
def execSearchAttach (o : Order) (desc : Ptr) (mask : W64) (program : Byte) (s : State) : Out :=
  .next (gridOrder o mask (.attach o.hdr.cid desc program.toNat)
    (fun ref s => s.doAttach ref mask o.hdr.cid desc program.toNat) s)

end Sys2Proof.Machine
end

