-- ==== Sys2Proof/Machine/Checkpoint.lean ====
section
/-! DEFINITION. The roasters (12): CKPT_COMPRESS and CKPT_RESTORE, the hand-out of groups, and the groups' passes. -/
namespace Sys2Proof.Machine

def State.setCkpt (s : State) (c : Ckpt) : State := { s with ckpt := c }

def State.roaster (s : State) (k : Nat) : Roaster := s.ckpt.roasters.get {} k

def State.setCkptReq (s : State) (q : CkptReq) : State :=
  s.setCkpt { s.ckpt with service := s.ckpt.service.map fun x => if x.id = q.id then q else x }

def State.ckptReq (s : State) (id : Nat) : Option CkptReq := s.ckpt.service.find? fun (q : CkptReq) => decide (q.id = id)

def CkptReq.planes (q : CkptReq) : Nat := (planesOf q.etype).getD 1

/-- The group's cupping pass has ended. -/
def CkptReq.passed (q : CkptReq) (g : Nat) : Bool := q.coded.any fun e => decide (e.1 = g)

/-- A roaster can take a group: it counts none, and one of its two buffers is free (R387). -/
def State.roasterIdle (s : State) (k : Nat) : Bool :=
  let l := (s.roaster k).groups
  decide (l.length < 2) && l.all fun e =>
    match s.ckptReq e.1 with
    | some q => !q.restore && q.passed e.2
    | none => true

/-- The next idle roaster in turn. -/
def State.nextRoaster (s : State) : Option Nat :=
  ((List.range 8).map fun i => (s.ckpt.next + i) % 8).find? fun k => s.roasterIdle k

/-- Hands out groups, in order of acceptance and ascending within a request, and takes requests into service (R386). -/
def State.handOut (s : State) : Nat → State
  | 0 => s
  | n + 1 =>
    match s.nextRoaster with
    | none => s
    | some k =>
      match s.ckpt.service.find? fun (q : CkptReq) => decide (q.handed < groupsOf q.size) with
      | some q =>
        let s := s.setCkptReq { q with handed := q.handed + 1 }
        State.handOut (s.setCkpt { s.ckpt with
          next := (k + 1) % 8
          roasters := s.ckpt.roasters.mod {} k fun r => { groups := r.groups ++ [(q.id, q.handed)] } }) n
      | none =>
        match s.ckpt.queue with
        | q :: t => State.handOut (s.setCkpt { s.ckpt with queue := t, service := s.ckpt.service ++ [q] }) n
        | [] => s

/-- Frames left at ingress enter the queue while it has room, and leave the packet buffer (R227, R386). -/
def State.refillCkpt (s : State) : State :=
  let c := s.ckpt
  let n := 64 - c.queue.length
  (c.ingress.take n).foldl (fun s q => s.takeFromIngress q.h)
    (s.setCkpt { c with queue := c.queue ++ c.ingress.take n, ingress := c.ingress.drop n })

/-- Hands out what can be handed out. -/
def State.runRoasters (s : State) : State := ((s.handOut 32).refillCkpt).handOut 32

/-- The response of a request: the compressed or restored length (R88, R114). -/
def State.answerCkpt (s : State) (q : CkptReq) (st : Byte) (n : Nat) : State :=
  if q.v1 then s.respondV1 q.h 0x0C (decide (st = stOk)) (beBytes 8 n)
  else s.respond q.h (if q.restore then 0x3D else 0x3C) st (beBytes 8 n)

/-- What the roasters have read for a request is dropped. -/
def State.forgetCkpt (s : State) (id : Nat) : State :=
  s.forgetIf fun u => match u with
    | .ckpt q _ => decide (q = id)
    | _ => false

/-- A request leaves the roasters with a status. -/
def State.endCkpt (s : State) (q : CkptReq) (st : Byte) (n : Nat) : State :=
  let s := (((s.answerCkpt q st n).clearFailure (engineReq q.id)).forgetCkpt q.id).setCkpt { s.ckpt with
    service := s.ckpt.service.filter fun x => decide (x.id ≠ q.id)
    roasters := s.ckpt.roasters.mapAll {} fun _ r => { groups := r.groups.filter fun e => decide (e.1 ≠ q.id) } }
  s.runRoasters

/-- Takes an accepted request in; where the queue is full, its frame stays at ingress (R386). -/
def State.acceptCkpt (s : State) (q : CkptReq) : State :=
  let (id, s) := s.takeId
  let q := { q with id := id }
  if s.ckpt.queue.length < 64 then (s.setCkpt { s.ckpt with queue := s.ckpt.queue ++ [q] }).runRoasters
  else ((s.setCkpt { s.ckpt with ingress := s.ckpt.ingress ++ [q] }).leaveAtIngress q.h).runRoasters

/-- Source and destination overlap within one region. -/
def overlaps (src dst : Ptr) (n m : Nat) : Bool :=
  decide (src.rh = dst.rh) && decide (src.offset.toNat < dst.offset.toNat + m) && decide (dst.offset.toNat < src.offset.toNat + n)

/-- The conditions of R388; none where they hold. -/
def compressValid (src : Ptr) (srcLen : W64) (dst : Ptr) (dstCap : W64) (etype mode : Byte) : Option Byte :=
  match planesOf etype.toNat with
  | none => some stInvalid
  | some p =>
    let n := srcLen.toNat
    if 4 < mode.toNat ∨ n = 0 ∨ 2 ^ 48 < n ∨ n % p ≠ 0 ∨ overlaps src dst n dstCap.toNat ∨ dstCap.toNat < maxStream n p mode.toNat then
      some stInvalid
    else none

/-- CKPT_COMPRESS (R386, R388). -/
def execCkptCompress (h : Hdr) (src : Ptr) (srcLen : W64) (dst : Ptr) (dstCap : W64) (etype mode : Byte) (s : State) : Out :=
  .next (engineRequest h 0x3C 44 (compressValid src srcLen dst dstCap etype mode) (zeros 8) (zeros 8) [src.rh, dst.rh]
    (fun s => s.acceptCkpt
      { h := h, src := src, dst := dst, etype := etype.toNat, mode := mode.toNat, size := srcLen.toNat
        offsets := [prologue (groupsOf srcLen.toNat)] }) s)

/-- What a restore's header and index come to: none while one of them is being read, else a status or the accepted request (R391). The
padding is part of the index (R376). -/
def State.readStream (s : State) (h : Hdr) (v1 : Bool) (src : Ptr) (srcLen : Nat) (dst : Ptr) (dstCap : Nat) :
    State × Option (Byte ⊕ CkptReq) :=
  let u : Asker := .frame h.src h.tag
  match s.unitRead u h.cid src.rh src.offset.toNat 64 with
  | (s, g) =>
    if g.waits then (s, none)
    else if g.status ≠ stOk then (s, some (.inl g.status))
    else if g.poisoned then (s, some (.inl stPoison))
    else if !streamHeaderOk g.data v1 srcLen dstCap then (s, some (.inl stInvalid))
    else
      let size := fieldLe g.data 8 8
      let n := groupsOf size
      match s.unitRead u h.cid src.rh (src.offset.toNat + 64) (prologue n - 64) with
      | (s, x) =>
        let index := (List.range n).map fun i => fieldLe x.data (8 * i) 8
        (s, if x.waits then none
          else if x.status ≠ stOk then some (.inl x.status)
          else if x.poisoned then some (.inl stPoison)
          else if !indexOk srcLen 0 index then some (.inl stInvalid)
          else
            some (.inr { h := h, v1 := v1, restore := true, src := src, dst := dst, etype := fieldLe g.data 5 1
                         mode := fieldLe g.data 6 1, size := size, streamLength := srcLen, offsets := index }))

/-- A CKPT_RESTORE that passed its checks at ingress; it is held while its header or index cannot be read yet. -/
def State.restore (s : State) (h : Hdr) (v1 : Bool) (src : Ptr) (srcLen : Nat) (dst : Ptr) (dstCap : Nat) : State :=
  let u : Asker := .frame h.src h.tag
  match s.readStream h v1 src srcLen dst dstCap with
  | (s, none) => s.holdArrival { what := .restore v1 src srcLen dst dstCap, h := h }
  | (s, some (.inl st)) => (s.forget u).answerCkpt { h := h, v1 := v1, restore := true } st 0
  | (s, some (.inr q)) => (s.forget u).acceptCkpt q

/-- CKPT_RESTORE (R386, R391). -/
def execCkptRestore (h : Hdr) (src : Ptr) (srcLen : W64) (dst : Ptr) (dstCap : W64) (s : State) : Out :=
  .next (engineRequest h 0x3D 44 none (zeros 8) (zeros 8) [src.rh, dst.rh]
    (fun s => s.restore h false src srcLen.toNat dst dstCap.toNat) s)

/-- The roaster that holds a group. -/
def State.roasterOf (s : State) (id g : Nat) : Option Nat :=
  (s.ckpt.roasters.find? fun e => e.2.groups.contains (id, g)).map (·.1)

/-- A roaster gives up the buffer of a group. -/
def State.freeGroup (s : State) (id g : Nat) : State :=
  s.setCkpt { s.ckpt with roasters := s.ckpt.roasters.mapAll {} fun _ r =>
    { groups := r.groups.filter fun e => decide (e ≠ (id, g)) } }

/-- An access of the request failed: it ends the request at once (R389). A write that timed out only leaves its status POISON
(R112). -/
def State.ckptFailed (s : State) (q : CkptReq) : Option Byte :=
  let f := s.unitFailure (engineReq q.id)
  if f = stOk ∨ f = stPoison then none else some f

/-- A write of a roaster, with the write right of the destination under the frame's cid: a read-only requester has none (R389, R430). -/
def State.ckptWrite (s : State) (q : CkptReq) (off : Nat) (data : List Byte) (taint : List Nat) : State × Byte :=
  s.unitWrite (engineReq q.id) q.h.cid q.h.src 0 q.dst.rh off data taint

/-- Completes a request whose groups are all dealt with; a compression writes its header first (R387, R392). -/
def State.settleCkpt (s : State) (id : Nat) : State :=
  match s.ckptReq id with
  | none => s
  | some q =>
    match s.ckptFailed q with
    | some f => s.endCkpt q f 0
    | none =>
    if s.unitBusy (engineReq id) || decide (q.written.length < groupsOf q.size) then s
    else
      let st := if q.poisoned || decide (s.unitFailure (engineReq id) = stPoison) then stPoison else stOk
      if q.restore then s.endCkpt q st q.size
      else if q.headerDone then s.endCkpt q st q.streamLength
      else
        match s.ckptWrite q q.dst.offset.toNat (streamHeader q.etype q.mode q.planes q.size q.streamLength) [] with
        | (s, w) =>
          if w ≠ stOk then s.endCkpt q w 0
          else if s.unitBusy (engineReq id) then s.setCkptReq { q with headerDone := true }
          else
            match s.ckptFailed q with
            | some f => s.endCkpt q f 0
            | none => s.endCkpt q (if s.unitFailure (engineReq id) = stPoison then stPoison else st) q.streamLength

/-- Offsets that the ended passes fix beyond those assigned (R387): the group after the last assigned one, and so on. -/
def CkptReq.assign (q : CkptReq) : Nat → CkptReq × List (Nat × Nat)
  | 0 => (q, [])
  | n + 1 =>
    let last := q.offsets.length - 1
    if !q.passed last then (q, [])
    else
      let next := nth 0 q.offsets last + (q.coded.get [] last).length
      if last + 1 = groupsOf q.size then ({ q with streamLength := next }, [])
      else
        let (q, l) := CkptReq.assign { q with offsets := q.offsets ++ [next] } n
        (q, (last + 1, next) :: l)

/-- Index entries as writes: position in the index and bytes. Entry 0 comes with the padding. -/
def indexWrites (q : CkptReq) (first : Bool) (l : List (Nat × Nat)) : List (Nat × List Byte) :=
  let n := groupsOf q.size
  (if first then [(64, leBytes 8 (nth 0 q.offsets 0)), (64 + 8 * n, zeros (prologue n - 64 - 8 * n))] else []) ++
    l.map fun e => (64 + 8 * e.1, leBytes 8 e.2)

/-- CUPPING_PASS_END (R380 to R382, R387, R390). -/
def execCuppingPassEnd (now req group : Nat) (s : State) : Out :=
  .next (s.serving fun s => let s := s.advanceTo now
    match s.ckptReq req, s.roasterOf req group with
    | some q, some _ =>
      if q.restore || q.passed group then s
      else if (s.ckptFailed q).isSome then s.settleCkpt req
      else
        let n := ((groupBlocks q.size group).map (blockLen q.size)).foldl (· + ·) 0
        match s.unitRead (.ckpt req group) q.h.cid q.src.rh (q.src.offset.toNat + 1048576 * group) n with
        | (s, g) =>
          if g.waits then s
          else if g.status ≠ stOk then s.endCkpt q g.status 0
          else
            let blocks := (groupBlocks q.size group).map fun b =>
              let k := 65536 * (b - 16 * group)
              (sliceBytes g.data k (blockLen q.size b), ((g.poison.drop k).take (blockLen q.size b)).any fun p => p)
            let (bytes, poison) := encodeGroup q.mode q.planes group blocks
            let q := { q with
              coded := q.coded.set [] group bytes, codedPoison := q.codedPoison.set [] group poison
              poisoned := q.poisoned || blocks.any (fun b => b.2) }
            let (q, l) := q.assign (groupsOf q.size)
            let s := (s.forget (.ckpt req group)).setCkptReq q
            let w := (indexWrites q (decide (group = 0)) l).foldl (fun (x : State × Byte) e =>
              if x.2 ≠ stOk then x
              else x.1.ckptWrite q (q.dst.offset.toNat + e.1) e.2 []) (s, stOk)
            if w.2 ≠ stOk then w.1.endCkpt q w.2 0 else (w.1.runRoasters).settleCkpt req
    | _, _ => s)

/-- GROUP_WRITE_DONE (R387, R389): the group's offset is known and its bytes are written. -/
def execGroupWriteDone (now req group : Nat) (s : State) : Out :=
  .next (s.serving fun s => let s := s.advanceTo now
    match s.ckptReq req with
    | none => s
    | some q =>
      if q.restore || !q.passed group || q.written.contains group || decide (q.offsets.length ≤ group) ||
          (s.ckptFailed q).isSome then s.settleCkpt req
      else
        let off := q.dst.offset.toNat + nth 0 q.offsets group
        match s.ckptWrite q off (q.coded.get [] group) (taintOf off (q.codedPoison.get [] group)) with
        | (s, st) =>
          if st ≠ stOk then s.endCkpt q st 0
          else
            let k := (s.roasterOf req group).getD 0
            let s := s.setCkptReq { q with
              written := q.written ++ [group], codedPoison := q.codedPoison.set [] group [] }
            (((s.freeGroup req group).bump 9 (32 + k) 0).runRoasters).settleCkpt req)

/-- Where group g of a stream ends. -/
def CkptReq.groupEnd (q : CkptReq) (g : Nat) : Nat := nth q.streamLength q.offsets (g + 1)

/-- Writes one restored block; a failed one as zeros with poison (R392). -/
def State.restoreBlock (s : State) (q : CkptReq) (k b : Nat) (x : Restored) : State × Byte :=
  let n := blockLen q.size b
  let off := q.dst.offset.toNat + 65536 * b
  let lines := (List.range (linesOf off n)).map fun j => off / 64 + j
  let w := fun (s : State) (l : List Byte) (t : List Nat) => s.ckptWrite q off l t
  match x with
  | .whole d marked => w s d (if marked then lines else [])
  | .poisoned => w s (zeros n) lines
  | .corrupt => w (s.bump 9 (32 + k) 3) (zeros n) lines

def Restored.poisons : Restored → Bool
  | .whole _ marked => marked
  | _ => true

/-- RESTORE_GROUP (R389, R392). -/
def execRestoreGroup (now req group : Nat) (s : State) : Out :=
  .next (s.serving fun s => let s := s.advanceTo now
    match s.ckptReq req with
    | none => s
    | some q =>
      match s.roasterOf req group with
      | none => s.settleCkpt req
      | some k =>
        if !q.restore then s
        else if (s.ckptFailed q).isSome then s.settleCkpt req
        else
          let start := nth 0 q.offsets group
          match s.unitRead (.ckpt req group) q.h.cid q.src.rh (q.src.offset.toNat + start) (q.groupEnd group - start) with
          | (s, g) =>
            if g.waits then s
            else if g.status ≠ stOk then s.endCkpt q g.status 0
            else
              let bs := groupBlocks q.size group
              let rs := decodeGroup q.mode q.planes g.data g.poison (bs.map (blockLen q.size))
              let w := (bs.zip rs).foldl (fun (x : State × Byte) e =>
                if x.2 ≠ stOk then x else x.1.restoreBlock q k e.1 e.2) (s.forget (.ckpt req group), stOk)
              if w.2 ≠ stOk then w.1.endCkpt q w.2 0
              else
                let s := w.1.setCkptReq { q with written := q.written ++ [group], poisoned := q.poisoned || rs.any Restored.poisons }
                (((s.freeGroup req group).bump 9 (32 + k) 0).runRoasters).settleCkpt req)

/-- A CKPT_RESTORE whose header or index has to wait. -/
def Arrival.isRestore (a : Arrival) : Bool :=
  match a.what with
  | .restore .. => true
  | _ => false

def Arrival.v1Restore (a : Arrival) : Bool :=
  match a.what with
  | .restore v1 .. => v1
  | _ => false

/-- Every CKPT request of a composition stops with ABORTED and a length of zero (R393). -/
def State.abortCkpt (s : State) (cid : Cid) : State :=
  let mine := fun (q : CkptReq) => decide (q.h.cid = cid)
  let gone := (s.ckpt.service ++ s.ckpt.queue ++ s.ckpt.ingress).filter mine
  let held := s.reqs.arrivals.filter fun a => decide (a.h.cid = cid) && a.isRestore
  let s := s.setCkpt { s.ckpt with
    service := s.ckpt.service.filter (fun q => !mine q), queue := s.ckpt.queue.filter (fun q => !mine q)
    ingress := s.ckpt.ingress.filter (fun q => !mine q)
    roasters := s.ckpt.roasters.mapAll {} fun _ r => { groups := r.groups.filter fun e => !gone.any fun q => decide (q.id = e.1) } }
  let s := { s with reqs := { s.reqs with arrivals := s.reqs.arrivals.filter fun a => !(decide (a.h.cid = cid) && a.isRestore) } }
  let s := held.foldl (fun s a =>
    (s.forget (.frame a.h.src a.h.tag)).answerCkpt { h := a.h, v1 := a.v1Restore, restore := true } stAborted 0) s
  (gone.foldl (fun s q =>
    (((s.answerCkpt q stAborted 0).clearFailure (engineReq q.id)).forgetCkpt q.id).takeFromIngress q.h) s).runRoasters

end Sys2Proof.Machine
end

