-- ==== Sys2Proof/Machine/Sidereal.lean ====
section
/-! DEFINITION. The sidereal count's measured period, its loss of lock, and orbits (06: R183, R186 to R192, R197). -/
namespace Sys2Proof.Machine

def State.setSky (s : State) (k : Sky) : State := { s with sky := k }

/-- Sum of the intervals that the measured period averages (R183). -/
def Sky.intervalSum (k : Sky) : Nat := k.intervals.foldl (· + ·) 0

/-- T in ns, rounded down; 0 while T does not exist (R183, R190). -/
def Sky.period (k : Sky) : Nat := k.intervalSum / k.intervals.length

/-- The first local time at or after `phase / 256` of T past a tick instant (R192). -/
def Sky.phaseFrom (k : Sky) (instant phase : Nat) : Nat :=
  let d := 256 * k.intervals.length
  if d = 0 then instant else instant + (phase * k.intervalSum + d - 1) / d

/-- The moment of a phase of the last tick (R192). -/
def Sky.phaseTime (k : Sky) (phase : Nat) : Nat := k.phaseFrom k.instant phase

/-- Tick instants of the last ticks, latest first: a tick hold reaches over 16 of the shortest ticks at most (R174, R175). -/
def Sky.instants (k : Sky) : List Nat := k.instant :: k.before

/-- Whether the moment of a count and phase meets `p`: it is timed from the tick instant of that count (R175, R192, R200). A moment
further back than the instants that are kept is past. -/
def Sky.moment (k : Sky) (count phase : Nat) (p : Nat → Bool) : Bool :=
  decide (count ≤ k.count.toNat) && match k.instants[k.count.toNat - count]? with
    | some i => p (k.phaseFrom i phase)
    | none => true

/-- The count and phase have been reached at local time `now`. -/
def Sky.reached (k : Sky) (count phase now : Nat) : Bool := k.moment count phase fun t => decide (t ≤ now)

/-- The moment of the count and phase is over at local time `now`. -/
def Sky.past (k : Sky) (count phase now : Nat) : Bool := k.moment count phase fun t => decide (t < now)

/-- The count has been carried by a TICK that was taken (R181). -/
def Sky.isCopy (k : Sky) (count : W64) : Bool :=
  k.taken.any fun r => decide (r.1.toNat ≤ count.toNat) && decide (count.toNat ≤ r.2.toNat)

/-- Notes a count as taken; the run that ends just before it grows. -/
def Sky.take (k : Sky) (count : W64) : Sky :=
  match k.taken with
  | (a, b) :: t => if b + 1 = count then { k with taken := (a, count) :: t } else { k with taken := (count, count) :: k.taken }
  | [] => { k with taken := [(count, count)] }

/-- The counts remembered past a loss of lock: the last 16 of the last run, since a source may start over at lower counts
(DESIGN CHOICE, log 91). -/
def Sky.recent (k : Sky) : List (W64 × W64) :=
  match k.taken with
  | (a, b) :: _ => [(if b.toNat < a.toNat + 16 then a else b - 15, b)]
  | [] => []

/-- The count leaves LOCKED: notice 0x0011 with the cause, and no transit of the tick fires any more (R186, R187, R189). T, the
established count and the run stay until the next tick. A lock loss alerts at once (R507). -/
def State.loseLock (s : State) (cause : Nat) : State :=
  let k := s.sky
  let s := s.notice 0x0011 (beBytes 8 (k.lastLocked.getD 0).toNat ++ beBytes 1 cause)
  let out := if s.boot.cfg.device.tickSource = 0 then k.skyout else none
  let s := s.setSky { k with lock := .lost, lossCause := cause, badRun := 0, due := [], beyond := [], taken := k.recent, skyout := out }
  s.bumpAlert 11 0 4

/-! ### Tick sources (R171) -/

abbrev srcSky : Nat := 0
abbrev srcFrames : Nat := 1
abbrev srcLocal : Nat := 2

/-- A port has a sub-port UP. -/
def State.portUp (s : State) (port : Nat) : Bool :=
  (List.range 8).any fun q => decide ((s.subPort (subKey port q)).link = .up)

/-- Ports configured as tick ports. -/
def State.tickPorts (s : State) : List Nat := (List.range 32).filter fun p => (s.portCfg p).tick

/-- With TICK frames as the source, the count is lost when no tick port has a link any more (R186). -/
def State.tickLinks (s : State) : State :=
  if s.boot.cfg.device.tickSource = srcFrames ∧ s.sky.lock = .locked ∧ ¬ s.tickPorts.any s.portUp then s.loseLock 4 else s

/-! ### Orbits (R191, R192, R195) -/

def State.orbit (s : State) (o : Nat) : Orbit := s.sky.orbits.get {} o

def State.setOrbit (s : State) (o : Nat) (x : Orbit) : State := s.setSky { s.sky with orbits := s.sky.orbits.set {} o x }

/-- An orbit is enabled from its ORBIT_ENABLE until its disable count is reached (R196). -/
def State.orbitEnabled (s : State) (x : Orbit) : Bool :=
  x.enable.isSome && match x.disable with
    | some d => decide (s.sky.count.toNat < d)
    | none => true

/-- An orbit's entries with this tick fire at the count `c` (R192). -/
def Orbit.fires (x : Orbit) (tick c : Nat) : Bool :=
  match x.enable with
  | none => false
  | some en =>
    decide (x.anchor ≤ c) && decide (en ≤ c) && decide ((c - x.anchor) % x.period = tick) &&
      match x.disable with
      | some d => decide (c < d)
      | none => true

def State.transit (s : State) (i : Nat) : Entry := s.sky.transits.get {} i

/-- The entries of an orbit that are not empty, by ascending index. -/
def State.entriesOf (s : State) (x : Orbit) : List (Nat × Entry) :=
  s.sky.transits.filter fun e => decide (x.first ≤ e.1) && decide (e.1 < x.first + x.count) && decide (e.2.kind ≠ 0)

/-- Entry index of the composition that a transit's counters belong to. -/
def State.transitComp (s : State) (cid : Cid) : Option Nat := if cid = 0 then none else s.compIdx cid

/-- Counts a transit as late for its composition and its orbit (R194, R201). -/
def State.countLate (s : State) (orbit : Nat) (cid : Cid) : State :=
  let x := s.orbit orbit
  let s := s.setOrbit orbit { x with late := min 0xFFFFFFFF (x.late + 1) }
  match s.transitComp cid with
  | some e => s.bump 10 e 5
  | none => s

/-- Counts a skipped transit (R197). -/
def State.countSkipped (s : State) (cid : Cid) : State :=
  match s.transitComp cid with
  | some e => s.bump 10 e 6
  | none => s

/-- Disables every orbit of a composition, and ends its reservations (R197, R437). -/
def State.dropOrbits (s : State) (cid : Cid) : State :=
  s.setSky { s.sky with
    orbits := s.sky.orbits.mapAll {} fun _ x => if x.cid = cid then { x with enable := none } else x
    reservations := s.sky.reservations.filter fun r => decide (r.cid ≠ cid)
    promotes := s.sky.promotes.filter fun p => decide (p.cid ≠ cid) }

end Sys2Proof.Machine
end

