-- ==== Sys2Proof/Machine/Wire.lean ====
section
/-! DEFINITION. A frame as it goes over the wire: its MAC addresses and tag, its encapsulation, and the padding to the Ethernet
minimum (R62, R64, R66, R67, R565, R566). The preamble, the FCS and what MACsec adds are no part of it. -/
namespace Sys2Proof.Machine

/-- A TFP frame from its header to the end of its trailer (R67, R94, R114). -/
def OutFrame.tfp (f : OutFrame) : List Byte :=
  (if f.v1 then f.headerV1 else f.header) ++ f.payload ++ match f.counter with
    | some n => beBytes 8 n.toNat ++ beBytes 32 f.mac.toNat
    | none => []

/-- Sum of the 16-bit words of a text, big-endian, as the Internet checksum adds them. -/
def wordSum : List Byte → Nat
  | [] => 0
  | [a] => 256 * a.toNat
  | a :: b :: t => 256 * a.toNat + b.toNat + wordSum t

/-- The one's complement of the one's complement sum of 16-bit words. -/
def onesSum (l : List Byte) : Nat :=
  let n := wordSum l
  0xFFFF - (if n = 0 then 0 else (n - 1) % 0xFFFF + 1)

/-- The checksum of UDP, which sends zero as all ones (RFC 768). -/
def checksum (l : List Byte) : Nat :=
  let c := onesSum l
  if c = 0 then 0xFFFF else c

/-- The UDP header and what it carries, with the checksum over the IPv6 pseudo-header (R64). -/
def udpBytes (ip : Ip) (from_ port : Nat) (l : List Byte) : List Byte :=
  let n := 8 + l.length
  let head := beBytes 2 from_ ++ beBytes 2 port ++ beBytes 2 n
  let pseudo := beBytes 16 ip.src.toNat ++ beBytes 16 ip.dst.toNat ++ beBytes 4 n ++ zeros 3 ++ beBytes 1 17
  head ++ beBytes 2 (checksum (pseudo ++ head ++ zeros 2 ++ l)) ++ l

/-- An IPv6 packet with its next header, traffic class from the ECN field alone and flow label 0. -/
def ipBytes (ip : Ip) (next : Nat) (l : List Byte) : List Byte :=
  beBytes 4 (0x60000000 + ip.ecn.toNat * 0x100000) ++ beBytes 2 l.length ++ beBytes 1 next ++ beBytes 1 ip.hopLimit ++
    beBytes 16 ip.src.toNat ++ beBytes 16 ip.dst.toNat ++ l

/-- The IPv6 address of an AID, by the index in its forwarding entry (R564, R565). -/
def State.ipv6Of (s : State) (a : Aid) : BitVec 128 :=
  let i := bitsOf (s.switch.fwd.get 0 a.toNat).toNat 43 12
  s.switch.ipv6.get 0 (2 * i) ++ s.switch.ipv6.get 0 (2 * i + 1)

/-- The IPv6 header of a frame: the one that it came with, else one built anew with hop limit 64 (R64, R566). -/
def State.ipOf (s : State) (f : OutFrame) : Ip :=
  f.ip.getD { src := s.ipv6Of f.src, dst := s.ipv6Of f.dst, hopLimit := 64, ecn := if f.ce then 3 else 2 }

/-- EtherType and what follows, in the encapsulation of the port (R62). -/
def State.encapsulated (s : State) (k : Nat) (f : OutFrame) : List Byte :=
  if (s.portCfg (k / 8)).ipv6 then
    let ip := s.ipOf f
    beBytes 2 0x86DD ++
      ipBytes ip 17 (udpBytes ip (Config.udpHash f.src f.dst f.cid).toNat s.boot.cfg.device.udpPort f.tfp)
  else beBytes 2 s.boot.cfg.device.etherType ++ f.tfp

/-- The neighbour register that a forwarding entry names for the way it goes now (R564, R565). -/
def State.neighbour (s : State) (e : W64) : W64 :=
  s.switch.neighbours.get 0 (if e.getLsbD 2 then bitsOf e.toNat 31 12 else bitsOf e.toNat 19 12)

/-- At least 46 bytes after the EtherType (R66). -/
def padded (l : List Byte) : List Byte := l ++ zeros (48 - l.length)

/-- A frame from its destination MAC to the end of its payload or padding (R566). -/
def State.wireBytes (s : State) (k : Nat) (f : OutFrame) : List Byte :=
  let mac := beBytes 6 (s.subPort k).mac.toNat
  match f.raw with
  | some l => beBytes 6 f.rawTo.toNat ++ mac ++ padded l
  | none =>
    let n := (s.neighbour f.entry).toNat
    beBytes 6 (bitsOf n 0 48) ++ mac ++ beBytes 2 0x8100 ++ beBytes 2 (8192 * f.pcp + bitsOf n 48 12) ++ padded (s.encapsulated k f)

end Sys2Proof.Machine
end

