-- ==== Sys2Proof/Machine/Links.lean ====
section
/-! DEFINITION. Links, per-hop replay, flow control and the switch (03: R103 to R110; 19): everything between the wire of a
sub-port and the frames that the rest of the device consumes and sends. -/
namespace Sys2Proof.Machine

/-! ### Rates -/

/-- Speeds that a sub-port can come up with: that of its mode, or the fallback of 50 Gb/s in mode 5 (R543, R546). -/
def speedAllowed (mode : Nat) (speed : Byte) : Bool :=
  match mode with
  | 1 => decide (speed = 6) | 2 => decide (speed = 5) | 3 => decide (speed = 4) | 4 => decide (speed = 3)
  | 5 => decide (speed = 2) || decide (speed = 1)
  | _ => false

/-- Duration in ns of `q` pause quanta of 512 bit times, rounded up (R560). -/
def quantaNs (speed : Byte) (q : Nat) : Nat :=
  let g := speedGbps speed
  if g = 0 then 0 else (512 * q + g - 1) / g

/-! ### Fields of ETH_SUB_CTRL (R549) -/

def SubPort.medium (p : SubPort) : Nat := bitsOf p.ctrl.toNat 0 2
def SubPort.ptp (p : SubPort) : Bool := p.ctrl.getLsbD 2
def SubPort.replayCap (p : SubPort) : Nat := 262144 * bitsOf p.ctrl.toNat 16 8
def SubPort.fecDegrade (p : SubPort) : Nat := bitsOf p.ctrl.toNat 24 16

def SubPort.hop (p : SubPort) (pcp : Nat) : Hop := p.hops.get {} pcp

def State.exists_ (s : State) (port sub : Nat) : Bool := decide (sub < subPorts (s.portCfg port).mode)

/-! ### Flow control (R558) -/

/-- XOFF_REFRESH: half of the XOFF timer is over while the charge still holds (R558). -/
def execXoffRefresh (now port sub pcp : Nat) (s : State) : Out :=
  .next (let s := s.advanceTo now
    let k := subKey port sub
    let p := s.subPort k
    match p.xoff.get none pcp with
    | none => s
    | some t =>
      if !s.inService || s.portDrain port || p.link ≠ .up then s
      else
        let s := s.flowPcp k pcp
        if (s.subPort k).xoff.get none pcp = some t ∧ t + quantaNs p.speed 0xFFFF / 2 ≤ s.now ∧ s.chargeFull k pcp then
          (s.modSub k fun p => { p with xoff := p.xoff.set none pcp (some s.now) }).queueAt k (pauseFrame s pcp 0xFFFF)
        else s)

/-! ### Pauses from the partner (R560) -/

/-- A pause ends: replay timers of the PCP have stood still meanwhile (R105), and its length is counted (R503). -/
def State.resumePcp (s : State) (k pcp : Nat) : State :=
  match (s.subPort k).paused.get none pcp with
  | none => s
  | some (since, _) =>
    let s := s.modSub k fun p => { p with paused := p.paused.set none pcp none }
    let s := s.modHop k pcp fun h => { h with replay := h.replay.map fun r =>
      { r with sent := r.sent + (s.now - max since r.sent) } }
    s.bumpBy 0 (k / 8) 11 ((s.now - since) / 1000)

def State.pausePcp (s : State) (k pcp quanta : Nat) : State :=
  if quanta = 0 then s.resumePcp k pcp
  else
    s.modSub k fun p =>
      let since := match p.paused.get none pcp with
        | some (t, _) => t
        | none => s.now
      { p with paused := p.paused.set none pcp (some (since, s.now + quantaNs p.speed quanta)) }

/-- PFC_FRAME: pauses or resumes the named PCPs (R554, R560). -/
def execPfcFrame (now port sub : Nat) (enable : Byte) (quanta : List Nat) (s : State) : Out :=
  .next (if !s.arrives port sub then s
    else
      let s := s.advanceTo now
      if s.portDrain port then s
      else
        let k := subKey port sub
        let named := (List.range 8).filter fun q => enable.getLsbD q
        let s := if named.any fun q => decide (nth 0 quanta q ≠ 0) then s.bump 0 port 10 else s
        named.foldl (fun s q => s.pausePcp k q (nth 0 quanta q)) s)

/-- PAUSE_EXPIRY: the partner's pause timer runs out. -/
def execPauseExpiry (now port sub pcp : Nat) (s : State) : Out :=
  .next (let s := s.advanceTo now
    let k := subKey port sub
    match (s.subPort k).paused.get none pcp with
    | some (_, ends) => if ends ≤ s.now then s.resumePcp k pcp else s
    | none => s)

/-! ### Link state (R551, R552, R490) -/

def OutFrame.isHop (f : OutFrame) : Bool := !f.v1 && f.raw.isNone && (decide (f.opcode = 0x7E) || decide (f.opcode = 0x7F))

/-- Frames that take part in the hop numbering of a lossless PCP (R103, R107, R114). -/
def State.numbered (s : State) (k : Nat) (f : OutFrame) : Bool :=
  f.raw.isNone && !f.v1 && !f.isHop && s.lossless (k / 8) f.pcp

/-- Takes a new epoch for a PCP's hop state (R109). -/
def State.newEpoch (s : State) : W32 × State :=
  (s.switch.epochs + 1, { s with switch := { s.switch with epochs := s.switch.epochs + 1 } })

/-- The transmitter of a sub-port stops: the frame on the wire and link frames are gone, frames of PCPs that are not lossless
are discarded and counted (R490), and pauses end, their length counted (R503). Numbered frames wait in the replay buffer. -/
def State.quietSub (s : State) (k : Nat) : State :=
  let s := (s.subPort k).paused.foldl (fun s e => s.resumePcp k e.1) s
  let p := s.subPort k
  let wire := p.inFlight.toList.filter fun f => !s.numbered k f && f.raw.isNone && !f.isHop
  let stay := fun (f : OutFrame) => s.lossless (k / 8) f.pcp && f.raw.isNone && !f.isHop
  let gone := p.egress.filter fun f => !stay f
  let lost := (gone.filter fun f => f.raw.isNone && !f.isHop).length + wire.length
  let s := (p.inFlight.toList ++ gone).foldl State.uncharge s
  let s := s.modSub k fun p => { p with
    egress := p.egress.filter stay, inFlight := none, wire := [], paused := [], xoff := [], fecLock := false, macsecLive := false, mka := {}, speed := 0
    hops := p.hops.mapAll {} fun _ h => { h with resync := false, pendingReplay := [], nakSent := none } }
  s.linkDiscards k lost

/-- A sub-port leaves UP for training, with its cause (R552). -/
def State.retrain (s : State) (k cause : Nat) : State :=
  if (s.subPort k).link ≠ .up then s
  else
    let s := s.modSub k fun p => { p with discardedHold := 0 }
    let s := s.quietSub k
    let s := s.modSub k fun p => { p with
      link := .training, downCause := BitVec.ofNat 8 cause, holdFrom := some s.now, lastAttempt := s.now
      hops := p.hops.mapAll {} fun _ h => { h with replay := h.replay.map fun r => { r with count := 0 } } }
    let s := s.bump 0 (k / 8) 6
    s.tickLinks

/-- LINK_TRAINING_START: a signal, or 100 ms since the last attempt (R551). -/
def execLinkTrainingStart (now port sub : Nat) (s : State) : Out :=
  .next (let s := s.advanceTo now
    let k := subKey port sub
    if !s.inService || (s.subPort k).link ≠ .down then s
    else
      let s := if (s.subPort k).everTrained then s.bump 0 port 6 else s
      s.modSub k fun p => { p with link := .training, everTrained := true, lastAttempt := s.now })

/-- Installs the forwarding entries of the managers that wait for a port's first sub-port (R475). An entry that the image set
stays (R605). -/
def State.installManagers (s : State) (port sub : Nat) : State :=
  s.boot.cfg.managers.foldl (fun s m =>
    if s.boot.installed.contains m.aid || !m.ports.getLsbD port then s
    else
      let old := s.switch.fwd.get 0 m.aid.toNat
      let e := if old.getLsbD 0 then old
        else (old &&& 0xFFFFFFFFFFFFF800) ||| 1 ||| BitVec.ofNat 64 (port * 8 + sub * 256)
      { s with
        boot := { s.boot with installed := s.boot.installed ++ [m.aid] }
        switch := { s.switch with fwd := s.switch.fwd.set 0 m.aid.toNat e } }) s

/-- Every enabled sub-port has reached UP or ended its first training attempt (R608). -/
def State.portsSettled (s : State) : Bool :=
  (List.range 256).all fun k =>
    let p := s.subPort k
    decide (subPorts (s.portCfg (k / 8)).mode ≤ k % 8) || p.settled || decide (p.link = .disabled)

/-- The units' calibration ages count from the end of step 10 (R593, R596; log entry 67). -/
def State.countCalibs (s : State) : State :=
  { s with store := { s.store with calib := s.store.calib.map fun e => (e.1, { e.2 with lastImp := s.now, lastTrain := s.now }) } }

/-- The end of step 10: forwarding entries are installed, by the lowest port and sub-port that is UP (R475, R608). -/
def State.endStep10 (s : State) : State :=
  if s.boot.step ≠ 9 || !s.portsSettled then s
  else
    let s := State.countCalibs { s with boot := { s.boot with step := 10 }, sky := { s.sky with started := some s.now } }
    (List.range 256).foldl (fun s k => if (s.subPort k).link = .up then s.installManagers (k / 8) (k % 8) else s) s

/-- PORT_UP (R553). -/
def State.portUpNotice (s : State) (k : Nat) : State :=
  s.notice 0x0094 (beBytes 1 (k / 8) ++ beBytes 1 (k % 8) ++ beBytes 1 (s.subPort k).speed.toNat)

/-- The resynchronising HOP_ACKs of a returning link, ahead of every other frame (R108); none at a port that drains
(R491). Hop state that has no epoch yet is fresh. -/
def State.resyncFrames (s : State) (k : Nat) : State :=
  if s.portDrain (k / 8) then s else ((List.range 8).filter fun q => s.lossless (k / 8) q).reverse.foldl (fun s q =>
    let s := if ((s.subPort k).hop q).epoch = 0 then
        let (n, s) := s.newEpoch
        s.modHop k q fun h => { h with epoch := n, fresh := true }
      else s
    let f := hopAckFrame s k q (1 + if ((s.subPort k).hop q).fresh then 2 else 0)
    s.modSub k fun p => { p with egress := f :: p.egress }) s

/-- LINK_UP (R551, R553, R475). A return within the hop hold time is a flap (R503). -/
def execLinkUp (now port sub : Nat) (speed : Byte) (partner : Aid) (s : State) : Out :=
  .next (let s := s.advanceTo now
    let k := subKey port sub
    let p := s.subPort k
    if !s.inService || p.link ≠ .training || !speedAllowed (s.portCfg port).mode speed then s
    else
      let s := if p.holdFrom.isSome ∧ ¬ p.holdExpired then s.bump 0 port 5 else s
      let s := s.setSub k { p with
        link := .up, speed := speed, fecLock := true, partner := partner, holdFrom := none, holdExpired := false
        portDownSent := false, discardedHold := 0, settled := true }
      let s := s.resyncFrames k
      let s := if s.boot.step = 9 then s.endStep10 else s.installManagers port sub
      if p.portDownSent then s.portUpNotice k else s)

/-- TRAINING_TIMEOUT: 4 s, or 500 ms for C2M (R551). -/
def execTrainingTimeout (now port sub : Nat) (s : State) : Out :=
  .next (let s := s.advanceTo now
    let k := subKey port sub
    let p := s.subPort k
    let limit := if p.medium = 2 then 500000000 else 4000000000
    if p.link ≠ .training ∨ s.now < p.lastAttempt + limit then s
    else (s.setSub k { p with link := .down, settled := true }).endStep10)

/-- LINK_LOSS: loss of signal or of PCS alignment (R552). -/
def execLinkLoss (now port sub : Nat) (pcsLock : Bool) (s : State) : Out :=
  .next ((s.advanceTo now).retrain (subKey port sub) (if pcsLock then 2 else 1))

/-- FEC_DEGRADE: uncorrected codewords within 1 ms (R552). -/
def execFecDegrade (now port sub codewords : Nat) (s : State) : Out :=
  .next (if !s.arrives port sub then s
    else
      let s := (s.advanceTo now).bumpBy 0 port 4 codewords
      let k := subKey port sub
      let limit := (s.subPort k).fecDegrade
      if limit ≠ 0 ∧ limit ≤ codewords then s.retrain k 4 else s)

/-- PFC_WATCHDOG: a pause lasts longer than pfc_watchdog ms (R552, R562). -/
def execPfcWatchdog (now port sub pcp : Nat) (s : State) : Out :=
  .next (let s := s.advanceTo now
    let k := subKey port sub
    let limit := bitsOf s.switch.bufferCtl.toNat 20 12
    match (s.subPort k).paused.get none pcp with
    | some (since, _) => if limit ≠ 0 ∧ since + limit * 1000000 < s.now then s.retrain k 5 else s
    | none => s)

/-- PORT_RETRAIN (R553). -/
def execPortRetrain (o : Order) (port sub : Byte) (s : State) : Out :=
  .next (orderRequest o (fun ref s =>
    let k := subKey port.toNat sub.toNat
    if port.toNat < 32 ∧ sub.toNat < 8 ∧ (s.subPort k).link ≠ .disabled then (s.finishOrder ref stOk []).retrain k 6
    else s.finishOrder ref stInvalid []) s)

/-- Entries whose primary is this sub-port and that may fail over go to their alternates (R563). -/
def State.failOver (s : State) (k : Nat) : State :=
  let move := fun (_ : Nat) (e : W64) =>
    if e.getLsbD 0 ∧ e.getLsbD 1 ∧ subKey (bitsOf e.toNat 3 5) (bitsOf e.toNat 8 3) = k then e ||| 4 else e
  { s with switch := { s.switch with fwd := s.switch.fwd.mapAll 0 move } }

/-- Discards what a sub-port holds: its queue, replay buffers and hop state, which start anew with new epochs (R109). -/
def State.dropHops (s : State) (k : Nat) : State :=
  let p := s.subPort k
  let n := p.egress.length + p.hops.foldl (fun n h => n + h.2.replay.length) 0
  let s := p.egress.foldl State.uncharge s
  let s := s.modSub k fun p => { p with egress := [], hops := [] }
  let s := s.linkDiscards k n
  s.flowControl (k / 128)

/-- HOP_HOLD_EXPIRY: a link loss that outlasts the hop hold time (R109, R490, R503, R551, R563). -/
def execHopHoldExpiry (now port sub : Nat) (s : State) : Out :=
  .next (let s := s.advanceTo now
    let k := subKey port sub
    let p := s.subPort k
    match p.holdFrom with
    | none => s
    | some t =>
      if p.link = .up ∨ p.link = .disabled ∨ p.holdExpired ∨ s.now < t + s.boot.cfg.device.hopHold then s
      else
        let s := (s.dropHops k).modSub k fun p => { p with holdExpired := true, portDownSent := true }
        let s := s.failOver k
        let s := s.bumpAlert 0 port 7
        s.notice 0x0093 (beBytes 1 port ++ beBytes 1 sub ++ zeros 2 ++ beBytes 4 (s.subPort k).discardedHold ++
          beBytes 2 p.partner.toNat))

/-! ### Per-hop replay (R103 to R109) -/

/-- Replays frames; a frame that was replayed 8 times makes the link fail instead (R105, R106). `last` is the frame whose
acknowledgement ends the replay (R212). -/
def State.replayUntil (s : State) (k pcp : Nat) (last : Option (BitVec 16)) (l : List Replay) : State :=
  if l.isEmpty then s
  else if l.any fun r => decide (8 ≤ r.count) then (s.bump 0 (k / 8) 9).retrain k 3
  else s.modHop k pcp fun h => { h with pendingReplay := l.map (·.frame), until_ := last }

/-- A HOP_NAK or the replay timeout calls for the replay of frames (R105, R106, R212). -/
def State.replayFrames (s : State) (k pcp : Nat) (l : List Replay) : State :=
  s.replayUntil k pcp (l.getLast?.map (·.frame.hopSeq)) l

/-- A HOP_ACK or HOP_NAK as it arrives: neither passes the hop check, and only the link partner sends it (R73, R107). -/
def linkArrival (h : Hdr) (fixed : Nat) (k : State → State) (s : State) : State :=
  if !s.arrives h.port h.sub then s
  else
    let s := s.advanceTo h.now
    match h.check with
    | .fcsError => s.bump 0 h.port 2
    | .macsecFailure => s.bump 0 h.port 15
    | .passed =>
      let s := s.bump 0 h.port 0
      if !h.tagged then s.bump 0 h.port 13
      else if !s.encapOk h || h.received < h.length || h.length < fixed then s.bump 0 h.port 14
      else if h.src ≠ (s.subPort (subKey h.port h.sub)).partner then senderRejected h s
      else k s

/-- Hop state starts anew at hop_seq 1; what it held is discarded and counted (R108, R109). -/
def State.restartHop (s : State) (k pcp : Nat) : State :=
  let n := ((s.subPort k).hop pcp).replay.length
  let s := s.modHop k pcp fun h => { h with txNext := 1, rxNext := 1, ackSent := 0, replay := [], pendingReplay := [], nakSent := none, until_ := none }
  s.linkDiscards k n

/-- HOP_ACK: frees acknowledged frames; after the link has returned it resumes or restarts the hop state (R103, R107 to R109). -/
def execHopAck (h : Hdr) (pcp flags : Byte) (ack : BitVec 16) (epoch : W32) (s : State) : Out :=
  .next (linkArrival h 8 (fun s =>
    let k := subKey h.port h.sub
    let q := pcp.toNat
    let p := (s.subPort k).hop q
    let asks := flags.getLsbD 0
    let fresh := flags.getLsbD 1
    if 8 ≤ q || !s.lossless h.port q then s
    else if p.resync && !asks && (!fresh || decide (epoch = p.partnerEpoch)) then s.modHop k q fun p => p.acked ack
    else if fresh || p.fresh || decide (epoch ≠ p.partnerEpoch) then
      let s := s.restartHop k q
      let s := s.modHop k q fun p => { p with partnerEpoch := epoch, resync := true, fresh := false }
      if p.fresh then s else s.queueAt k (hopAckFrame s k q 2)
    else
      let s := s.modHop k q fun p => { p.acked ack with resync := true }
      s.replayUntil k q ((s.subPort k).hop q).until_ ((s.subPort k).hop q).replay) s)

/-- HOP_NAK: the frames before the named one are acknowledged, the others replayed (R105). -/
def execHopNak (h : Hdr) (pcp : Byte) (expected : BitVec 16) (s : State) : Out :=
  .next (linkArrival h 4 (fun s =>
    let k := subKey h.port h.sub
    let q := pcp.toNat
    if 8 ≤ q || !s.lossless h.port q then s
    else
      let s := s.modHop k q fun p => p.acked (expected - 1)
      s.replayFrames k q ((s.subPort k).hop q).replay) s)

/-- REPLAY_TIMEOUT: the oldest unacknowledged frame has waited longer than the replay timeout, and is not about to be sent again
already (R105). -/
def execReplayTimeout (now port sub pcp : Nat) (s : State) : Out :=
  .next (let s := s.advanceTo now
    let k := subKey port sub
    let p := s.subPort k
    let h := p.hop pcp
    match h.replay with
    | [] => s
    | r :: _ =>
      if !s.inService || p.link ≠ .up || !h.resync || (p.paused.get none pcp).isSome ||
          h.pendingReplay.any (fun f => decide (f.hopSeq = r.frame.hopSeq)) then s
      else if s.now ≤ r.sent + s.boot.cfg.device.replayTimeout then s
      else s.replayFrames k pcp h.replay)

/-! ### Egress (R561, R568, R212) -/

/-- Order of precedence of R568: 1 espresso with credit, 2 control, 3 espresso that is forwarded or a request, 4 replica, 5 bulk.
An answer of version 1 is bulk whatever its PCP (R114). -/
def State.frameClass (s : State) (f : OutFrame) : Nat :=
  if f.raw.isSome then 2
  else if f.v1 && !f.forwarded then 5
  else if f.pcp = s.pcpControl then 2
  else if f.pcp = s.pcpEspresso then
    if f.credit then 1 else if f.forwarded || !f.resp then 3 else 5
  else if f.pcp = s.pcpReplica then 4
  else 5

/-- Bytes of line time of a frame. -/
def State.frameTime (s : State) (port : Nat) (f : OutFrame) : Nat :=
  s.lineTime port (f.payload.length + if f.counter.isSome then 40 else 0)

/-- A new frame may be sent: its PCP is not paused, replays are out (R212), and its copy has room (R103, R560, R561). A frame that
is not numbered waits for the replays of a lossless PCP too, since it must not pass them (R110). -/
def State.sendable (s : State) (k : Nat) (f : OutFrame) : Bool :=
  let p := s.subPort k
  let h := p.hop f.pcp
  (f.control || (p.paused.get none f.pcp).isNone) && (!s.macClosed (k / 8) (k % 8) || f.passesClosed) &&
  (f.raw.isSome || f.isHop || !s.lossless (k / 8) f.pcp || (h.pendingReplay.isEmpty && (h.resync || h.replay.isEmpty))) &&
  (!s.numbered k f ||
    (h.resync && decide (h.replay.length < 32768) && decide (h.replayBytes + f.bytes ≤ p.replayCap) &&
       decide (s.sharedUsed (k / 128) + f.bytes ≤ s.sharedPool (k / 128))))

/-- Opcodes of grants, snoops and C_DATA. -/
def OutFrame.coherence (f : OutFrame) : Bool :=
  f.raw.isNone && !f.v1 && !f.forwarded && decide (0x10 ≤ f.opcode.toNat) && decide (f.opcode.toNat ≤ 0x16)

/-- A frame that waits before another one at its PCP and must not be passed by it: both are TFP frames of one class, so that frames
keep their order whether or not they take part in the hop numbering (R110), or both are the home's coherence frames to one agent
(R143). -/
def State.ahead (s : State) (k : Nat) (g f : OutFrame) : Bool :=
  decide (g.pcp = f.pcp) &&
    ((g.coherence && f.coherence && decide (g.dst = f.dst)) ||
      (g.raw.isNone && f.raw.isNone && !g.isHop && !f.isHop && decide (s.frameClass g = s.frameClass f) &&
        (!s.macClosed (k / 8) (k % 8) || g.passesClosed)))

/-- The first frame of a class that may be sent and passes none that it must not pass; `before` holds those that wait before it. -/
def State.firstOf (s : State) (k cls : Nat) : List OutFrame → List OutFrame → Option OutFrame
  | _, [] => none
  | before, f :: t =>
    if s.frameClass f = cls && s.sendable k f && !before.any (fun g => s.ahead k g f) then some f
    else s.firstOf k cls (f :: before) t

/-- The next frame of a class, a replayed one first: whether it is a replay, and the frame. -/
def State.nextOf (s : State) (k cls : Nat) : Option (Bool × OutFrame) :=
  let p := s.subPort k
  let replays := p.hops.filterMap fun e =>
    if (p.paused.get none e.1).isSome then none
    else match e.2.pendingReplay with
      | f :: _ => if s.frameClass f = cls ∧ (!s.macClosed (k / 8) (k % 8) || f.passesClosed) then some f else none
      | [] => none
  match replays with
  | f :: _ => some (true, f)
  | [] => (s.firstOf k cls [] p.egress).map fun f => (false, f)

/-- A HOP_ACK that asks for resynchronisation goes before every other frame (R108). -/
def OutFrame.resyncs (f : OutFrame) : Bool := f.isHop && decide (f.opcode = 0x7E) && (nth 0 f.payload 1).getLsbD 0

def drrQuantum : Nat := 4352

/-- Deficit round robin between a replica and a bulk frame that both wait, with at least one weight above 0: whether the
replica frame is served, and the deficits. -/
def drr (wr wb nr nb dr db : Nat) : Bool × Nat × Nat :=
  if wr = 0 then (false, dr, db)
  else if wb = 0 then (true, dr, db)
  else if nr ≤ dr then (true, dr - nr, db)
  else if nb ≤ db then (false, dr, db - nb)
  else
    let dr := dr + drrQuantum * wr
    let db := db + drrQuantum * wb
    if nr ≤ dr then (true, dr - nr, db) else (false, dr, db - nb)

/-- The choice of the next frame (R568). While a HOP_ACK that asks for resynchronisation waits, no other frame goes (R108). -/
def State.choose (s : State) (k : Nat) : Option (Bool × OutFrame) × State :=
  match (s.subPort k).egress.find? fun f => f.resyncs with
  | some f => (if s.sendable k f then some (false, f) else none, s)
  | none =>
  let wr := bitsOf s.switch.bufferCtl.toNat 32 8
  let wb := bitsOf s.switch.bufferCtl.toNat 40 8
  match s.nextOf k 1, s.nextOf k 2, s.nextOf k 3 with
  | some f, _, _ => (some f, s)
  | none, some f, _ => (some f, s)
  | none, none, some f => (some f, s)
  | none, none, none =>
    match s.nextOf k 4, s.nextOf k 5 with
    | none, none => (none, s)
    | some f, none => (some f, s)
    | none, some g => (some g, s)
    | some f, some g =>
      let p := s.subPort k
      if wr = 0 ∧ wb = 0 then
        (some (if p.turnReplica then f else g), s.setSub k { p with turnReplica := !p.turnReplica })
      else
        let (r, dr, db) := drr wr wb (s.frameTime (k / 8) f.2) (s.frameTime (k / 8) g.2) p.defReplica p.defBulk
        (some (if r then f else g), s.setSub k { p with defReplica := dr, defBulk := db })

/-- Replayed frames are outstanding on a PCP: from the HOP_NAK or timeout that called for the replay until the last one is
acknowledged (R212). -/
def Hop.replaying (h : Hop) : Bool := h.until_.isSome

/-- The answer of a load: READ, READ_VOLATILE, READ_EX, C_READ_SHARED, C_READ_OWN, and READ of version 1. -/
def OutFrame.load (f : OutFrame) : Bool :=
  f.raw.isNone && f.resp && !f.forwarded &&
    if f.v1 then decide (f.opcode = 1) else [(1 : Byte), 2, 3, 0x10, 0x11].contains f.opcode

/-- The key server draws a SAK, whose packet numbers start anew (R534). -/
def State.drawSak (s : State) (k : Nat) : State :=
  let (n, s) := s.fresh
  s.modSub k fun p => { p with mka := { server := true, sak := some n, pn := 1 } }

/-- Packet numbers from which a key server rekeys, below the 2^62 that none may pass (R534). -/
def pnLimit : Nat := 2 ^ 62 - 1

/-- A frame under a live association takes the next packet number; a key server rekeys before the limit (R534). -/
def State.takePn (s : State) (k : Nat) (f : OutFrame) : State :=
  let p := s.subPort k
  if !p.macsecLive || f.control then s
  else if p.mka.server && decide (pnLimit ≤ p.mka.pn) then s.drawSak k
  else s.modSub k fun p => { p with mka := { p.mka with pn := p.mka.pn + 1 } }

/-- A frame goes out, in the form that its port and the tables give it (R62, R566). -/
def State.onWire (s : State) (k : Nat) (f : OutFrame) : State :=
  (s.takePn k f).modSub k fun p => { p with inFlight := some f, wire := s.wireBytes k f }

/-- Puts a chosen frame on the wire: a new one takes the next hop_seq and leaves a copy in the replay buffer; a replayed one
keeps its hop_seq. A load whose answer goes out while the PCP of espresso replays is counted (R105, R212). -/
def State.transmit (s : State) (k : Nat) (again : Bool) (f : OutFrame) : State :=
  let h := (s.subPort k).hop f.pcp
  let s := if !again && f.load && ((s.subPort k).hop s.pcpEspresso).replaying then s.bump 0 (k / 8) 19 else s
  if again then
    let s := s.modHop k f.pcp fun h => { h with
      pendingReplay := h.pendingReplay.tail
      replay := h.replay.map fun r => if r.frame.hopSeq = f.hopSeq then { r with count := r.count + 1, sent := s.now } else r }
    (s.onWire k { f with hopAck := h.rxNext - 1 }).bump 0 (k / 8) 8
  else
    let s := s.modSub k fun p => { p with egress := p.egress.erase f }
    if s.numbered k f then
      let g := { f with hopSeq := h.txNext, hopAck := h.rxNext - 1 }
      let copy := { g with ingress := none }
      let s := s.modHop k f.pcp fun h => { h with txNext := h.txNext + 1, replay := h.replay ++ [{ frame := copy, sent := s.now }] }
      s.onWire k g
    else s.onWire k f

/-- EGRESS_SELECT: the frame in transmission has left, and the next one is chosen. -/
def execEgressSelect (now port sub : Nat) (s : State) : Out :=
  .next (if !s.arrives port sub then s
    else
      let s := s.advanceTo now
      let k := subKey port sub
      let s := match (s.subPort k).inFlight with
        | some f => ((s.uncharge f).modSub k fun p => { p with inFlight := none, wire := [] }).bump 0 port 1
        | none => s
      let s := match s.choose k with
        | (some (again, f), s) => s.transmit k again f
        | (none, s) => s
      s.flowControl (k / 128))

/-! ### Forwarding and frames that are not consumed -/

/-- Bulk-class bytes that wait at an egress (R569). -/
def State.bulkQueued (s : State) (k : Nat) : Nat :=
  (s.subPort k).egress.foldl (fun n f => if s.frameClass f = 5 then n + f.bytes else n) 0

/-- The ECN threshold of a sub-port is passed: ecn_ns × its rate (R569). -/
def State.ecnPassed (s : State) (k : Nat) : Bool :=
  decide (bitsOf s.switch.bufferCtl.toNat 0 16 * speedGbps (s.subPort k).speed < 8 * s.bulkQueued k)

/-- The IPv6 header that goes on from port to port: one hop less, and CE where the frame is marked and its transport can (R566,
R569). -/
def onward (ip : Ip) (mark : Bool) : Ip :=
  { ip with hopLimit := ip.hopLimit - 1, ecn := if mark && decide (ip.ecn ≠ 0) then 3 else ip.ecn }

/-- The header goes no further: its hop limit reaches zero between two IPv6 ports (R566). -/
def State.hopsSpent (s : State) (h : Hdr) (k : Nat) : Bool :=
  match h.encap with
  | .udp _ ip => (s.portCfg (k / 8)).ipv6 && decide (ip.hopLimit ≤ 1)
  | .layer2 _ => false

/-- Forwards a frame by SWT_FWD, charging it to its ingress and marking it under congestion (R557, R563, R566, R569). Congestion
experienced in an IPv6 header that is dropped goes on in ce. -/
def State.forward (s : State) (h : Hdr) (x : Transit) : State :=
  let from_ := subKey h.port h.sub
  match s.route h.dst (some from_) with
  | none => s.switchDiscard
  | some k =>
    if s.hopsSpent h k then s
    else
    let ip := match h.encap with
      | .udp _ ip => some ip
      | .layer2 _ => none
    let f : OutFrame :=
      { opcode := x.opcode, resp := x.resp, notice := x.notice, ce := if (s.portCfg (k / 8)).ipv6 then h.ce else h.congested
        ece := x.ece, dst := h.dst, src := h.src, cid := h.cid, gen := h.gen, status := x.status, tag := h.tag, pcp := h.pcp
        payload := x.payload, v1 := x.v1, forwarded := true, entry := s.switch.fwd.get 0 h.dst.toNat }
    let head := (s.bufferPlace from_ h.pcp f.bytes).getD false
    let mark := decide (s.frameClass f = 5) && s.ecnPassed k
    let f := { f with ce := !x.v1 && (f.ce || mark), ip := ip.map fun ip => onward ip mark, ingress := some (from_, head) }
    let s := if mark then s.bump 0 (k / 8) 12 else s
    let before := (s.subPort k).egress.length
    let s := s.enqueue k f
    if (s.subPort k).egress.length = before then s
    else (s.charge from_ h.pcp f.bytes head).flowControl (from_ / 128)

/-- FORWARD_FRAME: a frame for another AID (R18, R72 step 4). HOP_ACK, HOP_NAK and TICK frames are never forwarded. A frame of
version 1 has no hop check (R114). -/
def execForwardFrame (h : Hdr) (f : Transit) (s : State) : Out :=
  .next (if s.answersTo h.dst then s
    else if f.v1 then linkChecksV1 h (fun s => s.forward h f) s
    else if f.opcode = 0x60 ∨ f.opcode = 0x7E ∨ f.opcode = 0x7F then s
    else
      linkChecks (decide (0x70 ≤ f.opcode.toNat) && decide (f.opcode.toNat ≤ 0x75)) h (fixedPayload f.opcode f.resp)
        (fun s => s.forward h f) s)

/-- OTHER_FRAME: a frame that a sub-port does not accept is discarded and counted (R63, R69, R547, R554). The header checks of a
TFP frame come after its hop check (R72). -/
def execOtherFrame (h : Hdr) (kind : OtherKind) (s : State) : Out :=
  .next (if !s.arrives h.port h.sub then s
    else
      let s := s.advanceTo h.now
      if s.portDrain h.port then s
      else
        match h.check with
        | .fcsError => s.bump 0 h.port 2
        | .macsecFailure => s.bump 0 h.port 15
        | .passed =>
          if s.macClosed h.port h.sub then s.bump 0 h.port 15
          else
            let s := s.bump 0 h.port 0
            match kind with
            | .untaggedTfp => s.bump 0 h.port 13
            | .badVersion | .shortLength =>
              if (s.bufferPlace (subKey h.port h.sub) h.pcp (bufferBytes h.length)).isNone then
                s.bufferDrop (subKey h.port h.sub) h.pcp
              else
                let (goes, s) := hopCheck h s
                if goes then s.bump 0 h.port 14 else s
            | _ => s.bump 0 h.port 14)

/-- Opcodes of the map of R75. -/
def listedOpcode (op : Byte) : Bool :=
  [0x01, 0x02, 0x03, 0x04, 0x05, 0x06, 0x07, 0x08, 0x10, 0x11, 0x12, 0x13, 0x14, 0x15, 0x16, 0x17, 0x18, 0x20, 0x21, 0x22, 0x23,
   0x24, 0x25, 0x30, 0x31, 0x32, 0x33, 0x34, 0x38, 0x39, 0x3A, 0x3C, 0x3D, 0x40, 0x41, 0x42, 0x43, 0x50, 0x51, 0x60, 0x70, 0x71,
   0x72, 0x73, 0x74, 0x75, 0x7E, 0x7F].contains op.toNat

/-- Order codes that a chapter lists. -/
def listedOrder (code : BitVec 16) : Bool :=
  [0x01, 0x02, 0x03, 0x04, 0x05, 0x10, 0x11, 0x12, 0x13, 0x14, 0x15, 0x16, 0x20, 0x30, 0x31, 0x32, 0x33, 0x34, 0x40, 0x41, 0x42, 0x43,
   0x44, 0x45, 0x50, 0x60, 0x61, 0x70, 0x71, 0x72, 0x80, 0x90, 0x91, 0x92, 0x93, 0x94, 0x95, 0xA0, 0xA1, 0xA2, 0xA3, 0xB0].contains
    code.toNat

/-- UNLISTED_OPCODE (R70, R75): an opcode of no row of the map, or a MGMT_ORDER whose order code lies outside its range, which
is INVALID. -/
def execUnlistedOpcode (h : Hdr) (opcode : Byte) (order : Option UnlistedOrder) (s : State) : Out :=
  .next (match order with
    | none => if listedOpcode opcode then s else consumed h 0 (fun s => s.respond h opcode stUnsupported []) s
    | some o =>
      if opcode ≠ 0x72 ∨ listedOrder o.code then s
      else orderRequest { hdr := h, trailer := o.trailer, orderId := o.orderId } (fun ref s => s.finishOrder ref stInvalid []) s)

/-- MGMT_NOTICE from another device: accepted from nobody (R73), after its trailer has passed (R72 step 5). -/
def execMgmtNotice (h : Hdr) (t : Trailer) (_code : BitVec 16) (_seq : W32) (_body : List Byte) (s : State) : Out :=
  .next (managed h t 64 (senderRejected h) s)

/-! ### MACsec, wall time, neighbours -/

/-- The cipher suite GCM-AES-XPN-256, by its reference number of IEEE 802.1AE. -/
def gcmAesXpn256 : BitVec 64 := 0x0080C20001000004

/-- A secured association is live after the message: the one suite, and a confidentiality offset of 0 (R534). -/
def mkaGood (m : MkaMessage) : Bool := m.live && decide (m.suite = gcmAesXpn256) && decide (m.offset = 0)

/-- The association is lost: queued frames of PCPs that are not lossless are discarded and counted, the others held (R535). -/
def State.closeSub (s : State) (k : Nat) : State :=
  let gone := (s.subPort k).egress.filter fun f => !f.passesClosed && !s.lossless (k / 8) f.pcp
  let s := gone.foldl State.uncharge s
  (s.modSub k fun p => { p with
    macsecLive := false, mka := {}, egress := p.egress.filter fun f => f.passesClosed || s.lossless (k / 8) f.pcp }).bumpBy
      0 (k / 8) 15 gone.length

/-- The association is live: as key server the device draws the SAK when it starts, and anew when the partner's packet numbers come
near the limit; else the partner's new SAK starts the packet numbers anew (R534). -/
def State.secureSub (s : State) (k : Nat) (m : MkaMessage) : State :=
  let p := s.subPort k
  let anew := !p.macsecLive || decide (p.mka.server ≠ m.server)
  let s := s.modSub k fun p => { p with macsecLive := true }
  if m.server then (if anew || decide (pnLimit ≤ m.peerPn) then s.drawSak k else s)
  else if anew || m.newKey then s.modSub k fun p => { p with mka := {} }
  else s

/-- EAPOL_FRAME: a step of MACsec Key Agreement under the sub-port's CAK (R534, R535). -/
def execEapolFrame (now port sub : Nat) (m : MkaMessage) (s : State) : Out :=
  .next (if !s.arrives port sub then s
    else
      let s := s.advanceTo now
      let k := subKey port sub
      if s.portDrain port || !(s.portCfg port).macsec || !(s.sec.caks.get {} k).held then s
      else if mkaGood m then s.secureSub k m
      else s.closeSub k)

/-- PTP_MESSAGE: the wall-time clock follows a master (R554, R571). Without a live association it is discarded and counted (R535). -/
def execPtpMessage (now port sub seconds nanos : Nat) (sync : Bool) (s : State) : Out :=
  .next (if !s.arrives port sub then s
    else
      let s := s.advanceTo now
      if s.portDrain port then s
      else if s.macClosed port sub then s.bump 0 port 15
      else if !(s.subPort (subKey port sub)).ptp then s.bump 0 port 14
      else { s with switch := { s.switch with wallSec := seconds, wallNs := nanos, wallAt := s.now, wallSync := sync } })

/-- An ICMPv6 message with its checksum over the IPv6 pseudo-header: type, code, and what follows the checksum (RFC 4443). -/
def icmpBytes (ip : Ip) (type : Nat) (l : List Byte) : List Byte :=
  let pseudo := beBytes 16 ip.src.toNat ++ beBytes 16 ip.dst.toNat ++ beBytes 4 (4 + l.length) ++ zeros 3 ++ beBytes 1 58
  let head := beBytes 1 type ++ zeros 1
  head ++ beBytes 2 (onesSum (pseudo ++ head ++ zeros 2 ++ l)) ++ l

/-- An ICMPv6 Neighbor Advertisement for the sub-port's address, with its MAC address as the target's, in an IPv6 packet of hop
limit 255 to whoever asked: the flags are Solicited and Override; an asker without an address is answered at all nodes, not
solicited (RFC 4861). -/
def advertisement (p : SubPort) (pcp : Nat) (ask : BitVec 128) (mac : BitVec 48) : OutFrame :=
  let anyone := decide (ask = 0)
  let ip : Ip := { src := p.ipv6, dst := if anyone then 0xFF020000000000000000000000000001 else ask, hopLimit := 255, ecn := 0 }
  let l := beBytes 4 (if anyone then 0x20000000 else 0x60000000) ++ beBytes 16 p.ipv6.toNat ++ beBytes 1 2 ++ beBytes 1 1 ++
    beBytes 6 p.mac.toNat
  { pcp := pcp, rawTo := if anyone then 0x333300000001 else mac, raw := some (beBytes 2 0x86DD ++ ipBytes ip 58 (icmpBytes ip 136 l)) }

/-- NEIGHBOR_SOLICITATION (R554), from an asker's IPv6 and MAC address. Without a live association it is discarded and counted
(R535). -/
def execNeighborSolicitation (now port sub : Nat) (target ask : BitVec 128) (mac : BitVec 48) (s : State) : Out :=
  .next (if !s.arrives port sub then s
    else
      let s := s.advanceTo now
      let k := subKey port sub
      if s.portDrain port then s
      else if s.macClosed port sub then s.bump 0 port 15
      else if (s.portCfg port).ipv6 && decide (target = (s.subPort k).ipv6) then
        s.queueAt k (advertisement (s.subPort k) s.pcpControl ask mac)
      else s.bump 0 port 14)

end Sys2Proof.Machine
end

