-- ==== Sys2Proof/Machine/WholeReset.lean ====
section
/-! DEFINITION. Entry into whole-device reset (R33, R147, R486, R487, R502): what is lost, and what fuses and flash keep. -/
namespace Sys2Proof.Machine

/-- What the dies' bad-block tables keep of a NAND block (R589). -/
def NandBlock.kept (b : NandBlock) : NandBlock := { retired := b.retired, erases := b.erases }

/-- What the fuses keep of the security state (R511 to R524). -/
def Security.fused (x : Security) : Security :=
  { fuseManufacture := x.fuseManufacture, fuseProvisioned := x.fuseProvisioned, fuseDeployed := x.fuseDeployed
    fuseRetired := x.fuseRetired, owners := x.owners, vendorRoot := x.vendorRoot, identitySeed := x.identitySeed, identityRoot := x.identityRoot
    floor := x.floor, counter := x.counter }

/-- What the configuration flash keeps: both slots, the start log and the key state area (R448). -/
def Boot.kept (b : Boot) : Boot :=
  { slotA := b.slotA, slotB := b.slotB, log := b.log, keyArea := b.keyArea, nodeCache := b.nodeCache, vendorCert := b.vendorCert
    inReset := true }

/-- The device in whole-device reset: every output idle, every table, queue, buffer, key and counter lost. The fuses, the
configuration flash, the NAND's bad-block tables, the draws made so far and the state of the input supply stay. -/
def State.enterReset (s : State) : State :=
  { free := s.free
    pending := s.pending
    boot := s.boot.kept
    sec := s.sec.fused
    store := { blocks := s.store.blocks.mapAll {} fun _ b => b.kept }
    grid := { fuseCols := s.grid.fuseCols }
    power := { vinQualified := s.power.vinQualified, mv := s.power.mv }
    pins := { serdesIdle := true, memReset := true, xspiHiZ := true, rstN := s.pins.rstN } }

/-! ### The yield map (R14, R15, R473) -/

/-- The skip column of a partition row: its lowest failed column, or 16. -/
def skipColumn (failed : BitVec 17) : Nat := ((List.range 17).find? fun c => failed.getLsbD c).getD 16

/-- Logical columns of a partition row that have no core. -/
def lostColumns (failed : BitVec 17) : List Nat :=
  (List.range 16).filter fun lx => failed.getLsbD (if lx < skipColumn failed then lx else lx + 1)

/-- The logical position has no core. -/
def State.coreLost (s : State) (core : Nat) : Bool :=
  (lostColumns (s.grid.failedCols.get 0 (partitionRow core))).contains (core % 32 % 16)

/-- Adds failed cores, given as (partition row, physical column), to the run-time yield map, recomputes the skip columns, and
makes UNAVAILABLE every cluster with a position that has no core any more. -/
def State.mapFailures (s : State) (failed : List (Nat × Nat)) : State :=
  let cols := failed.foldl (fun (t : Tab (BitVec 17)) e => t.mod 0 e.1 fun v => v ||| (1 <<< e.2)) s.grid.failedCols
  let skip := (List.range 64).foldl (fun (t : Tab Nat) r => t.set 16 r (skipColumn (cols.get 0 r))) []
  let s := { s with grid := { s.grid with failedCols := cols, skip := skip } }
  (List.range 64).foldl (fun s c =>
    if (coresOf c).any s.coreLost then s.setCluster c { state := .unavailable } else s) s

end Sys2Proof.Machine
end

