-- ==== Sys2Proof/Machine/SelfTest.lean ====
section
/-! DEFINITION. The memory tests (R469), and what a self-test of a block comes to (R495 to R499). -/
namespace Sys2Proof.Machine

/-! ### March C− and the retention test (R469) -/

/-- One operation of a march element: a read that must give a value, or a write. -/
inductive MarchOp where
  | read (value : Byte)
  | write (value : Byte)
  deriving DecidableEq, Repr

/-- March C−: ⇕(w0); ⇑(r0,w1); ⇑(r1,w0); ⇓(r0,w1); ⇓(r1,w0); ⇕(r0). A byte of zeros or of ones stands for the bits of every cell. -/
def marchC : List (List MarchOp) :=
  [[.write 0], [.read 0, .write 0xFF], [.read 0xFF, .write 0], [.read 0, .write 0xFF], [.read 0xFF, .write 0], [.read 0]]

/-- The checkerboard of the retention test in a row, and its complement: the manual does not say with which of the two bits the first row
begins (DESIGN CHOICE, log entry 100). -/
def checkerboard (row : Nat) (complement : Bool) : Byte := if (row % 2 = 1) != complement then 0xAA else 0x55

/-- The value that a read of the tests must give: elements 0 to 5 are the march's, 6 and 7 the retention test's two passes. -/
def expectedRead (row element op : Nat) : Option Byte :=
  if element = 6 then some (checkerboard row false)
  else if element = 7 then some (checkerboard row true)
  else
    match (nth [] marchC element)[op]? with
    | some (.read v) => some v
    | _ => none

/-- The read found something other than what was written. -/
def readFails (x : TestRead) : Bool :=
  match expectedRead x.row x.element x.op with
  | some v => decide (x.value ≠ v)
  | none => false

/-- What the march leaves in a cell that holds what is written to it. -/
def marchLeaves : Byte := marchC.flatten.foldl (fun v o => match o with
  | .write w => w
  | .read _ => v) 0

/-- Elements of a class with a failing read of the march or, with `retention`, of the retention test. -/
def failedRows (reads : List TestRead) (cls : Nat) (retention : Bool) : List (Nat × Nat) :=
  ((reads.filter fun x => decide (x.cls = cls) && decide (decide (6 ≤ x.element) = retention) && readFails x).map fun x =>
    (x.unit, x.row)).eraseDups

/-! ### Outcome of a self-test (R495 to R499) -/

/-- Cores whose logic BIST signature is not the golden one (R496). -/
def mismatched (r : TestResult) : List (Nat × Nat) :=
  (r.signatures.filter fun e => decide (e.2 ≠ Config.goldenSignature)).map (·.1)

/-- A device-class test runs every test in full (R495). -/
def TestOrder.full (t : TestOrder) (cls : Nat) : Bool := decide (t.kind = 1) || decide (cls = 5)

/-- Elements of a class that failed the march or the read of their test block, where the test was a full one. -/
def failedCells (r : TestResult) (t : TestOrder) (cls of : Nat) : List (Nat × Nat) :=
  if t.full cls && (decide (cls = of) || decide (cls = 5)) then failedRows r.reads of false else []

/-- Cores that failed: by signature, by march read, or otherwise (R496). -/
def failedCores (r : TestResult) (t : TestOrder) (cls : Nat) : List (Nat × Nat) :=
  ((if cls = 3 ∨ cls = 5 then mismatched r else []) ++ failedCells r t cls 3 ++ (if cls = 3 then r.faults else [])).eraseDups

/-- A port's PRBS31 run found uncorrected FEC codewords (R495). -/
def fecFails (r : TestResult) (t : TestOrder) (cls : Nat) : Bool :=
  t.full cls && (decide (cls = 4) || decide (cls = 5)) && decide (r.fec ≠ 0)

/-- Rows and blocks that failed, of the memory classes. -/
def failedMemory (r : TestResult) (t : TestOrder) (cls : Nat) : List (Nat × Nat) :=
  failedCells r t cls 0 ++ failedCells r t cls 1 ++ failedCells r t cls 2

/-- Failed elements that TEST_DONE counts. -/
def failedCount (r : TestResult) (t : TestOrder) (cls : Nat) : Nat :=
  (failedCores r t cls).length + (failedMemory r t cls).length + r.lanes + (if cls = 3 then 0 else r.faults.length) +
    (if fecFails r t cls then 1 else 0)

/-- Outcome of a test (R497, R499): 0 pass, 1 failures absorbed by repair or yield map, 2 block left failed. Cores go to the yield map,
failing NAND blocks are retired, lanes and rows are repaired while spares last; nothing repairs the rest. -/
def testOutcome (r : TestResult) (t : TestOrder) (cls : Nat) : Nat :=
  if failedCount r t cls = 0 then 0
  else if (cls ≠ 3 ∧ r.faults ≠ []) ∨ fecFails r t cls ∨
      r.spareRows < (failedCells r t cls 0 ++ failedCells r t cls 1).length then 2
  else 1

/-! ### Isolation and margins while a test runs (R496, R498) -/

/-- Partitions that a block's test reaches. -/
def testedPartitions (cls unit : Nat) : List Nat := if cls = 3 then [unit] else if cls = 5 then [0, 1, 2, 3] else []

/-- The network interfaces of the cores under test inject no flit and accept none, and the margin applies to their rail or clock. -/
def State.isolate (s : State) (cls unit : Nat) (on : Bool) (margin : Nat) : State :=
  (testedPartitions cls unit).foldl (fun s q =>
    let s := (clustersOf (partitionMask q)).foldl (fun s c => s.setCluster c { s.cluster c with testing := on }) s
    { s with power := { s.power with margins := s.power.margins.set 0 q (if on then margin else 0) } }) s

end Sys2Proof.Machine
end

