-- ==== Sys2Proof/Machine/Blocks.lean ====
section
/-! DEFINITION. Blocks out of service: drains, self-tests and calibrations (16: R491 to R501; 20: R593 to R596). -/
namespace Sys2Proof.Machine

/-- The lifecycle code of R511. -/
def State.lifecycle (s : State) : Nat :=
  if s.sec.fuseRetired then 5
  else if s.sec.fuseDeployed then if s.sec.serviceSession then 4 else 3
  else if s.sec.fuseProvisioned then 2
  else if s.sec.fuseManufacture then 1
  else 0

/-! ### Calibration (R593 to R595, R500, R501) -/

def State.calib (s : State) (hbm : Bool) (unit : Nat) : Calib := Tab.get {} s.store.calib (calibKey hbm unit)

def State.setCalib (s : State) (hbm : Bool) (unit : Nat) (c : Calib) : State :=
  { s with store := { s.store with calib := s.store.calib.set {} (calibKey hbm unit) c } }

/-- A stack or channel in use (R577, R581). -/
def State.unitInUse (s : State) (hbm : Bool) (unit : Nat) : Bool :=
  if hbm then decide (unit < 8) && s.boot.cfg.mem.hbmMask.getLsbD unit
  else decide (unit < 16) && decide ((nth {} s.boot.cfg.mem.ddr unit).dimms ≠ 0)

/-- Duration in ns of a calibration. -/
def calibDuration (hbm : Bool) (kind : Nat) : Nat := if kind = 0 then 2000 else if hbm then 40000 else 25000

/-- Interval limit in ns. -/
def calibLimit (kind : Nat) : Nat := if kind = 0 then 128000000 else 1000000000

/-- Counts a late CALIBRATE of a unit (R503). -/
def State.lateCalibrate (s : State) (hbm : Bool) (unit : Nat) : State := if hbm then s.bump 2 unit 4 else s.bump 3 unit 3

/-- A calibration begins. -/
def State.startCalib (s : State) (hbm : Bool) (unit kind : Nat) (order : Option OrderRef) (w : Option TransitWindow) : State :=
  let c := s.calib hbm unit
  s.setCalib hbm unit { c with busy := some kind, until_ := s.now + calibDuration hbm kind, byOrder := order, window := w }

/-- A window is over: its work counts as late (R175, R201, R494). -/
def State.pastWindow (s : State) (w : TransitWindow) : Bool := s.sky.past w.endCount w.phase s.now

/-- CALIBRATION_DONE: held accesses go on in their order of arrival (R201, R500, R594). -/
def execCalibrationDone (now cls unit : Nat) (s : State) : Out :=
  .next (s.serving fun s => let s := s.advanceTo now
    let hbm := decide (cls = 0)
    let c := s.calib hbm unit
    match c.busy with
    | none => s
    | some kind =>
      if s.now < c.until_ then s
      else
        let done : Calib := { c with busy := none, byOrder := none, window := none }
        let done : Calib := if kind = 0 then { done with lastImp := s.now, lapseImp := 0 }
          else { done with lastTrain := s.now, lapseTrain := 0, tempAtTrain := c.temp }
        let s := s.setCalib hbm unit done
        let s := match c.window with
          | some w => if s.pastWindow w then (s.lateCalibrate hbm unit).countLate w.orbit w.cid else s
          | none => s
        let s := match c.byOrder with
          | some ref => s.finishOrder ref stOk []
          | none => s
        s.pump)

def absDiff (a b : Nat) : Nat := max a b - min a b

/-- CALIBRATION_LAPSE: a unit in use passes a limit of R593, once more for each further limit interval (R595). -/
def execCalibrationLapse (now cls unit kind : Nat) (s : State) : Out :=
  .next (s.serving fun s => let s := s.advanceTo now
    let hbm := decide (cls = 0)
    let c := s.calib hbm unit
    if s.boot.step < 10 || !s.unitInUse hbm unit || decide (1 < cls) || decide (1 < kind) then s
    else if kind = 0 then
      if c.lastImp + calibLimit 0 * (c.lapseImp + 1) < s.now then
        (s.setCalib hbm unit { c with lapseImp := c.lapseImp + 1 }).lateCalibrate hbm unit
      else s
    else if c.lastTrain + calibLimit 1 * (c.lapseTrain + 1) < s.now ∨ 10 * (c.lapseTrain + 1) < absDiff c.temp c.tempAtTrain then
      (s.setCalib hbm unit { c with lapseTrain := c.lapseTrain + 1 }).lateCalibrate hbm unit
    else s)

/-! ### Drains (R491, R492) -/

/-- The operands name a block. -/
def blockExists (cls unit : Nat) : Bool :=
  match cls with
  | 0 => decide (unit < 8) | 1 => decide (unit < 16) | 2 => decide (unit < 32) | 3 => decide (unit < 4) | 4 => decide (unit < 32)
  | 5 => decide (unit = 0)
  | _ => false

/-- BLOCK_DRAIN. -/
def execBlockDrain (o : Order) (cls : Byte) (unit : BitVec 16) (s : State) : Out :=
  .next (orderRequest o (fun ref s =>
    let b := s.block cls.toNat unit.toNat
    if !blockExists cls.toNat unit.toNat then s.finishOrder ref stInvalid []
    else (if b.drain = 0 then s.setBlock cls.toNat unit.toNat { b with drain := 1 } else s).finishOrder ref stOk []) s)

/-- Nothing of the port's waits for an acknowledgement: its frames are sent and acknowledged, its hop hold time is over, or a sub-port
has not been UP, so that nothing has been sent that could be acknowledged. -/
def State.portQuiet (s : State) (port : Nat) : Bool :=
  (List.range 8).all fun q =>
    let p := s.subPort (subKey port q)
    p.holdExpired || decide (p.link = .disabled) || (decide (p.link ≠ .up) && p.holdFrom.isNone) ||
      (p.egress.isEmpty && p.inFlight.isNone && p.hops.all fun h => h.2.replay.isEmpty)

/-- The condition under which a block is drained. -/
def State.drained (s : State) (cls unit : Nat) : Bool :=
  match cls with
  | 3 => (clustersOf (partitionMask unit)).all fun c => decide ((s.cluster c).state = .free ∨ (s.cluster c).state = .unavailable)
  | 4 => s.portQuiet unit
  | _ => (s.comps.entries.all fun e => decide (e.2.state = .free)) && s.store.regions.all fun e => decide (e.2.state = .free)

/-- Takes the sub-ports of a drained port down: what one still holds is discarded and counted, and one that leaves UP starts its hop
hold timer (R551). -/
def State.disablePort (s : State) (port : Nat) : State :=
  (List.range 8).foldl (fun s q =>
    let k := subKey port q
    if (s.subPort k).link = .disabled then s
    else
      let s := (s.quietSub k).dropHops k
      let s := s.modSub k fun p => { p with
        link := .disabled, holdFrom := if p.link = .up then some s.now else p.holdFrom }
      s.tickLinks) s

/-- BLOCK_DRAINED. -/
def State.drainedNotice (s : State) (cls unit : Nat) : State :=
  s.notice 0x0091 (beBytes 1 cls ++ zeros 1 ++ beBytes 2 unit)

/-- Temperature of a channel: the hotter of its DIMMs (class 4, unit 2·channel + slot). -/
def State.channelTemp (s : State) (c : Nat) : Nat := max (s.counter 4 (2 * c) 4) (s.counter 4 (2 * c + 1) 4)

/-- The hottest sensor of a block (R498): a stack's own, a channel's DIMMs, all of them for the device. The manual assigns no die
sensor to a block: the hottest one stands for the blocks on the dies. -/
def State.blockTemp (s : State) (cls unit : Nat) : Nat :=
  match cls with
  | 0 => s.counter 2 unit 7
  | 1 => if s.unitInUse false unit then s.channelTemp unit else s.power.junction
  | 5 =>
    let hbms := ((List.range 8).filter (s.unitInUse true)).map fun k => s.counter 2 k 7
    let channels := ((List.range 16).filter (s.unitInUse false)).map s.channelTemp
    (hbms ++ channels).foldl max s.power.junction
  | _ => s.power.junction

def State.testTempOk (s : State) (cls unit : Nat) : Bool :=
  decide (10 ≤ s.blockTemp cls unit) && decide (s.blockTemp cls unit ≤ 95)

/-- Starts the pending test of a drained block, unless its temperature defers it (R494, R496, R498). -/
def State.startTest (s : State) (cls unit : Nat) (w : Option TransitWindow) : State :=
  let b := s.block cls unit
  match b.test with
  | none => s
  | some t =>
    if b.drain ≠ 2 || s.testRuns cls unit || decide (t.atWindow ≠ w.isSome) || !s.testTempOk cls unit then s
    else (s.isolate cls unit true t.margin).setBlock cls unit
      { b with test := some { t with running := true, since := s.now, window := w } }

/-- BLOCK_DRAIN_DONE. -/
def execBlockDrainDone (now cls unit : Nat) (s : State) : Out :=
  .next (s.serving fun s => let s := s.advanceTo now
    let b := s.block cls unit
    if b.drain = 1 ∧ s.drained cls unit then
      let s := if cls = 4 then s.disablePort unit else s
      let s := s.setBlock cls unit { b with drain := 2 }
      (s.drainedNotice cls unit).startTest cls unit none
    else if b.drain = 2 then s.startTest cls unit none
    else s)

/-- TEST_DONE (R499). -/
def State.testDone (s : State) (cls unit : Nat) (id : W32) (outcome failed : Nat) (first : W64) (mismatches : Nat) : State :=
  s.notice 0x0092 (beBytes 4 id.toNat ++ beBytes 1 cls ++ zeros 1 ++ beBytes 2 unit ++ beBytes 1 outcome ++ zeros 3 ++
    beBytes 4 failed ++ beBytes 8 first.toNat ++ beBytes 4 mismatches)

/-- The block's calibration runs. -/
def State.calibRuns (s : State) (cls unit : Nat) : Bool := decide (cls < 2) && (s.calib (decide (cls = 0)) unit).busy.isSome

/-- BLOCK_RETURN (R492, R499, R551). -/
def execBlockReturn (o : Order) (cls : Byte) (unit : BitVec 16) (s : State) : Out :=
  .next (orderRequest o (fun ref s =>
    let c := cls.toNat
    let u := unit.toNat
    let b := s.block c u
    if !blockExists c u || b.failed then s.finishOrder ref stInvalid []
    else if s.testRuns c u || s.calibRuns c u then s.finishOrder ref stBusy []
    else
      let s := s.setBlock c u { b with drain := 0, test := none, outcome := if b.test.isSome then 3 else b.outcome }
      let s := match b.test with
        | some t => s.testDone c u t.testId 3 0 0 0
        | none => s
      let s := if c = 4 then
          (List.range (subPorts (s.portCfg u).mode)).foldl (fun s q =>
            s.modSub (subKey u q) fun p => if p.link = .disabled then { p with link := .down, lastAttempt := s.now } else p) s
        else s
      s.finishOrder ref stOk []) s)

/-! ### Self-tests (R493 to R499) -/

/-- TEST_ORDER. -/
def execTestOrder (o : Order) (cls kind : Byte) (unit : BitVec 16) (margin at_ : Byte) (testId : W32) (s : State) : Out :=
  .next (orderRequest o (fun ref s =>
    let c := cls.toNat
    let u := unit.toNat
    let b := s.block c u
    let life := s.lifecycle
    if !blockExists c u || decide (1 < kind.toNat) || decide (3 < margin.toNat) || decide (1 < at_.toNat) then
      s.finishOrder ref stInvalid []
    else if life = 0 ∨ life = 2 ∨ life = 5 then s.finishOrder ref stInvalid []
    else if life = 3 ∧ (c ≠ 3 ∨ margin ≠ 0) then s.finishOrder ref stInvalid []
    else if margin ≠ 0 ∧ c ≠ 3 ∧ c ≠ 5 then s.finishOrder ref stInvalid []
    else if life = 3 ∧ b.drain ≠ 2 then s.finishOrder ref stRefused []
    else if b.test.isSome || s.testRuns c u then s.finishOrder ref stBusy []
    else
      let t : TestOrder := { kind := kind.toNat, margin := margin.toNat, atWindow := decide (at_ = 1), testId := testId }
      ((s.setBlock c u { b with test := some t }).finishOrder ref stOk []).startTest c u none) s)

/-- A reserve block that a full test of its channel erased, programmed and erased again: its die counts both erasures and the granules
programmed (R495, R497, R503). -/
def State.testBlock (s : State) (unit : Nat) (e : Nat × Nat) : State :=
  let k := nandBlockKey unit e.1 e.2
  let s := s.setNandBlock k { s.nandBlock k with erases := (s.nandBlock k).erases + 2 }
  (s.bumpBy 6 (dieOfBlock k) 7 s.blockGranules).wearLevels (dieOfBlock k)

/-- Re-initialises a block after its test (R497). A memory block that is tested holds nothing (R491), and the march leaves zeros in
it. -/
def State.reinit (s : State) (cls unit : Nat) (t : TestOrder) (r : TestResult) : State :=
  match cls with
  | 3 =>
    let s := (clustersOf (partitionMask unit)).foldl State.zeroCluster s
    s.mapFailures (failedCores r t 3)
  | 0 =>
    let s := s.setLevel 2 unit 2 (s.counter 2 unit 2 + r.lanes)
    s.setLevel 2 unit 3 (s.counter 2 unit 3 + (failedCells r t 0 0).length)
  | 1 => (failedCells r t 1 1).foldl (fun s e => s.setLevel 4 e.1 3 (s.counter 4 e.1 3 + 1)) s
  | 2 =>
    let s := if t.full 2 then r.testBlocks.foldl (fun s e => s.testBlock unit e) s else s
    (failedCells r t 2 2).foldl (fun s e => s.retireBlock (nandBlockKey (e.1 / 32) (e.1 % 32) e.2)) s
  | _ => s

/-- Signature mismatches of the partitions under test are counted, and raise an event (R496, R507). -/
def State.countMismatches (s : State) (cls unit : Nat) (r : TestResult) : State :=
  (testedPartitions cls unit).foldl (fun s q =>
    let n := ((mismatched r).filter fun e => decide (e.1 / 16 = q)).length
    if n = 0 then s else (s.bumpBy 8 q 3 n).alertNow 8 q 3) s

/-- TEST_END: the block is re-initialised and TEST_DONE sent; a device-class test ends in whole-device reset (R486). A block that a test
has left failed stays so until then (R497). -/
def execTestEnd (now cls unit : Nat) (result : TestResult) (s : State) : Out :=
  .next (s.serving fun s => let s := s.advanceTo now
    let b := s.block cls unit
    match b.test with
    | none => s
    | some t =>
      if !t.running then s
      else
        let out := testOutcome result t cls
        let s := (s.isolate cls unit false 0).reinit cls unit t result
        let s := s.setBlock cls unit { b with test := none, failed := b.failed || decide (out = 2), outcome := out, testId := t.testId }
        let s := match t.window with
          | some w => if s.pastWindow w then s.countLate w.orbit w.cid else s
          | none => s
        let s := s.countMismatches cls unit result
        let s := s.testDone cls unit t.testId out (failedCount result t cls) result.firstFailure
          (if testedPartitions cls unit = [] then 0 else (mismatched result).length)
        if cls = 5 then s.enterReset else s)

/-- CALIB_RUN (R500). -/
def execCalibRun (o : Order) (cls kind : Byte) (unit : BitVec 16) (s : State) : Out :=
  .next (orderRequest o (fun ref s =>
    let c := cls.toNat
    let u := unit.toNat
    if 1 < c ∨ 1 < kind.toNat ∨ ¬ blockExists c u then s.finishOrder ref stInvalid []
    else if (s.block c u).drain ≠ 2 then s.finishOrder ref stRefused []
    else if s.testRuns c u || s.calibRuns c u then s.finishOrder ref stBusy []
    else s.startCalib (decide (c = 0)) u kind.toNat (some ref) none) s)

/-! ### Temperatures and refresh (R581, R592) -/

/-- DIMM_TEMPERATURE_POLL (R581). -/
def execDimmTemperaturePoll (now : Nat) (temps : List (Nat × Nat)) (s : State) : Out :=
  .next (if !s.inService then s
    else
      let s := s.advanceTo now
      let known := temps.filter fun e => decide (e.1 % 2 < (nth {} s.boot.cfg.mem.ddr (e.1 / 2)).dimms)
      let s := known.foldl (fun s e => s.setLevel 4 e.1 4 e.2) s
      (List.range 16).foldl (fun s c => s.setCalib false c { s.calib false c with temp := s.channelTemp c }) s)

/-- REFRESH: one refresh of a bank; it changes nothing that a command can read but when the bank was last refreshed (R592). -/
def execRefresh (now : Nat) (ddr : Bool) (unit bank : Nat) (_management : Bool) (s : State) : Out :=
  .next (if !s.inService || !s.unitInUse (!ddr) unit then s
    else
      let s := s.advanceTo now
      { s with store := { s.store with
          refreshed := s.store.refreshed.set 0 ((calibKey (!ddr) unit) * 2 ^ 16 + bank) s.now } })

end Sys2Proof.Machine
end

