-- ==== Sys2Proof/Machine/Redundancy.lean ====
section
/-! DEFINITION. Redundancy groups (R402 to R406, R411, R413 to R415, R428): replica frames, their answers, takeover and
rebuild; and the timeout of requests of the device's own (R111, R112). -/
namespace Sys2Proof.Machine

/-! ### Replica frames -/

/-- Field checks of a replica frame (R70, R92). -/
def replicaValid (h : Hdr) (a : Addr) (data : List Byte) (mirror : Bool) : Option Byte :=
  let n := a.count.toNat
  if data.length ≠ n ∨ h.length ≠ 24 + n then some stInvalid
  else if a.sub = 0xFF then (if n ≠ 8 ∨ 13 < a.offset.toNat ∨ (mirror ∧ a.offset ≠ 0) then some stInvalid else none)
  else if mirror ∧ a.sub.toNat = objectSub then (if n ≠ 64 ∨ 2 ^ 40 ≤ a.offset.toNat then some stInvalid else none)
  else if n < 1 ∨ 4096 < n ∨ (mirror && a.sub ≠ 0) ∨ 13 < a.sub.toNat then some stInvalid
  else none

/-- The check of a replica frame (R428, R445): none where it holds, else the reason of R431. -/
def replicaCheck (s : State) (h : Hdr) (rh : Handle) : Option Nat :=
  match s.activeIdx h.cid with
  | none => some 1
  | some e =>
    if !(s.compAt e).accepts h.gen then some 2
    else if s.comps.expelled.contains h.src then some 3
    else
      match s.localRegion rh with
      | none => some 6
      | some i =>
        if !(s.groupOf i).members.any fun m => decide (m.aid = h.src) then some 4
        else if (s.region i).cid = h.cid ∧ ((s.region i).state = .assigned ∨ (s.region i).state = .draining) then none
        else some 6

/-- The step of a replica frame is the one that the holder's step state takes (R397). -/
def Comp.takesReplica (c : Comp) (step : W32) : Bool :=
  match c.stepState with
  | .closed | .sealed => decide (step = 0)
  | .open_ | .unjournalled => decide (step = c.openStep)
  | _ => false

/-- Sets the version that a version frame carries (R92): the region's, or the one kept for a data position. -/
def State.takeVersion (s : State) (i : Nat) (mirror : Bool) (j : Nat) (v : W64) : State :=
  if mirror then s.modRegion i fun r => { r with version := v }
  else
    let k := (s.region i).group.toNat
    let g := s.comps.groups.get {} k
    s.setGroup k { g with versions := g.versions.set 0 j v }

def replicaFrame (h : Hdr) (opcode : Byte) (mirror : Bool) (a : Addr) (step : W32) (data : List Byte) (s : State) : State :=
  consumed h 24 (fun s =>
    if !s.boot.admitted || s.comps.selfExpelled then s.respond h opcode stNotAdmitted []
    else
      match if h.zeroed then replicaValid h a data mirror else some stInvalid with
      | some st => s.respond h opcode st []
      | none =>
        match replicaCheck s h a.rh with
        | some reason => (s.violation h.cid h.src h.port reason).respond h opcode stDenied []
        | none =>
          let i := (s.localRegion a.rh).getD 0
          let takes := match s.activeIdx h.cid with
            | some e => (s.compAt e).takesReplica step
            | none => false
          let copy := mirror && decide (a.sub = 0) && s.isCopy i a.offset.toNat data.length
          if !takes && !copy then s.respond h opcode stAborted []
          else if a.sub = 0xFF then
            (s.takeVersion i mirror a.offset.toNat (BitVec.ofNat 64 (ofBe data))).respond h opcode stOk []
          else if mirror ∧ a.sub.toNat = objectSub then
            (s.setObject (objectKey s.aid (BitVec.ofNat 40 a.offset.toNat)) (parseObject data)).respond h opcode stOk []
          else if (s.region i).size < a.offset.toNat + data.length then s.respond h opcode stBounds []
          else
            let k := (s.region i).group.toNat
            let g := s.groupOf i
            let s := if copy then s.setGroup k { g with copied := g.copied + 1 } else s
            s.submit { kind := if mirror then .mirror else .parity, origin := .frame h opcode, src := h.src, owner := h.src
                       cid := h.cid, gen := h.gen, region := i, offset := a.offset.toNat, len := data.length, data := data
                       sub := a.sub.toNat, copied := copy }) s

/-- MIRROR_WRITE (R92, R397, R404, R428). -/
def execMirrorWrite (h : Hdr) (a : Addr) (step : W32) (data : List Byte) (s : State) : Out :=
  .next (replicaFrame h 0x50 true a step data s)

/-- PARITY_DELTA (R92, R397, R405, R428). -/
def execParityDelta (h : Hdr) (a : Addr) (step : W32) (data : List Byte) (s : State) : Out :=
  .next (replicaFrame h 0x51 false a step data s)

/-! ### Answers (R406, R411) -/

def State.issuedReq (s : State) (id : Nat) : Option Issued := s.reqs.issued.find? fun r => decide (r.id = id)

/-- A replica frame of an access is answered, or its position is removed. -/
def Access.replicaAnswered (a : Access) (id : Nat) (status : Byte) : Access :=
  let left := a.replicas.filter fun r => decide (r ≠ id)
  { a with
    replicas := left
    replicaStatus := if a.replicaStatus = 0 then status else a.replicaStatus
    replicated := a.replicated || (left.isEmpty && !a.replicas.isEmpty) }

/-- A line of a stripe has arrived; without 64 clean bytes the position counts as unreadable. -/
def Access.stripeAnswered (a : Access) (id position : Nat) (line : List Byte) : Access :=
  { a with stripeIds := a.stripeIds.filter fun r => decide (r ≠ id), stripe := a.stripe.set [] position line }

/-- The poison of the lines of a read, from its mask: bit 63 stands for the last two of 65 (R80). -/
def maskLines (mask : W64) (off n : Nat) : List Bool := (List.range (linesOf off n)).map fun l => mask.getLsbD (min 63 l)

/-- What a unit's read of another device came to. -/
def State.unitAnswered (s : State) (id : Nat) (status : Byte) (data : List Byte) (poison : W64) : State :=
  match s.reqs.units.find? fun u => decide (u.id = id) with
  | none => s
  | some u =>
    let st := if status = stPoison then stOk else status
    s.answerUnit id { status := st, data := sliceBytes data 0 u.len, poison := maskLines poison u.off u.len }

/-- REPLICA_ANSWER: a holder answers a replica frame, a member a read of a stripe, or a device a read or write of one of this device's
units (R406, R411; for the last, which have no row of their own, DESIGN CHOICE, log entry 81). -/
def execReplicaAnswer (h : Hdr) (data : List Byte) (poison : W64) (s : State) : Out :=
  .next (answerTo h (fun r s =>
    let t := s.dropIssued fun x => decide (x.id = r.id)
    match r.req with
    | .replica acc _ _ => (t.modHeld acc fun a => a.replicaAnswered r.id h.status).pump
    | .stripe acc p =>
      (t.modHeld acc fun a => a.stripeAnswered r.id p (if h.status = stOk ∧ poison = 0 then sliceBytes data 0 64 else [])).pump
    | .unit => t.unitAnswered r.id h.status data poison
    | .unitWrite req off => (t.unitFails req h.status off).settleReply req
    | .rebuild _ | .object _ => t
    | _ => s) s)

/-- TARGET_UNRESPONSIVE (R100, R112). -/
def State.unresponsive (s : State) (r : Issued) : State :=
  s.notice 0x0002 (beBytes 2 r.dst.toNat ++ beBytes 2 r.cid.toNat ++ beBytes 4 (s.replicaStepOf r.cid).toNat ++
    beBytes 1 r.opcode.toNat) r.cid

/-! ### Group orders -/

/-- The record of a group at a place in the store (R402). -/
def parseGroup (l : List Byte) : Group :=
  { kind := fieldLe l 0 1, k := fieldLe l 1 1, c := fieldLe l 2 1, condition := fieldLe l 3 1
    failed := (List.range 16).filter fun p => bitOf (fieldLe l 4 2) p
    cid := BitVec.ofNat 16 (fieldLe l 6 2), size := fieldLe l 8 8, spareAid := BitVec.ofNat 16 (fieldLe l 16 2)
    spareRegion := fieldLe l 18 3, sparePosition := fieldLe l 21 1, cursor := fieldLe l 24 4, cursorOpen := fieldLe l 28 4
    members := (List.range (fieldLe l 1 1 + fieldLe l 2 1)).map fun p =>
      { aid := BitVec.ofNat 16 (fieldLe l (32 + 8 * p) 2), region := fieldLe l (32 + 8 * p + 2) 3 } }

/-- The reserved bytes of a group record are zero, those of member places beyond k + c among them (R402). -/
def groupReserved (l : List Byte) : Bool :=
  let n := fieldLe l 1 1 + fieldLe l 2 1
  allZero (sliceBytes l 22 2) && allZero (sliceBytes l 160 32) &&
    (List.range 16).all fun p => allZero (if p < n then sliceBytes l (32 + 8 * p + 5) 3 else sliceBytes l (32 + 8 * p) 8)

/-- Every field of a group record is within its values, and this device's members exist with the group's size (R402, R403). -/
def State.groupOk (s : State) (g : Group) : Bool :=
  (decide (g.condition = 2) || (decide (g.spareAid = 0) && decide (g.spareRegion = 0) && decide (g.sparePosition = 0))) &&
  decide (g.sparePosition < g.k + g.c) && decide (g.cursor * chunkBytes ≤ g.size) && decide (g.cursorOpen ≤ g.cursor) &&
  ((decide (g.kind = 1) && decide (g.k = 1) && decide (g.c = 1)) ||
    (decide (g.kind = 2) && decide (1 ≤ g.k) && decide (g.k ≤ 14) && decide (1 ≤ g.c) && decide (g.c ≤ 2))) &&
  decide (g.condition ≤ 2) && (g.failed.all fun p => decide (p < g.k + g.c)) &&
  (g.members.all fun m => decide (m.aid ≠ s.aid) ||
    (decide ((s.region m.region).state ≠ .free) && decide ((s.region m.region).size = g.size)))

/-- Sets a group record and the condition that the local member regions show (R31, R402). -/
def State.defineGroup (s : State) (k : Nat) (g : Group) : State :=
  let s := s.setGroup k g
  { s with store := { s.store with regions := s.store.regions.mapAll {} fun _ r =>
      if r.redKind ≠ 0 ∧ r.group.toNat = k then { r with redCond := g.condition } else r } }

/-- GROUP_DEFINE (R402, R403): the record lies in a region of this device. -/
def execGroupDefine (o : Order) (group : W32) (record : Ptr) (s : State) : Out :=
  .next (orderRequest o (fun ref s =>
    match s.localRegion record.rh with
    | none => s.finishOrder ref stInvalid []
    | some i =>
      let r := s.region i
      if r.state = .free ∨ r.size < record.offset.toNat + 192 then s.finishOrder ref stInvalid []
      else
        let raw := readBytes s i record.offset.toNat 192
        let g := parseGroup raw
        if groupReserved raw && s.groupOk g then
          (s.defineGroup group.toNat { g with versions := (s.comps.groups.get {} group.toNat).versions }).finishOrder ref stOk []
        else s.finishOrder ref stInvalid []) s)

/-- The position that stands in for failed data positions: 1 of a mirror, or the lowest surviving check position (R411). -/
def Group.standIn (g : Group) : Option Nat := g.liveChecks.head?

/-- The local region by which this device is the stand-in of a group. -/
def State.standInRegion (s : State) (g : Group) : Option Nat :=
  match g.standIn with
  | none => none
  | some p => match g.members[p]? with
    | some m => if m.aid = s.aid then some m.region else none
    | none => none

/-- The device answers to the AIDs of the failed data positions for which it stands in (R411). -/
def State.adoptFailed (s : State) (g : Group) : State :=
  match s.standInRegion g with
  | none => s
  | some i =>
    g.failedData.foldl (fun s p =>
      match g.members[p]? with
      | none => s
      | some m =>
        if m.aid = s.aid || s.comps.adopted.contains (m.aid, m.region, i) then s
        else { s with comps := { s.comps with adopted := s.comps.adopted ++ [(m.aid, m.region, i)] } }) s

/-- AIDs that the device has adopted. -/
def State.adoptedAids (s : State) : List Aid := (s.comps.adopted.map (·.1)).eraseDups

/-- Replica frames to a removed position count as answered: their writes are performed without it (R406). -/
def State.forgetPosition (s : State) (group p : Nat) : State :=
  let gone := s.reqs.issued.filter fun r => match r.req with
    | .replica _ k q => decide (k = group) && decide (q = p)
    | _ => false
  let s := s.dropIssued fun r => gone.contains r
  gone.foldl (fun s r => match r.req with
    | .replica acc _ _ => s.modHeld acc fun a => a.replicaAnswered r.id stOk
    | _ => s) s

/-- Objects of other anchors whose copies this device keeps and for which it is the anchor. -/
def State.anchored (s : State) : List Nat :=
  (s.store.objects.filter fun e => decide (2 ^ 40 ≤ e.1) && s.anchors e.1).map (·.1)

/-- A holder that has become an object's anchor reverts its PENDING handoff to the sender (R61). -/
def State.revertTaken (s : State) (before : List Nat) : State :=
  (s.anchored.filter fun k => !before.contains k).foldl (fun s k => if (s.object k).state = 2 then s.revertHandoff k else s) s

/-- GROUP_TAKEOVER (R403, R406, R411). A stand-in with 15 adopted AIDs takes no further one (NO_SPACE). -/
def execGroupTakeover (o : Order) (group : W32) (position : Byte) (s : State) : Out :=
  .next (orderRequest o (fun ref s =>
    let k := group.toNat
    let g := s.comps.groups.get {} k
    let f := position.toNat
    if g.kind = 0 ∨ g.k + g.c ≤ f then s.finishOrder ref stInvalid []
    else
      let g := { g with condition := 1, failed := if g.failed.contains f then g.failed else g.failed ++ [f]
                        spareAid := 0, spareRegion := 0, sparePosition := 0, copying := false }
      let t := ((s.dropCopies [k]).defineGroup k g).adoptFailed g
      if 15 < t.adoptedAids.length then s.finishOrder ref stNoSpace []
      else (((t.forgetPosition k f).pump).revertTaken s.anchored).finishOrder ref stOk []) s)

/-- The device is the source of a rebuild: the stand-in for a data position, position 0 for a mirror's copy, the spare for a
check position (R413); the local region that it copies from or into. -/
def State.rebuildSource (s : State) (g : Group) : Option Nat :=
  if g.condition ≠ 2 then none
  else if g.sparePosition < g.k then s.standInRegion g
  else if g.kind = 1 then
    match g.members[0]? with
    | some m => if m.aid = s.aid then some m.region else none
    | none => none
  else if g.spareAid = s.aid then some g.spareRegion
  else none

/-- Versions that the spare receives before the first chunk (R413): of a rebuilt data position from the stand-in, of a
mirror's region from position 0, and for a check position from the home of each data position here. -/
def State.sendSpareVersions (s : State) (k : Nat) (g : Group) : State :=
  let frame := fun (s : State) (i : Nat) (op : Byte) (j : Nat) (v : W64) =>
    let cid := (s.region i).cid
    s.issue (.rebuild k)
      { opcode := op, dst := g.spareAid, cid := cid, gen := s.genOf cid, pcp := s.pcpReplica
        payload := addrBytes (mkHandle g.spareAid g.spareRegion) 0xFF j 8 ++ beBytes 4 (s.replicaStepOf cid).toNat ++ zeros 4 ++
          beBytes 8 v.toNat }
  if g.kind = 1 ∨ g.sparePosition < g.k then
    match s.rebuildSource g with
    | some i =>
      let v := if g.kind = 1 then (s.region i).version else g.versions.get 0 g.sparePosition
      frame s i 0x50 0 v
    | none => s
  else
    (List.range g.k).foldl (fun s j =>
      if g.hasFailed j then
        match s.standInRegion g with
        | some i => frame s i 0x51 j (g.versions.get 0 j)
        | none => s
      else
        match g.members[j]? with
        | some m => if m.aid = s.aid then frame s m.region 0x51 j (s.region m.region).version else s
        | none => s) s

/-- The spare receives the records of the objects whose first region lies at the rebuilt position, or, for a check position, of
those whose anchor this device is, as a holder does (R61; log entry 18). -/
def State.sendSpareObjects (s : State) (k : Nat) (g : Group) : State :=
  s.store.objects.foldl (fun s e =>
    match s.firstRegion e.1 e.2 with
    | some (i, stands) =>
      let here := s.homePosition i stands
      if s.anchors e.1 ∧ (s.region i).redKind ≠ 0 ∧ (s.region i).group.toNat = k ∧
          (g.k ≤ g.sparePosition ∨ here = some g.sparePosition) then
        s.sendObject e.1 i e.2 { aid := g.spareAid, region := g.spareRegion, position := g.sparePosition }
      else s
    | none => s) s

/-- GROUP_REBUILD (R403, R413). -/
def execGroupRebuild (o : Order) (group : W32) (position : Byte) (spareAid : Aid) (spareRegion : BitVec 24) (s : State) : Out :=
  .next (orderRequest o (fun ref s =>
    let k := group.toNat
    let g := s.comps.groups.get {} k
    if g.kind = 0 ∨ !g.hasFailed position.toNat then s.finishOrder ref stInvalid []
    else
      let g := { g with condition := 2, spareAid := spareAid, spareRegion := spareRegion.toNat
                        sparePosition := position.toNat, cursor := 0, cursorOpen := 0, copying := false, copied := 0 }
      ((((s.dropCopies [k]).defineGroup k g).sendSpareVersions k g).sendSpareObjects k g).finishOrder ref stOk []) s)

/-- Copies of a chunk of the group are still under way. -/
def State.copiesOut (s : State) (k : Nat) : Bool :=
  (s.reqs.held.any fun a => decide (a.origin = .rebuild k)) ||
  (s.reqs.issued.any fun r => decide (r.req = .rebuild k))

/-- Starts the copy of the cursor chunk, 4 KiB after 4 KiB. -/
def State.startCopy (s : State) (k i : Nat) (g : Group) : State :=
  let s := s.setGroup k { g with copying := true }
  (List.range 512).foldl (fun s n =>
    s.submit { kind := .copy, origin := .rebuild k, src := s.aid, owner := s.aid, cid := (s.region i).cid
               gen := s.genOf (s.region i).cid, region := i, offset := g.cursor * chunkBytes + 4096 * n, len := 4096
               position := if g.kind = 2 ∧ g.sparePosition < g.k then some g.sparePosition else none }) s

/-- The rebuild ends: the spare takes the position (R415). -/
def State.rebuildDone (s : State) (k : Nat) (g : Group) : State :=
  let p := g.sparePosition
  let old := g.members.getD p {}
  let failed := g.failed.filter fun q => decide (q ≠ p)
  let standing := s.standInRegion g
  let g' := { g with
    failed := failed, condition := if failed.isEmpty then 0 else 1
    members := g.members.set p { aid := g.spareAid, region := g.spareRegion }
    spareAid := 0, spareRegion := 0, sparePosition := 0, cursor := 0, cursorOpen := 0, copying := false }
  let s := s.defineGroup k g'
  let s := if g.spareAid = s.aid then
      let s := s.notice 0x0070 (beBytes 2 old.aid.toNat ++ beBytes 2 g.cid.toNat ++ beBytes 1 p ++
        beBytes 5 (mkHandle s.aid g.spareRegion).toNat) g.cid
      if p < g.k then { s with comps := { s.comps with adopted := s.comps.adopted ++ [(old.aid, old.region, g.spareRegion)] } }
      else s
    else s
  if p < g.k ∧ standing.isSome ∧ g.spareAid ≠ s.aid then
    { s with
      comps := { s.comps with adopted := s.comps.adopted.filter fun x => decide (x.1 ≠ old.aid) || decide (x.2.1 ≠ old.region) }
      switch := { s.switch with fwd := s.switch.fwd.set 0 old.aid.toNat (s.switch.fwd.get 0 g.spareAid.toNat) } }
  else s

/-- REBUILD_CHUNK: the copy of the cursor chunk begins at its source, or has finished, and the cursor advances; after the
last chunk the spare takes the position (R413, R415). -/
def execRebuildChunk (now group : Nat) (s : State) : Out :=
  .next (s.serving fun s => let s := s.advanceTo now
    let g := s.comps.groups.get {} group
    if g.condition ≠ 2 ∨ s.comps.selfExpelled then s
    else
      match s.rebuildSource g with
      | some i =>
        if !g.copying then s.startCopy group i g
        else if s.copiesOut group then s
        else if (g.cursor + 1) * chunkBytes < g.size then s.setGroup group { g with cursor := g.cursor + 1, copying := false }
        else s.rebuildDone group g
      | none =>
        if (g.cursor + 1) * chunkBytes < g.size then s.setGroup group { g with cursor := g.cursor + 1 }
        else s.rebuildDone group g)

/-- An ECLIPSE or ROLLBACK sets the cursors of the composition's groups back (R414). -/
def State.resetCursors (s : State) (cid : Cid) : State :=
  let hit := (s.comps.groups.filter fun e => decide (e.2.cid = cid) && decide (e.2.condition = 2)).map (·.1)
  hit.foldl (fun s k =>
    let g := s.comps.groups.get {} k
    s.setGroup k { g with cursor := g.cursorOpen, copying := false, copied := g.cursorOpen * (chunkBytes / 64) }) (s.dropCopies hit)

/-- At STEP_OPEN every group of the composition notes its cursor (R402). -/
def State.openCursors (s : State) (cid : Cid) : State :=
  { s with comps := { s.comps with groups := s.comps.groups.mapAll {} fun _ g =>
      if g.cid = cid then { g with cursorOpen := g.cursor } else g } }

end Sys2Proof.Machine
end

