-- ==== Sys2Proof/Machine/Steps.lean ====
section
/-! DEFINITION. Steps (13): STEP_OPEN, the commit sequence, ROLLBACK and the eclipse sequence (R395 to R410, R90, R91). -/
namespace Sys2Proof.Machine

/-- The current step of R90: the open step in OPEN and UNJOURNALLED, and C otherwise (R395). -/
def Comp.currentStep (c : Comp) : W32 :=
  match c.stepState with
  | .open_ | .unjournalled => c.openStep
  | _ => c.committed

/-- The payload of a step response: current step, flag [0] for an unjournalled step (R90, R401). -/
def Comp.stepPayload (c : Comp) (flag : Bool) : List Byte :=
  beBytes 4 c.currentStep.toNat ++ beBytes 1 (if flag then 1 else 0) ++ zeros 3

/-- A step frame's response. -/
def State.answerStep (s : State) (h : Hdr) (opcode status : Byte) (c : Comp) (flag : Bool) : State :=
  s.respondAuth h opcode status (c.stepPayload flag)

/-- Flag [0] of a response to STEP_COMMIT, ROLLBACK or ECLIPSE that names `step`: set for the unjournalled step (R401). -/
def Comp.stepFlag (c : Comp) (step : W32) : Bool := c.unjournalled && decide (step = c.openStep)

/-- A step frame of a registered manager that names an ACTIVE composition and has a zero header; INVALID otherwise (R67, R395). -/
def stepFrame (h : Hdr) (t : Trailer) (opcode : Byte) (step : W32) (k : Nat → Comp → State → State) (s : State) : State :=
  authenticated h t 8 (fun s =>
    match s.activeIdx h.cid with
    | none => s.respondAuth h opcode stInvalid (zeros 8)
    | some e =>
      let c := s.compAt e
      zeroChecked h (·.answerStep h opcode stInvalid c (decide (opcode ≠ 0x40) && c.stepFlag step)) (k e c) s) s

/-- STEP_MISMATCH, to a frame that names `step`. -/
def State.mismatch (s : State) (h : Hdr) (opcode : Byte) (c : Comp) (step : W32) : State :=
  s.answerStep h opcode stStepMismatch c (decide (opcode ≠ 0x40) && c.stepFlag step)

/-! ### STEP_OPEN -/

/-- Key of the version that a check member keeps for a position of a group. -/
def keptKey (group position : Nat) : Nat := group * 16 + position

/-- Versions of all regions, since one may come to the composition within the step, and those that check members keep. -/
def State.versionsNow (s : State) : Tab W64 := s.store.regions.foldl (fun t e => t.set 0 e.1 e.2.version) []

def State.keptVersionsNow (s : State) : Tab W64 :=
  s.comps.groups.foldl (fun t e => e.2.versions.foldl (fun t v => t.set 0 (keptKey e.1 v.1) v.2) t) []

/-- Opens step `step` with an empty journal (R395): versions and cursors are noted (R170, R402). -/
def State.openStepOf (s : State) (e : Nat) (step : W32) : State :=
  let c := s.compAt e
  let c := { c with
    stepState := .open_, openStep := step, committed := step - 1, recs := [], unjournalled := false, opened := true, sealing := false
    versions := s.versionsNow, keptVersions := s.keptVersionsNow }
  (s.setComp e c).openCursors c.cid

/-- STEP_OPEN. -/
def execStepOpen (h : Hdr) (t : Trailer) (step : W32) (s : State) : Out :=
  .next (stepFrame h t 0x40 step (fun e c s =>
    let fits := match c.stepState with
      | .closed => decide (step ≠ 0)
      | .fenced | .sealed => decide (step = c.committed + 1)
      | _ => false
    if !fits then s.mismatch h 0x40 c step
    else
      let s := s.openStepOf e step
      s.answerStep h 0x40 stOk (s.compAt e) false) s)

/-! ### The commit sequence (R158, R395) -/

/-- Lines on a composition's exclusive lists. -/
def State.exclusives (s : State) (cid : Cid) : List Nat :=
  (s.dir.entries.filter fun e => decide (e.2.cid = cid) && decide (e.2.state = .exclusive)).map (·.1)

/-- Recalls every exclusive line of a composition that is not in transition, by C_SNOOP_INV with target home (R158). -/
def State.recallExclusives (s : State) (cid : Cid) : State :=
  (s.exclusives cid).foldl (fun s k =>
    if (s.dirEntry k).busy then s else s.startTransition k false (s.dirEntry k).ptrs s.aid .home) s

/-- LOST lines of a composition. -/
def State.lostLines (s : State) (cid : Cid) : List Nat :=
  (s.dir.entries.filter fun e => decide (e.2.cid = cid) && decide (e.2.state = .lost)).map (·.1)

/-- Ends the commit sequence once no exclusive line is left: the step is SEALED, LOST lines are poisoned and freed, and every
held STEP_COMMIT is answered (R158, R163, R395). -/
def State.endCommit (s : State) (e : Nat) : State :=
  let c := s.compAt e
  if c.commits.isEmpty || !(s.exclusives c.cid).isEmpty then s
  else
    let s := s.setComp e { c with stepState := .sealed, committed := c.openStep, commits := [], sealing := false }
    let s := (s.lostLines c.cid).foldl State.resolveLost s
    let s := c.commits.foldl (fun s x => s.answerStep x.h 0x41 stOk (s.compAt e) c.unjournalled) s
    s.pump

/-- STEP_COMMIT. -/
def execStepCommit (h : Hdr) (t : Trailer) (step : W32) (s : State) : Out :=
  .next (stepFrame h t 0x41 step (fun e c s =>
    match c.stepState with
    | .open_ | .unjournalled =>
      if step ≠ c.openStep then s.mismatch h 0x41 c step
      else
        let first := c.commits.isEmpty
        let s := s.setComp e { c with commits := c.commits ++ [{ h := h, opcode := 0x41 }] }
        if first then (s.recallExclusives c.cid).endCommit e else s
    | .sealed => if step = c.committed then s.answerStep h 0x41 stOk c c.unjournalled else s.mismatch h 0x41 c step
    | _ => s.mismatch h 0x41 c step) s)

/-- COMMIT_SEQUENCE_END (R158): lines granted meanwhile are recalled too, also while only a COMMIT transit has started the sequence
(R200). -/
def execCommitSequenceEnd (now : Nat) (cid : Cid) (s : State) : Out :=
  .next (s.serving fun s => let s := s.advanceTo now
    match s.activeIdx cid with
    | none => s
    | some e => if (s.compAt e).commits.isEmpty && !(s.compAt e).sealing then s else (s.recallExclusives cid).endCommit e)

/-! ### Undoing a step (R407 steps 4 to 6) -/

/-- Directory entries of a composition that are not LOST. -/
def State.liveLines (s : State) (cid : Cid) : List Nat :=
  (s.dir.entries.filter fun e => decide (e.2.cid = cid) && decide (e.2.state ≠ .lost) && decide (e.2.state ≠ .free)).map (·.1)

/-- Invalidates every directory entry of a composition that is not LOST; the data that come back are discarded (R407 step 4). -/
def State.invalidateAll (s : State) (cid : Cid) : State :=
  (s.liveLines cid).foldl (fun s k =>
    let d := s.dirEntry k
    if d.busy then s
    else s.startTransition k false (if d.state = .shared then s.sharers k false none else d.ptrs) s.aid .discard) s

/-- Writes one record back, with its poison bits (R407 step 5). A DEEP sector that has to be filled, or that finds no way, holds
the write as it holds any other (R38, R45). -/
def State.restoreRecord (s : State) (e : Nat) (r : JRec) : State :=
  let c := s.compAt e
  s.submit { kind := .place, origin := .restore e, src := s.aid, owner := s.aid, cid := c.cid, gen := c.gen, region := r.region
             offset := 256 * r.block, len := r.data.length, data := r.data
             taint := (r.poison.zipIdx.filter fun p => p.1).map fun p => 4 * r.block + p.2 }

/-- Records of a composition entry are still being written back. -/
def State.restoring (s : State) (e : Nat) : Bool := s.reqs.held.any fun a => decide (a.origin = .restore e)

/-- Restores the versions of the regions that a composition holds, ASSIGNED or DRAINING, and the versions kept for its groups (R170,
R92). -/
def State.restoreVersions (s : State) (c : Comp) : State :=
  if !c.opened then s
  else
    let regions := s.store.regions.mapAll {} fun i r =>
      if r.cid = c.cid ∧ (r.state = .assigned ∨ r.state = .draining) then { r with version := c.versions.get 0 i } else r
    let groups := s.comps.groups.mapAll {} fun k g =>
      if g.cid = c.cid then
        { g with versions := (List.range 16).foldl (fun t j => t.set 0 j (c.keptVersions.get 0 (keptKey k j))) [] }
      else g
    { s with store := { s.store with regions := regions }, comps := { s.comps with groups := groups } }

/-- Frees LOST lines: those that the journal restored with the poison bit clear, others poisoned (R163). -/
def State.freeLost (s : State) (cid : Cid) (journalled : Bool) : State :=
  (s.lostLines cid).foldl (fun s k =>
    let d := s.dirEntry k
    (s.setPoison (regionOfDir d.region) d.line (!journalled)).freeEntry k) s

/-- Step 5 of the eclipse sequence, until every record is written back. -/
def State.undoStep (s : State) (e : Nat) : State :=
  let c := s.compAt e
  let s := s.modComp e fun c => { c with phase := 5 }
  let s := if c.unjournalled then s else c.recs.reverse.foldl (fun s r => s.restoreRecord e r) s
  s.restoreVersions c

/-- The end of step 5: once every record is written back, the reads that waited for them go on and LOST lines are resolved. -/
def State.endRestore (s : State) (e : Nat) : State :=
  let c := s.compAt e
  if c.phase ≠ 5 ∨ s.restoring e then s
  else ((s.freeLost c.cid (!c.unjournalled)).modComp e fun c => { c with phase := 6, recs := [] }).pump

/-- Step 6: the journal is discarded, the step state is FENCED, and what was held is answered; merges are resumed (R359, R395,
R407). -/
def State.finishUndo (s : State) (e : Nat) : State :=
  let c := s.compAt e
  let s := s.freeLost c.cid (!c.unjournalled)
  let s := s.setComp e { c with
    stepState := .fenced, recs := [], opened := false, versions := [], keptVersions := [], phase := 0, eclipses := [], rollback := none }
  let now := s.compAt e
  let s := match c.rollback with
    | some x => s.answerStep x.h 0x42 stOk now c.unjournalled
    | none => s
  let s := c.eclipses.foldl (fun s x => s.answerStep x.h 0x43 stOk now c.unjournalled) s
  (s.resumeMerges c.cid).pump

/-! ### ROLLBACK (R410) -/

/-- A thread of the composition runs or waits. -/
def State.threadsRun (s : State) (cid : Cid) : Bool :=
  s.grid.clusters.any fun e => decide (e.2.cid = cid) && (coresOf e.1).any fun k =>
    (s.core k).threads.any fun t => decide (t.2.state ≠ .free) && decide (t.2.state ≠ .halted)

/-- An engine request of the composition is in service. -/
def State.engineBusy (s : State) (cid : Cid) : Bool :=
  (s.movers.movers.any fun e => match e.2.req with
    | some q => decide (q.h.cid = cid)
    | none => false) ||
    (s.emb.service.any fun q => decide (q.h.cid = cid)) || (s.emb.jobs.any fun j => decide (j.cid = cid)) ||
    (s.reqs.replies.any fun x => decide (x.h.cid = cid)) ||
    (s.indexes.any fun e => decide (e.2.cid = cid) && !e.2.batches.isEmpty) || (s.ckpt.service.any fun q => decide (q.h.cid = cid))

/-- Step 1: the composition is fenced; writes that wait fail with ABORTED (R397, R407). -/
def State.fence (s : State) (e : Nat) (c : Comp) (step committed : W32) : State :=
  (s.setComp e { c with stepState := .eclipsing, openStep := step, committed := committed, sealing := false }).resetCursors c.cid

/-- ROLLBACK: the step state reads ECLIPSING until ROLLBACK_COMPLETE (log entry 60). -/
def execRollback (h : Hdr) (t : Trailer) (step : W32) (s : State) : Out :=
  .next (stepFrame h t 0x42 step (fun e c s =>
    let start := fun (committed : W32) (s : State) =>
      if s.threadsRun c.cid || s.engineBusy c.cid then s.answerStep h 0x42 stBusy c (c.stepFlag step)
      else
        ((s.fence e { c with rollback := some { h := h, opcode := 0x42 } } step committed).invalidateAll c.cid).pump
    match c.stepState with
    | .unjournalled => s.answerStep h 0x42 stInvalid c true
    | .open_ =>
      if step ≠ c.openStep then s.mismatch h 0x42 c step
      else if !c.commits.isEmpty then s.answerStep h 0x42 stBusy c false
      else start c.committed s
    | .sealed => if step = c.committed then start (c.committed - 1) s else s.mismatch h 0x42 c step
    | _ => s.mismatch h 0x42 c step) s)

/-- ROLLBACK_COMPLETE: every snoop is answered, records and versions are restored, and the response goes out (R410). -/
def execRollbackComplete (now : Nat) (cid : Cid) (s : State) : Out :=
  .next (s.serving fun s => let s := s.advanceTo now
    match s.activeIdx cid with
    | none => s
    | some e =>
      if (s.compAt e).rollback.isNone then s
      else
        let s := s.invalidateAll cid
        if !(s.liveLines cid).isEmpty then s
        else
          let s := (if (s.compAt e).phase = 5 then s else s.undoStep e).endRestore e
          if (s.compAt e).phase = 6 then s.finishUndo e else s)

/-! ### ECLIPSE (R407) -/

/-- Flagged stores that a composition's threads still hold at their cores are dropped with them (R407 step 2). -/
def State.dropHeldOf (s : State) (cid : Cid) : State :=
  (s.setGridReqs (s.grid.reqs.filter fun r => !(r.heldStore && decide (r.cid = cid)))).setLost
    (s.grid.lost.filter fun x => decide (x.cid ≠ cid))

/-- Steps 1 and 2: fence, halt the threads, and complete every engine request with ABORTED. -/
def State.startEclipse (s : State) (e : Nat) (c : Comp) (step committed : W32) : State :=
  let cid := c.cid
  let s := s.fence e { c with phase := 3, commits := [] } step committed
  let s := (s.haltComposition cid).dropHeldOf cid
  let s := ((s.abortMoves cid true).abortEmb cid).abortSearches true fun a => decide (a.cid = cid)
  (s.abortCkpt cid).pump

/-- The composition entry that an ECLIPSE of a step finds: C, and an empty journal where the step is not the one journalled
(R395); none where the table accepts no such ECLIPSE. -/
def Comp.eclipsed (c : Comp) (step : W32) : Option (Comp × W32) :=
  let empty := { c with recs := [], opened := false, versions := [], keptVersions := [] }
  match c.stepState with
  | .closed => if step = 0 then none else some ({ empty with unjournalled := false }, step - 1)
  | .open_ | .unjournalled => if step = c.openStep then some (c, c.committed) else none
  | .sealed =>
    if step = c.committed then some (c, c.committed - 1)
    else if step = c.committed + 1 then some ({ empty with unjournalled := false }, c.committed)
    else none
  | .fenced => if step = c.committed + 1 then some (empty, c.committed) else none
  | .eclipsing => none

/-- ECLIPSE: a cause above 3 lies outside the range of R90 (R70). -/
def execEclipse (h : Hdr) (t : Trailer) (step : W32) (_origin : Aid) (cause : Byte) (s : State) : Out :=
  .next (stepFrame h t 0x43 step (fun e c s =>
    let held : HeldStep := { h := h, opcode := 0x43 }
    if 3 < cause.toNat then s.answerStep h 0x43 stInvalid c (c.stepFlag step)
    else if c.stepState = .eclipsing then
      if step = c.openStep then s.setComp e { c with eclipses := c.eclipses ++ [held] } else s.mismatch h 0x43 c step
    else
      match c.eclipsed step with
      | none => s.mismatch h 0x43 c step
      | some (d, committed) =>
        let s := c.commits.foldl (fun s x => s.answerStep x.h 0x41 stAborted c c.unjournalled) s
        s.startEclipse e { d with eclipses := [held] } step committed) s)

/-- An access waits for what only step 5 brings: the restore of its block, or of its LOST line (R163, R409). -/
def State.untilRestore (s : State) (a : Access) : Bool :=
  (match a.wait with
    | some (.restore _ _) => true
    | _ => false) || s.lineLost a.dir a.line

/-- Every request that the composition's threads, engines and replica traffic issued has its answer or has timed out (R407
step 3). A request at a slice of this device that waits for step 5 itself is not waited for (DESIGN CHOICE, log entry 99). -/
def State.eclipseQuiet (s : State) (cid : Cid) : Bool :=
  !(s.grid.reqs.any fun r => decide (r.cid = cid) &&
    !s.reqs.held.any fun a => decide (a.origin = .thread r.id) && s.untilRestore a) &&
    !(s.reqs.issued.any fun r => decide (r.cid = cid) && !r.timedOut && (match r.req with
      | .snoop _ _ => false
      | _ => true)) &&
    !(s.reqs.held.any fun a => decide (a.cid = cid) && !s.untilRestore a && (match a.origin with
      | .engine _ | .thread _ | .unit _ => true
      | _ => false))

/-- ECLIPSE_QUIESCED: step 4 begins. -/
def execEclipseQuiesced (now : Nat) (cid : Cid) (s : State) : Out :=
  .next (s.serving fun s => let s := s.advanceTo now
    match s.activeIdx cid with
    | none => s
    | some e =>
      let c := s.compAt e
      if c.phase = 3 ∧ s.eclipseQuiet cid then ((s.setComp e { c with phase := 4 }).invalidateAll cid).pump else s)

/-- ECLIPSE_RESTORE: step 5, once no directory entry of the composition is left but LOST ones. -/
def execEclipseRestore (now : Nat) (cid : Cid) (s : State) : Out :=
  .next (s.serving fun s => let s := s.advanceTo now
    match s.activeIdx cid with
    | none => s
    | some e =>
      if (s.compAt e).phase ≠ 4 then s.endRestore e
      else
        let s := s.invalidateAll cid
        if (s.liveLines cid).isEmpty then (s.undoStep e).endRestore e else s)

/-- ECLIPSE_COMPLETE: step 6. -/
def execEclipseComplete (now : Nat) (cid : Cid) (s : State) : Out :=
  .next (s.serving fun s => let s := s.advanceTo now
    match s.activeIdx cid with
    | none => s
    | some e =>
      let s := s.endRestore e
      if (s.compAt e).phase = 6 then s.finishUndo e else s)

end Sys2Proof.Machine
end

