-- ==== Sys2Proof/Machine/Expulsion.lean ====
section
/-! DEFINITION. Release of a composition (R437), quorum orders: expulsion, DEVICE_RESET, FLOOR_RAISE and LC_RETIRE (R443 to
R445, R488, R512, R524, R526), admission (R476, R525), and requests that time out (R111, R112). -/
namespace Sys2Proof.Machine

/-! ### Release of a composition (R437) -/

/-- Regions in a state under a cid. -/
def State.regionsOf (s : State) (cid : Cid) (st : RState) : List Nat :=
  (s.store.regions.filter fun e => decide (e.2.cid = cid) && decide (e.2.state = st)).map (·.1)

/-- COMP_RELEASE: steps 1 and 2. -/
def execCompRelease (o : Order) (cid : Cid) (flags : Byte) (s : State) : Out :=
  .next (activeOrder o cid (fun ref e s =>
    match (s.compAt e).stepState with
    | .open_ | .unjournalled | .eclipsing => s.finishOrder ref stBusy []
    | _ =>
      let s := s.finishOrder ref stOk []
      let mine := s.regionsOf cid .assigned
      let s := s.modComp e fun c => { c with state := .releasing, releaseRegions := flags.getLsbD 0, drainedRegions := mine }
      mine.foldl State.revoke s) s)

/-- PARKED descriptors of a composition are dropped; their MOVEs complete with ABORTED, since every request is answered
(R113, R233; log entry 61). -/
def State.dropParked (s : State) (cid : Cid) : State :=
  let mine := fun (p : Parked) => decide (p.req.h.cid = cid)
  let gone := s.movers.parked.filter mine
  let s := s.setMovers { s.movers with parked := s.movers.parked.filter fun p => !mine p }
  let s := gone.foldl (fun s p => s.answerMove p.req stAborted) s
  (List.range 64).foldl (fun s m =>
    match (s.mover m).req, (s.mover m).state with
    | some q, .stalled => if q.h.cid = cid then s.endMove m stAborted else s
    | _, _ => s) s

/-- Frees the objects of a composition; a PENDING handoff to it reverts (R437 step 4). -/
def State.releaseObjects (s : State) (cid : Cid) : State :=
  s.store.objects.foldl (fun s e =>
    let o := s.object e.1
    if !s.anchors e.1 then s
    else if o.state ≠ 0 ∧ o.ownerCid = cid then s.putObject e.1 {}
    else if o.state = 2 ∧ o.recvCid = cid then s.revertHandoff e.1 else s) s

/-- Steps 3 to 6, once every drain is over. -/
def State.endRelease (s : State) (e : Nat) : State :=
  let c := s.compAt e
  let cid := c.cid
  let s := (s.abortSearches true fun a => decide (a.cid = cid)).detachAll fun a => decide (a.cid = cid)
  let s := (s.releaseClusters (s.clustersOfCid cid)).settleDeferred
  let s := (((s.dropOrbits cid).dropParked cid).releaseObjects cid).setJournalUsed (s.comps.journalUsed - c.journal)
  let s := s.modComp e fun c => { c with journal := 0, recs := [], ended := true }
  if c.releaseRegions then
    c.drainedRegions.foldl (fun s i => if (s.region i).state = .idle then s.startRelease i none else s) s
  else s

/-- Clusters of a composition that are not FREE yet. -/
def State.clustersLeft (s : State) (cid : Cid) : Bool :=
  s.grid.clusters.any fun e => decide (e.2.cid = cid) && decide (e.2.state ≠ .free) && decide (e.2.state ≠ .unavailable)

/-- Steps 7 and 8: the entry is zeroed but for G and F, and COMP_RELEASED is sent. -/
def State.freeComp (s : State) (e : Nat) : State :=
  let c := s.compAt e
  let s := (s.notice 0x0007 (beBytes 2 c.cid.toNat ++ zeros 6 ++ c.meters.bytes) c.cid).setComp e {}
  { s with comps := { s.comps with kept := s.comps.kept.set none c.cid.toNat (some (c.gen, c.genFloor)) } }

/-- COMP_RELEASE_DONE: the drains are over, and steps 3 to 8 follow; where clusters or regions have still to become FREE, a
later event takes steps 7 and 8. -/
def execCompReleaseDone (now : Nat) (cid : Cid) (s : State) : Out :=
  .next (s.serving fun s => let s := s.advanceTo now
    match s.compIdx cid with
    | none => s
    | some e =>
      if (s.compAt e).state ≠ .releasing ∨ !(s.regionsOf cid .assigned).isEmpty ∨ !(s.regionsOf cid .draining).isEmpty then s
      else
        let s := if (s.compAt e).ended then s else s.endRelease e
        let c := s.compAt e
        if s.clustersLeft cid || (c.releaseRegions && c.drainedRegions.any fun i => decide ((s.region i).state = .releasing)) then s
        else s.freeComp e)

/-! ### Tallies (R443, R488, R526) -/

def State.setTallies (s : State) (l : List Tally) : State := { s with comps := { s.comps with tallies := l } }

/-- The limit of a tally: 2 s in ns. -/
def tallyLimit : Nat := 2000000000

/-- Counts a manager's order in its tally; true when the tally reaches the quorum, which ends it. -/
def State.countTally (s : State) (kind : TallyKind) (target : Nat) (nonce : W64) (manager : Aid) : State × Bool :=
  let mine := fun (t : Tally) => decide (t.kind = kind) && decide (t.target = target) && decide (t.nonce = nonce)
  let live := s.comps.tallies.filter fun t => decide (s.now ≤ t.start + tallyLimit)
  let old : Tally := (live.find? mine).getD { kind := kind, target := target, nonce := nonce, start := s.now }
  let new : Tally := { old with managers := if old.managers.contains manager then old.managers else old.managers ++ [manager] }
  let rest := live.filter fun t => !mine t
  if s.boot.cfg.quorum ≤ new.managers.length then (s.setTallies rest, true) else (s.setTallies (rest ++ [new]), false)

/-- TALLY_EXPIRY: 2 s have passed without a quorum. -/
def execTallyExpiry (now idx : Nat) (s : State) : Out :=
  .next (s.serving fun s => let s := s.advanceTo now
    match s.comps.tallies[idx]? with
    | some t => if t.start + tallyLimit ≤ s.now then s.setTallies (s.comps.tallies.eraseIdx idx) else s
    | none => s)

/-! ### Expulsion (R444, R445) -/

/-- Completes what the device serves for requesters with NOT_ADMITTED; copies of a rebuild end (log entry 62). -/
def State.refuseHeld (s : State) : State :=
  s.reqs.held.foldl (fun s a =>
    match a.origin with
    | .frame _ _ | .v1 _ _ => s.completeAccess { a with failed := stNotAdmitted, result := [] }
    | .transition _ | .rebuild _ | .restore _ => s.setHeld (s.reqs.held.filter fun b => decide (b.id ≠ a.id))
    | _ => s.completeAccess { a with failed := stNotAdmitted, result := [] }) s

/-- What waits for the device to do something first completes with NOT_ADMITTED too: RELEASEs and OWN_GIVEs, ATTESTs, and orders
whose first reads wait. -/
def State.refuseWaiting (s : State) : State :=
  let s := s.reqs.waiting.foldl (fun s w => s.respond w.h (if w.give.isSome then 0x18 else 0x06) stNotAdmitted []) (s.setWaiting [])
  let s := s.sec.attests.foldl (fun s j => s.finishOrder j.order stNotAdmitted []) { s with sec := { s.sec with attests := [] } }
  s.reqs.arrivals.foldl (fun s a =>
    let s := s.forget (.frame a.h.src a.h.tag)
    match a.ref with
    | some ref => s.finishOrder ref stNotAdmitted []
    | none => s) (s.setArrivals [])

/-- Destroys every flash key (R541). -/
def State.destroyKeys (s : State) : State :=
  { s with
    sec := { s.sec with keySlots := [] }
    store := { s.store with regions := s.store.regions.mapAll {} fun _ r => { r with keySlot := 0xFFFFFFFF, newKeySlot := 0xFFFFFFFF } } }

/-- Zeroes every region, cluster and the journal (R438, R240). -/
def State.scrub (s : State) : State :=
  let s := { s with store := { s.store with mem := [], poison := [], sectors := [], map := [] } }
  let s := s.grid.clusters.foldl (fun s e => s.zeroCluster e.1) s
  { s with
    grid := { s.grid with clusters := s.grid.clusters.mapAll {} fun _ c => { c with programs := [], active := none } }
    comps := { s.comps with entries := s.comps.entries.mapAll {} fun _ c => { c with recs := [] } } }

/-- Completes every engine request of every composition with ABORTED. -/
def State.abortEngines (s : State) : State :=
  s.comps.entries.foldl (fun s e =>
    let cid := e.2.cid
    (((s.abortMoves cid true).abortEmb cid).abortSearches true fun a => decide (a.cid = cid)).abortCkpt cid) s

/-- An expulsion of the device's own AID: the flash keys go first (R541). -/
def State.expelSelf (s : State) (nonce : W64) : State :=
  let s := s.destroyKeys
  let s := s.haltCores (s.grid.cores.map (·.1)) gcExternal
  let s := (s.abortEngines.abortLoads (List.range 64)).detachAll fun _ => true
  let s := s.setSky { s.sky with orbits := s.sky.orbits.mapAll {} fun _ x => { x with enable := none }, promotes := [] }
  let s := s.dropIssued fun r => match r.req with
    | .thread _ => false
    | _ => true
  let s := s.refuseHeld.refuseWaiting.scrub
  let s := { s with dir := {}, comps := { s.comps with selfExpelled := true }, pins := { s.pins with ready := false } }
  s.settleAlert.notice 0x0008 (beBytes 2 s.aid.toNat ++ beBytes 8 nonce.toNat)

/-- An expulsion of another AID: AGENT_DEAD's effects in every composition that has it as an agent, one being released too. -/
def State.expelOther (s : State) (target : Aid) (nonce : W64) : State :=
  let s := { s with comps := { s.comps with
    expelled := if s.comps.expelled.contains target then s.comps.expelled else s.comps.expelled ++ [target] } }
  let s := s.comps.entries.foldl (fun s e =>
    if e.2.state ≠ .free ∧ (e.2.agent target).isSome then s.agentDies e.1 target else s) s
  s.notice 0x0008 (beBytes 2 target.toNat ++ beBytes 8 nonce.toNat)

/-- EXPEL (R98, R443). -/
def execExpel (h : Hdr) (t : Trailer) (target : Aid) (nonce : W64) (s : State) : Out :=
  .next (managed h t 16 (zeroChecked h (·.respondAuth h 0x74 stInvalid []) fun s =>
    if s.comps.selfExpelled then s.respondAuth h 0x74 stNotAdmitted []
    else
      let (s, done) := s.countTally .expel target.toNat nonce h.src
      let s := s.respondAuth h 0x74 stOk []
      if !done then s else if target = s.aid then s.expelSelf nonce else s.expelOther target nonce) s)

/-! ### Admission (R476, R445, R511, R512, R524, R525, R538) -/

/-- Index of the current owner slot: the highest filled one that is not revoked (R515). -/
def State.ownerSlot (s : State) : Option Nat :=
  ((List.range 4).filter fun i =>
    let x := nth {} s.sec.owners i
    x.filled && !x.revoked).getLast?

/-- The four owner slots. -/
def State.ownerSlots (s : State) : List OwnerSlot := (List.range 4).map fun i => nth {} s.sec.owners i

/-- The current owner wrapping key; zeros before PROVISIONED (R531). -/
def State.wrapKey (s : State) : BitVec 256 :=
  match s.ownerSlot with
  | some i => if s.sec.fuseProvisioned then (nth {} s.ownerSlots i).wrap else 0
  | none => 0

/-- Every fuse bit verifies within four attempts (R513). -/
def fusesTake (l : FuseRun) : Bool := l.all fun e => decide (e.2 < 4)

def State.setOwners (s : State) (l : List OwnerSlot) : State := { s with sec := { s.sec with owners := l } }

/-- Fills the next free owner slot from the image and revokes the previous one (R525). -/
def State.rotateOwner (s : State) : Option State :=
  match (List.range 4).find? fun i => !(nth {} s.ownerSlots i).filled, Config.unwrap s.wrapKey s.boot.cfg.life.newWrap with
  | some i, some k =>
    let l := s.ownerSlots.set i { filled := true, hash := s.boot.cfg.life.newOwner, wrap := k }
    some (match s.ownerSlot with
      | some j => s.setOwners (l.set j { nth {} l j with revoked := true })
      | none => s.setOwners l)
  | _, _ => none

def State.setFloor (s : State) (v : Nat) : State := { s with sec := { s.sec with floor := max s.sec.floor v } }

/-- The first ADMIT of the device's own AID: start-up is complete. -/
def State.admitSelf (s : State) : State :=
  let life := s.boot.cfg.life
  let s := if life.deploy && s.sec.fuseProvisioned then { s with sec := { s.sec with fuseDeployed := true } } else s
  let s := if life.floorRaise then s.setFloor (min 255 s.boot.securityVersion) else s
  { s with boot := { s.boot with admitted := true }, pins := { s.pins with ready := true } }

/-- The fuses that the first ADMIT of the session programs: the DEPLOYED bit, floor bits, an owner slot (R512, R524, R525). -/
def State.admitFuses (s : State) : Bool :=
  let life := s.boot.cfg.life
  life.rotate || (life.deploy && s.sec.fuseProvisioned && !s.sec.fuseDeployed) ||
    (life.floorRaise && decide (s.sec.floor < min 255 s.boot.securityVersion))

/-- ADMIT: a fuse bit that fails leaves the device unadmitted (R513). -/
def execAdmitDevice (h : Hdr) (t : Trailer) (target : Aid) (fuses : FuseRun) (s : State) : Out :=
  .next (managed h t 8 (zeroChecked h (·.respondAuth h 0x75 stInvalid []) fun s =>
    if s.comps.selfExpelled then s.respondAuth h 0x75 stBusy []
    else if s.lifecycle = 5 || s.sec.scanUnlocked then s.respondAuth h 0x75 stInvalid []
    else if target ≠ s.aid then
      { s with comps := { s.comps with expelled := s.comps.expelled.filter fun a => decide (a ≠ target) } }.respondAuth h 0x75 stOk []
    else if s.boot.admitted then s.respondAuth h 0x75 stOk []
    else if s.admitFuses && !fusesTake fuses then s.respondAuth h 0x75 stInvalid []
    else
      match if s.boot.cfg.life.rotate then s.rotateOwner else some s with
      | some s => s.admitSelf.respondAuth h 0x75 stOk []
      | none => s.respondAuth h 0x75 stInvalid []) s)

/-! ### Quorum orders -/

/-- DEVICE_RESET (R488). -/
def execDeviceReset (o : Order) (target : Aid) (nonce : W64) (s : State) : Out :=
  .next (orderRequest o (fun ref s =>
    if target ≠ s.aid then s.finishOrder ref stInvalid []
    else
      let (s, done) := s.countTally .deviceReset target.toNat nonce o.hdr.src
      let s := s.finishOrder ref stOk []
      if done then { s with comps := { s.comps with resetAt := some (s.now + 100000) } } else s) s)

/-- DEVICE_RESET_ENTRY (R488). -/
def execDeviceResetEntry (now : Nat) (s : State) : Out :=
  .next (let s := s.advanceTo now
    match s.comps.resetAt with
    | some t => if t ≤ s.now then s.enterReset else s
    | none => s)

/-- Order code and operands of a security order, as M3 takes them (R527). -/
def floorEvent (floor : Byte) (nonce : W64) : List Byte :=
  beBytes 2 0x00A1 ++ beBytes 1 floor.toNat ++ zeros 7 ++ beBytes 8 nonce.toNat ++ zeros 40

/-- FLOOR_RAISE: the order that reaches the quorum is INVALID where a fuse bit fails (R513, R524, R526). -/
def execFloorRaise (o : Order) (floor : Byte) (nonce : W64) (fuses : FuseRun) (s : State) : Out :=
  .next (orderRequest o (fun ref s =>
    if floor.toNat < s.sec.floor ∨ s.boot.securityVersion < floor.toNat then s.finishOrder ref stInvalid []
    else
      let (s, done) := s.countTally .floorRaise floor.toNat nonce o.hdr.src
      if done && decide (s.sec.floor < floor.toNat) && !fusesTake fuses then s.finishOrder ref stInvalid []
      else
        let s := (s.extendM3 (floorEvent floor nonce)).finishOrder ref stOk []
        if done then s.setFloor floor.toNat else s) s)

/-- Retires the device: its key fuses are erased, and it resets (R512). -/
def State.retireDevice (s : State) : State :=
  let spent : OwnerSlot := { filled := true, hash := BitVec.allOnes 256, wrap := BitVec.allOnes 256, revoked := true }
  State.enterReset { s with sec := { s.sec with
    fuseRetired := true, identitySeed := some (2 ^ 768 - 1), owners := List.replicate 4 spent } }

/-- LC_RETIRE: the order that reaches the quorum is INVALID where the RETIRED bit fails (R512, R513, R526). -/
def execLcRetire (o : Order) (target : Aid) (nonce : W64) (fuses : FuseRun) (s : State) : Out :=
  .next (orderRequest o (fun ref s =>
    if target ≠ s.aid ∨ s.lifecycle = 5 then s.finishOrder ref stInvalid []
    else
      let (s, done) := s.countTally .lcRetire target.toNat nonce o.hdr.src
      if done && !fusesTake fuses then s.finishOrder ref stInvalid []
      else
        let s := s.finishOrder ref stOk []
        if done then s.retireDevice else s) s)

/-! ### Requests of the device's own that time out (R111, R112) -/

/-- REQUEST_TIMEOUT: managers are told; a load of a thread or unit ends with zeros and poison, a write leaves its mark on its thread or
its engine's request, and snoops and replica frames stay out (R161, R256, R290, R406, R411). -/
def execRequestTimeout (now id : Nat) (s : State) : Out :=
  .next (s.serving fun s => let s := s.advanceTo now
    match s.issuedReq id with
    | none => s
    | some r =>
      if r.timedOut ∨ s.now < r.at_ + s.boot.cfg.device.requestTimeout then s
      else
        let s := s.unresponsive r
        match r.req with
        | .thread k => s.threadTimeout k
        | .unit => (s.dropIssued fun x => decide (x.id = id)).unitAnswered id stPoison [] (BitVec.allOnes 64)
        | .unitWrite req off => ((s.dropIssued fun x => decide (x.id = id)).unitFails req stPoison off).settleReply req
        | .stripe acc p => ((s.dropIssued fun x => decide (x.id = id)).modHeld acc fun a => a.stripeAnswered id p []).pump
        | _ => { s with reqs := { s.reqs with issued := s.reqs.issued.map fun x => if x.id = id then { x with timedOut := true } else x } })

end Sys2Proof.Machine
end

