-- ==== Sys2Proof/Machine/Power.lean ====
section
/-! DEFINITION. Withdrawal from service (R13, R619, R633, R637), temperatures, throttling and the input supply (R615, R620,
R624, R636), and the triggers of whole-device reset that come from the supply and from RST_N (R486). -/
namespace Sys2Proof.Machine

/-- The device withdraws from service: its transmitters idle, READY is low and ALERT_N is asserted until the next
whole-device reset (R13, R477). -/
def State.withdraw (s : State) : State :=
  State.settleAlert { s with withdrawn := true, pins := { s.pins with serdesIdle := true, ready := false } }

/-- A withdrawal is possible: the device is in service. -/
def withdrawal (s : State) (now : Nat) (f : State → State) : State :=
  if s.inService then (f (s.advanceTo now)).withdraw else s

/-- D2D_RETRY_FAILURE: eight retries of one transfer unit failed, so its CRC failed nine times (R12, R13, R503). -/
def execD2dRetryFailure (now link : Nat) (s : State) : Out :=
  .next (if 2 < link then s else withdrawal s now fun s => (s.bumpBy 11 0 7 8).bumpBy 11 0 8 9)

/-- REFCLK_LOSS (R633). -/
def execRefclkLoss (now clock : Nat) (s : State) : Out := .next (if 2 < clock then s else withdrawal s now fun s => s)

/-- VIO18_LOSS (R619). -/
def execVio18Loss (now : Nat) (s : State) : Out := .next (withdrawal s now fun s => s)

/-! ### Temperatures -/

/-- The readings of a die sensor count: it exists and has not faulted (R637). -/
def State.sensorUsed (s : State) (sensor : Nat) : Bool := decide (sensor < 64) && !s.power.faulted.contains sensor

def State.setPower (s : State) (p : Power) : State := { s with power := p }

/-- THERMAL_TRIP (R637): an immediate event of the sensor, the lowest throttle step, and withdrawal. -/
def execThermalTrip (now : Nat) (hbm : Bool) (sensor : Nat) (s : State) : Out :=
  .next (if hbm then
      if !s.unitInUse true sensor then s
      else withdrawal s now fun s => (s.alertNow 2 sensor 7).setPower { s.power with throttle := 4, tripped := true }
    else if !s.sensorUsed sensor then s
    else withdrawal s now fun s => (s.bumpAlert 7 sensor 4).setPower { s.power with throttle := 4, tripped := true })

/-- SENSOR_FAULT (R637): it is counted, and the sensor's readings are no longer used. -/
def execSensorFault (now sensor : Nat) (s : State) : Out :=
  .next (if s.boot.inReset || !s.sensorUsed sensor then s
    else
      let s := (s.advanceTo now).bumpAlert 7 sensor 4
      s.setPower { s.power with faulted := s.power.faulted ++ [sensor] })

/-- A reading of a die sensor: the current value, the greatest of this minute, and the greatest of the last 24 hours. -/
def State.readSensor (s : State) (e : Nat × Nat) : State :=
  if !s.sensorUsed e.1 then s
  else
    let s := s.setLevel 7 e.1 0 e.2
    let s := s.setLevel 7 e.1 8 (max (s.counter 7 e.1 8) e.2)
    s.setLevel 7 e.1 1 (max (s.counter 7 e.1 1) e.2)

/-- A reading of a stack's sensor. -/
def State.readStack (s : State) (e : Nat × Nat) : State :=
  if !s.unitInUse true e.1 then s
  else (s.setLevel 2 e.1 7 e.2).setCalib true e.1 { s.calib true e.1 with temp := e.2 }

def State.dieTemps (s : State) : List (Nat × Nat) :=
  ((List.range 64).filter s.sensorUsed).map fun k => (k, s.counter 7 k 0)

/-- The hottest sensor and its reading; of equal ones the lowest. -/
def State.hottest (s : State) : Nat × Nat :=
  s.dieTemps.foldl (fun best e => if best.2 < e.2 then e else best) (s.dieTemps.headD (0, 0))

/-- The hottest stack. -/
def State.hottestStack (s : State) : Nat := (List.range 8).foldl (fun n k => max n (s.counter 2 k 7)) 0

/-! ### Throttling (R620, R624) -/

/-- One of the conditions of R624 for a lower step holds; the current limit applies below 40 V. -/
def State.tooHot (s : State) (mv ca w10ms w1s : Nat) : Bool :=
  decide (1250 ≤ w10ms) || decide (1080 ≤ w1s) || (decide (37000 ≤ mv ∧ mv < 40000) && decide (3250 < ca)) ||
    decide (100 ≤ s.hottest.2) || decide (92 ≤ s.hottestStack)

/-- The conditions of R624 for a higher step. -/
def State.cool (s : State) (w10ms w1s : Nat) : Bool :=
  decide (w10ms < 1150) && decide (w1s < 1040) && decide (s.hottest.2 < 97) && decide (s.hottestStack < 89)

/-- The throttle step after 1 ms: lowered, or raised after 10 ms of cool readings; a device that has tripped stays at the
lowest step (R637). -/
def State.throttled (s : State) (mv ca w10ms w1s : Nat) : State :=
  let p := s.power
  let coolFor := if s.cool w10ms w1s then p.coolFor + 1 else 0
  if p.tripped then s
  else if s.tooHot mv ca w10ms w1s then
    if p.throttle < 4 then (s.bump 7 s.hottest.1 3).setPower { p with throttle := p.throttle + 1, coolFor := coolFor }
    else s.setPower { p with coolFor := coolFor }
  else if 10 ≤ coolFor ∧ 0 < p.throttle then s.setPower { p with throttle := p.throttle - 1, coolFor := 0 }
  else s.setPower { p with coolFor := coolFor }

/-- THROTTLE_STEP: every 1 ms the readings, the step and PWR_STATUS are taken anew (R615, R624). -/
def execThrottleStep (now mv ca w1ms w10ms w1s : Nat) (dieTemps hbmTemps : List (Nat × Nat)) (s : State) : Out :=
  .next (if s.boot.inReset then s
    else
      let s := hbmTemps.foldl State.readStack (dieTemps.foldl State.readSensor (s.advanceTo now))
      let s := s.throttled mv ca w10ms w1s
      s.setPower { s.power with
        mv := mv, ca := ca, watts := w1ms, junction := s.hottest.2, lowInput := decide (mv < 40000)
        peak := max s.power.peak w10ms })

/-- LOW_INPUT (R620). -/
def execLowInput (now mv : Nat) (s : State) : Out :=
  .next (if s.boot.inReset || decide (mv < 37000) || decide (40000 ≤ mv) then s
    else
      let s := s.advanceTo now
      s.setPower { s.power with mv := mv, lowInput := true })

/-! ### Whole-device reset (R486) -/

/-- WHOLE_DEVICE_RESET by RST_N, or by the end of a device-class self-test. -/
def execWholeDeviceReset (trigger : ResetTrigger) (s : State) : Out :=
  .next (match trigger with
    | .rstN =>
      let s := s.enterReset
      { s with pins := { s.pins with rstN := false } }
    | .selfTestEnd => if s.testRuns 5 0 then s.enterReset else s)

/-- INPUT_UNDERVOLTAGE. -/
def execInputUndervoltage (mv : Nat) (s : State) : Out :=
  .next (if 37000 ≤ mv then s
    else
      let s := s.enterReset
      s.setPower { s.power with vinQualified := false, mv := mv })

end Sys2Proof.Machine
end

