-- ==== Sys2Proof/Machine/Transits.lean ====
section
/-! DEFINITION. The sidereal count and the ephemeris (06): ticks from the three sources, lock states, the return to lock, and
the transits that fire at a tick. -/
namespace Sys2Proof.Machine

/-! ### Superframes (R177, R178) -/

/-- One bit through a CRC-16 with polynomial 0x1021. -/
def crc16Bit (c : Nat) (b : Bool) : Nat :=
  let top := c.testBit 15 != b
  (if top then (2 * c) ^^^ 0x1021 else 2 * c) % 65536

def crc16 (l : List Bool) : Nat := l.foldl crc16Bit 0xFFFF

/-- `n` bits of a number, most significant first. -/
def msbBits (n v : Nat) : List Bool := (List.range n).map fun i => v.testBit (n - 1 - i)

/-- Symbols 1 to 96 of the superframe whose marker tick has this count. -/
def frameBits (marker domain : Nat) : List Bool :=
  let l := msbBits 64 marker ++ msbBits 16 domain
  l ++ msbBits 16 (crc16 l)

abbrev symMarker : Nat := 2
abbrev symError : Nat := 3

/-- The symbol that a superframe has at a count. -/
def symbolAt (count domain : Nat) : Nat :=
  let pos := count % 128
  if pos = 0 then symMarker
  else if pos ≤ 96 then (nth false (frameBits (count - pos) domain) (pos - 1)).toNat
  else 0

/-- The symbol of a high time; none while T does not exist (R176). -/
def Sky.symbol (k : Sky) (high : Nat) : Option Nat :=
  let h := 8 * high * k.intervals.length
  let t := k.intervalSum
  if k.intervals.isEmpty then none
  else if h < 3 * t then some 0
  else if h ≤ 5 * t then some 1
  else if h < 7 * t then some symMarker
  else some symError

def ofMsb (l : List Nat) : Nat := l.foldl (fun n b => 2 * n + b) 0

/-- The count that a whole superframe's 96 symbols carry, when its CRC and domain are good (R178). -/
def decodeFrame (l : List Nat) (domain : Nat) : Option Nat :=
  let n := ofMsb (l.take 64)
  if l = (frameBits n domain).map Bool.toNat then some n else none

/-! ### Entries (R193) -/

/-- A transit entry from its 32 bytes. -/
def parseEntry (l : List Byte) : Entry :=
  if l.all fun b => decide (b = 0) then {}
  else
    { kind := fieldLe l 0 1, phase := fieldLe l 1 1, orbit := fieldLe l 2 1, flags := nth 0 l 3, tick := fieldLe l 4 4
      unit := fieldLe l 8 2, cid := BitVec.ofNat 16 (fieldLe l 10 2), length := fieldLe l 12 4, operands := sliceBytes l 16 16 }

def Entry.bytes (e : Entry) : List Byte :=
  leBytes 1 e.kind ++ leBytes 1 e.phase ++ leBytes 1 e.orbit ++ [e.flags] ++ leBytes 4 e.tick ++ leBytes 2 e.unit ++
    leBytes 2 e.cid.toNat ++ leBytes 4 e.length ++ sliceBytes e.operands 0 16

abbrev kindPromote : Nat := 1
abbrev kindReserve : Nat := 2
abbrev kindCommit : Nat := 3
abbrev kindCalibrate : Nat := 4
abbrev kindTest : Nat := 5

/-- The entries of orbit `o`: those of its range that name it. -/
def State.orbitEntries (s : State) (o : Nat) : List (Nat × Entry) :=
  (s.entriesOf (s.orbit o)).filter fun e => decide (e.2.orbit = o) && decide (e.2.kind ≤ 5)

/-- The unit of a RESERVE: stack or port, number, sub-port (R203). -/
def Entry.reserveUnit (e : Entry) : Bool × Nat × Nat :=
  if e.flags.getLsbD 0 then (true, e.unit, 0) else (false, e.unit % 32, bitsOf e.unit 5 3)

def Entry.fraction (e : Entry) : Nat := fieldLe e.operands 0 1

/-! ### The orders on orbits (R195, R196) -/

/-- The entries lie in an enabled orbit's range. -/
def State.touchesEnabled (s : State) (first n : Nat) : Bool :=
  s.sky.orbits.any fun e => s.orbitEnabled e.2 && decide (first < e.2.first + e.2.count) && decide (e.2.first < first + n)

/-- ORBIT_DEFINE. -/
def execOrbitDefine (o : Order) (orbit : Byte) (cid : Cid) (period : W32) (anchor : W64) (first count : W32) (s : State) : Out :=
  .next (orderRequest o (fun ref s =>
    let x := s.orbit orbit.toNat
    if period = 0 ∨ 65536 < first.toNat + count.toNat then s.finishOrder ref stInvalid []
    else if s.orbitEnabled x || s.touchesEnabled first.toNat count.toNat then s.finishOrder ref stBusy []
    else
      let y : Orbit :=
        { defined := true, cid := cid, period := period.toNat, anchor := anchor.toNat, first := first.toNat
          count := count.toNat, late := x.late }
      (s.setOrbit orbit.toNat y).finishOrder ref stOk []) s)

def State.setTransits (s : State) (t : Tab Entry) : State := s.setSky { s.sky with transits := t }

/-- The entries of a TRANSIT_LOAD as they are read from their region; the order waits while the read does, and entries read with poison
are INVALID (R195). -/
def State.loadTransits (s : State) (ref : OrderRef) (rh : Handle) (offset : BitVec 48) (first n : Nat) : State :=
  let x := s.region (handleIndex rh)
  let u := ref.asker
  let done := fun (s : State) (st : Byte) (l : List Byte) => (s.forget u).finishOrder ref st l
  if 65536 < first + n ∨ handleAid rh ≠ s.aid ∨ x.state = .free then done s stInvalid []
  else if s.touchesEnabled first n then done s stBusy []
  else
    if x.size < offset.toNat + 32 * n then done s stBounds []
    else
    match s.orderRead u rh offset.toNat (32 * n) with
    | (s, g) =>
      if g.waits then s.holdArrival { what := .transits rh offset first n, h := ref.h, ref := some ref }
      else if g.status ≠ stOk then done s g.status []
      else if g.poisoned then done s stInvalid []
      else
        let t := (List.range n).foldl (fun (t : Tab Entry) j => t.set {} (first + j) (parseEntry (sliceBytes g.data (32 * j) 32)))
          s.sky.transits
        done (s.setTransits t) stOk (beBytes 4 n)

/-- TRANSIT_LOAD. -/
def execTransitLoad (o : Order) (rh : Handle) (offset : BitVec 48) (first count : W32) (s : State) : Out :=
  .next (orderRequest o (fun ref s => s.loadTransits ref rh offset first.toNat count.toNat) s)

/-- Position of an entry within its orbit, in 1/256 tick. -/
def Entry.place (e : Entry) : Nat := 256 * e.tick + e.phase

/-- Distance from `a` on to `b` in a cycle of `m`. -/
def cyclic (m a b : Nat) : Nat := (b + m - a % m) % m

/-- Firings of an entry with this length whose spans hold a point of the orbit. -/
def spansAt (m start len at_ : Nat) : Nat :=
  let d := cyclic m start at_
  if d < 256 * len then 1 + (256 * len - 1 - d) / m else 0

/-- Most active reservations at a unit (R202). -/
def reserveLimit (stack : Bool) : Nat := if stack then 8 else 4

/-- The reservations of an orbit keep the limits of R202 wherever one of them begins. -/
def reservesOk (m : Nat) (l : List Entry) : Bool :=
  l.all fun e =>
    let same := l.filter fun x => decide (x.reserveUnit = e.reserveUnit)
    let active := fun (x : Entry) => spansAt m x.place x.length e.place
    decide ((same.foldl (fun n x => n + x.fraction * active x) 0) ≤ 48) &&
      decide ((same.foldl (fun n x => n + active x) 0) ≤ reserveLimit e.reserveUnit.1)

/-- The stack with which a CALIBRATE's unit is paired (R204). -/
def Entry.pairedStack (e : Entry) : Nat := e.unit % 8

/-- A CALIBRATE window and a reservation of its stack overlap. -/
def calibOverlaps (m : Nat) (c r : Entry) : Bool :=
  decide (r.reserveUnit = (true, c.pairedStack, 0)) &&
    (decide (cyclic m c.place r.place < 256 * c.length) || decide (cyclic m r.place c.place < 256 * r.length))

/-- An orbit by itself keeps the checks of R196. -/
def orbitOk (x : Orbit) (l : List Entry) : Bool :=
  let m := 256 * x.period
  let rs := l.filter fun e => decide (e.kind = kindReserve)
  let cs := l.filter fun e => decide (e.kind = kindCalibrate)
  (l.all fun e => decide (e.tick < x.period) && decide (e.cid = x.cid)) &&
    (l.all fun e => decide ((l.filter fun y => decide (y.tick = e.tick)).length ≤ 64)) &&
    reservesOk m rs && cs.all fun c => !rs.any fun r => calibOverlaps m c r

/-- ORBIT_ENABLE. -/
def execOrbitEnable (o : Order) (orbit : Byte) (enable : W64) (s : State) : Out :=
  .next (orderRequest o (fun ref s =>
    let x := s.orbit orbit.toNat
    if !x.defined || (s.locked && decide (enable.toNat ≤ s.sky.count.toNat)) ||
        !orbitOk x ((s.orbitEntries orbit.toNat).map (·.2)) then s.finishOrder ref stInvalid []
    else (s.setOrbit orbit.toNat { x with enable := some enable.toNat, disable := none }).finishOrder ref stOk []) s)

/-- ORBIT_DISABLE. -/
def execOrbitDisable (o : Order) (orbit : Byte) (disable : W64) (s : State) : Out :=
  .next (orderRequest o (fun ref s =>
    let x := s.orbit orbit.toNat
    if !x.defined then s.finishOrder ref stInvalid []
    else (s.setOrbit orbit.toNat { x with disable := some disable.toNat }).finishOrder ref stOk []) s)

/-- SKY_REARM (R186). -/
def execSkyRearm (o : Order) (s : State) : Out :=
  .next (orderRequest o (fun ref s =>
    let n := s.sky.lastLocked.getD 0
    (s.setSky { s.sky with lastLocked := none, regressed := false }).finishOrder ref stOk (beBytes 8 n.toNat)) s)

/-! ### Promotion transits (R41 to R43, R200) -/

/-- Takes a place of a stack's promotion pool for a sector: a free one, or that of the demand-held sector with the oldest hit,
which is demoted (R43). -/
def State.takePlace (s : State) (stack : Nat) : Option State :=
  if s.poolUsed stack < s.poolSectors then some s
  else (s.oldestDemand stack).map fun e => s.demote e.1

/-- Promotes one sector as scheduled-held (R38, R41); false where the pool has no place for it. A sector that is filling, moving
or being written back takes its place now and is promoted once it is at rest; a ZERO sector has no copy to promote. A later
PROMOTE of the sector sets the release tick, be it earlier than the one before: the manual gives no rule for two holds of one
sector (DESIGN CHOICE, log entry 19). -/
def State.promoteSector (s : State) (region sector stack : Nat) (release : W64) (cid : Cid) : State × Bool :=
  let x := s.sectorAt region sector
  let held : Sector := { x with hold := .scheduled release, cid := cid }
  match x.state with
  | .zero => (s, true)
  | .hbm _ => (s.setSector region sector held, true)
  | _ =>
    if x.inPool then (s.setSector region sector held, true)
    else
      match s.takePlace stack with
      | none => (s, false)
      | some s =>
        let up : Sector := { held with stack := stack }
        match x.state with
        | .flash => (s.startFill region sector up true, true)
        | .dram d => (s.setSector region sector { up with state := .moving true d }, true)
        | _ => (s.setSector region sector up, true)

/-- The sectors of a PROMOTE: region, first sector, count, due. -/
def Entry.promote (e : Entry) : Nat × Nat × Nat × Nat :=
  (fieldLe e.operands 0 3, fieldLe e.operands 4 6, fieldLe e.operands 10 2, fieldLe e.operands 12 4)

/-- A PROMOTE fires with firing count `c` (R197, R200). A sector without a place counts the transit once as failed (R43). -/
def State.firePromote (s : State) (e : Entry) (c : Nat) : State :=
  let (region, first, n, due) := e.promote
  let r := s.region region
  if r.state ≠ .assigned ∨ r.cid ≠ e.cid ∨ r.cls ≠ clsDeep ∨ n = 0 ∨ 4096 < n ∨ r.size < 4096 * (first + n) ∨
      ¬ s.stacks.contains e.unit then s.countSkipped e.cid
  else
    let release := BitVec.ofNat 64 (c + e.length)
    let (s, ok) := (List.range n).foldl (fun (p : State × Bool) j =>
      let (s, ok) := p.1.promoteSector region (first + j) e.unit release e.cid
      (s, p.2 && ok)) (s, true)
    let s := if ok then s else s.bump 2 e.unit 6
    s.setSky { s.sky with promotes := s.sky.promotes ++
      [{ region := region, first := first, count := n, due := c + due, stack := e.unit, cid := e.cid, orbit := e.orbit }] }

/-! ### Reservations (R202, R203) -/

/-- Opens a reservation of a RESERVE with firing count `c`, or refuses and counts it. -/
def State.fireReserve (s : State) (idx : Nat) (e : Entry) (c : Nat) : State :=
  let (stack, unit, sub) := e.reserveUnit
  let f := e.fraction
  let there := if stack then s.stacks.contains unit else s.exists_ unit sub
  let same := s.sky.reservations.filter fun r => decide (r.stack = stack) && decide (r.unit = unit) && decide (r.sub = sub)
  if !there || decide (f < 1) || decide (48 < same.foldl (fun n r => n + r.f) f) || decide (reserveLimit stack ≤ same.length) ||
      decide (e.length = 0) then s.countSkipped e.cid
  else
    let d := creditDepth stack
    let r : Reservation :=
      { orbit := e.orbit, entry := idx, start := c, stack := stack, unit := unit, sub := sub, cid := e.cid, f := f
        endCount := c + e.length, phase := e.phase, ingress := d, egress := d, credit := d, refilled := s.now }
    s.setReservations (s.sky.reservations ++ [r])

/-! ### Return to lock (R199) -/

/-- Firing counts of an entry below `c`, latest first: at most `n` of them. -/
def firingsBefore (x : Orbit) (e : Entry) (c n : Nat) : List Nat :=
  let base := x.anchor + e.tick
  if c ≤ base then []
  else
    let k := (c - 1 - base) / x.period
    ((List.range (min n (k + 1))).map fun i => base + (k - i) * x.period).filter fun c0 => x.fires e.tick c0

/-- Reservations of an entry whose spans cover the count and that are not active become active. -/
def State.reopen (s : State) (c : Nat) (x : Orbit) (idx : Nat) (e : Entry) : State :=
  let cover := (firingsBefore x e c (e.length / x.period + 1)).filter fun c0 =>
    decide (c < c0 + e.length) || (decide (c = c0 + e.length) && decide (0 < e.phase))
  cover.reverse.foldl (fun s c0 =>
    if s.sky.reservations.any fun r => decide (r.orbit = e.orbit) && decide (r.entry = idx) && decide (r.start = c0) then s
    else s.fireReserve idx e c0) s

/-- Every skipped firing of a PROMOTE whose release still lies ahead fires at once, as late, in order of its count. -/
def State.latePromote (s : State) (c : Nat) (since : Option Nat) (x : Orbit) (e : Entry) : State :=
  let skipped := fun (c0 : Nat) => match since with
    | some l => decide (l < c0)
    | none => true
  ((firingsBefore x e c (e.length / x.period + 1)).reverse.filter fun c0 => skipped c0 && decide (c < c0 + e.length)).foldl
    (fun s c0 => (s.countLate e.orbit e.cid).firePromote e c0) s

def Sector.releaseDue (x : Sector) (c : Nat) : Bool :=
  match x.hold with
  | .scheduled r => decide (r.toNat ≤ c)
  | _ => false

/-- Applies the ephemeris at the count of the lock: nothing fires for skipped counts but what R199 names. -/
def State.returnToLock (s : State) (c : Nat) (since : Option Nat) : State :=
  let s := s.setReservations (s.sky.reservations.filter fun r => decide (c ≤ r.endCount))
  let s := ((s.store.sectors.filter fun e => e.2.releaseDue c).map (·.1)).foldl State.demote s
  (s.sky.orbits.map (·.1)).foldl (fun s o =>
    (s.orbitEntries o).foldl (fun s e =>
      if e.2.kind = kindReserve then s.reopen c (s.orbit o) e.1 e.2
      else if e.2.kind = kindPromote then s.latePromote c since (s.orbit o) e.2
      else s) s) s

/-! ### A tick (R183 to R194) -/

def insertFirst {α : Type} (le : α → α → Bool) (a : α) : List α → List α
  | [] => [a]
  | b :: t => if le a b then a :: b :: t else b :: insertFirst le a t

def sortBy {α : Type} (le : α → α → Bool) (l : List α) : List α := l.foldr (insertFirst le) []

/-- Transits that fire at a count, in firing order: by phase, then orbit, then entry (R194). -/
def State.dueAt (s : State) (c : Nat) : List DueTransit :=
  let l := s.sky.orbits.flatMap fun o =>
    ((s.orbitEntries o.1).filter fun e => o.2.fires e.2.tick c).map fun e => (e.2.phase, e.1)
  (sortBy (fun a b => decide (a.1 ≤ b.1)) l).map fun e => { entry := e.2, count := c, moment := s.sky.phaseTime e.1 }

/-- Threads whose target count is reached become READY (R251). -/
def State.wakeTicks (s : State) : State :=
  s.grid.cores.foldl (fun s k =>
    k.2.threads.foldl (fun s x =>
      match x.2.state, x.2.wait with
      | .waitTick, .tick v => if s.tickReached v then s.resumeThread ⟨k.1, x.1⟩ x.2 else s
      | _, _ => s) s) s

/-- One coded pulse on SKYOUT at a tick instant while LOCKED, with TICK frames or the local generator as the source (R179). -/
def State.pulse (s : State) : State :=
  let d := s.boot.cfg.device
  if d.skyout ∧ d.tickSource ≠ srcSky then
    s.setSky { s.sky with skyout := some (.coded s.sky.count (symbolAt s.sky.count.toNat d.skyDomain.toNat)) }
  else s

/-- An edge of SKY repeated on SKYOUT, not decoded and whatever the lock state (R179). -/
def State.repeatEdge (s : State) (high : Nat) : State :=
  let d := s.boot.cfg.device
  if d.skyout ∧ d.tickSource = srcSky then s.setSky { s.sky with skyout := some (.repeated s.now high) } else s

/-- The transits of a tick that the count has reached: those put off come first, and at most 64 fire in the tick. A moment at the
tick instant itself has come (R194). -/
def State.beginTick (s : State) : State :=
  let k := s.sky
  let stay := k.due.filter fun d => decide (d.moment ≤ k.instant)
  let put := (k.due.filter fun d => !decide (d.moment ≤ k.instant)) ++ k.beyond
  let key := fun (d : DueTransit) => (s.transit d.entry).orbit
  let le := fun (a b : DueTransit) => decide (key a < key b) || (decide (key a = key b) && decide (a.entry ≤ b.entry))
  let late := (sortBy le put).map fun d => { d with moment := k.instant, late := true }
  let all := late ++ s.dueAt k.count.toNat
  ((s.setSky { k with due := stay ++ all.take 64, beyond := all.drop 64 }).wakeTicks).pulse

/-- The count enters LOCKED (R186, R189, R199). -/
def State.lock (s : State) : State :=
  let k := s.sky
  let since := k.fired.map (·.toNat)
  let s := s.setSky { k with lock := .locked, badRun := 0, lastLocked := some k.count, fired := some k.count, due := [], beyond := [] }
  let s := s.notice 0x0010 (beBytes 8 k.count.toNat ++ beBytes 4 k.period)
  (s.returnToLock k.count.toNat since).beginTick

/-- ACQUIRING with good ticks enough: the count locks, or is refused once as regressed. -/
def State.tryLock (s : State) : State :=
  let k := s.sky
  if k.lock ≠ .acquiring ∨ ¬ k.established ∨ k.goodRun < 16 ∨ k.regressed then s
  else
    match k.lastLocked with
    | none => s.lock
    | some l =>
      if l.toNat < k.count.toNat then s.lock
      else
        (s.setSky { k with regressed := true, lossCause := 5 }).notice 0x0012 (beBytes 8 k.count.toNat ++ beBytes 8 l.toNat)

/-- An interval lies within 250 ns to 1 ms (R174). -/
def inTickRange (iv : Nat) : Bool := decide (250 ≤ iv) && decide (iv ≤ 1000000)

/-- An interval passes R174 and, where T exists, lies within T/8 of it (R184). -/
def Sky.intervalGood (k : Sky) (iv : Nat) : Bool :=
  inTickRange iv &&
    (k.intervals.isEmpty || decide (8 * absDiff (iv * k.intervals.length) k.intervalSum ≤ k.intervalSum))

def Sky.addInterval (k : Sky) (iv : Nat) : Sky :=
  { k with intervals := (k.intervals ++ [iv]).drop (k.intervals.length + 1 - 16) }

/-- Counts a bad tick. -/
def State.badTick (s : State) : State := s.bump 11 0 1

/-- A tick detected at `det`. `carried`: the count that it carries or implies, where it has one; `symOk`: its symbol is as R184
asks; `wrong`: what it carries differs from the expected count, which ends the lock; the next interval still begins at that tick.
The tick that enters ACQUIRING starts measuring T; it is bad where its interval from the tick
before, if there was one, fails R174. -/
def State.takeTick (s : State) (det : Nat) (carried : Option W64) (symOk wrong : Bool) : State :=
  let k := s.sky
  let count := carried.getD k.count
  let k' : Sky := { k with count := count, established := carried.isSome, lastTick := some det, restart := false
                           instant := det + s.boot.cfg.device.tickHold, before := k.instants.take 17 }
  let begins := fun (ok : Bool) =>
    let s := s.setSky { k' with lock := .acquiring, intervals := [], before := [], goodRun := if ok then 1 else 0, badRun := 0
                                due := [], beyond := [] }
    if ok then s else s.badTick
  match k.lock, k.lastTick with
  | _, none => begins true
  | .absent, some last | .lost, some last => begins (inTickRange (det - last))
  | .acquiring, some last =>
    let iv := det - last
    if k.restart then begins (inTickRange iv)
    else if k.intervalGood iv && symOk && !wrong then
      (s.setSky { (k'.addInterval iv) with goodRun := k.goodRun + 1 }).tryLock
    else (s.setSky { k' with goodRun := 0 }).badTick
  | .locked, some last =>
    let iv := det - last
    let good := k.intervalGood iv && symOk
    if wrong then ((if good then s else s.badTick).setSky { k with lastTick := some det }).loseLock 3
    else if good then
      (s.setSky { (k'.addInterval iv) with goodRun := k.goodRun + 1, badRun := 0, lastLocked := some count, fired := some count }).beginTick
    else
      let s := (s.setSky { k' with goodRun := 0, badRun := k.badRun + 1, lastLocked := some count }).badTick
      if 4 ≤ k.badRun + 1 then s.loseLock 2 else (s.setSky { s.sky with fired := some count }).beginTick

/-- Ticks are taken while the device is in service, once step 10 has ended. -/
def State.ticksRun (s : State) (source : Nat) : Bool :=
  s.inService && s.sky.started.isSome && decide (s.boot.cfg.device.tickSource = source)

/-- A tick that carries its count (R180, R182). -/
def State.countedTick (s : State) (det : Nat) (count : W64) : State :=
  let k := s.sky
  s.takeTick det (some count) true (k.established && decide (count ≠ k.count + 1))

/-- TICK: taken at a tick port under R180 to R182, or discarded and counted (R93). -/
def execTick (h : Hdr) (count : W64) (domain : BitVec 16) (s : State) : Out :=
  .next (linkChecks false h 16 (fun s =>
    let d := s.boot.cfg.device
    if !(s.portCfg h.port).tick || !s.ticksRun srcFrames || decide (domain ≠ d.skyDomain) then s.bump 0 h.port 16
    else if s.tickPorts.length = 2 ∧ s.sky.isCopy count then s.bump 0 h.port 17
    else (s.setSky (s.sky.take count)).countedTick s.now count) s)

/-- LOCAL_TICK (R173). -/
def execLocalTick (now : Nat) (s : State) : Out :=
  .next (if !s.ticksRun srcLocal then s
    else
      let s := s.advanceTo now
      let due := match s.sky.generated, s.sky.lastTick with
        | 0, _ | _, none => s.sky.started.getD 0 + 1000000
        | _, some t => t + s.boot.cfg.device.localPeriod
      if s.now < due then s
      else
        let n := s.sky.generated + 1
        (s.setSky { s.sky with generated := n }).countedTick s.now (BitVec.ofNat 64 n))

/-- The superframe position after a symbol: the symbols since the marker, whether a superframe is discarded, and the count of
this tick where a superframe has just been decoded (R177, R178). -/
def Sky.superframe (k : Sky) (domain : Nat) (sym : Option Nat) : Option (List Nat) × Bool × Option Nat :=
  match sym, k.symbols with
  | none, _ => (none, false, none)
  | some 2, l => (some [], (l.map fun x => decide (x.length < 96)).getD false, none)
  | some _, none => (none, false, none)
  | some b, some l =>
    if b = symError then (none, decide (l.length < 96), none)
    else if l.length = 95 then
      match decodeFrame (l ++ [b]) domain with
      | some n => (some (l ++ [b]), false, some (n + 96))
      | none => (none, true, none)
    else if l.length < 127 then (some (l ++ [b]), false, none)
    else (none, false, none)

/-- SKY_EDGE (R176, R178, R179, R184, R185). -/
def execSkyEdge (now highNs : Nat) (s : State) : Out :=
  .next (if !s.ticksRun srcSky then s
    else
      let s := (s.advanceTo now).repeatEdge highNs
      let k := s.sky
      let glitch := match k.lastTick with
        | some t => !k.intervals.isEmpty && decide (2 * (s.now - t) * k.intervals.length < k.intervalSum)
        | none => false
      if glitch then s.bump 11 0 2
      else
        let domain := s.boot.cfg.device.skyDomain.toNat
        let fresh := decide (k.lock = .absent ∨ k.lock = .lost) || k.restart
        let sym := if fresh then none else k.symbol highNs
        let (symbols, dropped, decoded) := k.superframe domain sym
        let s := if dropped then s.bump 11 0 3 else s
        let s := s.setSky { k with symbols := symbols }
        let next := k.count + 1
        let symOk := match sym with
          | none => true
          | some b => decide (b ≠ symError) && (!k.established || decide (b = symbolAt next.toNat domain))
        if fresh then s.takeTick s.now none symOk false
        else
          match k.established, decoded with
          | true, some n => s.takeTick s.now (some (BitVec.ofNat 64 n)) symOk (decide (BitVec.ofNat 64 n ≠ next))
          | true, none => s.takeTick s.now (some next) symOk false
          | false, d => s.takeTick s.now (d.map (BitVec.ofNat 64)) symOk false)

/-- TICK_ABSENCE: no tick for more than 2·T (R186). -/
def execTickAbsence (now : Nat) (s : State) : Out :=
  .next (if !s.inService then s
    else
      let s := s.advanceTo now
      let k := s.sky
      match k.lastTick with
      | none => s
      | some t =>
        if k.intervals.isEmpty ∨ (s.now - t) * k.intervals.length ≤ 2 * k.intervalSum then s
        else
          match k.lock with
          | .locked => s.loseLock 1
          | .acquiring =>
            s.setSky { k with intervals := [], established := false, goodRun := 0, regressed := false, symbols := none
                              taken := [], restart := true }
          | _ => s)

/-! ### Transits that fire (R192, R194, R197, R200) -/

/-- The entry still fires at that count: its orbit has not been disabled meanwhile. -/
def State.stillFires (s : State) (d : DueTransit) : Bool :=
  let e := s.transit d.entry
  decide (e.kind ≠ 0) && (s.orbit e.orbit).fires e.tick d.count

/-- Transits that are due, without those whose orbit is disabled. -/
def State.liveDue (s : State) : List DueTransit := s.sky.due.filter s.stillFires

/-- A transit of one kind fires: it is the next that is due, and its moment has come. -/
def fireTransit (now idx kind : Nat) (k : Entry → DueTransit → State → State) (s : State) : State :=
  if !s.inService then s
  else
    let s := s.advanceTo now
    match s.liveDue with
    | [] => s
    | d :: rest =>
      let e := s.transit d.entry
      if !s.locked || decide (d.entry ≠ idx) || decide (e.kind ≠ kind) || decide (s.now < d.moment) then s
      else
        let s := s.setSky { s.sky with due := rest }
        let s := if d.late then s.countLate e.orbit e.cid else s
        k e d s

/-- PROMOTE. -/
def execPromote (now entry : Nat) (s : State) : Out :=
  .next (fireTransit now entry kindPromote (fun e d s => s.firePromote e d.count) s)

/-- RESERVE. -/
def execReserve (now entry : Nat) (s : State) : Out :=
  .next (fireTransit now entry kindReserve (fun e d s => s.fireReserve d.entry e d.count) s)

/-- COMMIT: the recall of the exclusive lines of the open step begins, and with it the sealing of its journal, which stays under way until
the step's STEP_COMMIT ends it: R395 lets nothing else seal a step (R158, R197, R200; DEDUCED, log entry 69). -/
def execCommit (now entry : Nat) (s : State) : Out :=
  .next (fireTransit now entry kindCommit (fun e _ s =>
    match s.activeIdx e.cid with
    | none => s.countSkipped e.cid
    | some i =>
      let c := s.compAt i
      if (c.stepState = .open_ ∨ c.stepState = .unjournalled) ∧ c.openStep.toNat = fieldLe e.operands 0 4 then
        (s.setComp i { c with sealing := true }).recallExclusives e.cid
      else s.countSkipped e.cid) s)

def Entry.window (e : Entry) (d : DueTransit) : TransitWindow :=
  { orbit := e.orbit, cid := e.cid, endCount := d.count + e.length, phase := e.phase }

/-- CALIBRATE: on a unit that already calibrates or is under test it does nothing and counts as late (R213, R501, R594). -/
def execCalibrate (now entry : Nat) (s : State) : Out :=
  .next (fireTransit now entry kindCalibrate (fun e d s =>
    let hbm := !e.flags.getLsbD 0
    let cls := if hbm then 0 else 1
    let kind := fieldLe e.operands 0 1
    if (if hbm then 8 else 16) ≤ e.unit ∨ 1 < kind then s.countSkipped e.cid
    else if s.calibRuns cls e.unit || s.testRuns cls e.unit then
      let s := s.lateCalibrate hbm e.unit
      if d.late then s else s.countLate e.orbit e.cid
    else s.startCalib hbm e.unit kind none (some (e.window d))) s)

/-- TEST_WINDOW: a pending test of its drained block runs (R200, R494). -/
def execTestWindow (now entry : Nat) (s : State) : Out :=
  .next (fireTransit now entry kindTest (fun e d s => s.startTest (fieldLe e.operands 0 1) e.unit (some (e.window d))) s)

/-- RESERVATION_END: the same phase, length ticks later (R200). While the count is not LOCKED reservations stay (R187). -/
def execReservationEnd (now idx : Nat) (s : State) : Out :=
  .next (s.serving fun s => let s := s.advanceTo now
    match s.sky.reservations[idx]? with
    | none => s
    | some r =>
      if s.locked && s.sky.reached r.endCount r.phase s.now then s.setReservations (s.sky.reservations.eraseIdx idx) else s)

/-- A scheduled-held sector's release tick has been reached, timed from its tick instant (R42, R175). -/
def State.releaseReached (s : State) (x : Sector) : Bool :=
  match x.hold with
  | .scheduled r => s.sky.reached r.toNat 0 s.now
  | _ => false

/-- SCHEDULED_RELEASE: a scheduled-held sector is demoted at its release tick (R42). -/
def execScheduledRelease (now region sector : Nat) (s : State) : Out :=
  .next (s.serving fun s => let s := s.advanceTo now
    if s.locked && s.releaseReached (s.sectorAt region sector) then (s.demote (sectorKey region sector)).pump else s)

/-- The sector lies in HBM. -/
def Sector.promoted (x : Sector) : Bool :=
  match x.state with
  | .hbm _ => true
  | _ => false

/-- PROMOTE_DUE: a PROMOTE with a sector outside HBM at its due tick counts as late (R201). -/
def execPromoteDue (now idx : Nat) (s : State) : Out :=
  .next (s.serving fun s => let s := s.advanceTo now
    match s.sky.promotes[idx]? with
    | none => s
    | some p =>
      if !s.locked || !s.sky.reached p.due 0 s.now then s
      else
        let s := s.setSky { s.sky with promotes := s.sky.promotes.eraseIdx idx }
        if (List.range p.count).all fun j => (s.sectorAt p.region (p.first + j)).promoted then s
        else (s.bump 2 p.stack 5).countLate p.orbit p.cid)

end Sys2Proof.Machine
end

