-- ==== Sys2Proof/Machine/Records.lean ====
section
/-! DEFINITION. The records that lie in HBM, as bytes (R31, R55, R146, R193, R402, R417, R418), and the record window of each
manager (R610, R611). -/
namespace Sys2Proof.Machine

def RState.code : RState → Nat
  | .free => 0 | .idle => 1 | .assigned => 2 | .draining => 3 | .releasing => 4 | .retiering => 5

def DirState.code : DirState → Nat
  | .free => 0 | .shared => 1 | .exclusive => 2 | .lost => 3

def bit (b : Bool) : Nat := if b then 1 else 0

/-- The region record (R31). -/
def State.regionRecord (s : State) (i : Nat) : List Byte :=
  let r := s.region i
  let held := decide (r.state = .assigned) || decide (r.state = .draining)
  leBytes 1 r.state.code ++ leBytes 1 (r.cls + 4 * bit r.demand + 8 * bit r.coherent) ++ leBytes 1 (r.redKind + 4 * r.redCond) ++
    leBytes 1 (r.k + 16 * r.checks) ++ leBytes 2 (if held then r.cid.toNat else 0) ++ leBytes 1 r.gen.toNat ++
    leBytes 1 r.rights.toNat ++ leBytes 8 r.size ++ leBytes 8 r.chunkList.toNat ++ leBytes 8 r.version.toNat ++
    leBytes 4 (min (2 ^ 32 - 1) (s.inflight i)) ++ leBytes 4 r.keySlot.toNat ++ leBytes 4 r.group.toNat ++
    leBytes 4 r.object.toNat ++ zeros 16

/-- The group record (R402). -/
def Group.bytes (g : Group) : List Byte :=
  leBytes 1 g.kind ++ leBytes 1 g.k ++ leBytes 1 g.c ++ leBytes 1 g.condition ++
    leBytes 2 (ofBits ((List.range 16).map g.failed.contains)) ++ leBytes 2 g.cid.toNat ++ leBytes 8 g.size ++
    leBytes 2 g.spareAid.toNat ++ leBytes 3 g.spareRegion ++ leBytes 1 g.sparePosition ++ zeros 2 ++ leBytes 4 g.cursor ++
    leBytes 4 g.cursorOpen ++ sliceBytes (g.members.flatMap fun m => leBytes 2 m.aid.toNat ++ leBytes 3 m.region ++ zeros 3) 0 128 ++
    zeros 32

/-- A neighbour on an exclusive list as the entry holds it (R146). -/
def dirLink (on : Bool) (k : Option Nat) : List Byte :=
  match k with
  | some j => if on then leBytes 4 j else leBytes 4 0xFFFFFFFF
  | none => leBytes 4 0xFFFFFFFF

/-- The directory entry (R146). -/
def DirEntry.bytes (e : DirEntry) : List Byte :=
  let on := decide (e.state = .exclusive) || decide (e.state = .lost)
  leBytes 1 e.state.code ++ leBytes 1 (bit e.broadcast + 2 * bit e.busy + 4 * bit e.referenced) ++
    leBytes 1 (min 4 e.ptrs.length) ++ zeros 1 ++ leBytes 3 e.region ++ zeros 1 ++ leBytes 6 e.line ++ leBytes 2 e.cid.toNat ++
    sliceBytes (e.ptrs.flatMap fun a => leBytes 2 a.toNat) 0 8 ++ dirLink on e.prev ++ dirLink on e.next

/-- The composition entry (R417). -/
def State.compRecord (s : State) (c : Comp) : List Byte :=
  leBytes 2 c.cid.toNat ++ leBytes 1 c.state.code ++ leBytes 1 c.gen.toNat ++ leBytes 1 c.genFloor.toNat ++
    leBytes 1 c.modes.toNat ++ leBytes 2 c.agents.length ++ leBytes 2 c.faultAgent.toNat ++ zeros 2 ++ leBytes 4 c.faultCount ++
    ptrBytesLe c.ring ++ leBytes 4 (s.inflightFloor c) ++ leBytes 8 c.journal ++ leBytes 8 c.violations ++
    leBytes 2 c.lastSrc.toNat ++ leBytes 1 c.lastPort.toNat ++ leBytes 1 c.lastReason.toNat ++ zeros 12

/-- An agent entry (R418). -/
def Agent.bytes (a : Agent) : List Byte :=
  leBytes 2 a.aid.toNat ++ leBytes 1 (bit a.readOnly + 2 * bit a.dead) ++ zeros 1 ++ leBytes 4 a.ports.toNat

/-- The record that a kind and an index select, with the entry index of its composition; none where they select nothing
(R611). -/
def State.recordOf (s : State) (kind index : Nat) : Option (List Byte × Nat) :=
  match kind with
  | 0 => (s.compIdx (BitVec.ofNat 16 index)).bind fun e => if index < 65536 then some (s.compRecord (s.compAt e), e) else none
  | 1 => (s.compIdx (BitVec.ofNat 16 index)).bind fun e =>
      if index < 65536 then some (sliceBytes ((s.compAt e).agents.flatMap Agent.bytes) 0 2048, e) else none
  | 2 => if 1 ≤ index ∧ index ≤ s.boot.cfg.carve.regions then some (s.regionRecord index, 0) else none
  | 3 => if index < s.boot.cfg.carve.objects then some ((s.object index).bytes, 0) else none
  | 4 =>
    let g := s.comps.groups.get {} index
    if g.kind = 0 then none else some (g.bytes, 0)
  | 5 =>
    if index % 2 ^ 28 < 8 * s.dirSets then
      some ((s.dirEntry (index / 2 ^ 28 * 2 ^ 32 + index % 2 ^ 28)).bytes, 0)
    else none
  | 6 => if index < 65536 then some ((s.transit index).bytes, 0) else none
  | _ => none

def State.window (s : State) (m : Aid) : Window := s.windows.get {} m.toNat

/-- A write to CMP_REC_SEL: a copy of the record as it is now. -/
def State.selectRecord (s : State) (m : Aid) (v : W64) : State :=
  let kind := bitsOf v.toNat 0 8
  let index := bitsOf v.toNat 8 32
  let sel : W64 := v &&& 0xFFFFFFFFFF
  let w : Window := match s.recordOf kind index with
    | some (l, e) => { sel := sel, data := l, entry := e, valid := true }
    | none => { sel := sel, bad := true, valid := true }
  { s with windows := s.windows.set {} m.toNat w }

end Sys2Proof.Machine
end

