-- ==== Sys2Proof/Machine/Registers.lean ====
section
/-! DEFINITION. The register map (21): what each register reads, and what a write does to it (R597 to R615, R190, R312, R503,
R509, R510, R542, R548, R549, R562 to R565, R596). -/
namespace Sys2Proof.Machine

/-- Packs fields, each given by its lowest bit, its width and its value. -/
def pack (l : List (Nat × Nat × Nat)) : Nat := l.foldl (fun n f => n + f.2.2 % 2 ^ f.2.1 * 2 ^ f.1) 0

/-- A value that saturates in a field of `n` bits. -/
def satBits (n v : Nat) : Nat := min (2 ^ n - 1) v

/-! ### GEN (R606 to R608) -/

/-- The step that GEN_STATE shows (R608). -/
def State.stepShown (s : State) : Nat := if s.boot.admitted then 11 else s.boot.step

def State.genState (s : State) : Nat :=
  pack [(0, 4, s.stepShown), (4, 1, bit s.boot.admitted), (5, 1, bit s.comps.selfExpelled), (6, 1, bit s.withdrawn),
    (7, 1, bit s.boot.cfgFault), (8, 1, bit s.boot.hwFault), (9, 1, s.boot.slot), (16, 8, s.boot.cause), (32, 32, s.boot.startSeq)]

/-- Wall time in ns (R571). -/
def State.wallTime (s : State) : Nat := s.switch.wallSec * 1000000000 + s.switch.wallNs + (s.now - s.switch.wallAt)

def State.genReg (s : State) (o : Nat) : Nat :=
  match o with
  | 0x00 => 0x0000010000000960
  | 0x08 => s.aid.toNat
  | 0x10 => s.genState
  | 0x18 => s.boot.sequence
  | 0x20 => pack [(0, 16, satBits 16 s.boot.reloads), (16, 16, satBits 16 s.boot.rwlWrites), (32, 16, satBits 16 s.boot.invalids)]
  | 0x28 => s.now / 1000
  | 0x30 => pack [(0, 48, s.wallTime / 1000000000), (63, 1, bit s.switch.wallSync)]
  | 0x38 => s.wallTime % 1000000000
  | 0x40 => s.comps.noticeSeq.toNat
  | _ => 0

/-! ### CFG (R609) -/

/-- Where the image's section of a type lies, and its length (R452). -/
def sectionPlace (image : List Byte) (ty : Nat) : Option (Nat × Nat) :=
  ((List.range (fieldLe image 6 2)).find? fun k => decide (fieldLe image (64 + 16 * k) 2 = ty)).map fun k =>
    (fieldLe image (64 + 16 * k + 4) 4, fieldLe image (64 + 16 * k + 8) 4)

/-- A byte of a section; one of a manager's wrapped key reads as zero. -/
def sectionByte (image : List Byte) (ty j : Nat) : Byte :=
  match sectionPlace image ty with
  | none => 0
  | some (off, len) =>
    if len ≤ j ∨ (ty = 6 ∧ 64 ≤ j ∧ 8 ≤ j % 64 ∧ j % 64 < 56) then 0 else nth 0 image (off + j)

def State.cfgReg (s : State) (a : Nat) : Nat :=
  let ty := (a - 0x10000) / 0x1000
  if 1 ≤ ty ∧ ty ≤ 10 then ofLe ((List.range 8).map fun j => sectionByte s.boot.image ty (a % 0x1000 + j)) else 0

/-! ### SKY (R190) -/

def LockState.code : LockState → Nat
  | .absent => 0 | .acquiring => 1 | .locked => 2 | .lost => 3

def State.skyReg (s : State) (o : Nat) : Nat :=
  let d := s.boot.cfg.device
  if o = 0 then pack [(0, 16, d.skyDomain.toNat), (16, 2, d.tickSource), (18, 1, bit d.skyout), (19, 12, d.tickHold)]
  else if o = 8 then
    pack [(0, 2, s.sky.lock.code), (2, 2, d.tickSource), (4, 1, bit s.sky.established), (5, 5, satBits 5 s.sky.goodRun),
      (10, 3, s.sky.lossCause), (16, 32, s.sky.period)]
  else if o = 0x10 then s.sky.count.toNat
  else if 0x1000 ≤ o ∧ o < 0x1800 then
    let x := s.orbit ((o - 0x1000) / 8)
    pack [(0, 16, x.cid.toNat), (16, 1, bit x.defined), (17, 1, bit (s.orbitEnabled x)), (32, 32, satBits 32 x.late)]
  else 0

/-! ### ETH (R548, R549) -/

def LinkState.code : LinkState → Nat
  | .disabled => 0 | .down => 1 | .training => 2 | .up => 3

/-- A pause of the partner is in force at local time `now` (R560). -/
def SubPort.isPaused (p : SubPort) (now pcp : Nat) : Bool :=
  match p.paused.get none pcp with
  | some (_, till) => decide (now < till)
  | none => false

def SubPort.linkStatus (p : SubPort) (now : Nat) : Nat :=
  pack [(0, 3, p.link.code), (3, 4, if p.link = .up then p.speed.toNat else 0), (7, 1, bit p.fecLock), (8, 1, bit p.macsecLive),
    (9, 8, ofBits ((List.range 8).map fun q => p.isPaused now q)),
    (17, 8, ofBits ((List.range 8).map fun q => (p.xoff.get none q).isSome)), (25, 3, p.downCause.toNat)]

def State.ethReg (s : State) (o : Nat) : Nat :=
  let port := o / 0x1000
  let r := o % 0x1000
  if 32 ≤ port then 0
  else if r < 0x800 then
    let p := s.subPort (subKey port (r / 0x100))
    match r % 0x100 with
    | 0x00 => p.linkStatus s.now
    | 0x08 => p.ctrl.toNat
    | 0x10 => p.mac.toNat
    | 0x18 => p.ipv6.toNat / 2 ^ 64
    | 0x20 => p.ipv6.toNat % 2 ^ 64
    | 0x28 => pack [(0, 32, p.dropHeadroom.toNat), (32, 32, p.dropLossy.toNat)]
    | _ => 0
  else if r < 0x840 then (s.switch.lanes.get 0 (8 * port + (r - 0x800) / 8)).toNat
  else 0

/-! ### SWT (R562 to R565) -/

def State.swtReg (s : State) (o : Nat) : Nat :=
  if 0x80000 ≤ o then (s.switch.fwd.get 0 ((o - 0x80000) / 8)).toNat
  else if 0x70000 ≤ o then (s.switch.neighbours.get 0 ((o - 0x70000) / 8)).toNat
  else if 0x60000 ≤ o then (s.switch.ipv6.get 0 ((o - 0x60000) / 8)).toNat
  else
    match o with
    | 0x10 => s.switch.bufferCtl.toNat
    | 0x18 => s.switch.discard
    | 0x20 => pack [(0, 32, s.sharedPool 0 / 1024), (32, 32, (s.sharedPool 0 - s.sharedUsed 0) / 1024)]
    | 0x28 => pack [(0, 32, s.sharedPool 1 / 1024), (32, 32, (s.sharedPool 1 - s.sharedUsed 1) / 1024)]
    | _ => 0

/-! ### CMP and DIR -/

/-- The instance of the manager that asks (R610). -/
def State.cmpReg (s : State) (m : Aid) (o : Nat) : Nat :=
  let w := s.window m
  if o = 0 then w.sel.toNat + pack [(40, 10, w.entry), (62, 1, bit w.bad), (63, 1, bit w.valid)]
  else if 0x800 ≤ o ∧ o < 0x1000 then fieldLe w.data (o - 0x800) 8
  else 0

def State.dirReg (s : State) (o : Nat) : Nat :=
  if o = 0 then (if s.boot.cfg.carve.dirBacking = 0 then 0 else Nat.log2 s.boot.cfg.carve.dirBacking)
  else if 0x100 ≤ o ∧ o < 0x180 then
    let l := s.dir.entries.filter fun e => decide (e.1 / 2 ^ 32 = (o - 0x100) / 8)
    let n := fun (p : DirEntry → Bool) => (l.filter fun e => p e.2).length
    pack [(0, 32, n fun e => decide (e.state ≠ .free)), (32, 16, satBits 16 (n fun e => e.busy)),
      (48, 16, satBits 16 (n fun e => decide (e.state = .lost)))]
  else 0

/-! ### XLT and MOV (R613) -/

/-- The mover that a walker serves: of those that it belongs to, the lowest that is translating. -/
def State.walkerServes (s : State) (w : Nat) : Option Nat :=
  (List.range 4).map (fun k => w + 16 * k) |>.find? fun m => decide ((s.mover m).state = .translating)

def State.xltReg (s : State) (o : Nat) : Nat :=
  if o < 0x100 then ofLe ((List.range 8).map fun j => sectionByte s.boot.image 5 (o + j))
  else if o < 0x180 then
    match s.walkerServes ((o - 0x100) / 8) with
    | some m => pack [(0, 1, 1), (1, 6, m)]
    | none => 0
  else 0

def Mover.code (m : Mover) : Nat :=
  match m.state with
  | .stalled => 4
  | .idle => 0
  | .translating => if m.inval.isEmpty then 1 else 3
  | .moving => if m.inval.isEmpty then 2 else 3

def Mover.status (m : Mover) : Nat :=
  pack [(0, 3, m.code), (3, 16, (m.req.map fun q => q.h.cid.toNat).getD 0), (19, 5, m.segments.length),
    (32, 9, (m.req.map fun q => q.done).getD 0)]

def State.movReg (s : State) (o : Nat) : Nat :=
  if o < 0x200 then (s.mover (o / 8)).status
  else if o = 0x200 then
    pack [(0, 16, s.stagingBlocks), (16, 16, s.stagingBlocks - s.blocksHeld), (32, 13, s.movers.parked.length),
      (45, 9, s.movers.queue.length)]
  else 0

/-! ### GRD (R312, R473, R612) -/

def ClusterState.code : ClusterState → Nat
  | .unavailable => 0 | .free => 1 | .assigned => 2 | .releasing => 3 | .zeroing => 4

def Cluster.reg (c : Cluster) : Nat :=
  pack [(0, 3, c.state.code), (3, 1, bit c.search), (4, 4, ofBits ((List.range 4).map fun p => (c.programs.get {} p).resident)),
    (8, 2, c.active.getD 0), (10, 1, bit c.active.isSome),
    (16, 16, if c.state = .free ∨ c.state = .unavailable then 0 else c.cid.toNat)]

def State.grdReg (s : State) (o : Nat) : Nat :=
  if o < 0x200 then (s.cluster (o / 8)).reg
  else if 0x10000 ≤ o ∧ o < 0x18000 then
    ((s.core ((o - 0x10000) / 32)).latches.get 0 (o % 32 / 8)).toNat
  else if 0x20000 ≤ o ∧ o < 0x20200 then
    let r := (o - 0x20000) / 8
    pack [(0, 5, s.grid.skip.get 16 r), (5, 17, (s.grid.failedCols.get 0 r).toNat)]
  else 0

/-! ### EMB, VEC, CMZ, JNL -/

/-- The bags that an engine serves: cid, and entries not looked up yet. -/
def State.bagsAt (s : State) (engine : Nat) : List (Nat × Nat) :=
  s.emb.service.flatMap fun q => (q.bags.filter fun b =>
    decide ((q.engine0 + b.1) % 16 = engine) && b.2.known && b.2.writes.isNone).map fun b => (q.h.cid.toNat, b.2.count - b.2.looked.length)

def State.embReg (s : State) (o : Nat) : Nat :=
  if o < 0x80 then
    let l := s.bagsAt (o / 8)
    pack [(0, 11, satBits 11 (l.foldl (fun n b => n + b.2) 0)), (11, 16, (l.headD (0, 0)).1)]
  else if o = 0x100 then s.emb.queue.length
  else 0

/-- The header of an attached index's tail as it lies at home. -/
def State.tailNow (s : State) (a : Attached) : TailHeader :=
  parseTailHeader (readBytes s ((s.localRegion a.desc.tail.rh).getD 0) a.desc.tail.offset.toNat 64)

def State.vecIndexReg (s : State) (i k : Nat) : Nat :=
  let a := s.indexAt i
  if !a.used then 0
  else
    match k with
    | 0 => pack [(0, 1, 1), (1, 16, a.cid.toNat), (17, 8, popcount 64 a.mask.toNat)]
    | 1 => fieldLe (ptrBytesLe a.ptr) 0 8
    | 2 => fieldLe (ptrBytesLe a.ptr) 8 4
    | 3 => (s.region ((s.localRegion a.desc.tail.rh).getD 0)).version.toNat
    | 4 => (s.tailNow a).merged
    | 5 => (s.tailNow a).base
    | 6 => (s.tailNow a).merging
    | _ => a.waiting.length

def State.vecReg (s : State) (o : Nat) : Nat := if o < 0x400 then s.vecIndexReg (o / 64) (o % 64 / 8) else 0

/-- Roaster `r`: the oldest group of its buffers. -/
def State.roasterReg (s : State) (r : Nat) : Nat :=
  match (s.ckpt.roasters.get {} r).groups with
  | [] => 0
  | (id, g) :: _ =>
    match s.ckpt.service.find? fun q => decide (q.id = id) with
    | some q => pack [(0, 2, if q.restore then 3 else if (q.coded.get [] g).isEmpty then 1 else 2), (2, 16, q.h.cid.toNat), (18, 32, g)]
    | none => 0

def State.cmzReg (s : State) (o : Nat) : Nat :=
  if o < 0x40 then s.roasterReg (o / 8) else if o = 0x100 then s.ckpt.queue.length else 0

/-- Records of a restore in progress that a journal engine has still to restore. -/
def Comp.toRestore (c : Comp) (engine : Nat) : Nat :=
  if (c.stepState = .eclipsing ∧ c.phase = 5) ∨ c.rollback.isSome then
    (c.recs.filter fun r => decide (homeSlice (4 * r.block) r.region / 4 = engine)).length
  else 0

def State.jnlReg (s : State) (o : Nat) : Nat :=
  if o = 0 then
    pack [(0, 32, s.boot.cfg.carve.journal / mib), (32, 32, (s.boot.cfg.carve.journal - s.comps.journalUsed) / mib)]
  else if o < 0x28 then
    match s.comps.entries.find? fun e => decide (0 < e.2.toRestore ((o - 8) / 8)) with
    | some e => pack [(0, 1, 1), (1, 16, e.2.cid.toNat), (17, 47, e.2.toRestore ((o - 8) / 8))]
    | none => 0
  else 0

/-! ### HBM, DDR, NND (R596) -/

/-- HBM_CAL_STATUS and DDR_CAL_STATUS. -/
def State.calStatus (s : State) (hbm : Bool) (unit : Nat) : Nat :=
  if (if hbm then 8 else 16) ≤ unit then 0
  else
    let c := s.calib hbm unit
    let drift := absDiff c.temp c.tempAtTrain
    pack [(0, 20, satBits 20 ((s.now - c.lastImp) / 1000000)), (20, 20, satBits 20 ((s.now - c.lastTrain) / 1000000)),
      (40, 8, satBits 8 drift),
      (48, 1, bit (decide (c.lastImp + calibLimit 0 < s.now) || decide (c.lastTrain + calibLimit 1 < s.now) || decide (10 < drift))),
      (49, 1, bit c.busy.isSome)]

def State.hbmReg (s : State) (o : Nat) : Nat :=
  let k := o / 0x100
  if 8 ≤ k then 0
  else
    match o % 0x100 with
    | 0 => s.calStatus true k
    | 8 => if s.unitInUse true k then pack [(0, 1, 1), (1, 2, s.boot.cfg.mem.hbmRate), (3, 10, s.counter 2 k 2)] else 0
    | _ => 0

def State.ddrReg (s : State) (o : Nat) : Nat :=
  let n := o / 0x100
  if 16 ≤ n then 0
  else
    match o % 0x100 with
    | 0 => s.calStatus false n
    | 8 =>
      let d := nth {} s.boot.cfg.mem.ddr n
      if d.dimms = 0 then 0
      else pack [(0, 2, d.dimms), (2, 1, bit s.boot.cfg.mem.mrdimm), (3, 1, 1), (16, 16, s.boot.cfg.mem.ddrRate),
        (32, 32, d.dimms * d.capacity)]
    | _ => 0

def State.nndReg (s : State) (o : Nat) : Nat :=
  if o % 0x100 = 0 ∧ o / 0x100 < 32 then
    let ch := o / 0x100
    pack [(0, 6, s.boot.cfg.mem.dies), (6, 10, s.counter 5 ch 2), (16, 1, bit (s.nandChan ch).writeStop),
      (17, 1, bit (s.belowShare ch 20))]
  else 0

/-! ### HLT (R503, R509, R510) -/

/-- Units, stride and counters of a class. -/
def healthShape (cls : Nat) : Nat × Nat × Nat :=
  match cls with
  | 0 => (32, 0x100, 20) | 1 => (64, 0x100, 6) | 2 => (8, 0x100, 8) | 3 => (16, 0x100, 5) | 4 => (32, 0x100, 5)
  | 5 => (32, 0x100, 4) | 6 => (1024, 0x40, 8) | 7 => (64, 0x100, 5) | 8 => (4, 0x100, 4) | 9 => (156, 0x100, 4)
  | 10 => (1024, 0x40, 7) | 11 => (1, 0x100, 9)
  | _ => (0, 0x100, 0)

def State.healthReg (s : State) (o : Nat) : Nat :=
  let cls := o / 0x10000
  match healthShape cls with
  | (units, stride, ctrs) =>
    let u := o % 0x10000 / stride
    let i := o % stride / 8
    if u < units ∧ i < ctrs then s.counter cls u i else 0

def State.magnitudeReg (s : State) (cls u : Nat) : Nat :=
  if 10 ≤ cls ∨ (healthShape cls).1 ≤ u then 0
  else
    let x := s.health.scores.get {} (cls * 65536 + u)
    pack [(0, 16, if s.health.minutes < 1440 then 0xFFFF else x.magnitude), (16, 2, x.band), (18, 5, x.top), (23, 1, bit x.rising)]

def HltAlert.reg (a : HltAlert) : Nat := pack [(0, 4, a.cls), (4, 12, a.unit), (16, 5, a.counter), (63, 1, bit a.valid)]

def State.hltReg (s : State) (o : Nat) : Nat :=
  if o = 0xCF000 then s.health.alert.reg
  else if 0xD0000 ≤ o then s.magnitudeReg ((o - 0xD0000) / 0x2000) (o % 0x2000 / 8)
  else s.healthReg o

/-! ### SEC (R542), TST (R614), PWR (R615) -/

def State.secStatus (s : State) : Nat :=
  pack [(0, 3, s.lifecycle), (3, 1, bit s.sec.scanUnlocked), (4, 2, s.ownerSlot.getD 0), (6, 8, satBits 8 s.sec.floor),
    (14, 12, s.sec.epoch), (26, 1, bit s.sec.exhausted), (27, 17, satBits 17 s.sec.attestUsed)]

def State.secReg (s : State) (o : Nat) : Nat :=
  if o = 0 then s.secStatus
  else if o = 8 then s.sec.keySlots.length
  else if o = 0x10 then s.sec.counter
  else if 0x100 ≤ o ∧ o < 0x200 then
    fieldLe (hashBytes s.sec.m0 ++ hashBytes s.sec.m1 ++ hashBytes s.sec.m2 ++ hashBytes s.sec.m3) (o - 0x100) 8
  else 0

def State.tstReg (s : State) (o : Nat) : Nat :=
  let cls := o / 512
  let u := o % 512 / 8
  if !blockExists cls u then 0
  else
    let b := s.block cls u
    pack [(0, 2, b.drain), (2, 2, match b.test with | none => 0 | some t => if t.running then 2 else 1), (4, 1, bit b.failed),
      (5, 1, bit (s.calibRuns cls u)), (8, 8, b.outcome),
      (16, 32, match b.test with | none => b.testId.toNat | some t => t.testId.toNat)]

def State.pwrReg (s : State) (o : Nat) : Nat :=
  let p := s.power
  match o with
  | 0 => pack [(0, 16, satBits 16 p.mv), (16, 16, satBits 16 p.ca), (32, 16, satBits 16 p.watts), (48, 8, satBits 8 p.junction),
      (56, 1, bit (decide (0 < p.throttle))), (57, 1, bit p.lowInput)]
  | 8 => satBits 16 p.peak
  | _ => 0

/-! ### Reads -/

/-- The last byte of the blocks of R603, plus one. -/
def csrEnd : Nat := 0x1400000

/-- What a register reads for a manager; the address lies inside a block (R598, R606). -/
def State.readCsr (s : State) (m : Aid) (a : Nat) : W64 :=
  let o := a % 0x100000
  BitVec.ofNat 64 (match a / 0x100000 with
    | 0x0 => if a < 0x10000 then s.genReg a else s.cfgReg a
    | 0x1 => s.skyReg o | 0x2 => s.ethReg o | 0x3 => s.swtReg o | 0x4 => s.cmpReg m o | 0x5 => s.dirReg o
    | 0x6 => s.xltReg o | 0x7 => s.movReg o | 0x8 => s.grdReg o | 0x9 => s.embReg o | 0xA => s.vecReg o
    | 0xB => s.cmzReg o | 0xC => s.jnlReg o | 0xD => s.hbmReg o | 0xE => s.ddrReg o | 0xF => s.nndReg o
    | 0x10 => s.hltReg o | 0x11 => s.secReg o | 0x12 => s.tstReg o | _ => s.pwrReg o)

/-- Address of PWR_PEAK, which a read clears (R8, R615). -/
def pwrPeakAddr : Nat := 0x1300008

/-- A register read: its value, and the state after it. -/
def State.takeCsr (s : State) (m : Aid) (a : Nat) : W64 × State :=
  (s.readCsr m a, if a = pwrPeakAddr then s.setPower { s.power with peak := 0 } else s)

/-! ### Writes -/

def State.setSwitch (s : State) (x : Switch) : State := { s with switch := x }

/-- Counts a register write that would have changed an RWL field after start-up (R601). -/
def State.countRwl (s : State) (changes : Bool) : State :=
  if changes then { s with boot := { s.boot with rwlWrites := s.boot.rwlWrites + 1 } } else s

/-- ETH_SUB_CTRL: its RW fields, and its RWL fields until start-up completes (R549, R601). -/
def State.writeSubCtrl (s : State) (k : Nat) (v : W64) : State :=
  let old := (s.subPort k).ctrl
  let rwl : W64 := 0x7
  let rw : W64 := 0xFFFFFFFFF0
  if s.boot.admitted then
    (s.modSub k fun p => { p with ctrl := (v &&& rw) ||| (old &&& rwl) }).countRwl (decide ((v ^^^ old) &&& rwl ≠ 0))
  else s.modSub k fun p => { p with ctrl := v &&& (rw ||| rwl) }

/-- ETH_LANE: RWL fields alone. -/
def State.writeLane (s : State) (k : Nat) (v : W64) : State :=
  let old := s.switch.lanes.get 0 k
  if s.boot.admitted then s.countRwl (decide ((v ^^^ old) &&& 0x3F ≠ 0))
  else s.setSwitch { s.switch with lanes := s.switch.lanes.set 0 k (v &&& 0x3F) }

def State.writeEth (s : State) (o : Nat) (v : W64) : State :=
  let port := o / 0x1000
  let r := o % 0x1000
  if 32 ≤ port then s
  else if r < 0x800 then
    let k := subKey port (r / 0x100)
    match r % 0x100 with
    | 0x08 => s.writeSubCtrl k v
    | 0x10 => s.modSub k fun p => { p with mac := v.setWidth 48 }
    | 0x18 => s.modSub k fun p => { p with ipv6 := v ++ p.ipv6.extractLsb' 0 64 }
    | 0x20 => s.modSub k fun p => { p with ipv6 := p.ipv6.extractLsb' 64 64 ++ v }
    | _ => s
  else if r < 0x840 then s.writeLane (8 * port + (r - 0x800) / 8) v
  else s

/-- Fields of SWT_FWD that a write sets; on_alt is cleared by it (R563, R564). -/
def fwdMask : W64 := 0x007FFFFFFFFFFFFB

/-- A write of SWT_FWD. -/
def State.writeFwd (s : State) (a : Nat) (v : W64) : State :=
  s.setSwitch { s.switch with fwd := s.switch.fwd.set 0 a (v &&& fwdMask) }

def State.writeSwt (s : State) (o : Nat) (v : W64) : State :=
  if 0x80000 ≤ o then s.writeFwd ((o - 0x80000) / 8) v
  else if 0x78000 ≤ o then s
  else if 0x70000 ≤ o then
    s.setSwitch { s.switch with neighbours := s.switch.neighbours.set 0 ((o - 0x70000) / 8) (v &&& 0x0FFFFFFFFFFFFFFF) }
  else if 0x60000 ≤ o then s.setSwitch { s.switch with ipv6 := s.switch.ipv6.set 0 ((o - 0x60000) / 8) v }
  else if o = 0x10 then s.setSwitch { s.switch with bufferCtl := v &&& 0x0000FFFFFFF7FFFF }
  else s

/-- GRD_FAULT_LATCH: clearing valid clears the latch (R312). -/
def State.writeLatch (s : State) (core program : Nat) (v : W64) : State :=
  if v.getLsbD 63 then s.setCore core { s.core core with latches := (s.core core).latches.set 0 program 0 } else s

/-- HLT_ALERT: clearing valid leaves the other fields (R510). -/
def State.writeAlert (s : State) (v : W64) : State :=
  if v.getLsbD 63 then State.settleAlert { s with health := { s.health with alert := { s.health.alert with valid := false } } } else s

/-- A register write of a manager to an address inside a block; a register that is read-only, or no register, ignores it. -/
def State.writeCsr (s : State) (m : Aid) (a : Nat) (v : W64) : State :=
  let o := a % 0x100000
  match a / 0x100000 with
  | 0x2 => s.writeEth o v
  | 0x3 => s.writeSwt o v
  | 0x4 => if o = 0 then s.selectRecord m v else s
  | 0x8 => if 0x10000 ≤ o ∧ o < 0x18000 then s.writeLatch ((o - 0x10000) / 32) (o % 32 / 8) v else s
  | 0x10 => if o = 0xCF000 then s.writeAlert v else s
  | _ => s

end Sys2Proof.Machine
end

