-- ==== Sys2Proof/Machine/Image.lean ====
section
/-! DEFINITION. The configuration image (R451 to R463): candidates, signature, sections and their fields, and every check of
validation with its cause code (R36, R48, R65, R145, R172, R196, R218, R236, R442, R514, R531, R576, R580, R581, R585, R586,
R591, R604). -/
namespace Sys2Proof.Machine

/-! ### Header and candidates (R451, R460) -/

/-- Bytes before the signature block. -/
def imageLength (l : List Byte) : Nat := fieldLe l 28 4

def imageSequence (l : List Byte) : Nat := fieldLe l 16 8

def imageSecurity (l : List Byte) : Nat := fieldLe l 24 4

def imageMagic : List Byte := [0x54, 0x4B, 0x49, 0x4D]

/-- Why a slot is no candidate, by the reasons of R465; 0 for a candidate. -/
def notCandidate (l : List Byte) (floor : Nat) : Nat :=
  if sliceBytes l 0 4 ≠ imageMagic ∨ fieldLe l 4 2 ≠ 1 ∨ fieldLe l 36 4 ≠ crc32c (sliceBytes l 0 36) then 1
  else if fieldLe l 8 4 ≠ 0x960 ∨ ¬ bitOf (fieldLe l 12 4) 0 then 2
  else if imageSecurity l < floor then 3
  else if imageLength l % 64 ≠ 0 ∨ 8384512 < imageLength l then 4
  else if fieldLe l 32 1 < 1 ∨ 3 < fieldLe l 32 1 then 5
  else 0

/-- Hash of the public key that signs images in the fused state (R511, R523). -/
def State.signerHash (s : State) : Option (BitVec 256) :=
  if s.sec.fuseRetired || !s.sec.fuseProvisioned then some s.sec.vendorRoot
  else s.ownerSlot.map fun i => (nth {} s.ownerSlots i).hash

/-- Length of a signature of a parameter set (R453, R516). -/
def signatureLength (set : Nat) : Option Nat :=
  match set with
  | 1 => some 2500 | 2 => some 2692 | 3 => some 2820
  | _ => none

/-- A signature block holds the public key that has the trusted hash, and that key's signature of the message (R453, R523). -/
def blockVerifies (trusted : Option (BitVec 256)) (set : Nat) (message block : List Byte) : Bool :=
  match signatureLength set with
  | none => false
  | some n =>
    let key := block.take 64
    decide (block.length = 64 + n) && decide (trusted = some (hash256 (Config.shake512 key))) &&
      Config.xmssVerify set (BitVec.ofNat 512 (ofBe key)) message (block.drop 64)

/-- The image's signature block, at offset length, verifies with the parameter set named by sig_set under the key that the device trusts
(R453, R523). -/
def State.verifies (s : State) (x : ImageSlot) : Bool :=
  let n := imageLength x.bytes
  let set := fieldLe x.bytes 32 1
  blockVerifies s.signerHash set (x.bytes.take n) ((x.bytes.drop n).take (64 + (signatureLength set).getD 0))

/-! ### Sections (R452, R454) -/

structure Section where
  ty : Nat
  off : Nat
  len : Nat
  deriving DecidableEq, Repr

def sectionTable (l : List Byte) : List Section :=
  (List.range (fieldLe l 6 2)).map fun k =>
    { ty := fieldLe l (64 + 16 * k) 2, off := fieldLe l (64 + 16 * k + 4) 4, len := fieldLe l (64 + 16 * k + 8) 4 }

/-- Two sections share a byte. -/
def Section.meets (a b : Section) : Bool := decide (a.off < b.off + b.len) && decide (b.off < a.off + a.len)

def sectionsApart : List Section → Bool
  | [] => true
  | a :: t => (t.all fun b => !a.meets b && decide (a.ty ≠ b.ty)) && sectionsApart t

/-- Bytes of a section; none where the image has none. -/
def sectionBytes (l : List Byte) (ty : Nat) : Option (List Byte) :=
  (sectionPlace l ty).map fun p => sliceBytes l p.1 p.2

/-- Records of a default-orbit section: the least number for which the section's length is that of the records and of the
entries that they count (R454). -/
def orbitRecords (l : List Byte) : Option Nat :=
  (List.range (l.length / 24 + 1)).find? fun n =>
    decide (24 * n + 32 * ((List.range n).foldl (fun m k => m + fieldLe l (24 * k + 20) 4) 0) = l.length)

/-- The section's length is that of its type. -/
def sectionLength (ty : Nat) (l : List Byte) : Bool :=
  match ty with
  | 1 => decide (l.length = 64)
  | 2 => decide (l.length = 1024)
  | 3 => decide (l.length = 192)
  | 4 => decide (l.length = 64)
  | 5 => decide (l.length % 16 = 0) && decide (16 ≤ l.length) && decide (l.length ≤ 256)
  | 6 => decide (l.length = 64 + 64 * fieldLe l 0 1)
  | 7 => (orbitRecords l).isSome
  | 8 => decide (l.length = 128)
  | 9 => decide (l.length = 64)
  | 10 => decide (l.length % 16 = 0)
  | _ => false

/-- A refusal: cause code and detail (R465, R466). -/
abbrev Refuse := Nat × Nat

/-- Stops with a cause unless the check holds. -/
def ensure (b : Bool) (cause detail : Nat) : Except Refuse Unit := if b then .ok () else .error (cause, detail)

def requiredSections : List Nat := [1, 2, 3, 4, 6, 8, 9]

/-- Every required section is there once, none is unknown or malformed (cause 0x03). -/
def checkSections (l : List Byte) : Except Refuse Unit := do
  let n := fieldLe l 6 2
  ensure (decide (1 ≤ n) && decide (n ≤ 32)) 0x03 0
  let t := sectionTable l
  t.forM fun x => ensure (decide (1 ≤ x.ty) && decide (x.ty ≤ 10) && decide (x.off % 64 = 0) && decide (64 + 16 * n ≤ x.off) &&
    decide (x.off + x.len ≤ imageLength l)) 0x03 x.ty
  ensure ((List.range n).all fun k => decide (fieldLe l (64 + 16 * k + 12) 4 = 0)) 0x03 0
  ensure (sectionsApart t) 0x03 0
  requiredSections.forM fun ty => ensure (t.any fun x => decide (x.ty = ty)) 0x03 ty
  t.forM fun x => ensure (sectionLength x.ty (sliceBytes l x.off x.len)) 0x03 x.ty

/-- A field within its range, or zero for its default. -/
def zeroOr (v lo hi : Nat) : Bool := decide (v = 0) || (decide (lo ≤ v) && decide (v ≤ hi))

def orDefault (v d : Nat) : Nat := if v = 0 then d else v

/-! ### DEVICE (R455) -/

def parseDevice (l : List Byte) : DeviceCfg :=
  let map := fieldLe l 28 4
  let pcp := fun k d => if map = 0 then d else fieldLe l (28 + k) 1
  { aid := BitVec.ofNat 16 (fieldLe l 0 2), skyDomain := BitVec.ofNat 16 (fieldLe l 2 2), tickSource := fieldLe l 4 1
    skyout := bitOf (fieldLe l 5 1) 0, tickHold := fieldLe l 6 2
    requestTimeout := 1000 * orDefault (fieldLe l 8 4) 50, replayTimeout := orDefault (fieldLe l 12 4) 2000
    hopHold := 1000000 * orDefault (fieldLe l 16 4) 50, handoffDeadline := 1000 * orDefault (fieldLe l 20 4) 100
    etherType := orDefault (fieldLe l 24 2) 0x88B5, udpPort := orDefault (fieldLe l 26 2) 46005
    pcpControl := pcp 0 7, pcpEspresso := pcp 1 6, pcpReplica := pcp 2 4, pcpBulk := pcp 3 2
    localPeriod := orDefault (fieldLe l 32 4) 1000 }

/-- Fields of the DEVICE section within their values; the local generator only in MANUFACTURE and SERVICE (R172). -/
def deviceOk (l : List Byte) (lifecycle : Nat) : Bool :=
  let d := parseDevice l
  decide (d.aid ≠ 0) && decide (d.tickSource ≤ 2) && decide (fieldLe l 5 1 ≤ 1) && decide (d.tickHold ≤ 4095) &&
    zeroOr (fieldLe l 8 4) 5 10000 && zeroOr (fieldLe l 12 4) 500 100000 && zeroOr (fieldLe l 16 4) 1 1000 &&
    zeroOr (fieldLe l 20 4) 1 10000 && zeroOr (fieldLe l 32 4) 250 1000000 &&
    ((sliceBytes l 28 4).all fun b => decide (b.toNat ≤ 7)) && allZero (sliceBytes l 36 28) &&
    (decide (d.tickSource ≠ 2) || decide (lifecycle = 1) || decide (lifecycle = 4))

/-! ### PORTS (R456, R463) -/

def parsePort (l : List Byte) : PortCfg :=
  let f := fieldLe l 3 1
  { mode := fieldLe l 0 1, ipv6 := decide (fieldLe l 1 1 = 1), lossless := nth 0 l 2, tick := bitOf f 0, v1 := bitOf f 1
    macsec := bitOf f 2, mtu := fieldLe l 4 2, cable := fieldLe l 6 2
    headroom := (List.range 8).map fun q => fieldLe l (8 + 2 * q) 2 }

def parsePorts (l : List Byte) : List PortCfg := (List.range 32).map fun k => parsePort (sliceBytes l (32 * k) 32)

/-- Fields of a port record within their values (R65, R456). -/
def portOk (l : List Byte) : Bool :=
  let p := parsePort l
  decide (p.mode ≤ 5) && decide (fieldLe l 1 1 ≤ 1) && decide (fieldLe l 3 1 < 8) && decide (1 ≤ p.cable) &&
    decide (p.cable ≤ 2000) && allZero (sliceBytes l 24 8) &&
    (decide (p.mode = 0) || decide ((if p.ipv6 then 4272 else 4224) ≤ p.mtu)) && !(p.tick && decide (p.mode = 0))

/-- Sub-port rate in bytes per ns, times 2 (R543). -/
def halfRate (mode : Nat) : Nat :=
  match mode with
  | 1 => 400 | 2 => 200 | 3 => 100 | 4 => 50 | 5 => 25
  | _ => 0

/-- The lossless headroom of one PCP of one sub-port in KiB (R463). -/
def headroomKib (p : PortCfg) : Nat :=
  let bytes2 := halfRate p.mode * (10 * p.cable + 1000) + 4 * (p.mtu + 22)
  (bytes2 + 2047) / 2048

def losslessPcps (p : PortCfg) : List Nat := (List.range 8).filter fun q => p.lossless.getLsbD q

/-- Every lossless PCP of an enabled port holds its headroom. -/
def headroomOk (p : PortCfg) : Bool :=
  decide (p.mode = 0) || (losslessPcps p).all fun q => decide (headroomKib p ≤ nth 0 p.headroom q)

/-- Headroom of a die in KiB. -/
def dieHeadroom (ports : List PortCfg) (die : Nat) : Nat :=
  (List.range 16).foldl (fun n k =>
    let p := nth {} ports (16 * die + k)
    n + subPorts p.mode * (losslessPcps p).foldl (fun m q => m + nth 0 p.headroom q) 0) 0

/-! ### MEMORY (R580, R581, R585, R586, R591) -/

def parseDimm (l : List Byte) (n : Nat) : DimmCfg :=
  { dimms := fieldLe l (64 + 8 * n) 1, ranks := fieldLe l (65 + 8 * n) 1, capacity := fieldLe l (66 + 8 * n) 2 }

def parseMem (l : List Byte) : MemCfg :=
  { hbmMask := nth 0 l 0, hbmRate := fieldLe l 1 1, mrdimm := decide (fieldLe l 2 1 = 1), ddrRate := fieldLe l 4 2
    toggle := decide (fieldLe l 6 1 = 1), op := orDefault (fieldLe l 7 1) 8, nandRate := fieldLe l 8 2, dies := fieldLe l 10 1
    diesPerCe := fieldLe l 11 1, planes := fieldLe l 12 1, tR := fieldLe l 14 2, pageBytes := fieldLe l 16 2
    pagesPerBlock := fieldLe l 18 2, blocksPerDie := fieldLe l 20 4, ratedCycles := fieldLe l 24 4
    ddr := (List.range 16).map (parseDimm l) }

/-- Speeds of a DIMM type at a number of DIMMs per channel (R580). -/
def ddrSpeeds (mrdimm : Bool) (dimms : Nat) : List Nat :=
  if mrdimm then if dimms = 1 then [8800, 12800] else [8800]
  else if dimms = 1 then [4800, 5200, 5600, 6000, 6400] else [4800, 5200]

def dimmOk (m : MemCfg) (d : DimmCfg) : Bool :=
  decide (d.dimms ≤ 2) &&
    (decide (d.dimms = 0) ||
      ([1, 2, 4, 8].contains d.ranks && [32, 64, 96, 128, 256].contains d.capacity && (ddrSpeeds m.mrdimm d.dimms).contains m.ddrRate))

def samePopulation (a b : DimmCfg) : Bool :=
  (decide (a.dimms = 0) && decide (b.dimms = 0)) || decide (a = b)

def memOk (l : List Byte) : Bool :=
  let m := parseMem l
  decide (m.hbmRate ≤ 2) && decide (fieldLe l 2 1 ≤ 1) && decide (fieldLe l 3 1 = 0) && decide (fieldLe l 6 1 ≤ 1) &&
    decide (4 ≤ m.op) && decide (m.op ≤ 16) && [1600, 2400, 3600, 4800].contains m.nandRate && decide (1 ≤ m.dies) &&
    decide (m.dies ≤ 32) && decide (1 ≤ m.diesPerCe) && decide (m.diesPerCe ≤ 4) && [1, 2, 4].contains m.planes &&
    decide (fieldLe l 13 1 = 0) && decide (18432 ≤ m.pageBytes) && decide (1 ≤ m.pagesPerBlock) &&
    decide (1 ≤ m.blocksPerDie) && decide (m.blocksPerDie ≤ 2 ^ 24) && decide (m.blocksPerDie * m.pagesPerBlock ≤ 2 ^ 24) &&
    decide (m.dies ≤ 8 * m.diesPerCe) && decide (m.dies % m.diesPerCe = 0) && allZero (sliceBytes l 28 36) &&
    ((List.range 16).all fun n => allZero (sliceBytes l (68 + 8 * n) 4)) && (m.ddr.all (dimmOk m)) &&
    (ddrSpeeds m.mrdimm 1).contains m.ddrRate &&
    (List.range 8).all fun k => samePopulation (nth {} m.ddr k) (nth {} m.ddr (k + 8))

/-- Logical flash capacity in bytes (R48). -/
def logicalFlash (m : MemCfg) : Nat := 32 * m.dies * m.blocksPerDie * m.pagesPerBlock * 16384 * (64 - m.op) / 64

/-! ### CARVE and the pools (R36, R145, R236, R576) -/

def parseCarve (l : List Byte) : CarveCfg :=
  { regions := fieldLe l 0 8, objects := fieldLe l 8 8, hotMap := fieldLe l 16 8, dirBacking := fieldLe l 24 8
    journal := fieldLe l 32 8, promotion := fieldLe l 40 8, sectorCache := fieldLe l 48 8, staging := fieldLe l 56 8 }

def gib : Nat := 1073741824

/-- Zero, or a power of two from 256 MiB to 64 GiB (R145). -/
def backingOk (v : Nat) : Bool := decide (v = 0) || (List.range 9).any fun k => decide (v = 256 * mib * 2 ^ k)

def carveOk (c : CarveCfg) : Bool :=
  decide (1 ≤ c.regions) && decide (c.regions < 2 ^ 24) && decide (1 ≤ c.objects) && decide (c.objects ≤ 2 ^ 24) &&
    decide (c.hotMap ≤ 16 * gib) && backingOk c.dirBacking &&
    ([c.hotMap, c.dirBacking, c.journal, c.promotion, c.sectorCache].all fun v => decide (v % chunkBytes = 0)) &&
    decide (mib ≤ c.staging) && decide (c.staging ≤ 32 * mib) && decide (c.staging % mib = 0)

/-- What is left on a unit of this capacity once its share of each part, rounded up to 2 MiB, is taken; none where the
shares exceed it. -/
def unitRest (parts : List Nat) (cap total : Nat) : Option Nat :=
  let used := parts.foldl (fun n p => n + roundUp ((p * cap + total - 1) / total) chunkBytes) 0
  if used ≤ cap then some (cap - used) else none

/-- Pools of the pinned rest, in chunks, for units of these capacities; none where some share exceeds its unit's capacity. -/
def splitPools (parts : List Nat) (caps : List (Nat × Nat)) : Option (Tab Pool) :=
  let total := caps.foldl (fun n c => n + c.2) 0
  if total = 0 then if parts.all fun p => decide (p = 0) then some [] else none
  else caps.foldlM (fun (t : Tab Pool) c =>
    (unitRest parts c.2 total).map fun rest => t.set {} c.1 { cap := rest / chunkBytes }) []

/-- The pinned pool of each stack (R36, R576, R577). -/
def hbmPools (m : MemCfg) (c : CarveCfg) : Option (Tab Pool) :=
  splitPools [roundUp (64 * c.regions) chunkBytes, roundUp (64 * c.objects) chunkBytes, c.hotMap, c.dirBacking, c.journal, c.promotion]
    (((List.range 8).filter fun k => m.hbmMask.getLsbD k).map fun k => (k, 64 * gib))

/-- Capacity of a channel pair in bytes. -/
def pairBytes (m : MemCfg) (k : Nat) : Nat :=
  (nth {} m.ddr k).dimms * (nth {} m.ddr k).capacity * gib + (nth {} m.ddr (k + 8)).dimms * (nth {} m.ddr (k + 8)).capacity * gib

/-- The pinned pool of each channel pair. -/
def dramPools (m : MemCfg) (c : CarveCfg) : Option (Tab Pool) :=
  splitPools [logicalFlash m / 4096 * 4, c.sectorCache / 4096 * 8, c.sectorCache]
    (((List.range 8).filter fun k => decide ((nth {} m.ddr k).dimms ≠ 0)).map fun k => (k, pairBytes m k))

/-! ### FORMATS (R217, R218) -/

def parseFormat (l : List Byte) : FormatRec :=
  { levels := fieldLe l 0 1, granule := fieldLe l 1 1, flags := nth 0 l 2, bits := (List.range 5).map fun k => fieldLe l (4 + k) 1
    present := nth 0 l 9, writable := nth 0 l 10, leaf := nth 0 l 11, atomic := nth 0 l 12, addrLo := fieldLe l 13 1
    addrHi := fieldLe l 14 1, blocks := nth 0 l 15 }

/-- A bit descriptor is "none", or names a bit outside the address field. -/
def descriptorOk (f : FormatRec) (b : Byte) : Bool :=
  decide (b = 0xFF) ||
    (!b.getLsbD 7 && !(decide (f.addrLo ≤ bitsOf b.toNat 0 6) && decide (bitsOf b.toNat 0 6 ≤ f.addrHi)))

def formatOk (l : List Byte) : Bool :=
  let f := parseFormat l
  decide (3 ≤ f.levels) && decide (f.levels ≤ 5) && [12, 14, 16].contains f.granule && decide (f.flags.toNat < 4) &&
    decide (fieldLe l 3 1 = 0) && ((f.bits.take f.levels).all fun n => decide (1 ≤ n) && decide (n ≤ 13)) &&
    ((f.bits.drop f.levels).all fun n => decide (n = 0)) && decide (f.granule + f.bits.foldl (· + ·) 0 ≤ 57) &&
    decide (f.addrLo ≤ f.addrHi) && decide (f.addrHi ≤ 55) && decide (f.addrLo ≤ f.granule) && descriptorOk f f.present &&
    descriptorOk f f.writable && descriptorOk f f.leaf && descriptorOk f f.atomic &&
    !(decide (f.blocks ≠ 0) && decide (f.leaf = 0xFF))

/-! ### MANAGERS (R442, R457, R531) -/

def managerAt (l : List Byte) (k : Nat) : List Byte := sliceBytes l (64 + 64 * k) 64

/-- The manager key: the first 40 bytes unwrapped. -/
def managerKey (wrapKey : BitVec 256) (wrapped : List Byte) : Option (BitVec 256) := Config.unwrap wrapKey (wrapped.take 40)

def parseManager (wrapKey : BitVec 256) (l : List Byte) : ManagerCfg :=
  { aid := BitVec.ofNat 16 (fieldLe l 0 2), ports := BitVec.ofNat 32 (fieldLe l 4 4), wrapped := sliceBytes l 8 48
    key := (managerKey wrapKey (sliceBytes l 8 48)).getD 0 }

def parseManagers (wrapKey : BitVec 256) (l : List Byte) : List ManagerCfg :=
  (List.range (fieldLe l 0 1)).map fun k => parseManager wrapKey (managerAt l k)

/-- The wrapped key is an AES key wrap that unwraps, and 8 zero bytes. -/
def unwraps (wrapKey : BitVec 256) (wrapped : List Byte) : Bool :=
  (managerKey wrapKey wrapped).isSome && allZero (wrapped.drop 40)

def managersOk (l : List Byte) (ports : List PortCfg) : Bool :=
  let n := fieldLe l 0 1
  let k := fieldLe l 1 1
  decide (3 ≤ n) && decide (n ≤ 7) && decide (n / 2 + 1 ≤ k) && decide (k ≤ n) && allZero (sliceBytes l 2 62) &&
    (List.range n).all fun j =>
      let e := managerAt l j
      let m := parseManager 0 e
      decide (m.aid ≠ 0) && allZero (sliceBytes e 2 2) && allZero (sliceBytes e 56 8) &&
        (List.range 32).any fun p => m.ports.getLsbD p && decide ((nth {} ports p).mode ≠ 0)

/-! ### ORBITS, LIFECYCLE, START, CSR (R196, R458, R459, R514, R604) -/

/-- A default orbit, laid out as the operands of ORBIT_DEFINE; its enable count equals its anchor (R195, R198). -/
def parseOrbit (l : List Byte) : Nat × Orbit :=
  let anchor := fieldLe l 8 8
  (fieldLe l 0 1, { defined := true, cid := BitVec.ofNat 16 (fieldLe l 2 2), period := fieldLe l 4 4, anchor := anchor
                    first := fieldLe l 16 4, count := fieldLe l 20 4, enable := some anchor })

def parseOrbits (l : List Byte) : List (Nat × Orbit) :=
  (List.range ((orbitRecords l).getD 0)).map fun k => parseOrbit (sliceBytes l (24 * k) 24)

/-- The entries of the default orbits, record after record, each with its place in the table. -/
def placeEntries (l : List Byte) : Nat → List (Nat × Orbit) → List (Nat × Entry)
  | _, [] => []
  | at_, (_, x) :: t =>
    ((List.range x.count).map fun k => (x.first + k, parseEntry (sliceBytes l (at_ + 32 * k) 32))) ++
      placeEntries l (at_ + 32 * x.count) t

/-- One default orbit within its values and by the checks of R196. -/
def defaultOrbitOk (o : Nat × Orbit) (l : List (Nat × Entry)) : Bool :=
  let x := o.2
  let mine := (l.filter fun e => decide (x.first ≤ e.1) && decide (e.1 < x.first + x.count) && decide (e.2.kind ≠ 0)).map (·.2)
  decide (1 ≤ x.period) && decide (x.first + x.count ≤ 65536) && (mine.all fun e => decide (e.kind ≤ 5)) &&
    orbitOk x (mine.filter fun e => decide (e.orbit = o.1))

def orbitsOk (l : List Byte) : Bool :=
  let os := parseOrbits l
  let es := placeEntries l (24 * os.length) os
  ((List.range os.length).all fun k => decide (fieldLe l (24 * k + 1) 1 = 0)) && os.all fun o => defaultOrbitOk o es

def parseLife (l : List Byte) : LifeCfg :=
  { deploy := decide (fieldLe l 0 1 = 1), service := decide (fieldLe l 1 1 = 1), floorRaise := decide (fieldLe l 2 1 = 1)
    rotate := decide (fieldLe l 3 1 = 1), newOwner := BitVec.ofNat 256 (ofBe (sliceBytes l 32 32)), newWrap := sliceBytes l 64 40 }

/-- Fields of the LIFECYCLE section, and the fused states in which deploy and service may be set (R514). -/
def lifeOk (l : List Byte) (fused : Nat) : Bool :=
  let c := parseLife l
  ((sliceBytes l 0 4).all fun b => decide (b.toNat ≤ 1)) && allZero (sliceBytes l 4 28) && allZero (sliceBytes l 104 24) &&
    (!c.deploy || decide (fused = 2) || decide (fused = 3)) && (!c.service || decide (fused = 3))

def startOk (l : List Byte) : Bool :=
  decide (fieldLe l 0 1 ≤ 1) && decide (fieldLe l 1 1 ≤ 1) && allZero (sliceBytes l 2 62)

/-- A CSR entry may name the address: a register marked RW or RWL that no section sets (R459, R604, R606). -/
def csrAddrOk (a : Nat) : Bool :=
  let o := a % 0x1000
  decide (a % 8 = 0) &&
    ((decide (0x200000 ≤ a) && decide (a < 0x220000) &&
        (if o < 0x800 then [0x08, 0x10, 0x18, 0x20].contains (o % 0x100) else decide (o < 0x840))) ||
      decide (a = 0x300010) || decide (a = 0x400000) || (decide (0x360000 ≤ a) && decide (a < 0x378000)) ||
      (decide (0x380000 ≤ a) && decide (a < 0x400000)))

def parseCsr (l : List Byte) : List RegWrite :=
  (List.range (l.length / 16)).map fun k =>
    { addr := BitVec.ofNat 32 (fieldLe l (16 * k) 4), value := BitVec.ofNat 64 (fieldLe l (16 * k + 8) 8) }

def csrOk (l : List Byte) : Bool :=
  (List.range (l.length / 16)).all fun k => csrAddrOk (fieldLe l (16 * k) 4) && decide (fieldLe l (16 * k + 4) 4 = 0)

/-! ### The whole image (R462) -/

def getSection (l : List Byte) (ty : Nat) : List Byte := (sectionBytes l ty).getD []

/-- Lifecycle code of the session that an image would start (R511, R512). -/
def sessionLifecycle (fused : Nat) (life : LifeCfg) : Nat := if fused = 3 ∧ life.service then 4 else fused

def parseImage (wrapKey : BitVec 256) (l : List Byte) : Cfg :=
  let os := parseOrbits (getSection l 7)
  let fs := getSection l 5
  { device := parseDevice (getSection l 1), ports := parsePorts (getSection l 2), mem := parseMem (getSection l 3)
    carve := parseCarve (getSection l 4)
    formats := (List.range (fs.length / 16)).map fun k => parseFormat (sliceBytes fs (16 * k) 16)
    quorum := fieldLe (getSection l 6) 1 1, managers := parseManagers wrapKey (getSection l 6), life := parseLife (getSection l 8)
    fast := decide (fieldLe (getSection l 9) 0 1 = 1), retention := decide (fieldLe (getSection l 9) 1 1 = 1)
    orbits := os.map (·.2), orbitNumbers := os.map (·.1)
    transits := (placeEntries (getSection l 7) (24 * os.length) os).map (·.2), csr := parseCsr (getSection l 10) }

/-- Validates an image (R462): sections first, then fields section by section, then headroom. -/
def validate (l : List Byte) (fused : Nat) (wrapKey : BitVec 256) : Except Refuse Cfg := do
  checkSections l
  let sec := getSection l
  let ports := parsePorts (sec 2)
  let mem := parseMem (sec 3)
  let carve := parseCarve (sec 4)
  ensure ((parseManagers wrapKey (sec 6)).all fun m => unwraps wrapKey m.wrapped) 0x03 6
  ensure (decide (1 ≤ imageSequence l) && decide (fieldLe l 12 4 = 1) && allZero (sliceBytes l 33 3) && allZero (sliceBytes l 40 24)) 0x04 0
  ensure (lifeOk (sec 8) fused) 0x04 8
  ensure (deviceOk (sec 1) (sessionLifecycle fused (parseLife (sec 8)))) 0x04 1
  ensure ((List.range 32).all fun k => portOk (sliceBytes (sec 2) (32 * k) 32)) 0x04 2
  ensure (decide ((ports.filter fun p => p.tick).length ≤ 2)) 0x04 2
  ensure (memOk (sec 3)) 0x04 3
  ensure (carveOk carve && (hbmPools mem carve).isSome && (dramPools mem carve).isSome) 0x04 4
  ensure ((List.range ((sec 5).length / 16)).all fun k => formatOk (sliceBytes (sec 5) (16 * k) 16)) 0x04 5
  ensure (managersOk (sec 6) ports) 0x04 6
  ensure (orbitsOk (sec 7)) 0x04 7
  ensure (startOk (sec 9)) 0x04 9
  ensure (csrOk (sec 10)) 0x04 10
  (List.range 32).forM fun k => ensure (headroomOk (nth {} ports k)) 0x05 k
  (List.range 2).forM fun d => ensure (decide (dieHeadroom ports d ≤ 56 * 1024)) 0x05 d
  .ok (parseImage wrapKey l)

end Sys2Proof.Machine
end

