-- ==== Sys2Proof/Machine/Start.lean ====
section
/-! DEFINITION. The start sequence (R446 to R478, R489, R513, R518 to R521, R527, R528, R604, R605, R619): slot choice and
validation, faults, the start log, index blocks, the yield map, the pools, the CSR section, PRESENT, and images written at run
time. -/
namespace Sys2Proof.Machine

/-! ### Logs in the configuration flash (R448, R465, R522) -/

/-- Appends to the start log, a ring of 16,384 records in sectors of 64: a full ring loses its oldest sector. -/
def appendLog (l : List LogRec) (x : LogRec) : List LogRec := (if l.length < 16384 then l else l.drop 64) ++ [x]

/-- An index record: its fields, 44 reserved bytes, and a CRC-32C over its first 60 bytes (R522). -/
def IndexRec.bytes (x : IndexRec) : List Byte :=
  let l := leBytes 4 x.seq ++ leBytes 4 x.block ++ leBytes 4 x.next ++ leBytes 4 x.key ++ zeros 44
  l ++ leBytes 4 (crc32c l)

/-- The record that 64 bytes of the ring hold; none where it is not valid. -/
def parseIndexRec (l : List Byte) : Option IndexRec :=
  if fieldLe l 60 4 = crc32c (sliceBytes l 0 60) then
    some { seq := fieldLe l 0 4, block := fieldLe l 4 4, next := fieldLe l 8 4, key := fieldLe l 12 4 }
  else none

/-- Appends to the ring of 1,024 index records. -/
def appendIndex (l : List (List Byte)) (x : IndexRec) : List (List Byte) := (if l.length < 1024 then l else l.drop 64) ++ [x.bytes]

/-- The next start-log seq: the previous highest plus one. -/
def State.nextLogSeq (s : State) : Nat := s.boot.log.foldl (fun n x => max n x.seq) 0 + 1

def State.modBoot (s : State) (f : Boot → Boot) : State := { s with boot := f s.boot }

def State.modSec (s : State) (f : Security → Security) : State := { s with sec := f s.sec }

/-- Writes the start-log record of this attempt; its seq is the attempt's (R465). -/
def State.logStart (s : State) (x : LogRec) : State :=
  let x : LogRec := { x with seq := s.nextLogSeq }
  s.modBoot fun b => { b with log := appendLog b.log x, startSeq := x.seq, cause := x.cause }

/-! ### Faults (R464, R472) -/

/-- The outputs of a device that does not start. -/
def faultPins (s : State) (config : Bool) : Pins :=
  { serdesIdle := true, memReset := true, xspiHiZ := true, cfgFaultN := config, rstN := s.pins.rstN }

/-- A configuration fault. -/
def State.configFault (s : State) (x : LogRec) : State :=
  let s := s.logStart { x with outcome := 1 }
  State.settleAlert <| { s with pins := faultPins s true }.modBoot fun b => { b with cfgFault := true, cfg := {}, image := [] }

/-- A hardware start fault. -/
def State.hardwareFault (s : State) (x : LogRec) : State :=
  let s := s.logStart { x with outcome := 2 }
  State.settleAlert ({ s with pins := faultPins s false }.modBoot fun b => { b with hwFault := true, cfg := {}, image := [] })

/-! ### Slot choice (R461) -/

def State.fusedState (s : State) : Nat :=
  if s.sec.fuseRetired then 5 else if s.sec.fuseDeployed then 3 else if s.sec.fuseProvisioned then 2
  else if s.sec.fuseManufacture then 1 else 0

/-- The SHAKE256 hash of the image bytes before the signature block (R527). -/
def imageHash (l : List Byte) : BitVec 512 := Config.shake512 (sliceBytes l 0 (imageLength l))

/-- The first 32 bytes of an image's measurement (R465). -/
def imageMeasure (l : List Byte) : BitVec 256 := (imageHash l).extractLsb' 256 256

/-- The candidates in the order in which they are tried, with their slot numbers. -/
def State.candidates (s : State) : List (Nat × ImageSlot) :=
  let a := s.boot.slotA
  let b := s.boot.slotB
  let fits := fun (x : ImageSlot) => decide (notCandidate x.bytes s.sec.floor = 0)
  let pair := if imageSequence a.bytes < imageSequence b.bytes then [(1, b), (0, a)] else [(0, a), (1, b)]
  pair.filter fun e => fits e.2

/-- The log record of a candidate. -/
def candidateLog (e : Nat × ImageSlot) (cause detail : Nat) : LogRec :=
  { cause := cause, slot := e.1, profile := 0xFF, sequence := imageSequence e.2.bytes, detail := detail
    measurement := imageMeasure e.2.bytes }

/-- The first candidate that verifies and validates, with its configuration; else the record of the last one tried. -/
def State.chooseSlot (s : State) : LogRec → List (Nat × ImageSlot) → Except LogRec (Nat × ImageSlot × Cfg)
  | last, [] => .error last
  | _, e :: t =>
    if !s.verifies e.2 then s.chooseSlot (candidateLog e 0x02 0) t
    else
      match validate e.2.bytes s.fusedState s.wrapKey with
      | .ok c => .ok (e.1, e.2, c)
      | .error (cause, detail) => s.chooseSlot (candidateLog e cause detail) t

/-- The record where neither slot holds a candidate (R465). -/
def State.noCandidate (s : State) : LogRec :=
  { cause := 0x01, slot := 0xFF, profile := 0xFF
    detail := notCandidate s.boot.slotA.bytes s.sec.floor + 256 * notCandidate s.boot.slotB.bytes s.sec.floor }

/-! ### Step 1 -/

/-- Every key fuse of a retired part reads 1 (R513). -/
def State.eraseKeys (s : State) : State :=
  let spent : OwnerSlot := { filled := true, hash := BitVec.allOnes 256, wrap := BitVec.allOnes 256, revoked := true }
  s.modSec fun x => { x with identitySeed := some (2 ^ 768 - 1), owners := List.replicate 4 spent }

/-- What M1 is extended by (R527). -/
def State.fuseEvent (s : State) : List Byte :=
  let i := s.ownerSlot.getD 0
  beBytes 1 s.fusedState ++ beBytes 1 i ++ beBytes 32 (nth {} s.ownerSlots i).hash.toNat ++ beBytes 1 s.sec.floor ++
    beBytes 2 s.sec.counter

/-- Step 1: the device leaves reset, completes the erasure of a retired part's keys, draws the session key-encryption key and
measures its ROM and fuses (R502, R513, R515, R527). -/
def State.startStep1 (s : State) : State :=
  let s := { s with
    now := 0
    pins := { serdesIdle := true, memReset := true, rstN := true }
    power := { s.power with vinQualified := true } }
  let s := s.modBoot fun b => { b with inReset := false, step := 1 }
  let s := if s.sec.fuseRetired then s.eraseKeys else s
  let (n, s) := s.fresh
  s.modSec fun x => { x with
    sessionKey := some (hash256 (Config.draw n)), m0 := extendMeasure 0 (hashBytes Config.romId), m1 := extendMeasure 0 s.fuseEvent, m2 := 0, m3 := 0 }

/-! ### Step 4: the index block (R518 to R521, R528) -/

/-- The valid records of the ring. -/
def State.indexRecords (s : State) : List IndexRec := s.boot.keyArea.filterMap parseIndexRec

def State.addIndex (s : State) (block next key : Nat) : State :=
  let seq := s.indexRecords.foldl (fun n x => max n x.seq) 0 + 1
  s.modBoot fun b => { b with keyArea := appendIndex b.keyArea { seq := seq, block := block, next := next, key := key } }

/-- The newest index record: the valid one with the highest seq. -/
def State.newestIndex (s : State) : Option IndexRec :=
  s.indexRecords.foldl (fun best x => match best with
    | none => some x
    | some y => if y.seq < x.seq then some x else some y) none

/-- The block of R519: the least that neither the counter nor the newest record has used. -/
def State.nextBlock (s : State) : Nat :=
  max s.sec.counter (match s.newestIndex with
    | some f => f.block + 1
    | none => 0)

/-- The identity seed; a device without one has no identity, and the value stands for none. -/
def State.seed (s : State) : Nat := s.sec.identitySeed.getD 0

/-- The cached nodes of the identity key that a seed yields. -/
def identityNodes (seed : Nat) : List (BitVec 256) := (List.range 2047).map (Config.identityNode seed)

/-- Before an identity signature the cached nodes are checked against the fused root, and bad ones are rebuilt and written back (R522). -/
def State.mendNodes (s : State) : State := s.modBoot fun b => { b with nodeCache := identityNodes s.seed }

/-- Certifies the attestation key whose number is the next identity index (R528). -/
def State.certifyKey (s : State) : State :=
  let i := s.sec.nextIndex
  let s := (s.mendNodes).addIndex s.sec.block (i + 1) i
  s.modSec fun x => { x with keyNumber := i, nextIndex := i + 1, attestUsed := 0, keyCertified := true }

/-- The bit still fails verification after four attempts (R513). -/
def fuseFails (l : FuseRun) (bit : Nat) : Bool := l.any fun e => decide (e.1 = bit) && decide (4 ≤ e.2)

/-- The first counter bit from `b` that can be programmed: one that fails is skipped, and its block with it, since no index is signed
with until the bit of its block reads 1 (R519, R520). -/
def firstBit (l : FuseRun) : Nat → Nat → Option Nat
  | 0, _ => none
  | n + 1, b => if fuseFails l b then firstBit l n (b + 1) else some b

/-- The block that the next reservation gets; none once the counter has no bit left (R519, R521). -/
def State.takeBlock (s : State) (fuses : FuseRun) : Option Nat := firstBit fuses (4096 - s.nextBlock) s.nextBlock

/-- Reserves a block: the counter bit first, then the record (R519). -/
def State.reserveBlock (s : State) (b : Nat) : State :=
  (s.modSec fun x => { x with counter := b + 1, block := b, nextIndex := 256 * b }).addIndex b (256 * b) s.sec.keyNumber

def State.setEpoch (s : State) (b : Nat) : State := s.modSec fun x => { x with epoch := b, sentCounter := b * 2 ^ 40 }

/-- Step 4. -/
def State.startStep4 (s : State) (fuses : FuseRun) : State :=
  if s.fusedState = 0 then s.setEpoch 0
  else
    match s.takeBlock fuses with
    | none => (s.setEpoch 4095).modSec fun x => { x with counter := 4096, exhausted := true }
    | some b =>
      let s := (s.reserveBlock b).setEpoch b
      if s.sec.fuseRetired then s else s.certifyKey

/-! ### Steps 5 to 9 -/

/-- Step 5: cores that fail logic BIST or their march join the yield map, and every cluster is FREE or UNAVAILABLE (R15, R473). -/
def State.startStep5 (s : State) (b : StartFacts) : State :=
  let free := (List.range 64).map fun c => (c, ({ state := .free } : Cluster))
  let s := { s with grid := { fuseCols := s.grid.fuseCols, failedCols := s.grid.fuseCols, clusters := free } }
  s.mapFailures (b.failedCores ++ failedRows b.reads 3 false)

/-- A channel whose DIMMs are not those of the MEMORY section (R471, R581). -/
def populationFault (m : MemCfg) (b : StartFacts) : Option Nat :=
  (List.range 16).find? fun c => !samePopulation (nth {} m.ddr c) (nth {} b.dimms c)

/-- Rows of DRAM that the march of this start reaches: all of them, or in the fast profile every 64th from start-log seq mod 64 on
(R470). -/
def State.marched (s : State) (row : Nat) : Bool := !s.boot.cfg.fast || decide (row % 64 = s.nextLogSeq % 64)

/-- Rows of stacks that fail the retention and march tests of step 7. -/
def hbmRows (b : StartFacts) : List (Nat × Nat) := (failedRows b.reads 0 true ++ failedRows b.reads 0 false).eraseDups

/-- Rows of DIMMs that fail the retention test of step 8, which runs in the full profile when it is enabled (R458, R468). -/
def State.retentionRows (s : State) (b : StartFacts) : List (Nat × Nat) :=
  if s.boot.cfg.retention && !s.boot.cfg.fast then failedRows b.reads 1 true else []

/-- Rows of DIMMs that have failed by the end of step 9. -/
def State.dramRows (s : State) (b : StartFacts) : List (Nat × Nat) :=
  (s.retentionRows b ++ (failedRows b.reads 1 false).filter fun e => s.marched e.2).eraseDups

/-- Failing rows of a unit. -/
def rowsOf (l : List (Nat × Nat)) (unit : Nat) : Nat := (l.filter fun e => decide (e.1 = unit)).length

/-- The first unit with more failing rows than post-package repair can replace (R471, R579, R584). -/
def unrepaired (l spare : List (Nat × Nat)) : Option Nat :=
  (l.map (·.1)).find? fun u => decide (Tab.get 0 spare u < rowsOf l u)

/-- The faults of steps 5 to 9 in the order in which they are met: whether it is a configuration fault, its cause and detail, and the last
step completed. The tests of step 6 run at once, and their order is the model's (DESIGN CHOICE, log entry 100). -/
def State.startFaults (s : State) (b : StartFacts) : List (Option (Bool × Nat × Nat × Nat)) :=
  let m := s.boot.cfg.mem
  [b.routerFault.map fun k => (false, 0x40, k, 4),
    (populationFault m b).map fun k => (true, 0x06, k, 5),
    if m.dies < b.dies then some (true, 0x06, m.dies, 5) else none,
    b.hbmFault.map fun k => (false, 0x41, k, 5),
    (b.trainRetries.find? fun e => decide (3 < e.2)).map fun e => (false, 0x42, e.1, 5),
    b.nandFault.map fun k => (false, 0x43, k, 5),
    if b.dies < m.dies then some (false, 0x43, b.dies, 5) else none,
    (unrepaired (hbmRows b) b.spareHbm).map fun k => (false, 0x41, k, 6),
    (unrepaired (s.retentionRows b) b.spareDimm).map fun k => (false, 0x42, k / 2, 7),
    (unrepaired (s.dramRows b) b.spareDimm).map fun k => (false, 0x42, k / 2, 8)]

/-- First fault of steps 5 to 9. -/
def State.startFault (s : State) (b : StartFacts) : Option (Bool × Nat × Nat × Nat) :=
  ((s.startFaults b).find? Option.isSome).getD none

def setLevels (s : State) (cls ctr : Nat) (l : List (Nat × Nat)) : State := l.foldl (fun s e => s.setLevel cls e.1 ctr e.2) s

/-- Adds this start's row repairs to a level. -/
def State.addRepairs (s : State) (cls : Nat) (rows : List (Nat × Nat)) : State :=
  rows.foldl (fun s e => s.setLevel cls e.1 3 (s.counter cls e.1 3 + 1)) s

/-- Counts what training and repair found (R503, R579, R584). -/
def State.countRepairs (s : State) (b : StartFacts) : State :=
  let s := setLevels (setLevels (setLevels s 2 2 b.laneRepairs) 2 3 b.rowRepairs) 4 3 b.dimmRepairs
  let s := (s.addRepairs 2 (hbmRows b)).addRepairs 4 (s.dramRows b)
  let s := b.trainRetries.foldl (fun s e => s.bumpBy 3 e.1 2 (min 3 e.2)) s
  setLevels (setLevels s 2 7 b.stackTemps) 4 4 b.dimmTemps

/-- The units' calibration counts from their training (R593). -/
def State.startCalibs (s : State) : State :=
  let one := fun (s : State) (hbm : Bool) (u temp : Nat) =>
    s.setCalib hbm u { lastImp := s.now, lastTrain := s.now, tempAtTrain := temp, temp := temp }
  let s := (List.range 8).foldl (fun s k => one s true k (s.counter 2 k 7)) s
  (List.range 16).foldl (fun s k => one s false k (s.channelTemp k)) s

/-- Steps 6 to 9 without a fault: the pools of zeroed chunks, the bad-block tables, calibrations and levels (R36, R37, R576,
R589). -/
def State.startStores (s : State) (b : StartFacts) : State :=
  let m := s.boot.cfg.mem
  let c := s.boot.cfg.carve
  let s := { s with store :=
    { blocks := s.store.blocks
      hbm := (hbmPools m c).getD [], dram := (dramPools m c).getD []
      flashPool := { cap := logicalFlash m / chunkBytes } } }
  let s := b.badBlocks.foldl (fun s e => s.retireBlock (nandBlockKey e.1 e.2.1 e.2.2)) s
  let s := (List.range 32).foldl State.flashLevels s
  let dies := s.store.blocks.map fun e => dieOfBlock e.1
  let s := dies.foldl (fun s die => (s.retiredLevel die).wearLevels die) s
  (s.countRepairs b).startCalibs

/-! ### Step 10 -/

/-- The address of R550. -/
def subMac (aid : Aid) (k : Nat) : BitVec 48 := (0x02544B : BitVec 24) ++ aid ++ BitVec.ofNat 8 k

/-- Applies the CSR section; an entry that names CMP_REC_SEL has no manager and so no window. -/
def State.applyCsr (s : State) : State :=
  s.boot.cfg.csr.foldl (fun s w => if w.addr = 0x400000 then s else s.writeCsr 0 w.addr.toNat w.value) s

/-- Starts the sub-ports of every enabled port (R551). -/
def State.startPorts (s : State) : State :=
  (List.range 256).foldl (fun s k =>
    if k % 8 < subPorts (s.portCfg (k / 8)).mode then s.modSub k fun p => { p with link := .down, lastAttempt := s.now } else s) s

/-- Defines the default orbits (R198). -/
def State.startOrbits (s : State) : State :=
  let c := s.boot.cfg
  let defs := c.orbitNumbers.zip c.orbits
  let places := c.orbits.flatMap fun x => (List.range x.count).map fun k => x.first + k
  s.setSky { s.sky with
    orbits := defs.foldl (fun (t : Tab Orbit) o => t.set {} o.1 o.2) []
    transits := (places.zip c.transits).foldl (fun (t : Tab Entry) e => t.set {} e.1 e.2) [] }

/-- Steps 10 and 11 until the links train: the state that LINK_UP and TRAINING_TIMEOUT complete. -/
def State.startStep10 (s : State) (b : StartFacts) : State :=
  let s := s.advanceTo b.elapsed
  let s := (List.range 256).foldl (fun s k => s.modSub k fun p => { p with mac := subMac s.aid k }) s
  let s := ((s.startOrbits).applyCsr).startPorts
  let s := State.settleAlert { s with pins := { wpN := true, rstN := s.pins.rstN } }
  (s.modBoot fun x => { x with step := 9 }).endStep10

/-! ### The whole sequence (R468) -/

/-- Steps 4 to 10 of an image that validated. -/
def State.startImage (s : State) (slot : Nat) (image : ImageSlot) (cfg : Cfg) (b : StartFacts) : State :=
  let l := image.bytes
  let log := { candidateLog (slot, image) 0 0 with profile := bit cfg.fast }
  let s := s.modBoot fun x => { x with
    cfg := cfg, image := sliceBytes l 0 (imageLength l), sequence := imageSequence l, securityVersion := imageSecurity l
    slot := slot, step := 3 }
  let s := s.modSec fun x => { x with
    m2 := extendMeasure 0 (hashBytes (imageHash l)), serviceSession := decide (sessionLifecycle s.fusedState cfg.life = 4) }
  let s := (s.startStep4 b.counterFuses).startStep5 b
  match s.startFault b with
  | some (config, cause, detail, step) =>
    let s := s.modBoot fun x => { x with step := step }
    let rec_ : LogRec := { log with cause := cause, detail := detail }
    if config then s.configFault rec_ else s.hardwareFault rec_
  | none => (((s.advanceTo b.elapsed).startStores b).logStart log).startStep10 b

/-- The sequence from step 2 on. -/
def State.startStep2 (s : State) (b : StartFacts) : State :=
  match s.chooseSlot s.noCandidate s.candidates with
  | .ok (slot, image, cfg) => s.startImage slot image cfg b
  | .error x => (s.modBoot fun y => { y with step := if x.cause = 1 ∨ x.cause = 2 then 1 else 2 }).configFault x

/-- The input supply lets the device start: it has not fallen below 37 V, or has since stayed above 39 V for 10 ms (R486). -/
def State.supplyReady (s : State) (board : StartFacts) : Bool :=
  s.power.vinQualified || (decide (39000 < board.vinMv) && decide (10000000 ≤ board.vinNs))

/-- START_SEQUENCE. -/
def execStartSequence (board : StartFacts) (s : State) : Out :=
  .next (if s.boot.inReset && s.supplyReady board then s.startStep1.startStep2 board else s)

/-- RELOAD_N: a low pulse (R467). -/
def execReloadN (now widthNs : Nat) (board : StartFacts) (s : State) : Out :=
  .next (if s.boot.inReset || decide (widthNs < 1000) then s
    else
      let s := s.advanceTo now
      if s.boot.cfgFault || s.boot.hwFault then
        let s := s.modBoot fun b => { b with cfgFault := false, hwFault := false, cause := 0, step := 1 }
        let s := State.settleAlert { s with pins := { serdesIdle := true, memReset := true, rstN := s.pins.rstN } }
        s.startStep2 board
      else s.modBoot fun b => { b with reloads := b.reloads + 1 })

/-- The body of PRESENT (R100). -/
def State.presentBody (s : State) : List Byte := beBytes 2 s.aid.toNat ++ beBytes 4 0x00096000 ++ beBytes 1 s.lifecycle

/-- PRESENT_TIMER: every 100 ms until admission (R475). -/
def execPresentTimer (now : Nat) (s : State) : Out :=
  .next (let s := s.advanceTo now
    if !s.inService || s.boot.admitted || s.boot.installed.isEmpty ||
        (decide (0 < s.boot.lastPresent) && decide (s.now < s.boot.lastPresent + 100000000)) then s
    else (s.modBoot fun b => { b with lastPresent := s.now }).notice 0x0005 s.presentBody)

/-! ### A new image at run time (R478) -/

/-- The image may be written: a candidate that verifies, validates and is newer than the running one. -/
def State.imageFits (s : State) (x : ImageSlot) : Bool :=
  decide (notCandidate x.bytes s.sec.floor = 0) && s.verifies x && (validate x.bytes s.fusedState s.wrapKey).isOk &&
    decide (s.boot.sequence < imageSequence x.bytes)

/-- An IMAGE_WRITE whose image is read: the slot is erased at once and programmed by IMAGE_PROGRAMMED. The order waits while the read
does. -/
def State.writeImage (s : State) (ref : OrderRef) (image : Ptr) (n : Nat) : State :=
  let r := s.region (handleIndex image.rh)
  let off := image.offset.toNat
  let refuse := fun (s : State) (st : Byte) => (s.forget ref.asker).finishOrder ref st []
  if s.boot.imageJob.isSome then refuse s stBusy
  else if handleAid image.rh ≠ s.aid ∨ r.state = .free ∨ r.size < off + n ∨ 8 * mib < n then refuse s stInvalid
  else
    match s.orderRead ref.asker image.rh off n with
    | (s, g) =>
      let x : ImageSlot := { bytes := g.data }
      if g.waits then s.holdArrival { what := .image image n, h := ref.h, ref := some ref }
      else if g.status ≠ stOk || g.poisoned || !s.imageFits x then refuse s stInvalid
      else
        let slot := 1 - s.boot.slot
        (s.forget ref.asker).modBoot fun b => { b with
          imageJob := some { order := ref, slot := slot, image := x, ptr := image, length := n }
          slotA := if slot = 0 then {} else b.slotA
          slotB := if slot = 1 then {} else b.slotB }

/-- IMAGE_WRITE. -/
def execImageWrite (o : Order) (image : Ptr) (length : W32) (s : State) : Out :=
  .next (orderRequest o (fun ref s => s.writeImage ref image length.toNat) s)

/-- Order code and operands of a completed IMAGE_WRITE, as M3 takes them. -/
def imageEvent (j : ImageJob) : List Byte := beBytes 2 0x0080 ++ ptrBytesBe j.ptr ++ beBytes 4 j.length ++ zeros 40

/-- IMAGE_PROGRAMMED: the slot is programmed and read back. -/
def execImageProgrammed (now : Nat) (readBackOk : Bool) (s : State) : Out :=
  .next (let s := s.advanceTo now
    match s.boot.imageJob with
    | none => s
    | some j =>
      if !s.inService then s
      else
        let image : ImageSlot := if readBackOk then j.image else {}
        let s := s.modBoot fun b => { b with
          imageJob := none
          slotA := if j.slot = 0 then image else b.slotA
          slotB := if j.slot = 1 then image else b.slotB }
        if readBackOk then (s.extendM3 (imageEvent j)).finishOrder j.order stOk (beBytes 1 j.slot)
        else s.finishOrder j.order stInvalid [])

end Sys2Proof.Machine
end

