-- ==== Sys2Proof/Machine/Arrivals.lean ====
section
/-! DEFINITION. What the device does of itself while no command waits: held accesses that have become possible are performed, held
requests go on with the reads they waited for, and requests whose accesses are all performed are answered (R21, R115, R149, R195, R225,
R325, R336, R387, R478). -/
namespace Sys2Proof.Machine

/-- A held request goes on with the reads it waited for, or is held once more (R115). -/
def State.rerun (s : State) (a : Arrival) : State :=
  match a.what, a.ref with
  | .rowWrite table row tableGen scale offset codes, _ =>
    s.rowWrite a.h table row tableGen scale offset codes fun p => (·.holdArrival { a with row := p })
  | .rowMigrate table direction count list, some ref => s.rowMigrate ref table direction count list (·.holdArrival a)
  | .attach mask desc p, some ref => s.doAttach ref mask a.h.cid desc p
  | .search index query nq k probes pred result flags, _ =>
    s.search a.h index query nq k probes pred result flags (·.holdArrival a)
  | .restore v1 src srcLen dst dstCap, _ => s.restore a.h v1 src srcLen dst dstCap
  | .transits rh offset first n, some ref => s.loadTransits ref rh offset first n
  | .image image n, some ref => s.writeImage ref image n
  | .rowMigrate .., none | .attach .., none | .transits .., none | .image .., none => s

/-- Every held request tries again, in the order in which they arrived. -/
def State.rerunAll (s : State) : State := s.reqs.arrivals.foldl State.rerun (s.setArrivals [])

/-- Every migration goes on with the entries that had to wait (R336). -/
def State.runJobs (s : State) : State := s.emb.jobs.foldl (fun s j => s.runJob j.id) s

/-- Answers what is finished: look-ups, streams, detachments, and the FAULT of a parked descriptor whose record is written. -/
def State.settleAll (s : State) : State :=
  let s := (s.runGather).runJobs
  let s := s.emb.service.foldl (fun s q => s.settleGather q.id) s
  let s := s.ckpt.service.foldl (fun s q => s.settleCkpt q.id) s
  let s := (s.indexes.map (·.1)).foldl (fun s i => if (s.indexAt i).used then s.settleDetach i else s) s
  (List.range s.movers.parked.length).foldl State.settleFault s

/-- The device's own progress between commands. -/
def State.progress (s : State) : State := s.serving fun s => ((s.pump).rerunAll).settleAll

end Sys2Proof.Machine
end

