-- ==== Sys2Proof/Machine/Attest.lean ====
section
/-! DEFINITION. Attestation (R526 to R530), MACsec keys (R533, R534), and the JTAG instructions (R512, R513, R536 to R538). -/
namespace Sys2Proof.Machine

/-! ### Keys -/

/-- The hash of the identity public key. -/
def State.identityHash (s : State) : BitVec 256 :=
  hash256 (Config.shake512 (hashBytes (Config.xmssPublic s.seed none)))

/-- Indices of an attestation key (R516), and the use from which its successor is generated (R528). -/
def keyIndices : Nat := 65536
def nextKeyFrom : Nat := 61440

/-- The successor of a key that has run out is certified: with the next identity index, in a block reserved at run time where
the current one is used up; without a counter bit left none is (R513, R520, R521, R528). -/
def State.renewKey (s : State) (fuses : FuseRun) : State :=
  let s := s.modSec fun x => { x with nextKeyStarted := false, nextKeyReady := false }
  if s.sec.nextIndex < 256 * (s.sec.block + 1) then s.certifyKey
  else
    match s.takeBlock fuses with
    | none => s.modSec fun x => { x with counter := 4096, exhausted := true, keyCertified := false }
    | some b => (s.reserveBlock b).certifyKey

def State.settleKey (s : State) (fuses : FuseRun) : State :=
  if keyIndices ≤ s.sec.attestUsed ∧ s.sec.nextKeyReady then s.renewKey fuses else s

/-- Takes an index of the current attestation key. -/
def State.useKey (s : State) (fuses : FuseRun) : State :=
  let n := s.sec.attestUsed + 1
  State.settleKey (s.modSec fun x => { x with
    attestUsed := n, nextKeyStarted := x.nextKeyStarted || decide (nextKeyFrom ≤ n) }) fuses

/-! ### The report (R530) -/

/-- Mc of a cid; zero for a cid of zero (R529). -/
def State.mcOf (s : State) (cid : Cid) : BitVec 512 :=
  match s.activeIdx cid with
  | some e => (s.compAt e).mc
  | none => 0

/-- Bytes 0 to 431. -/
def State.reportHead (s : State) (j : AttestJob) : List Byte :=
  beBytes 4 0x544B4152 ++ leBytes 2 1 ++ leBytes 1 s.lifecycle ++ leBytes 1 (if s.locked then 1 else 0) ++
    leBytes 2 s.aid.toNat ++ leBytes 2 j.cid.toNat ++ leBytes 4 0x960 ++ zeros 4 ++ leBytes 4 s.sec.floor ++
    leBytes 8 (if s.locked then s.sky.count.toNat else 0) ++ beBytes 32 j.nonce.toNat ++ beBytes 32 s.identityHash.toNat ++
    hashBytes s.sec.m0 ++ hashBytes s.sec.m1 ++ hashBytes s.sec.m2 ++ hashBytes s.sec.m3 ++ hashBytes (s.mcOf j.cid) ++
    leBytes 8 s.boot.startSeq ++ leBytes 8 s.boot.sequence

/-- Bytes 432 to 503: the key and its number, over which the certificate is made. -/
def State.reportKey (s : State) : List Byte :=
  hashBytes (Config.xmssPublic s.seed (some s.sec.keyNumber)) ++ leBytes 4 s.sec.keyNumber ++ zeros 4

/-- The report, 6,016 bytes. -/
def State.report (s : State) (j : AttestJob) : List Byte :=
  let signed := s.reportHead j ++ s.reportKey ++
    sliceBytes (Config.xmssSign s.seed none s.sec.keyNumber s.reportKey) 0 2820
  signed ++ sliceBytes (Config.xmssSign s.seed (some s.sec.keyNumber) s.sec.attestUsed signed) 0 2692

def reportLength : Nat := 6016

/-! ### ATTEST -/

/-- Why an ATTEST cannot be served: no key can sign (R521), or it breaks R529. -/
def State.attestFault (s : State) (j : AttestJob) : Option Byte :=
  let r := s.region (handleIndex j.report.rh)
  if s.sec.exhausted || !s.sec.keyCertified then some stNoSpace
  else if handleAid j.report.rh ≠ s.aid ∨ r.size < j.report.offset.toNat + reportLength then some stInvalid
  else if !(decide (r.state = .idle) || (decide (r.state = .assigned) && decide (r.cid = j.cid))) then some stInvalid
  else if j.cid ≠ 0 ∧ s.activeIdx j.cid = none then some stInvalid
  else none

/-- Puts bytes into an IDLE region, which no composition reads and whose holders take no replica traffic. -/
def State.depositBytes (s : State) (req region off : Nat) (l : List Byte) : State :=
  s.submit { kind := .place, origin := .engine req, src := s.aid, owner := s.aid, region := region, offset := off, len := l.length
             data := l }

/-- Writes the report to its place: into an ASSIGNED region as the device's other units write, into an IDLE one directly. -/
def State.writeReport (s : State) (j : AttestJob) : State × Byte :=
  let i := handleIndex j.report.rh
  let off := j.report.offset.toNat
  let l := s.report j
  let (id, s) := s.takeId
  if (s.region i).state = .assigned then
    s.unitWrite (64 + id) j.cid 0 0 j.report.rh off l []
  else (s.depositBytes (64 + id) i off l, stOk)

/-- Serves one ATTEST. -/
def State.serveAttest (s : State) (fuses : FuseRun) (j : AttestJob) : State :=
  match s.attestFault j with
  | some st => s.finishOrder j.order st []
  | none =>
    let key := s.sec.keyNumber
    match s.writeReport j with
    | (s, st) =>
      let s := s.useKey fuses
      s.finishOrder j.order st (if st = stOk then beBytes 4 reportLength ++ beBytes 4 key else [])

/-- Serves waiting orders in order of acceptance, until one has to wait for a key. -/
def State.runAttests (fuses : FuseRun) : Nat → State → State
  | 0, s => s
  | n + 1, s =>
    match s.sec.attests with
    | [] => s
    | j :: rest =>
      if s.sec.keyCertified && decide (keyIndices ≤ s.sec.attestUsed) then s
      else State.runAttests fuses n ((s.modSec fun x => { x with attests := rest }).serveAttest fuses j)

/-- ATTEST (R529). -/
def execAttest (o : Order) (cid : Cid) (nonce : BitVec 256) (report : Ptr) (fuses : FuseRun) (s : State) : Out :=
  .next (orderRequest o (fun ref s =>
    let j : AttestJob := { order := ref, cid := cid, nonce := nonce, report := report }
    match s.attestFault j with
    | some st => s.finishOrder ref st []
    | none =>
      let s := s.modSec fun x => { x with attests := x.attests ++ [j] }
      State.runAttests fuses s.sec.attests.length s) s)

/-- ATTEST_KEY_READY (R528). -/
def execAttestKeyReady (now : Nat) (fuses : FuseRun) (s : State) : Out :=
  .next (if !s.inService || !s.sec.nextKeyStarted || s.sec.nextKeyReady then s
    else
      let s := ((s.advanceTo now).modSec fun x => { x with nextKeyReady := true }).settleKey fuses
      State.runAttests fuses s.sec.attests.length s)

/-! ### MACSEC_CAK (R526, R533, R534) -/

/-- The customisation string "TFP2 KEY WRAP" (R533). -/
def wrapCustom : List Byte := beBytes 13 0x54465032204B45592057524150

/-- A manager's wrap key (R533). -/
def State.managerWrap (s : State) (m : Aid) : Option (BitVec 256) :=
  (s.boot.cfg.managers.find? fun x => decide (x.aid = m)).map fun x => Config.kmac x.key [] wrapCustom

/-- Order code and operands, the wrapped CAK replaced by zeros (R527). -/
def cakEvent (target flags : Byte) (ckn : BitVec 112) : List Byte :=
  beBytes 2 0x00A3 ++ beBytes 1 target.toNat ++ beBytes 1 flags.toNat ++ beBytes 14 ckn.toNat ++ zeros 40

/-- MACSEC_CAK: a sub-port that its port does not have, and a CAK that does not unwrap, are INVALID. -/
def execMacsecCak (o : Order) (target flags : Byte) (ckn : BitVec 112) (wrapped : BitVec 320) (s : State) : Out :=
  .next (orderRequest o (fun ref s =>
    let port := target.toNat % 32
    let sub := target.toNat / 32
    match (s.managerWrap o.hdr.src).bind fun k => Config.unwrap k (beBytes 40 wrapped.toNat) with
    | none => s.finishOrder ref stInvalid []
    | some cak =>
      if subPorts (s.portCfg port).mode ≤ sub then s.finishOrder ref stInvalid []
      else
        let new : Cak := { held := true, ckn := ckn, key := cak, preferred := flags.getLsbD 0 }
        let s := s.modSec fun x => { x with caks := x.caks.set {} (subKey port sub) new }
        (s.extendM3 (cakEvent target flags ckn)).finishOrder ref stOk []) s)

/-! ### JTAG -/

/-- JTAG works in reset too, where no time passes. -/
def State.jtagTime (s : State) (now : Nat) : State := if s.boot.inReset then s else s.advanceTo now

/-- What JTAG shifts out. -/
def State.shiftOut (s : State) (x : JtagOut) : State := s.modSec fun y => { y with shifted := some x }

/-- LC_MANUFACTURE (R512): a 96-byte identity seed from two draws, the root of the identity key in fuses and its nodes in the cache, and
the public key shifted out. With a fuse bit that fails it is INVALID (R513). -/
def execLcManufacture (now : Nat) (fuses : FuseRun) (s : State) : Out :=
  .next (if s.fusedState ≠ 0 then s
    else if !fusesTake fuses then (s.jtagTime now).shiftOut .invalid
    else
      let (a, s) := (s.jtagTime now).fresh
      let (b, s) := s.fresh
      let seed := (Config.draw a).toNat + 2 ^ 512 * ((Config.draw b).toNat % 2 ^ 256)
      let key := Config.xmssPublic seed none
      let s := s.modSec fun x => { x with identitySeed := some seed, identityRoot := hash256 key, fuseManufacture := true }
      (s.modBoot fun x => { x with nodeCache := identityNodes seed }).shiftOut (.identityKey key))

/-- PROVISION (R512): owner slot 0; INVALID with a fuse bit that fails (R513). -/
def execProvision (now : Nat) (ownerHash wrapKey : BitVec 256) (fuses : FuseRun) (s : State) : Out :=
  .next (if s.fusedState ≠ 1 then s
    else if !fusesTake fuses then (s.jtagTime now).shiftOut .invalid
    else
      let slot : OwnerSlot := { filled := true, hash := ownerHash, wrap := wrapKey }
      let s := (s.jtagTime now).setOwners (s.ownerSlots.set 0 slot)
      s.modSec fun x => { x with fuseProvisioned := true })

/-- The key that signs tokens of a level (R515, R537). -/
def State.tokenHash (s : State) (level : Nat) : Option (BitVec 256) :=
  if level = 1 then s.ownerSlot.map fun i => (nth {} s.ownerSlots i).hash
  else if level = 2 then some s.sec.vendorRoot else none

/-- The parameter set of a signature block, which its length tells (R453, R516). -/
def blockSet (l : List Byte) : Nat :=
  if l.length = 2564 then 1 else if l.length = 2756 then 2 else if l.length = 2884 then 3 else 0

/-- A token: a signature block over the challenge and one level byte, by the owner key for level 1 and by the vendor root, an
XMSS-SHAKE256_20_256 key, for level 2 (R515, R537). -/
def State.tokenGood (s : State) (level : Nat) (challenge : BitVec 512) (token : List Byte) : Bool :=
  (decide (level = 1) || decide (blockSet token = 3)) &&
    blockVerifies (s.tokenHash level) (blockSet token) (hashBytes challenge ++ beBytes 1 level) token

/-- JTAG_TOKEN: a challenge of a fresh nonce and the identity hash is shifted out, and a token that answers that challenge unlocks its
level (R537). -/
def execJtagToken (now : Nat) (level : Nat) (challenge : BitVec 512) (token : List Byte) (s : State) : Out :=
  .next (let (n, s) := (s.jtagTime now).fresh
    let sent := hash256 (Config.draw n) ++ s.identityHash
    let good := decide (challenge = sent) && s.tokenGood level challenge token
    (s.shiftOut (.challenge sent)).modSec fun x => { x with
      level1 := x.level1 || (good && decide (level = 1))
      level2 := x.level2 || (good && decide (level = 2)) })

/-- The fused states in which JTAG instructions need no token (R536). -/
def State.jtagOpen (s : State) : Bool := decide (s.fusedState = 0) || decide (s.fusedState = 1) || decide (s.fusedState = 5)

/-- Zeroes the chunks of the pinned pools. -/
def State.zeroPinned (s : State) : State :=
  let deep := fun (region : Nat) => decide ((s.region region).cls = clsDeep)
  { s with store := { s.store with
      mem := Tab.keep (fun k => deep (k / 2 ^ 48)) s.store.mem
      poison := s.store.poison.keep fun k => deep (k / 2 ^ 42) } }

/-- What R538 destroys and zeroes. -/
def State.eraseForScan (s : State) : State :=
  let s := s.modSec fun x => { x with sessionKey := none, keySlots := [], scanUnlocked := true }
  let s := (s.grid.cores.foldl (fun s e => s.setCore e.1 {}) s).zeroPinned
  { s with
    grid := { s.grid with clusters := s.grid.clusters.mapAll {} fun _ c => { c with programs := [], active := none } }
    comps := { s.comps with entries := s.comps.entries.mapAll {} fun _ c => { c with recs := [] } } }

/-- SCAN_TEST (R536, R538). -/
def execScanTest (now : Nat) (s : State) : Out :=
  .next (if s.jtagOpen || (s.sec.level1 && s.sec.level2) then (s.jtagTime now).eraseForScan else s)

/-- An instruction that the state and the tokens allow (R536). -/
def State.jtagAllows (s : State) (i : JtagInstr) : Bool :=
  match i with
  | .idcode | .bypass => true
  | _ => s.jtagOpen || (s.sec.level1 && !s.pins.rstN)

/-- BOUNDARY_SCAN: the instruction becomes the current one. -/
def execBoundaryScan (now : Nat) (instruction : JtagInstr) (s : State) : Out :=
  .next (if s.jtagAllows instruction then (s.jtagTime now).modSec fun x => { x with jtag := some instruction } else s)

end Sys2Proof.Machine
end

