-- ==== Sys2Proof/Machine/Flash.lean ====
section
/-! DEFINITION. Events of the tiers: fills, moves, write-backs, collections and the patrol scrub (R38 to R51, R574, R575,
R588, R589). -/
namespace Sys2Proof.Machine

/-! ### Sectors -/

/-- A sector that a transit holds and that lies in the sector cache moves to its stack; a hold whose release has come ends. -/
def State.settleHold (s : State) (k : Nat) : State :=
  let x := s.sectorByKey k
  match x.state, x.hold with
  | .dram d, .scheduled _ =>
    if s.locked && s.releaseReached x then s.setSectorByKey k { x with hold := .none }
    else s.setSectorByKey k { x with state := .moving true d }
  | .dram _, .demand _ => s.setSectorByKey k { x with hold := .none }
  | _, _ => s

/-- SECTOR_FILL_DONE (R38, R51, R588): a sector whose program is not yet confirmed cannot be read, and one that no decoding recovered
waits for the lines of the rest of its group. -/
def execSectorFillDone (now region sector retries : Nat) (soft uncorrectable : Bool) (s : State) : Out :=
  .next (s.serving fun s => let s := s.advanceTo now
    let x := s.sectorAt region sector
    match x.state with
    | .filling up =>
      if x.writeback then s
      else
        let copy := if uncorrectable then none else s.flashSector region sector
        let (s, there) := match copy with
          | some l => (s.fillSector region sector l, true)
          | none => s.mendSector region sector
        if !there then s
        else
          let s := (s.countFlashRead region sector retries soft copy.isNone).resumePrograms region sector
          let s := if copy.isNone then s.bumpAlert 6 (s.sectorDie region sector) 1 else s
          let s := s.setSector region sector { x with state := if up then .hbm false else .dram false }
          (s.settleHold (sectorKey region sector)).pump
    | _ => s)

/-- SECTOR_MOVE_DONE (R38, R40). -/
def execSectorMoveDone (now region sector : Nat) (s : State) : Out :=
  .next (s.serving fun s => let s := s.advanceTo now
    let x := s.sectorAt region sector
    match x.state with
    | .moving up d =>
      let s := s.setSector region sector { x with state := if up then .hbm d else .dram d }
      (s.settleHold (sectorKey region sector)).pump
    | _ => s)

/-- FLASH_PROGRAM_DONE: the write-back is confirmed and its way is free, or the block is retired and the sector is written
again (R38, R51). -/
def execFlashProgramDone (now region sector : Nat) (ok : Bool) (s : State) : Out :=
  .next (s.serving fun s => let s := s.advanceTo now
    let x := s.sectorAt region sector
    let g := s.granule region sector
    if !x.writeback then s
    else
      match s.openBlock (nandChannel g) with
      | none => s
      | some k =>
        if ok then
          (((s.programSector region sector).dropCopy region sector).setSector region sector
            { x with writeback := false, suspended := 0 }).pump
        else (s.bump 6 (dieOfBlock k) 2).retireBlock k)

/-! ### Garbage collection (R49, R50) -/

/-- The block is one that collection takes: a full one whose reading needed soft decisions; else a full one with the
fewest valid granules. -/
def State.collects (s : State) (ch k : Nat) : Bool :=
  let full := fun (b : NandBlock) => !b.retired && decide (b.used = s.blockGranules)
  let mine := s.store.blocks.filter fun e => decide (chanOfBlock e.1 = ch) && full e.2
  let b := s.nandBlock k
  if mine.any fun e => e.2.early then full b && b.early
  else full b && mine.all fun e => decide (b.valid ≤ e.2.valid)

/-- Programs a granule anew as NAND holds it: a relocation keeps the encrypted lines (R50, R540). -/
def State.relocate (s : State) (g : Nat) : State :=
  match s.granuleLines g with
  | some l => s.programGranule g l
  | none => s

/-- An erased block holds no codeword. -/
def State.eraseCodewords (s : State) (k : Nat) : State :=
  let n := s.blockGranules
  let first := k / 2 ^ 24 * 2 ^ 32 + k % 2 ^ 24 * n
  s.setNand (s.store.nand.drop first (first + n))

/-- Logical granules whose map entries point into a block. -/
def State.granulesIn (s : State) (ch k : Nat) : List Nat :=
  (s.store.map.filter fun e => decide (nandChannel e.1 = ch) && e.2.valid && decide (s.blockAt ch e.2 = k)).map (·.1)

/-- GARBAGE_COLLECTION: valid granules are relocated, and the block is erased; one read by soft decisions, or whose erase
fails, is retired (R49, R50, R589). -/
def execGarbageCollection (now channel block : Nat) (eraseOk : Bool) (s : State) : Out :=
  .next (let s := s.advanceTo now
    let k := s.blockOf channel block
    if !s.inService || !s.belowShare channel 20 || !s.collects channel k || (s.openBlock channel).isNone then s
    else
      let s := (s.granulesIn channel k).foldl State.relocate s
      if !(s.granulesIn channel k).isEmpty then s
      else
        let s := s.bump 5 channel 1
        let b := s.nandBlock k
        let s := if eraseOk then
            ((s.eraseCodewords k).setNandBlock k { b with valid := 0, used := 0, early := false, erases := b.erases + 1 }).wearLevels (dieOfBlock k)
          else (s.bump 6 (dieOfBlock k) 3).retireBlock k
        let s := if b.early && eraseOk then s.retireBlock k else s
        (s.flashLevels channel).pump)

/-! ### Patrol scrub (R574, R575) -/

/-- The DIMM of a channel that holds a line; the manual does not say which of two. -/
def State.dimmOf (s : State) (c : Nat) : Nat × State :=
  let (n, s) := s.fresh
  (2 * c + (if (nth {} s.boot.cfg.mem.ddr c).dimms = 2 ∧ Config.pick n then 1 else 0), s)

/-- Counts an uncorrectable line of a stack, or burst of a channel and its DIMM. -/
def State.countBad (s : State) (p : Place) : State :=
  match p with
  | .hbm u => s.bumpAlert 2 u 1
  | .dram c _ =>
    let (d, s) := s.dimmOf c
    (s.bumpAlert 3 c 1).bumpAlert 4 d 2
  | .flash => s

/-- Counts corrected symbols; a DRAM correction of more than one symbol is a whole-device correction (R583). -/
def State.countGood (s : State) (p : Place) (symbols : Nat) : State :=
  if symbols = 0 then s
  else match p with
  | .hbm u => s.bumpBy 2 u 0 symbols
  | .dram c _ =>
    let (d, s) := s.dimmOf c
    let s := (s.bumpBy 3 c 0 symbols).bumpBy 4 d 0 symbols
    if 1 < symbols then s.bump 4 d 1 else s
  | .flash => s

/-- The read of a stored line whose codeword has suffered an error pattern, as the controller of its place decodes it. In
DRAM the tag is not stored, and a poisoned line reads as one with an error of 0x01 in the implied tag (R582). -/
def State.decodeLine (s : State) (p : Place) (region line : Nat) (errors : Errors) : Option Errors × Errors :=
  match p with
  | .dram _ _ =>
    let stored := errors.map fun x => (x.1 + 1, x.2)
    let e := if s.poisoned region line then (ddrTag, 1) :: stored else stored
    (ddrDecode e, e)
  | _ => (lineDecode errors, errors)

/-- PATROL_SCRUB: a corrected line is written back; one that cannot be corrected is rebuilt from the rest of its group, once that has
answered, or poisoned. -/
def execPatrolScrub (now : Nat) (region line : Nat) (errors : List (Nat × Byte)) (s : State) : Out :=
  .next (let s := s.advanceTo now
    let p := s.placeOf region (64 * line)
    if !s.inService || decide ((s.region region).state = .free) || decide ((s.region region).size ≤ 64 * line) ||
        decide (p = .flash) || (s.calibrating region (64 * line)).isSome then s
    else
      let scrubbed := fun (s : State) => { s with store := { s.store with scrubbed := s.store.scrubbed + 1 } }
      let data := readBytes s region (64 * line) 64
      match s.decodeLine p region line errors with
      | (none, e) =>
        match s.rebuiltLine region line with
        | (s, none) => s
        | (s, some v) => ((scrubbed s).countBad p).mendLine region line v (addErrors data e) (s.poisoned region line)
      | (some c, e) =>
        let s := scrubbed s
        let symbols := (c.filter fun x => match p with
          | .dram _ _ => decide (x.1 ≠ ddrTag)
          | _ => true).length
        let left := e ++ c
        let poison : Bool := match p with
          | .dram _ _ => c.any fun x => decide (x.1 = ddrTag)
          | _ => (s.poisoned region line).xor ((errorAt left 0).getLsbD 0)
        ((s.countGood p symbols).writeBytes region (64 * line) (addErrors data left)).setPoison region line poison)

end Sys2Proof.Machine
end

