-- ==== Sys2Proof/Machine/GridVector.lean ====
section
/-! DEFINITION. The grid's vector instructions (R281, R295 to R305). -/
namespace Sys2Proof.Machine

/-! ### Shared forms -/

/-- Writes a vector register and its poison bit and goes to the next instruction. -/
def State.writeVec (s : State) (t : Thread) (vd : Nat) (v : Vec) (p : Bool) : State :=
  let s := s.setSlot t ((s.slotOf t).setVec vd v p)
  s.retire t (s.ctx t)

def State.writeMask (s : State) (t : Thread) (m : Nat) (v : W64) (p : Bool) : State :=
  let s := s.setSlot t ((s.slotOf t).setMask m v p)
  s.retire t (s.ctx t)

/-- Checks that every vector instruction makes: a type that it permits, a slot, an unpoisoned mask if it uses one
(R275, R295, R297). -/
def vecChecks (ok : Bool) (c : Ctx) (maskPoison : Bool) : List (Bool × Byte) :=
  [(!ok, gcIllegal), (c.slot.isNone, gcNoSlot), (maskPoison, gcPoisonUse)]

/-- A register whose governed elements are `g i` and whose others stay (R297). -/
def maskedVec (ty : ElemTy) (m : W64) (old : Vec) (g : Nat → Nat) : Vec :=
  vecOf (elemWidth ty) fun i => if governs ty m i then g i % 2 ^ elemBits ty else vecElem (elemWidth ty) old i

/-- vd ← an element-wise function under the mask; sources poisoned, or vd partly unchanged and poisoned, poison vd (R271). -/
def State.elementwise (s : State) (t : Thread) (ty : ElemTy) (ok : Bool) (f : FmtV) (poison : Bool) (g : Nat → Nat) : State :=
  let x := s.slotOf t
  let m := x.mask f.msk.toNat
  let vd := f.vd.toNat
  s.guarded t (vecChecks ok (s.ctx t) (x.maskPoison f.msk.toNat))
    (s.writeVec t vd (maskedVec ty m (x.vec vd) g) (poison || (partly ty m && x.vecPoison vd)))

def tyIs (t : BitVec 4) (l : List ElemTy) : Bool :=
  match fieldTy t with
  | some ty => l.contains ty
  | none => false

def tyOr (t : BitVec 4) : ElemTy := (fieldTy t).getD .fp32

def arithTypes : List ElemTy := [.fp32, .bf16, .fp16, .int32]
def floatTypes : List ElemTy := [.fp32, .bf16, .fp16]

/-! ### Element arithmetic (R298, R300) -/

/-- A sum or product narrowed to its type: IEEE 754 rounding to nearest for floating point, wrapping for INT32. -/
def narrow (ty : ElemTy) (x : Num) : Nat :=
  if elemIsInt ty then
    match x with
    | .fin neg m _ => lowBits (elemWidth ty) (signedMant neg m)
    | _ => 0
  else encodeFloat ty .nearestEven false x

/-- A binary operation of VARITH. -/
def varith2 (types : List ElemTy) (op : Num → Num → Num) (f : FmtV) (t : Thread) (s : State) : State :=
  let x := s.slotOf t
  let ty := tyOr f.ty
  let a := x.vec f.va.toNat
  let b := x.vec f.vb.toNat
  s.elementwise t ty (tyIs f.ty types) f (x.vecPoison f.va.toNat || x.vecPoison f.vb.toNat)
    fun i => narrow ty (op (elemNum ty a i) (elemNum ty b i))

/-- A unary operation of VARITH. -/
def varith1 (types : List ElemTy) (op : Num → Num) (f : FmtV) (t : Thread) (s : State) : State :=
  let x := s.slotOf t
  let ty := tyOr f.ty
  let a := x.vec f.va.toNat
  s.elementwise t ty (tyIs f.ty types) f (x.vecPoison f.va.toNat) fun i => narrow ty (op (elemNum ty a i))

/-- A fused operation on va, vb and vd. -/
def varith3 (op : Num → Num → Num → Num) (f : FmtV) (t : Thread) (s : State) : State :=
  let x := s.slotOf t
  let ty := tyOr f.ty
  let a := x.vec f.va.toNat
  let b := x.vec f.vb.toNat
  let d := x.vec f.vd.toNat
  s.elementwise t ty (tyIs f.ty floatTypes) f
    (x.vecPoison f.va.toNat || x.vecPoison f.vb.toNat || x.vecPoison f.vd.toNat)
    fun i => narrow ty (op (elemNum ty a i) (elemNum ty b i) (elemNum ty d i))

def addNums (a b : Num) : Num := sumNums .nearestEven [a, b]

/-- The smaller number, NaN if either is, −0 below +0. -/
def minNum (a b : Num) : Num := if a = .nan ∨ b = .nan then .nan else if cmpNums true a b ≤ 0 then a else b

def maxNum (a b : Num) : Num := if a = .nan ∨ b = .nan then .nan else if cmpNums true a b ≤ 0 then b else a

def execVadd (i : Issue) (f : FmtV) (s : State) : Out := .next (gridStep i (.vadd i f) (varith2 arithTypes addNums f) s)

def execVsub (i : Issue) (f : FmtV) (s : State) : Out :=
  .next (gridStep i (.vsub i f) (varith2 arithTypes (fun a b => addNums a (negNum b)) f) s)

def execVmul (i : Issue) (f : FmtV) (s : State) : Out := .next (gridStep i (.vmul i f) (varith2 arithTypes mulNums f) s)

def execVfma (i : Issue) (f : FmtV) (s : State) : Out :=
  .next (gridStep i (.vfma i f) (varith3 (fun a b d => addNums (mulNums a b) d) f) s)

def execVfms (i : Issue) (f : FmtV) (s : State) : Out :=
  .next (gridStep i (.vfms i f) (varith3 (fun a b d => addNums d (negNum (mulNums a b))) f) s)

def execVmin (i : Issue) (f : FmtV) (s : State) : Out := .next (gridStep i (.vmin i f) (varith2 arithTypes minNum f) s)
def execVmax (i : Issue) (f : FmtV) (s : State) : Out := .next (gridStep i (.vmax i f) (varith2 arithTypes maxNum f) s)
def execVabs (i : Issue) (f : FmtV) (s : State) : Out := .next (gridStep i (.vabs i f) (varith1 arithTypes absNum f) s)
def execVneg (i : Issue) (f : FmtV) (s : State) : Out := .next (gridStep i (.vneg i f) (varith1 arithTypes negNum f) s)
def execVdiv (i : Issue) (f : FmtV) (s : State) : Out := .next (gridStep i (.vdiv i f) (varith2 [.fp32] divNums f) s)
def execVsqrt (i : Issue) (f : FmtV) (s : State) : Out := .next (gridStep i (.vsqrt i f) (varith1 [.fp32] sqrtNum f) s)

/-! ### Dot products (R301 to R303) -/

def dotTypes : List ElemTy := [.bf16, .fp16, .e4m3, .e5m2, .e3m2, .e2m3, .e2m1, .int8, .int4]

/-- The products of the group of a lane. -/
def laneProducts (ty : ElemTy) (a b : Vec) (lane : Nat) : List Num :=
  let g := elemCount ty / 16
  (List.range g).map fun j => mulNums (elemNum ty a (g * lane + j)) (elemNum ty b (g * lane + j))

/-- Type of a lane: INT32 for integer elements, else FP32. -/
def laneTy (ty : ElemTy) : ElemTy := if elemIsInt ty then .int32 else .fp32

def execVdot (i : Issue) (f : FmtV) (s : State) : Out :=
  .next (gridStep i (.vdot i f) (fun t s =>
    let x := s.slotOf t
    let ty := tyOr f.ty
    let lt := laneTy ty
    let a := x.vec f.va.toNat
    let b := x.vec f.vb.toNat
    let d := x.vec f.vd.toNat
    s.elementwise t lt (tyIs f.ty dotTypes) f (x.vecPoison f.va.toNat || x.vecPoison f.vb.toNat || x.vecPoison f.vd.toNat)
      fun lane => narrow lt (sumNums .nearestEven (laneProducts ty a b lane ++ [elemNum lt d lane]))) s)

def mxTypes : List ElemTy := [.e4m3, .e5m2, .e3m2, .e2m3, .e2m1, .int8]

/-- Scales of block j: byte j of the low word for va, of the high word for vb (R302). -/
def blockScale (w : W64) (j : Nat) : Nat × Nat := (bitsOf w.toNat (8 * j) 8, bitsOf w.toNat (32 + 8 * j) 8)

/-- Binary places that an element of a block-scaled operand has beyond its own: six for INT8, in each operand (R303). -/
def mxPlaces (ty : ElemTy) : Int := if ty = .int8 then -12 else 0

/-- A lane of VDOTMX. -/
def mxLane (ty : ElemTy) (w : W64) (a b d : Vec) (lane : Nat) : Nat :=
  let g := elemCount ty / 16
  let (ea, eb) := blockScale w (g * lane / 32)
  if ea = 255 ∨ eb = 255 then nanBits .fp32
  else
    let group := scaleNum ((ea : Int) + eb - 254 + mxPlaces ty) (sumNums .nearestEven (laneProducts ty a b lane))
    narrow .fp32 (addNums group (elemNum .fp32 d lane))

def execVdotmx (i : Issue) (f : FmtV) (s : State) : Out :=
  .next (gridStep i (.vdotmx i f) (fun t s =>
    let c := s.ctx t
    let x := s.slotOf t
    let ty := tyOr f.ty
    let a := x.vec f.va.toNat
    let b := x.vec f.vb.toNat
    let d := x.vec f.vd.toNat
    s.guarded t (vecChecks (tyIs f.ty mxTypes) c (c.regPoison f.msk))
      (s.writeVec t f.vd.toNat (vecOf 32 (mxLane ty (c.reg f.msk) a b d))
        (x.vecPoison f.va.toNat || x.vecPoison f.vb.toNat || x.vecPoison f.vd.toNat))) s)

/-! ### Conversion (R304) -/

/-- part names a place within the longer register. -/
def partOk (nd ns part : Nat) : Bool :=
  if nd = ns then decide (part = 0) else if ns < nd then decide (part < nd / ns) else decide (part < ns / nd)

def execVcvt (i : Issue) (f : FmtVC) (s : State) : Out :=
  .next (gridStep i (.vcvt i f) (fun t s =>
    let c := s.ctx t
    let x := s.slotOf t
    let st := tyOr f.sty
    let dt := tyOr f.dty
    let ns := elemCount st
    let nd := elemCount dt
    let k := f.part.toNat
    let a := x.vec f.va.toNat
    let vd := f.vd.toNat
    let conv := fun j => encodeElem dt (roundOf f.rm.toNat) (decide (f.sat = 1)) (elemNum st a j)
    let v := vecOf (elemWidth dt) fun j =>
      if ns < nd then (if k * ns ≤ j ∧ j < k * ns + ns then conv (j - k * ns) else vecElem (elemWidth dt) (x.vec vd) j)
      else conv (if nd < ns then k * nd + j else j)
    s.guarded t (vecChecks (partOk nd ns k) c false)
      (s.writeVec t vd v (x.vecPoison f.va.toNat || (decide (ns < nd) && x.vecPoison vd)))) s)

/-! ### VMISC (R305) -/

/-- A bitwise operation under the mask of the type. -/
def vlogic (op : Nat → Nat → Nat) (f : FmtV) (t : Thread) (s : State) : State :=
  let x := s.slotOf t
  let ty := tyOr f.ty
  let w := elemWidth ty
  let a := x.vec f.va.toNat
  let b := x.vec f.vb.toNat
  s.elementwise t ty true f (x.vecPoison f.va.toNat || x.vecPoison f.vb.toNat) fun i => op (vecElem w a i) (vecElem w b i)

def execVand (i : Issue) (f : FmtV) (s : State) : Out := .next (gridStep i (.vand i f) (vlogic (fun a b => a &&& b) f) s)
def execVor (i : Issue) (f : FmtV) (s : State) : Out := .next (gridStep i (.vor i f) (vlogic (fun a b => a ||| b) f) s)
def execVxor (i : Issue) (f : FmtV) (s : State) : Out := .next (gridStep i (.vxor i f) (vlogic (fun a b => a ^^^ b) f) s)

/-- VSEL writes every element, from va where the mask bit is 1, else from vb. -/
def execVsel (i : Issue) (f : FmtV) (s : State) : Out :=
  .next (gridStep i (.vsel i f) (fun t s =>
    let x := s.slotOf t
    let ty := tyOr f.ty
    let m := x.mask f.msk.toNat
    s.guarded t (vecChecks true (s.ctx t) (x.maskPoison f.msk.toNat))
      (s.writeVec t f.vd.toNat
        (maskedVec ty m (maskedVec ty (BitVec.allOnes 64) 0 fun j => vecElem (elemWidth ty) (x.vec f.vb.toNat) j)
          fun j => vecElem (elemWidth ty) (x.vec f.va.toNat) j)
        (x.vecPoison f.va.toNat || x.vecPoison f.vb.toNat))) s)

/-- The low three bits of a vector field, which name a scalar or mask register. -/
def low3 (v : BitVec 5) : BitVec 3 := v.setWidth 3

/-- A comparison: bit i of the mask m[vd] is the outcome for governed element i; NaN gives 0; 4-bit types are ILLEGAL. -/
def vcompare (test : Int → Bool) (f : FmtV) (t : Thread) (s : State) : State :=
  let x := s.slotOf t
  let ty := tyOr f.ty
  let m := x.mask f.msk.toNat
  let a := x.vec f.va.toNat
  let b := x.vec f.vb.toNat
  let bit := fun i => governs ty m i && decide (elemNum ty a i ≠ .nan) && decide (elemNum ty b i ≠ .nan) &&
    test (cmpNums false (elemNum ty a i) (elemNum ty b i))
  s.guarded t (vecChecks (decide (elemWidth ty ≠ 4)) (s.ctx t) (x.maskPoison f.msk.toNat))
    (s.writeMask t (low3 f.vd).toNat (BitVec.ofNat 64 (ofBits ((List.range (elemCount ty)).map bit)))
      (x.vecPoison f.va.toNat || x.vecPoison f.vb.toNat))

def execVcmpeq (i : Issue) (f : FmtV) (s : State) : Out :=
  .next (gridStep i (.vcmpeq i f) (vcompare (fun d => decide (d = 0)) f) s)

def execVcmplt (i : Issue) (f : FmtV) (s : State) : Out :=
  .next (gridStep i (.vcmplt i f) (vcompare (fun d => decide (d < 0)) f) s)

def execVcmple (i : Issue) (f : FmtV) (s : State) : Out :=
  .next (gridStep i (.vcmple i f) (vcompare (fun d => decide (d ≤ 0)) f) s)

def execVbcast (i : Issue) (f : FmtV) (s : State) : Out :=
  .next (gridStep i (.vbcast i f) (fun t s =>
    let c := s.ctx t
    s.elementwise t (tyOr f.ty) true f (c.regPoison (low3 f.va)) fun _ => (c.reg (low3 f.va)).toNat) s)

/-- Index of VEXT and VINS: beyond the element count it is an OPERAND fault, poisoned a POISON_USE fault (R305, R310). -/
def indexChecks (c : Ctx) (ty : ElemTy) (r : BitVec 3) : List (Bool × Byte) :=
  [(c.regPoison r, gcPoisonUse), (decide (elemCount ty ≤ (c.reg r).toNat), gcOperand)]

def execVext (i : Issue) (f : FmtV) (s : State) : Out :=
  .next (gridStep i (.vext i f) (fun t s =>
    let c := s.ctx t
    let x := s.slotOf t
    let ty := tyOr f.ty
    let r := low3 f.vb
    s.guarded t (vecChecks true c false ++ indexChecks c ty r)
      (s.writeReg t (low3 f.vd)
        (BitVec.ofNat 64 (vecElem (elemWidth ty) (x.vec f.va.toNat) (c.reg r).toNat % 2 ^ elemBits ty))
        (x.vecPoison f.va.toNat))) s)

/-- VINS under the mask: every other element of vd stays. -/
def execVins (i : Issue) (f : FmtV) (s : State) : Out :=
  .next (gridStep i (.vins i f) (fun t s =>
    let c := s.ctx t
    let x := s.slotOf t
    let ty := tyOr f.ty
    let r := low3 f.vb
    let k := (c.reg r).toNat
    let vd := f.vd.toNat
    let m := x.mask f.msk.toNat
    let v := vecOf (elemWidth ty) fun j =>
      if j = k ∧ governs ty m j then (c.reg (low3 f.va)).toNat % 2 ^ elemBits ty else vecElem (elemWidth ty) (x.vec vd) j
    s.guarded t (vecChecks true c (x.maskPoison f.msk.toNat) ++ indexChecks c ty r)
      (s.writeVec t vd v (c.regPoison (low3 f.va) || x.vecPoison vd))) s)

def execVmts (i : Issue) (f : FmtV) (s : State) : Out :=
  .next (gridStep i (.vmts i f) (fun t s =>
    let x := s.slotOf t
    s.guarded t (vecChecks true (s.ctx t) false)
      (s.writeReg t (low3 f.vd) (x.mask (low3 f.va).toNat) (x.maskPoison (low3 f.va).toNat))) s)

def execVstm (i : Issue) (f : FmtV) (s : State) : Out :=
  .next (gridStep i (.vstm i f) (fun t s =>
    let c := s.ctx t
    s.guarded t (vecChecks true c false)
      (s.writeMask t (low3 f.vd).toNat (c.reg (low3 f.va)) (c.regPoison (low3 f.va)))) s)

/-- VDEQ: FP32 from INT32 by an FP16 scale and offset, rounded once. -/
def execVdeq (i : Issue) (f : FmtV) (s : State) : Out :=
  .next (gridStep i (.vdeq i f) (fun t s =>
    let c := s.ctx t
    let x := s.slotOf t
    let w := (c.reg (low3 f.vb)).toNat
    let scale := decodeElem .fp16 (bitsOf w 0 16)
    let offset := decodeElem .fp16 (bitsOf w 16 16)
    let a := x.vec f.va.toNat
    s.elementwise t .fp32 true f (x.vecPoison f.va.toNat || c.regPoison (low3 f.vb))
      fun j => narrow .fp32 (addNums (mulNums (elemNum .int32 a j) scale) offset)) s)

/-! ### Vector scratch (R280, R281) -/

def execVsld (i : Issue) (f : FmtSV) (s : State) : Out :=
  .next (gridStep i (.vsld i f) (fun t s =>
    let c := s.ctx t
    let a := scratchAddr (c.reg f.sa) (64 * f.imm.toInt)
    s.guarded t (vecChecks true c (c.regPoison f.sa) ++ [(decide (a % 64 ≠ 0), gcAlign), (s.outOfWindow t a 64, gcScratchRange)])
      (s.writeVec t f.vd.toNat (BitVec.ofNat 512 (ofLe (s.scratchBytesAt t a 64))) (s.scratchPoisoned t a 64))) s)

def execVsst (i : Issue) (f : FmtSV) (s : State) : Out :=
  .next (gridStep i (.vsst i f) (fun t s =>
    let c := s.ctx t
    let x := s.slotOf t
    let a := scratchAddr (c.reg f.sa) (64 * f.imm.toInt)
    let s' := s.putScratch t a (leBytes 64 (x.vec f.vd.toNat).toNat) (x.vecPoison f.vd.toNat)
    s.guarded t (vecChecks true c (c.regPoison f.sa) ++ [(decide (a % 64 ≠ 0), gcAlign), (s.outOfWindow t a 64, gcScratchRange)])
      (s'.retire t (s'.ctx t))) s)

end Sys2Proof.Machine
end

