-- ==== Sys2Proof/Machine/GridExact.lean ====
section
/-! DEFINITION. The grid's exact-sum instructions (R306 to R308). -/
namespace Sys2Proof.Machine

/-- Place of accumulator e of a thread's program in its core. -/
def State.accIndex (s : State) (t : Thread) (e : BitVec 3) : Nat := (s.programOf t).acc0 + e.toNat

def State.acc (s : State) (t : Thread) (e : BitVec 3) : AccReg := (s.core t.core).accs.get {} (s.accIndex t e)

def State.setAcc (s : State) (t : Thread) (e : BitVec 3) (a : AccReg) : State :=
  let k := s.core t.core
  s.setCore t.core { k with accs := k.accs.set {} (s.accIndex t e) a }

/-- Checks of every exact-sum instruction: a permitted type, a slot, an accumulator of the program (R295, R306). -/
def State.accChecks (s : State) (t : Thread) (ok : Bool) (e : BitVec 3) : List (Bool × Byte) :=
  [(!ok, gcIllegal), ((s.ctx t).slot.isNone, gcNoSlot), (decide ((s.programOf t).accs ≤ e.toNat), gcResource)]

/-- Writes the accumulator and goes to the next instruction. -/
def State.writeAcc (s : State) (t : Thread) (e : BitVec 3) (a : AccReg) : State :=
  let s := s.setAcc t e a
  s.retire t (s.ctx t)

def execXclr (i : Issue) (f : FmtX) (s : State) : Out :=
  .next (gridStep i (.xclr i f) (fun t s => s.guarded t (s.accChecks t true f.e) (s.writeAcc t f.e {})) s)

/-- A source register or the mask is poisoned (R307). -/
def xPoison (x : Slot) (f : FmtX) (two : Bool) : Bool :=
  x.vecPoison f.va.toNat || (two && x.vecPoison f.vb.toNat) || x.maskPoison f.msk.toNat

/-- Indices of the source elements that the mask governs and lets through. -/
def governed (ty : ElemTy) (m : W64) : List Nat := (List.range (elemCount ty)).filter fun i => governs ty m i

def execXadd (i : Issue) (f : FmtX) (s : State) : Out :=
  .next (gridStep i (.xadd i f) (fun t s =>
    let x := s.slotOf t
    let ty := tyOr f.ty
    let a := s.acc t f.e
    let v := x.vec f.va.toNat
    s.guarded t (s.accChecks t (tyIs f.ty floatTypes) f.e)
      (s.writeAcc t f.e
        (if xPoison x f false then { a with poison := true }
         else a.addAll ((governed ty (x.mask f.msk.toNat)).map fun j => elemNum ty v j)))) s)

def xdotTypes : List ElemTy := [.bf16, .fp16, .e4m3, .e5m2, .e3m2, .e2m3, .int8, .e2m1, .int4]

/-- The pairs of operands that the mask governs. -/
def xPairs (ty : ElemTy) (x : Slot) (f : FmtX) : List (Nat × Num × Num) :=
  (governed ty (x.mask f.msk.toNat)).map fun j =>
    (j, elemNum ty (x.vec f.va.toNat) j, elemNum ty (x.vec f.vb.toNat) j)

/-- Products with a poisoned operand: the poison flag is set and nothing is added; operands of a register that is not poisoned set their
flags (R265, R307). Where the mask is poisoned, nobody knows which operands it lets through, and none sets a flag. -/
def notePoisoned (x : Slot) (f : FmtX) (pairs : List (Nat × Num × Num)) (a : AccReg) : AccReg :=
  let a := { a with poison := true }
  if x.maskPoison f.msk.toNat then a
  else pairs.foldl (fun a p =>
    let a := if x.vecPoison f.va.toNat then a else a.note p.2.1
    if x.vecPoison f.vb.toNat then a else a.note p.2.2) a

def execXdot (i : Issue) (f : FmtX) (s : State) : Out :=
  .next (gridStep i (.xdot i f) (fun t s =>
    let x := s.slotOf t
    let a := s.acc t f.e
    s.guarded t (s.accChecks t (tyIs f.ty xdotTypes) f.e)
      (s.writeAcc t f.e
        (if xPoison x f true then notePoisoned x f (xPairs (tyOr f.ty) x f) a
         else (xPairs (tyOr f.ty) x f).foldl (fun a p => a.addProduct 0 p.2) a))) s)

/-- A scale of the product's block is 0xFF (R307). -/
def badScale (w : W64) (p : Nat × Num × Num) : Bool := (blockScale w (p.1 / 32)).1 = 255 || (blockScale w (p.1 / 32)).2 = 255

/-- One product of XDOTMX: a scale of 0xFF sets the nan flag, beside what the operands set (R265, R307). -/
def addScaled (w : W64) (a : AccReg) (p : Nat × Num × Num) : AccReg :=
  let (ea, eb) := blockScale w (p.1 / 32)
  if badScale w p then ({ a with nan := true }.note p.2.1).note p.2.2 else a.addProduct ((ea : Int) + eb - 254) p.2

/-- INT8 elements are integers here, as in XDOT (DEDUCED; log entry 44). -/
def execXdotmx (i : Issue) (f : FmtX) (s : State) : Out :=
  .next (gridStep i (.xdotmx i f) (fun t s =>
    let c := s.ctx t
    let x := s.slotOf t
    let a := s.acc t f.e
    s.guarded t (s.accChecks t (tyIs f.ty mxTypes) f.e ++ [(c.regPoison f.sx, gcPoisonUse)])
      (s.writeAcc t f.e
        (if xPoison x f true then
           let a := if !x.maskPoison f.msk.toNat && (xPairs (tyOr f.ty) x f).any (badScale (c.reg f.sx)) then { a with nan := true } else a
           notePoisoned x f (xPairs (tyOr f.ty) x f) a
         else (xPairs (tyOr f.ty) x f).foldl (addScaled (c.reg f.sx)) a))) s)

def execXread (i : Issue) (f : FmtX) (s : State) : Out :=
  .next (gridStep i (.xread i f) (fun t s =>
    let a := s.acc t f.e
    s.guarded t (s.accChecks t (tyIs f.ty floatTypes) f.e)
      (if a.poison then s.writeReg t f.sx 0 true
       else s.writeReg t f.sx (BitVec.ofNat 64 (a.rounded (tyOr f.ty) (roundOf (bitsOf f.vb.toNat 0 2)))) false)) s)

/-- Checks of the scratch area of XEXP and XIMP (R306). -/
def State.limbChecks (s : State) (t : Thread) (f : FmtX) : List (Bool × Byte) :=
  let c := s.ctx t
  let a := scratchAddr (c.reg f.sx) 0
  [(c.regPoison f.sx, gcPoisonUse), (decide (a % 64 ≠ 0), gcAlign), (s.outOfWindow t a 128, gcScratchRange)]

/-- XEXP: the form carries the accumulator's poison as a count, so its lines are clean (R267). -/
def execXexp (i : Issue) (f : FmtX) (s : State) : Out :=
  .next (gridStep i (.xexp i f) (fun t s =>
    let a := scratchAddr ((s.ctx t).reg f.sx) 0
    let s' := s.putScratch t a (s.acc t f.e).limbs false
    s.guarded t (s.accChecks t true f.e ++ s.limbChecks t f) (s'.retire t (s'.ctx t))) s)

/-- XIMP: a form with a poisoned line adds nothing and sets the poison flag, beside the flags that its counts set (R265, R268, R307). -/
def execXimp (i : Issue) (f : FmtX) (s : State) : Out :=
  .next (gridStep i (.ximp i f) (fun t s =>
    let a := scratchAddr ((s.ctx t).reg f.sx) 0
    let x := s.acc t f.e
    s.guarded t (s.accChecks t true f.e ++ s.limbChecks t f)
      (s.writeAcc t f.e
        (let y := x.importLimbs (s.scratchBytesAt t a 128)
         if s.scratchPoisoned t a 128 then { y with value := x.value, poison := true } else y))) s)

def execXflag (i : Issue) (f : FmtX) (s : State) : Out :=
  .next (gridStep i (.xflag i f) (fun t s =>
    s.guarded t (s.accChecks t true f.e) (s.writeReg t f.sx (BitVec.ofNat 64 (flagBits (s.acc t f.e))) false)) s)

end Sys2Proof.Machine
end

