-- ==== Sys2Proof/Machine/GridMemory.lean ====
section
/-! DEFINITION. The grid's instructions that reach the store (R284 to R288). -/
namespace Sys2Proof.Machine

/-- Offset of an access: so plus the immediate (R284). -/
def storeOffset (so : W64) (imm : Int) : Int := so.toNat + imm

/-- The sum does not fit in 48 bits. -/
def offsetBad (z : Int) : Bool := !(decide (0 ≤ z) && decide (z < 2 ^ 48))

def handleOf (sh : W64) : Handle := sh.setWidth 40

/-- A thread sends a request and does not wait. -/
def State.issueStore (s : State) (t : Thread) (r : GridReq) : State := (s.retire t (s.ctx t)).request t r

/-- A thread sends a request and waits for its response in WAIT_MEM. -/
def State.issueLoad (s : State) (t : Thread) (r : GridReq) (w : ThreadWait) : State := (s.await t .waitMem w).request t r

/-- A memory instruction: its checks, then the request, unless the core holds 256 requests and the thread waits in READY
(R253). -/
def State.memory (s : State) (t : Thread) (checks : List (Bool × Byte)) (go : State) : State :=
  s.guarded t checks (if s.coreFull t.core then s else go)

/-- Opcode of a load by its variant (R285). -/
def loadOpcode (var : BitVec 2) : Byte :=
  match var.toNat with
  | 0 => 0x01
  | 1 => 0x03
  | _ => 0x02

/-- Opcode of a store by its variant. -/
def storeOpcode (var : Nat) : Byte := if var = 0 then 0x04 else 0x05

def execLd (i : Issue) (f : FmtRM) (s : State) : Out :=
  .next (gridStep i (.ld i f) (fun t s =>
    let c := s.ctx t
    let z := storeOffset (c.reg f.so) f.imm.toInt
    let n := sizeBytes f.size
    s.memory t [(c.regPoison f.sh || c.regPoison f.so, gcPoisonUse), (offsetBad z, gcOperand)]
      (s.issueLoad t { thread := t, opcode := loadOpcode f.var, rh := handleOf (c.reg f.sh), offset := z.toNat, len := n }
        (.load f.sd n))) s)

def execSt (i : Issue) (f : FmtRM) (s : State) : Out :=
  .next (gridStep i (.st i f) (fun t s =>
    let c := s.ctx t
    let z := storeOffset (c.reg f.so) f.imm.toInt
    let n := sizeBytes f.size
    s.memory t [(c.regPoison f.sh || c.regPoison f.so, gcPoisonUse), (offsetBad z, gcOperand), (c.regPoison f.sd, gcPoisonStore)]
      (s.issueStore t { thread := t, isWrite := true, opcode := storeOpcode f.var.toNat, rh := handleOf (c.reg f.sh)
                        offset := z.toNat, len := n, data := leBytes n (c.reg f.sd).toNat })) s)

/-- A function code above 9 is an unlisted one (R275, R287). -/
def execAmo (i : Issue) (f : FmtAM) (s : State) : Out :=
  .next (gridStep i (.amo i f) (fun t s =>
    let c := s.ctx t
    let z := storeOffset (c.reg f.so) 0
    let n := wideBytes f.size
    s.memory t [(decide (9 < f.fn.toNat), gcIllegal), (c.regPoison f.sh || c.regPoison f.so, gcPoisonUse),
        (offsetBad z, gcOperand), (decide (z % n ≠ 0), gcAlign), (atomicPoison f.fn c f.sd f.sb, gcPoisonStore)]
      (s.issueLoad t { thread := t, opcode := 0x07, rh := handleOf (c.reg f.sh), offset := z.toNat, len := n
                       sub := BitVec.ofNat 8 f.fn.toNat, opA := atomicA f.fn c f.sd f.sb % 2 ^ (8 * n)
                       opB := (c.reg f.sb).toNat % 2 ^ (8 * n) } (.amo f.sd n))) s)

def execVld (i : Issue) (f : FmtRV) (s : State) : Out :=
  .next (gridStep i (.vld i f) (fun t s =>
    let c := s.ctx t
    let z := storeOffset (c.reg f.so) f.imm.toInt
    s.memory t [(c.slot.isNone, gcNoSlot), (c.regPoison f.sh || c.regPoison f.so, gcPoisonUse), (offsetBad z, gcOperand)]
      (s.issueLoad t { thread := t, opcode := loadOpcode f.var, rh := handleOf (c.reg f.sh), offset := z.toNat, len := 64 }
        (.vload f.vd))) s)

def execVst (i : Issue) (f : FmtRV) (s : State) : Out :=
  .next (gridStep i (.vst i f) (fun t s =>
    let c := s.ctx t
    let z := storeOffset (c.reg f.so) f.imm.toInt
    let x := s.slotOf t
    s.memory t [(c.slot.isNone, gcNoSlot), (c.regPoison f.sh || c.regPoison f.so, gcPoisonUse), (offsetBad z, gcOperand),
        (x.vecPoison f.vd.toNat, gcPoisonStore)]
      (s.issueStore t { thread := t, isWrite := true, opcode := storeOpcode f.var.toNat, rh := handleOf (c.reg f.sh)
                        offset := z.toNat, len := 64, data := leBytes 64 (x.vec f.vd.toNat).toNat })) s)

/-- A block length outside 1 to 4,096 (R288). -/
def lengthBad (n : Nat) : Bool := !(decide (1 ≤ n) && decide (n ≤ 4096))

/-- Poison of a register that a block transfer uses as length, handle, offset or scratch address. -/
def blockPoison (c : Ctx) (f : FmtBT) : Bool :=
  c.regPoison f.sl || c.regPoison f.sh || c.regPoison f.so || c.regPoison f.sa

def execBget (i : Issue) (f : FmtBT) (s : State) : Out :=
  .next (gridStep i (.bget i f) (fun t s =>
    let c := s.ctx t
    let n := (c.reg f.sl).toNat
    let z := storeOffset (c.reg f.so) 0
    let a := scratchAddr (c.reg f.sa) 0
    s.memory t [(blockPoison c f, gcPoisonUse), (lengthBad n || offsetBad z, gcOperand), (s.outOfWindow t a n, gcScratchRange)]
      (s.issueLoad t { thread := t, opcode := 0x01, rh := handleOf (c.reg f.sh), offset := z.toNat, len := n }
        (.block (s.absAddr t a) n z.toNat))) s)

def execBput (i : Issue) (f : FmtBT) (s : State) : Out :=
  .next (gridStep i (.bput i f) (fun t s =>
    let c := s.ctx t
    let n := (c.reg f.sl).toNat
    let z := storeOffset (c.reg f.so) 0
    let a := scratchAddr (c.reg f.sa) 0
    s.memory t [(blockPoison c f, gcPoisonUse), (lengthBad n || offsetBad z, gcOperand), (s.outOfWindow t a n, gcScratchRange),
        (s.scratchPoisoned t a n, gcPoisonStore)]
      (s.issueStore t { thread := t, isWrite := true, opcode := storeOpcode f.var.toNat, rh := handleOf (c.reg f.sh)
                        offset := z.toNat, len := n, data := s.scratchBytesAt t a n })) s)

end Sys2Proof.Machine
end

