-- ==== Sys2Proof/Machine/Magnitude.lean ====
section
/-! DEFINITION. Magnitudes, bands and their notices at the end of each powered minute (R502 to R509). -/
namespace Sys2Proof.Machine

/-- How a counter enters the magnitude of its unit (R504): an event counter with its weight and allowance, or a level with
its weight, span and knee, counted above the knee or below it. -/
inductive Share where
  | event (w a : Nat)
  | level (w span knee : Nat) (below : Bool)
  deriving DecidableEq, Repr

/-- The counters of a class that contribute, with their indexes (R504). -/
def sharesOf (cls rated : Nat) : List (Nat × Share) :=
  match cls with
  | 0 => [(3, .event 1 40000000000000), (4, .event 4 1), (5, .event 1 4), (6, .event 1 4), (8, .event 1 1000000)]
  | 1 => [(0, .event 1 10000000000000), (1, .event 1 10000000000000), (2, .event 1 10000000000000),
          (3, .event 1 10000000000000), (4, .event 2 4)]
  | 2 => [(0, .event 1 1000000), (1, .event 10 1), (2, .level 1 16 0 false), (3, .level 1 16 0 false), (7, .level 1 10 85 false)]
  | 3 => [(0, .event 1 1000000), (1, .event 10 1)]
  | 4 => [(0, .event 1 1000000), (2, .event 10 1), (3, .level 1 16 0 false), (4, .level 1 10 85 false)]
  | 5 => [(2, .level 2 20 20 true)]
  | 6 => [(1, .event 10 1), (2, .event 2 4), (3, .event 2 4), (6, .level 3 rated 0 false)]
  | 7 => [(0, .level 2 20 85 false), (4, .event 5 1)]
  | 8 => [(0, .event 1 10000), (1, .event 10 1)]
  | 9 => [(1, .event 1 10000), (2, .event 10 1)]
  | _ => []

/-! ### Logarithms in fixed point (log entry 70) -/

/-- Fractional bits of the logarithm. -/
def logBits : Nat := 64

/-- Fractional bits of log2 of `x / 2^127`, for x from 2^127 to 2^128 - 1: a square that reaches 2 yields a 1. -/
def logFraction : Nat → Nat → Nat → Nat
  | 0, _, acc => acc
  | n + 1, x, acc =>
    let y := x * x / 2 ^ 127
    if 2 ^ 128 ≤ y then logFraction n (y / 2) (2 * acc + 1) else logFraction n y (2 * acc)

/-- `⌊log2 (p / q) · 2^64⌋` for p ≥ q > 0, exact where the ratio is a power of 2, else within the precision of entry 70. -/
def log2Ratio (p q : Nat) : Nat :=
  let whole := Nat.log2 (p / q)
  whole * 2 ^ logBits + logFraction logBits (p * 2 ^ 127 / (q * 2 ^ whole)) 0

/-- The trend ratio (h + 1) ÷ (m + 1) with m = (x - h) ÷ 23, as a pair. -/
def trendRatio (x h : Nat) : Nat × Nat := (23 * (h + 1), x - h + 23)

/-- The trend term is non-zero. -/
def trending (x h : Nat) : Bool := decide ((trendRatio x h).2 < (trendRatio x h).1)

/-! ### The terms -/

/-- Count of an event counter over the last `n` powered minutes. -/
def State.countOver (s : State) (key n : Nat) : Nat :=
  s.health.counters.get 0 key - Tab.get 0 (nth [] s.health.history (n - 1)) key

/-- A counter's terms: the numerator and denominator of its weighted allowance term, and the factor and ratio of its weighted
trend term. -/
structure Term where
  ctr : Nat := 0
  num : Nat := 0
  den : Nat := 1
  factor : Nat := 0
  ratio : Nat × Nat := (1, 1)
  deriving DecidableEq, Repr

def State.term (s : State) (cls unit : Nat) (e : Nat × Share) : Term :=
  match e.2 with
  | .event w a =>
    let x := s.countOver (counterKey cls unit e.1) 1440
    let h := s.countOver (counterKey cls unit e.1) 60
    let r := if trending x h then trendRatio x h else (1, 1)
    { ctr := e.1, num := 100 * w * x, den := a, factor := 50 * w, ratio := r }
  | .level w span knee below =>
    let v := s.counter cls unit e.1
    { ctr := e.1, num := 100 * w * (if below then knee - v else v - knee), den := max 1 span }

/-- The contribution of a counter with 64 fractional bits. -/
def Term.value (t : Term) : Nat := t.num * 2 ^ logBits / t.den + t.factor * log2Ratio t.ratio.1 t.ratio.2

def Term.rises (t : Term) : Bool := decide (t.ratio ≠ (1, 1))

/-- Sum of fractions. -/
def addFractions (l : List Term) : Nat × Nat := l.foldl (fun r t => (r.1 * t.den + t.num * r.2, r.2 * t.den)) (0, 1)

/-- The product of the trend ratios, each to its factor: its logarithm is the sum of the trend terms. -/
def trendProduct (l : List Term) : Nat × Nat :=
  l.foldl (fun r t => (r.1 * t.ratio.1 ^ t.factor, r.2 * t.ratio.2 ^ t.factor)) (1, 1)

/-- M of R504. -/
def magnitude (l : List Term) : Nat :=
  let a := addFractions l
  let p := trendProduct l
  min 65534 ((a.1 * 2 ^ logBits + log2Ratio p.1 p.2 * a.2) / (a.2 * 2 ^ logBits))

/-- Index of the counter with the largest contribution: of equal ones the lowest; 0 where none contributes. -/
def topCounter (l : List Term) : Nat :=
  (l.foldl (fun (best : Nat × Nat) t => if best.2 < t.value then (t.ctr, t.value) else best) (0, 0)).1

/-- Lower edge of a band. -/
def bandEdge (b : Nat) : Nat := if b = 0 then 0 else if b = 1 then 100 else if b = 2 then 300 else 1000

/-- The band by the edges alone (R505). -/
def bandReached (m : Nat) : Nat := if m < 100 then 0 else if m < 300 then 1 else if m < 1000 then 2 else 3

/-- The highest band up to `b` in which M still holds: at or above 80 % of the lower edge. -/
def bandHeld (m : Nat) : Nat → Nat
  | 0 => 0
  | b + 1 => if 5 * m < 4 * bandEdge (b + 1) then bandHeld m b else b + 1

/-- The next band: it rises at an edge and falls below 80 % of the edge (R505). -/
def nextBand (m b : Nat) : Nat := max (bandReached m) (bandHeld m b)

/-- The terms of a unit's counters. -/
def State.terms (s : State) (cls unit : Nat) : List Term :=
  (sharesOf cls s.boot.cfg.mem.ratedCycles).map (s.term cls unit)

/-- The score of a unit at the minute's end; its band stays GOOD while the unit is unrated (R506, R509). -/
def State.scoreOf (s : State) (cls unit : Nat) (rated : Bool) (old : Score) : Score :=
  let l := s.terms cls unit
  let m := magnitude l
  { magnitude := m, band := if rated then nextBand m old.band else 0, top := topCounter l, rising := l.any Term.rises }

/-! ### Errors of the hardware that no other command counts (R503, R507) -/

/-- The counters that the minute's end brings up to date: corrected FEC codewords and lone uncorrected ones of a port, a lane group's
counters and its eye height, what ordinary reads had corrected in memory, corrected core SRAM errors, an engine's SRAM errors, and
die-to-die retries and CRC errors. -/
def hardwareCounter (cls ctr : Nat) : Bool :=
  match cls with
  | 0 => decide (ctr = 3) || decide (ctr = 4)
  | 1 => decide (ctr < 6)
  | 2 | 3 | 8 => decide (ctr = 0)
  | 4 => decide (ctr < 2)
  | 9 => decide (ctr = 1) || decide (ctr = 2)
  | 11 => decide (ctr = 7) || decide (ctr = 8)
  | _ => false

/-- An increment of the counter is an immediate event: an uncorrectable, sensor-fault or BIST-mismatch counter, link losses or lock losses
(R507). -/
def alerting (cls ctr : Nat) : Bool :=
  [(0, 7), (2, 1), (3, 1), (4, 2), (6, 1), (7, 4), (8, 1), (8, 3), (9, 2), (11, 4)].contains (cls, ctr)

/-- An immediate event in which several counters of a unit qualify at one moment names the one with the largest contribution to M: of
equal ones the lowest (R507). -/
def State.alertAmong (s : State) (cls unit : Nat) (ctrs : List Nat) : State :=
  let value := fun (c : Nat) => (((s.terms cls unit).find? fun t => decide (t.ctr = c)).map Term.value).getD 0
  match ctrs with
  | [] => s
  | c :: t => s.alertNow cls unit (t.foldl (fun best x => if value best < value x ∨ (value best = value x ∧ x < best) then x else best) c)

/-- Adds what the hardware has counted: class, unit, counter and how many, or a level's value. -/
def State.countHardware (s : State) (l : List (Nat × Nat × Nat × Nat)) : State :=
  let known := l.filter fun e => hardwareCounter e.1 e.2.2.1 && decide (e.2.1 < (healthShape e.1).1) && decide (e.2.2.2 ≠ 0)
  let s := known.foldl (fun s e =>
    if e.1 = 1 ∧ e.2.2.1 = 5 then s.setLevel 1 e.2.1 5 e.2.2.2 else s.bumpBy e.1 e.2.1 e.2.2.1 e.2.2.2) s
  (known.map fun e => (e.1, e.2.1)).eraseDups.foldl (fun s u =>
    s.alertAmong u.1 u.2 ((known.filter fun e => decide ((e.1, e.2.1) = u) && alerting e.1 e.2.2.1).map fun e => e.2.2.1)) s

/-! ### The minute's end -/

/-- The units of classes 0 to 9. -/
def scoredUnits : List (Nat × Nat) :=
  (List.range 10).flatMap fun cls => (List.range (healthShape cls).1).map fun u => (cls, u)

/-- The levels of a thermal sensor at the minute's end: the minute counts where its greatest reading lay above 95 °C, and the
greatest reading of 24 h is taken over the minutes kept. -/
def State.sensorMinute (s : State) (u : Nat) : State :=
  let top := s.counter 7 u 8
  let s := if 95 < top then s.bump 7 u 2 else s
  let past := (s.health.history.take 1439).foldl (fun n t => max n (t.get 0 (counterKey 7 u 8))) 0
  (s.setLevel 7 u 1 (max top past)).setLevel 7 u 8 (s.counter 7 u 0)

def State.setHealth (s : State) (x : Health) : State := { s with health := x }

/-- Every unit's new score. -/
def State.allScores (s : State) (rated : Bool) : Tab Score :=
  scoredUnits.foldl (fun (t : Tab Score) e =>
    t.set {} (e.1 * 65536 + e.2) (s.scoreOf e.1 e.2 rated (t.get {} (e.1 * 65536 + e.2)))) s.health.scores

/-- The notice of a unit whose band changed (R505, R506, R508). -/
def State.bandNotice (s : State) (old : Tab Score) (e : Nat × Nat) : State :=
  let a := (old.get {} (e.1 * 65536 + e.2)).band
  let b := s.bandOf e.1 e.2
  if a = b then s
  else s.notice 0x0004 (s.alertBody e.1 e.2 (s.health.scores.get {} (e.1 * 65536 + e.2)).top (if a < b then 0 else 1))

/-- The minute's end: the sensors' levels, the scores, the counts kept for the next minutes, and the notices. -/
def State.endMinute (s : State) : State :=
  let snapshot := s.health.counters
  let s := (List.range 64).foldl State.sensorMinute s
  let minutes := s.health.minutes + 1
  let old := s.health.scores
  let scores := s.allScores (decide (1440 ≤ minutes))
  let history := snapshot :: s.health.history.take 1439
  let s := s.setHealth { s.health with scores := scores, minutes := minutes, history := history, noticed := [] }
  (scoredUnits.foldl (fun s e => s.bandNotice old e) s).settleAlert

/-- MAGNITUDE_UPDATE (R504 to R509): the end of a powered minute, counted from step 1. -/
def execMagnitudeUpdate (now : Nat) (counted : List (Nat × Nat × Nat × Nat)) (s : State) : Out :=
  .next (if s.boot.inReset ∨ now < (s.health.minutes + 1) * 60000000000 then s
    else ((s.advanceTo now).countHardware counted).endMinute)

end Sys2Proof.Machine
end

