-- ==== Sys2Proof/Machine/Management.lean ====
section
/-! DEFINITION. Management frames that reach registers: MGMT_READ and MGMT_WRITE (R96, R97, R597 to R602), and the registers
whose access has an effect of its own. -/
namespace Sys2Proof.Machine

/-- Counts an access outside every block (R598, R606). -/
def State.countInvalid (s : State) : State := { s with boot := { s.boot with invalids := s.boot.invalids + 1 } }

/-- Status that stops an access at an address, else OK (R7, R97, R598). -/
def accessStop (a : Nat) : Byte := if a % 8 ≠ 0 then stAlign else if csrEnd ≤ a then stInvalid else stOk

/-- Reads `n` registers from address `a` on, in ascending order, up to the one that stops the access. -/
def State.readRegs (s : State) (m : Aid) : Nat → Nat → State × List Byte × Byte
  | _, 0 => (s, [], stOk)
  | a, n + 1 =>
    let st := accessStop a
    if st = stAlign then (s, [], st)
    else if st ≠ stOk then (s.countInvalid, [], st)
    else
      let (v, s) := s.takeCsr m a
      let (s, l, st) := s.readRegs m (a + 8) n
      (s, beBytes 8 v.toNat ++ l, st)

/-- Writes registers from address `a` on, up to the one that stops the access; before admission each extends M3 (R527,
R601). -/
def State.writeRegs (s : State) (m : Aid) : Nat → List W64 → State × Byte
  | _, [] => (s, stOk)
  | a, v :: l =>
    let st := accessStop a
    if st = stAlign then (s, st)
    else if st ≠ stOk then (s.countInvalid, st)
    else
      let s := if s.boot.admitted then s else s.extendM3 (beBytes 4 a ++ beBytes 8 v.toNat)
      (s.writeCsr m a v).writeRegs m (a + 8) l

/-- The address lies in the SWT block. -/
def inSwt (a : Nat) : Bool := decide (0x300000 ≤ a) && decide (a < 0x400000)

/-- A read of `count` registers by a registered manager, and its response. -/
def readAccess (h : Hdr) (t : Trailer) (addr count : Nat) (s : State) : State :=
  managed h t 8 (zeroChecked h (·.respondAuth h 0x70 stInvalid []) fun s =>
    if count = 0 ∨ 64 < count then s.respondAuth h 0x70 stInvalid []
    else
      match s.readRegs h.src addr count with
      | (s, l, st) => s.respondAuth h 0x70 st l) s

/-- A write of registers by a registered manager, and its response. After an expulsion of the own AID only the SWT block is
written (R602). A frame too short for the registers that it counts lies outside its range (R69, R70). -/
def writeAccess (h : Hdr) (t : Trailer) (addr : Nat) (values : List W64) (s : State) : State :=
  managed h t 8 (zeroChecked h (·.respondAuth h 0x71 stInvalid []) fun s =>
    if values = [] ∨ 64 < values.length ∨ h.length < 48 + 8 * values.length then s.respondAuth h 0x71 stInvalid []
    else if s.comps.selfExpelled && !(inSwt addr && inSwt (addr + 8 * values.length - 1)) then s.respondAuth h 0x71 stDenied []
    else
      match s.writeRegs h.src addr values with
      | (s, st) => s.respondAuth h 0x71 st []) s

/-- MGMT_READ. -/
def execMgmtRead (h : Hdr) (t : Trailer) (addr : W32) (count : BitVec 16) (s : State) : Out :=
  .next (readAccess h t addr.toNat count.toNat s)

/-- MGMT_WRITE. -/
def execMgmtWrite (h : Hdr) (t : Trailer) (addr : W32) (values : List W64) (s : State) : Out :=
  .next (writeAccess h t addr.toNat values s)

/-- CMP_REC_SEL: a MGMT_WRITE of it. -/
def execCmpRecSel (h : Hdr) (t : Trailer) (value : W64) (s : State) : Out := .next (writeAccess h t 0x400000 [value] s)

/-- SWT_FWD: a MGMT_WRITE of an AID's forwarding entry. -/
def execSwtFwd (h : Hdr) (t : Trailer) (aid : Aid) (value : W64) (s : State) : Out :=
  .next (writeAccess h t (0x380000 + 8 * aid.toNat) [value] s)

/-- GRD_FAULT_LATCH: a MGMT_WRITE of a core's latch for a program. -/
def execGrdFaultLatch (h : Hdr) (t : Trailer) (core program : Nat) (value : W64) (s : State) : Out :=
  .next (if 1024 ≤ core ∨ 4 ≤ program then s else writeAccess h t (0x810000 + 32 * core + 8 * program) [value] s)

/-- HLT_ALERT: a MGMT_WRITE of it. -/
def execHltAlert (h : Hdr) (t : Trailer) (value : W64) (s : State) : Out := .next (writeAccess h t 0x10CF000 [value] s)

/-- PWR_PEAK: a MGMT_READ of it. -/
def execPwrPeak (h : Hdr) (t : Trailer) (s : State) : Out := .next (readAccess h t pwrPeakAddr 1 s)

end Sys2Proof.Machine
end

