-- ==== Sys2Proof/Machine/Version1.lean ====
section
/-! DEFINITION. Frames of TFP version 1 (R114). -/
namespace Sys2Proof.Machine

/-- What reaches the operation of a version 1 frame: the port and the composition accept version 1, and the frame passes the
link and header checks without a hop check; every other one is discarded and counted. -/
def v1Frame (h : Hdr) (k : State → State) (s : State) : State :=
  if !s.answersTo h.dst then s
  else
    linkChecksV1 h (fun s =>
      let enabled := (s.portCfg h.port).v1 && match s.compIdx h.cid with
        | some e => (s.compAt e).modes.getLsbD 5
        | none => false
      if enabled then k s else s.bump 0 h.port 14) s

/-- The opcode byte of a version 1 request. -/
def v1Opcode : V1Op → Byte
  | .read => 0x01
  | .write _ => 0x02
  | .atomic _ _ _ => 0x03
  | .ckptRestore _ _ _ _ => 0x0C
  | .other opcode => opcode

/-- The operands lie within the limits of R114. -/
def v1Valid (offset : Nat) (len : Nat) : V1Op → Bool
  | .read => decide (1 ≤ len) && decide (len ≤ 256)
  | .write data => decide (data.length = len) && decide (1 ≤ len) && decide (len ≤ 256)
  | .atomic op _ _ => decide (op.toNat ≤ 2) && decide (len = 8) && decide (offset % 8 = 0)
  | .ckptRestore _ _ _ _ => true
  | .other _ => false

/-- What a violation is answered with: zeros and OK (R102), in the payload that an answer has. R114 gives a version 1 response no payload:
READ carries its data and no poison mask, ATOMIC the prior value in 8 bytes, CKPT_RESTORE a length in 8 bytes (DESIGN CHOICE, log
entry 98). -/
def v1Zero (len : Nat) : V1Op → List Byte
  | .read => zeros len
  | .write _ | .other _ => []
  | .atomic _ _ _ | .ckptRestore _ _ _ _ => zeros 8

/-- Serves an access of a version 1 frame, as cold brew. -/
def State.v1Access (s : State) (h : Hdr) (opcode : Byte) (rh : Handle) (right : Nat) (a : Access) : State :=
  let a := { a with origin := .v1 h opcode, src := h.src, owner := h.src, cid := h.cid, gen := h.gen
                    region := (s.localRegion rh).getD 0, position := s.standsFor rh }
  match s.refusal h a right with
  | some _ => s.respondV1 h opcode false []
  | none => s.submit a

/-- V1_FRAME. -/
def execV1Frame (h : Hdr) (region : BitVec 24) (offset : BitVec 40) (len : BitVec 16) (op : V1Op) (s : State) : Out :=
  .next (v1Frame h (fun s =>
    let h := { h with gen := s.genOf h.cid }
    let rh := mkHandle h.dst region.toNat
    let code := v1Opcode op
    let (block, pointers) := match op with
      | .ckptRestore src _ dst _ => (([] : List Handle), [src.rh, dst.rh])
      | .other _ => ([], [])
      | _ => ([rh], [])
    if !s.boot.admitted || s.comps.selfExpelled || !v1Valid offset.toNat len.toNat op then s.respondV1 h code false []
    else
      match compositionCheck s h block pointers with
      | some reason => (s.violation h.cid h.src h.port reason).respondV1 h code true (v1Zero len.toNat op)
      | none =>
        match op with
        | .read => s.v1Access h code rh rightRead { kind := .read, offset := offset.toNat, len := len.toNat }
        | .write data => s.v1Access h code rh rightWrite { kind := .write, offset := offset.toNat, len := data.length, data := data }
        | .atomic f a b =>
          s.v1Access h code rh rightAtomic
            { kind := .atomic, offset := offset.toNat, len := 8, atomicOp := f.toNat, opA := a.toNat, opB := b.toNat }
        | .ckptRestore src srcLen dst dstCap =>
          if s.fencedCid h.cid then s.respondV1 h code false [] else s.restore h true src srcLen.toNat dst dstCap.toNat
        | .other _ => s.respondV1 h code false []) s)

end Sys2Proof.Machine
end

