-- ==== Sys2Proof/Machine/Dispatch.lean ====
section
/-! DEFINITION. The dispatch of a command to its meaning. -/
namespace Sys2Proof.Machine

def exec (i : Instr) (s : State) : Host.Outcome State Fault Refusal :=
  match i with
  | .add issue f => Sys2Proof.Machine.execAdd issue f s
  | .sub issue f => Sys2Proof.Machine.execSub issue f s
  | .and issue f => Sys2Proof.Machine.execAnd issue f s
  | .or issue f => Sys2Proof.Machine.execOr issue f s
  | .xor issue f => Sys2Proof.Machine.execXor issue f s
  | .sll issue f => Sys2Proof.Machine.execSll issue f s
  | .srl issue f => Sys2Proof.Machine.execSrl issue f s
  | .sra issue f => Sys2Proof.Machine.execSra issue f s
  | .slt issue f => Sys2Proof.Machine.execSlt issue f s
  | .sltu issue f => Sys2Proof.Machine.execSltu issue f s
  | .mul issue f => Sys2Proof.Machine.execMul issue f s
  | .mulhu issue f => Sys2Proof.Machine.execMulhu issue f s
  | .divu issue f => Sys2Proof.Machine.execDivu issue f s
  | .remu issue f => Sys2Proof.Machine.execRemu issue f s
  | .min issue f => Sys2Proof.Machine.execMin issue f s
  | .max issue f => Sys2Proof.Machine.execMax issue f s
  | .sextb issue f => Sys2Proof.Machine.execSextb issue f s
  | .sexth issue f => Sys2Proof.Machine.execSexth issue f s
  | .sextw issue f => Sys2Proof.Machine.execSextw issue f s
  | .addi issue f => Sys2Proof.Machine.execAddi issue f s
  | .andi issue f => Sys2Proof.Machine.execAndi issue f s
  | .ori issue f => Sys2Proof.Machine.execOri issue f s
  | .xori issue f => Sys2Proof.Machine.execXori issue f s
  | .slti issue f => Sys2Proof.Machine.execSlti issue f s
  | .sltiu issue f => Sys2Proof.Machine.execSltiu issue f s
  | .shi issue f => Sys2Proof.Machine.execShi issue f s
  | .lui issue f => Sys2Proof.Machine.execLui issue f s
  | .jal issue f => Sys2Proof.Machine.execJal issue f s
  | .jalr issue f => Sys2Proof.Machine.execJalr issue f s
  | .beq issue f => Sys2Proof.Machine.execBeq issue f s
  | .bne issue f => Sys2Proof.Machine.execBne issue f s
  | .blt issue f => Sys2Proof.Machine.execBlt issue f s
  | .bge issue f => Sys2Proof.Machine.execBge issue f s
  | .bltu issue f => Sys2Proof.Machine.execBltu issue f s
  | .bgeu issue f => Sys2Proof.Machine.execBgeu issue f s
  | .sld issue f => Sys2Proof.Machine.execSld issue f s
  | .sst issue f => Sys2Proof.Machine.execSst issue f s
  | .samo issue f => Sys2Proof.Machine.execSamo issue f s
  | .vsld issue f => Sys2Proof.Machine.execVsld issue f s
  | .vsst issue f => Sys2Proof.Machine.execVsst issue f s
  | .ld issue f => Sys2Proof.Machine.execLd issue f s
  | .st issue f => Sys2Proof.Machine.execSt issue f s
  | .amo issue f => Sys2Proof.Machine.execAmo issue f s
  | .vld issue f => Sys2Proof.Machine.execVld issue f s
  | .vst issue f => Sys2Proof.Machine.execVst issue f s
  | .bget issue f => Sys2Proof.Machine.execBget issue f s
  | .bput issue f => Sys2Proof.Machine.execBput issue f s
  | .send issue f => Sys2Proof.Machine.execSend issue f s
  | .recv issue f => Sys2Proof.Machine.execRecv issue f s
  | .halt issue f => Sys2Proof.Machine.execHalt issue f s
  | .switch issue f => Sys2Proof.Machine.execSwitch issue f s
  | .twait issue f => Sys2Proof.Machine.execTwait issue f s
  | .rdsdc issue f => Sys2Proof.Machine.execRdsdc issue f s
  | .sacq issue f => Sys2Proof.Machine.execSacq issue f s
  | .srel issue f => Sys2Proof.Machine.execSrel issue f s
  | .sysRelease issue f => Sys2Proof.Machine.execSysRelease issue f s
  | .rdinfo issue f => Sys2Proof.Machine.execRdinfo issue f s
  | .rdcyc issue f => Sys2Proof.Machine.execRdcyc issue f s
  | .vadd issue f => Sys2Proof.Machine.execVadd issue f s
  | .vsub issue f => Sys2Proof.Machine.execVsub issue f s
  | .vmul issue f => Sys2Proof.Machine.execVmul issue f s
  | .vfma issue f => Sys2Proof.Machine.execVfma issue f s
  | .vfms issue f => Sys2Proof.Machine.execVfms issue f s
  | .vmin issue f => Sys2Proof.Machine.execVmin issue f s
  | .vmax issue f => Sys2Proof.Machine.execVmax issue f s
  | .vabs issue f => Sys2Proof.Machine.execVabs issue f s
  | .vneg issue f => Sys2Proof.Machine.execVneg issue f s
  | .vdiv issue f => Sys2Proof.Machine.execVdiv issue f s
  | .vsqrt issue f => Sys2Proof.Machine.execVsqrt issue f s
  | .vdot issue f => Sys2Proof.Machine.execVdot issue f s
  | .vdotmx issue f => Sys2Proof.Machine.execVdotmx issue f s
  | .vcvt issue f => Sys2Proof.Machine.execVcvt issue f s
  | .vand issue f => Sys2Proof.Machine.execVand issue f s
  | .vor issue f => Sys2Proof.Machine.execVor issue f s
  | .vxor issue f => Sys2Proof.Machine.execVxor issue f s
  | .vsel issue f => Sys2Proof.Machine.execVsel issue f s
  | .vcmpeq issue f => Sys2Proof.Machine.execVcmpeq issue f s
  | .vcmplt issue f => Sys2Proof.Machine.execVcmplt issue f s
  | .vcmple issue f => Sys2Proof.Machine.execVcmple issue f s
  | .vbcast issue f => Sys2Proof.Machine.execVbcast issue f s
  | .vext issue f => Sys2Proof.Machine.execVext issue f s
  | .vins issue f => Sys2Proof.Machine.execVins issue f s
  | .vmts issue f => Sys2Proof.Machine.execVmts issue f s
  | .vstm issue f => Sys2Proof.Machine.execVstm issue f s
  | .vdeq issue f => Sys2Proof.Machine.execVdeq issue f s
  | .xclr issue f => Sys2Proof.Machine.execXclr issue f s
  | .xadd issue f => Sys2Proof.Machine.execXadd issue f s
  | .xdot issue f => Sys2Proof.Machine.execXdot issue f s
  | .xdotmx issue f => Sys2Proof.Machine.execXdotmx issue f s
  | .xread issue f => Sys2Proof.Machine.execXread issue f s
  | .xexp issue f => Sys2Proof.Machine.execXexp issue f s
  | .ximp issue f => Sys2Proof.Machine.execXimp issue f s
  | .xflag issue f => Sys2Proof.Machine.execXflag issue f s
  | .reservedInstruction issue word => Sys2Proof.Machine.execReservedInstruction issue word s
  | .storeCompletion now id via => Sys2Proof.Machine.execStoreCompletion now id via s
  | .rollbackComplete now cid => Sys2Proof.Machine.execRollbackComplete now cid s
  | .refresh now ddr unit bank management => Sys2Proof.Machine.execRefresh now ddr unit bank management s
  | .read h a => Sys2Proof.Machine.execRead h a s
  | .readAcquire h a => Sys2Proof.Machine.execReadAcquire h a s
  | .readVolatile h a => Sys2Proof.Machine.execReadVolatile h a s
  | .write h a data => Sys2Proof.Machine.execWrite h a data s
  | .writeFlagged h a data => Sys2Proof.Machine.execWriteFlagged h a data s
  | .release h => Sys2Proof.Machine.execRelease h s
  | .atomic h a opA opB => Sys2Proof.Machine.execAtomic h a opA opB s
  | .publish h rh expected => Sys2Proof.Machine.execPublish h rh expected s
  | .cReadShared h a => Sys2Proof.Machine.execCReadShared h a s
  | .cReadOwn h a => Sys2Proof.Machine.execCReadOwn h a s
  | .cUpgrade h a => Sys2Proof.Machine.execCUpgrade h a s
  | .cWriteback h a data => Sys2Proof.Machine.execCWriteback h a data s
  | .cSnoopInv h a => Sys2Proof.Machine.execCSnoopInv h a s
  | .cSnoopFwd h a => Sys2Proof.Machine.execCSnoopFwd h a s
  | .cData h a data => Sys2Proof.Machine.execCData h a data s
  | .ownTake h a => Sys2Proof.Machine.execOwnTake h a s
  | .ownGive h a => Sys2Proof.Machine.execOwnGive h a s
  | .ownGiveComplete now id => Sys2Proof.Machine.execOwnGiveComplete now id s
  | .handoffOffer h oh recvAid recvCid => Sys2Proof.Machine.execHandoffOffer h oh recvAid recvCid s
  | .objectWritesDrained now obj => Sys2Proof.Machine.execObjectWritesDrained now obj s
  | .handoffAccept h oh seq => Sys2Proof.Machine.execHandoffAccept h oh seq s
  | .handoffTransferDone now obj => Sys2Proof.Machine.execHandoffTransferDone now obj s
  | .handoffDecline h oh seq => Sys2Proof.Machine.execHandoffDecline h oh seq s
  | .handoffDeadline now obj => Sys2Proof.Machine.execHandoffDeadline now obj s
  | .handoffNotice h oh seq => Sys2Proof.Machine.execHandoffNotice h oh seq s
  | .handoffDone h oh seq ownerAid ownerCid => Sys2Proof.Machine.execHandoffDone h oh seq ownerAid ownerCid s
  | .objectQuery h oh => Sys2Proof.Machine.execObjectQuery h oh s
  | .move h desc count => Sys2Proof.Machine.execMove h desc count s
  | .fault h desc mover access reason index va => Sys2Proof.Machine.execFault h desc mover access reason index va s
  | .resume h desc action => Sys2Proof.Machine.execResume h desc action s
  | .invalRange h root invalId start len => Sys2Proof.Machine.execInvalRange h root invalId start len s
  | .invalAck h invalId engine total => Sys2Proof.Machine.execInvalAck h invalId engine total s
  | .gatherPool h table tableGen fmt bags index out => Sys2Proof.Machine.execGatherPool h table tableGen fmt bags index out s
  | .rowWrite h table row tableGen scale offset codes => Sys2Proof.Machine.execRowWrite h table row tableGen scale offset codes s
  | .search h index query nq k probes pred result flags => Sys2Proof.Machine.execSearch h index query nq k probes pred result flags s
  | .ckptCompress h src srcLen dst dstCap etype mode => Sys2Proof.Machine.execCkptCompress h src srcLen dst dstCap etype mode s
  | .ckptRestore h src srcLen dst dstCap => Sys2Proof.Machine.execCkptRestore h src srcLen dst dstCap s
  | .stepOpen h t step => Sys2Proof.Machine.execStepOpen h t step s
  | .stepCommit h t step => Sys2Proof.Machine.execStepCommit h t step s
  | .commitSequenceEnd now cid => Sys2Proof.Machine.execCommitSequenceEnd now cid s
  | .rollback h t step => Sys2Proof.Machine.execRollback h t step s
  | .eclipse h t step origin cause => Sys2Proof.Machine.execEclipse h t step origin cause s
  | .eclipseQuiesced now cid => Sys2Proof.Machine.execEclipseQuiesced now cid s
  | .eclipseRestore now cid => Sys2Proof.Machine.execEclipseRestore now cid s
  | .eclipseComplete now cid => Sys2Proof.Machine.execEclipseComplete now cid s
  | .mirrorWrite h a step data => Sys2Proof.Machine.execMirrorWrite h a step data s
  | .parityDelta h a step data => Sys2Proof.Machine.execParityDelta h a step data s
  | .replicaAnswer h data poison => Sys2Proof.Machine.execReplicaAnswer h data poison s
  | .tick h count domain => Sys2Proof.Machine.execTick h count domain s
  | .mgmtRead h t addr count => Sys2Proof.Machine.execMgmtRead h t addr count s
  | .mgmtWrite h t addr values => Sys2Proof.Machine.execMgmtWrite h t addr values s
  | .mgmtNotice h t code seq body => Sys2Proof.Machine.execMgmtNotice h t code seq body s
  | .expel h t target nonce => Sys2Proof.Machine.execExpel h t target nonce s
  | .admitDevice h t target fuses => Sys2Proof.Machine.execAdmitDevice h t target fuses s
  | .hopAck h pcp flags ack epoch => Sys2Proof.Machine.execHopAck h pcp flags ack epoch s
  | .hopNak h pcp expected => Sys2Proof.Machine.execHopNak h pcp expected s
  | .unlistedOpcode h opcode order => Sys2Proof.Machine.execUnlistedOpcode h opcode order s
  | .v1Frame h region offset len op => Sys2Proof.Machine.execV1Frame h region offset len op s
  | .forwardFrame h f => Sys2Proof.Machine.execForwardFrame h f s
  | .otherFrame h kind => Sys2Proof.Machine.execOtherFrame h kind s
  | .pfcFrame now port sub enable quanta => Sys2Proof.Machine.execPfcFrame now port sub enable quanta s
  | .pauseExpiry now port sub pcp => Sys2Proof.Machine.execPauseExpiry now port sub pcp s
  | .xoffRefresh now port sub pcp => Sys2Proof.Machine.execXoffRefresh now port sub pcp s
  | .egressSelect now port sub => Sys2Proof.Machine.execEgressSelect now port sub s
  | .eapolFrame now port sub m => Sys2Proof.Machine.execEapolFrame now port sub m s
  | .ptpMessage now port sub seconds nanos sync => Sys2Proof.Machine.execPtpMessage now port sub seconds nanos sync s
  | .neighborSolicitation now port sub target ask mac => Sys2Proof.Machine.execNeighborSolicitation now port sub target ask mac s
  | .replayTimeout now port sub pcp => Sys2Proof.Machine.execReplayTimeout now port sub pcp s
  | .hopHoldExpiry now port sub => Sys2Proof.Machine.execHopHoldExpiry now port sub s
  | .linkTrainingStart now port sub => Sys2Proof.Machine.execLinkTrainingStart now port sub s
  | .linkUp now port sub speed partner => Sys2Proof.Machine.execLinkUp now port sub speed partner s
  | .trainingTimeout now port sub => Sys2Proof.Machine.execTrainingTimeout now port sub s
  | .linkLoss now port sub pcsLock => Sys2Proof.Machine.execLinkLoss now port sub pcsLock s
  | .fecDegrade now port sub codewords => Sys2Proof.Machine.execFecDegrade now port sub codewords s
  | .pfcWatchdog now port sub pcp => Sys2Proof.Machine.execPfcWatchdog now port sub pcp s
  | .d2dRetryFailure now link => Sys2Proof.Machine.execD2dRetryFailure now link s
  | .refclkLoss now clock => Sys2Proof.Machine.execRefclkLoss now clock s
  | .vio18Loss now => Sys2Proof.Machine.execVio18Loss now s
  | .thermalTrip now hbm sensor => Sys2Proof.Machine.execThermalTrip now hbm sensor s
  | .sensorFault now sensor => Sys2Proof.Machine.execSensorFault now sensor s
  | .throttleStep now mv ca w1ms w10ms w1s dieTemps hbmTemps => Sys2Proof.Machine.execThrottleStep now mv ca w1ms w10ms w1s dieTemps hbmTemps s
  | .lowInput now mv => Sys2Proof.Machine.execLowInput now mv s
  | .wholeDeviceReset trigger => Sys2Proof.Machine.execWholeDeviceReset trigger s
  | .inputUndervoltage mv => Sys2Proof.Machine.execInputUndervoltage mv s
  | .startSequence board => Sys2Proof.Machine.execStartSequence board s
  | .reloadN now widthNs board => Sys2Proof.Machine.execReloadN now widthNs board s
  | .presentTimer now => Sys2Proof.Machine.execPresentTimer now s
  | .requestTimeout now id => Sys2Proof.Machine.execRequestTimeout now id s
  | .tallyExpiry now idx => Sys2Proof.Machine.execTallyExpiry now idx s
  | .deviceResetEntry now => Sys2Proof.Machine.execDeviceResetEntry now s
  | .skyEdge now highNs => Sys2Proof.Machine.execSkyEdge now highNs s
  | .localTick now => Sys2Proof.Machine.execLocalTick now s
  | .tickAbsence now => Sys2Proof.Machine.execTickAbsence now s
  | .promote now entry => Sys2Proof.Machine.execPromote now entry s
  | .reserve now entry => Sys2Proof.Machine.execReserve now entry s
  | .commit now entry => Sys2Proof.Machine.execCommit now entry s
  | .calibrate now entry => Sys2Proof.Machine.execCalibrate now entry s
  | .testWindow now entry => Sys2Proof.Machine.execTestWindow now entry s
  | .reservationEnd now idx => Sys2Proof.Machine.execReservationEnd now idx s
  | .scheduledRelease now region sector => Sys2Proof.Machine.execScheduledRelease now region sector s
  | .promoteDue now idx => Sys2Proof.Machine.execPromoteDue now idx s
  | .calibrationDone now cls unit => Sys2Proof.Machine.execCalibrationDone now cls unit s
  | .calibrationLapse now cls unit kind => Sys2Proof.Machine.execCalibrationLapse now cls unit kind s
  | .sectorFillDone now region sector retries soft uncorrectable => Sys2Proof.Machine.execSectorFillDone now region sector retries soft uncorrectable s
  | .sectorMoveDone now region sector => Sys2Proof.Machine.execSectorMoveDone now region sector s
  | .flashProgramDone now region sector ok => Sys2Proof.Machine.execFlashProgramDone now region sector ok s
  | .garbageCollection now channel block eraseOk => Sys2Proof.Machine.execGarbageCollection now channel block eraseOk s
  | .patrolScrub now region line errors => Sys2Proof.Machine.execPatrolScrub now region line errors s
  | .regionDrained now region => Sys2Proof.Machine.execRegionDrained now region s
  | .retierCopyDone now region => Sys2Proof.Machine.execRetierCopyDone now region s
  | .releaseZeroingDone now region => Sys2Proof.Machine.execReleaseZeroingDone now region s
  | .snoopAnswer h => Sys2Proof.Machine.execSnoopAnswer h s
  | .flaggedStorePerform now id => Sys2Proof.Machine.execFlaggedStorePerform now id s
  | .releaseComplete now id => Sys2Proof.Machine.execReleaseComplete now id s
  | .publishPerform now id => Sys2Proof.Machine.execPublishPerform now id s
  | .moverDispatch now mover => Sys2Proof.Machine.execMoverDispatch now mover s
  | .walk now mover => Sys2Proof.Machine.execWalk now mover s
  | .stagingGrant now mover => Sys2Proof.Machine.execStagingGrant now mover s
  | .segmentDone now mover => Sys2Proof.Machine.execSegmentDone now mover s
  | .descriptorDone now mover => Sys2Proof.Machine.execDescriptorDone now mover s
  | .faultSlotCheck now idx => Sys2Proof.Machine.execFaultSlotCheck now idx s
  | .parkedSlotFree now mover => Sys2Proof.Machine.execParkedSlotFree now mover s
  | .invalQuiesce now mover => Sys2Proof.Machine.execInvalQuiesce now mover s
  | .lookup now req bag entry => Sys2Proof.Machine.execLookup now req bag entry s
  | .heldLookup now req bag entry => Sys2Proof.Machine.execHeldLookup now req bag entry s
  | .bagWrite now req bag => Sys2Proof.Machine.execBagWrite now req bag s
  | .migrationCopyTurn now idx => Sys2Proof.Machine.execMigrationCopyTurn now idx s
  | .mergeStart now index => Sys2Proof.Machine.execMergeStart now index s
  | .mergeTombstones now index => Sys2Proof.Machine.execMergeTombstones now index s
  | .mergeRepair now index => Sys2Proof.Machine.execMergeRepair now index s
  | .searchBatch now index => Sys2Proof.Machine.execSearchBatch now index s
  | .lensVisit now index bad => Sys2Proof.Machine.execLensVisit now index bad s
  | .searchResults now index => Sys2Proof.Machine.execSearchResults now index s
  | .cuppingPassEnd now req group => Sys2Proof.Machine.execCuppingPassEnd now req group s
  | .groupWriteDone now req group => Sys2Proof.Machine.execGroupWriteDone now req group s
  | .restoreGroup now req group => Sys2Proof.Machine.execRestoreGroup now req group s
  | .rebuildChunk now group => Sys2Proof.Machine.execRebuildChunk now group s
  | .generationRetired now cid => Sys2Proof.Machine.execGenerationRetired now cid s
  | .compReleaseDone now cid => Sys2Proof.Machine.execCompReleaseDone now cid s
  | .clusterQuiesced now cluster => Sys2Proof.Machine.execClusterQuiesced now cluster s
  | .clusterZeroed now cluster => Sys2Proof.Machine.execClusterZeroed now cluster s
  | .programLoaded now idx => Sys2Proof.Machine.execProgramLoaded now idx s
  | .programUnloaded now idx => Sys2Proof.Machine.execProgramUnloaded now idx s
  | .blockDrainDone now cls unit => Sys2Proof.Machine.execBlockDrainDone now cls unit s
  | .testEnd now cls unit result => Sys2Proof.Machine.execTestEnd now cls unit result s
  | .imageProgrammed now readBackOk => Sys2Proof.Machine.execImageProgrammed now readBackOk s
  | .attestKeyReady now fuses => Sys2Proof.Machine.execAttestKeyReady now fuses s
  | .magnitudeUpdate now counted => Sys2Proof.Machine.execMagnitudeUpdate now counted s
  | .dimmTemperaturePoll now temps => Sys2Proof.Machine.execDimmTemperaturePoll now temps s
  | .coreError now core place => Sys2Proof.Machine.execCoreError now core place s
  | .mailboxDelivery now idx => Sys2Proof.Machine.execMailboxDelivery now idx s
  | .gridResponse now id via data poison => Sys2Proof.Machine.execGridResponse now id via data poison s
  | .regionCreate o size placement redundancy shape group => Sys2Proof.Machine.execRegionCreate o size placement redundancy shape group s
  | .regionAssign o rh rights cid gen => Sys2Proof.Machine.execRegionAssign o rh rights cid gen s
  | .regionRevoke o rh => Sys2Proof.Machine.execRegionRevoke o rh s
  | .regionRelease o rh => Sys2Proof.Machine.execRegionRelease o rh s
  | .regionRetier o rh placement => Sys2Proof.Machine.execRegionRetier o rh placement s
  | .compCreate o cid gen modes faultAgent journal ring ringCount => Sys2Proof.Machine.execCompCreate o cid gen modes faultAgent journal ring ringCount s
  | .compAgent o cid action flags aid ports => Sys2Proof.Machine.execCompAgent o cid action flags aid ports s
  | .compAdvance o cid modes => Sys2Proof.Machine.execCompAdvance o cid modes s
  | .compRetire o cid => Sys2Proof.Machine.execCompRetire o cid s
  | .compRelease o cid flags => Sys2Proof.Machine.execCompRelease o cid flags s
  | .compMeter o cid flags => Sys2Proof.Machine.execCompMeter o cid flags s
  | .compQuery o cid => Sys2Proof.Machine.execCompQuery o cid s
  | .agentDead o aid cid => Sys2Proof.Machine.execAgentDead o aid cid s
  | .orbitDefine o orbit cid period anchor first count => Sys2Proof.Machine.execOrbitDefine o orbit cid period anchor first count s
  | .transitLoad o rh offset first count => Sys2Proof.Machine.execTransitLoad o rh offset first count s
  | .orbitEnable o orbit enable => Sys2Proof.Machine.execOrbitEnable o orbit enable s
  | .orbitDisable o orbit disable => Sys2Proof.Machine.execOrbitDisable o orbit disable s
  | .skyRearm o => Sys2Proof.Machine.execSkyRearm o s
  | .clusterAssign o mask cid => Sys2Proof.Machine.execClusterAssign o mask cid s
  | .clusterRelease o mask => Sys2Proof.Machine.execClusterRelease o mask s
  | .programLoad o mask program desc => Sys2Proof.Machine.execProgramLoad o mask program desc s
  | .programStart o mask program args => Sys2Proof.Machine.execProgramStart o mask program args s
  | .programSwitch o mask program => Sys2Proof.Machine.execProgramSwitch o mask program s
  | .programUnload o mask program => Sys2Proof.Machine.execProgramUnload o mask program s
  | .rowMigrate o table direction count list => Sys2Proof.Machine.execRowMigrate o table direction count list s
  | .searchAttach o desc mask program => Sys2Proof.Machine.execSearchAttach o desc mask program s
  | .searchDetach o desc => Sys2Proof.Machine.execSearchDetach o desc s
  | .groupDefine o group record => Sys2Proof.Machine.execGroupDefine o group record s
  | .groupTakeover o group position => Sys2Proof.Machine.execGroupTakeover o group position s
  | .groupRebuild o group position spareAid spareRegion => Sys2Proof.Machine.execGroupRebuild o group position spareAid spareRegion s
  | .imageWrite o image length => Sys2Proof.Machine.execImageWrite o image length s
  | .reset o scope x y partition mask => Sys2Proof.Machine.execReset o scope x y partition mask s
  | .blockDrain o cls unit => Sys2Proof.Machine.execBlockDrain o cls unit s
  | .blockReturn o cls unit => Sys2Proof.Machine.execBlockReturn o cls unit s
  | .testOrder o cls kind unit margin when testId => Sys2Proof.Machine.execTestOrder o cls kind unit margin when testId s
  | .calibRun o cls kind unit => Sys2Proof.Machine.execCalibRun o cls kind unit s
  | .deviceReset o target nonce => Sys2Proof.Machine.execDeviceReset o target nonce s
  | .attest o cid nonce report fuses => Sys2Proof.Machine.execAttest o cid nonce report fuses s
  | .floorRaise o floor nonce fuses => Sys2Proof.Machine.execFloorRaise o floor nonce fuses s
  | .lcRetire o target nonce fuses => Sys2Proof.Machine.execLcRetire o target nonce fuses s
  | .macsecCak o target flags ckn wrapped => Sys2Proof.Machine.execMacsecCak o target flags ckn wrapped s
  | .portRetrain o port sub => Sys2Proof.Machine.execPortRetrain o port sub s
  | .cmpRecSel h t value => Sys2Proof.Machine.execCmpRecSel h t value s
  | .swtFwd h t aid value => Sys2Proof.Machine.execSwtFwd h t aid value s
  | .grdFaultLatch h t core program value => Sys2Proof.Machine.execGrdFaultLatch h t core program value s
  | .hltAlert h t value => Sys2Proof.Machine.execHltAlert h t value s
  | .pwrPeak h t => Sys2Proof.Machine.execPwrPeak h t s
  | .lcManufacture now fuses => Sys2Proof.Machine.execLcManufacture now fuses s
  | .provision now ownerHash wrapKey fuses => Sys2Proof.Machine.execProvision now ownerHash wrapKey fuses s
  | .jtagToken now level challenge token => Sys2Proof.Machine.execJtagToken now level challenge token s
  | .scanTest now => Sys2Proof.Machine.execScanTest now s
  | .boundaryScan now instruction => Sys2Proof.Machine.execBoundaryScan now instruction s

end Sys2Proof.Machine
end

