-- ==== Sys2Proof/Safety.lean ====
section
/-! DEFINITION. What counts as a safe step, and the conditions under which a command is taken, in the terms that the
statements use. -/
namespace Sys2Proof

/-- Whom an order answers. -/
def Order.ref (o : Order) : Machine.OrderRef := { h := o.hdr, orderId := o.orderId }

end Sys2Proof
namespace Sys2Proof.Machine

/-- The step answers a next state. -/
def State.steps (s s' : State) : Prop := step s = .next s'

/-- The device holds no access, request or record that it could go on with of itself. -/
def State.holdsNothing (s : State) : Bool :=
  s.reqs.held.isEmpty && s.reqs.arrivals.isEmpty && s.emb.service.isEmpty && s.emb.queue.isEmpty && s.emb.ingress.isEmpty &&
    s.emb.jobs.isEmpty && s.ckpt.service.isEmpty && s.indexes.isEmpty && s.movers.parked.isEmpty

/-- The store's bytes are in canonical form. -/
def State.Inv (s : State) : Prop := Memory.wf s.store.mem = true

/-! ### The grid -/

/-- A thread issues an instruction: the device is in service, the thread may issue (R250), and the word at its pc is the
instruction's (R272). -/
def Issues (i : Issue) (c : Instr) (s : State) : Prop :=
  s.inService = true ∧ (s.advanceTo i.now).mayIssue i.thread = true ∧ gridOperandsOk c = true ∧
    ∃ w, ((s.advanceTo i.now).programOf i.thread).code[((s.advanceTo i.now).ctx i.thread).pc]? = some w ∧ encodeGrid c = some w

/-! ### Frames -/

/-- Steps 1 to 3 of R72 pass: the frame arrives at a sub-port that is UP of a port that does not drain, verifies, is tagged,
comes in its port's encapsulation, finds room in the packet buffer, is next in hop order, and is as long as its opcode's fixed payload. -/
def FrameTaken (mgmt : Bool) (h : Hdr) (fixed : Nat) (s : State) : Prop :=
  s.answersTo h.dst = true ∧ s.arrives h.port h.sub = true ∧ h.check = .passed ∧ h.tagged = true ∧
    s.encapOk h = true ∧ fixed ≤ h.length ∧ h.length ≤ h.received ∧
    (let u := s.advanceTo h.now
     u.portDrain h.port = false ∧ (mgmt || !u.macClosed h.port h.sub) = true ∧
       ((u.bump 0 h.port 0).bufferPlace (subKey h.port h.sub) h.pcp (bufferBytes h.length)).isSome = true ∧
       (hopCheck h (u.bump 0 h.port 0)).1 = true)

/-- The state in which the frame's opcode takes effect: the frame is counted, acknowledged if its PCP is lossless, and marked if it
joins a long queue (R71). -/
def State.afterLink (s : State) (h : Hdr) : State := (hopCheck h ((s.advanceTo h.now).bump 0 h.port 0)).2.markConsumed h

/-- A response is taken: it answers a request that the device has issued, by its tag and from the agent asked, and steps 1 to 3 of
R72 pass (R68, R75). -/
def AnswerTaken (h : Hdr) (q : Issued) (s : State) : Prop :=
  (s.reqs.issued.find? fun r => decide (r.id = h.tag.toNat) && decide (r.dst = h.src)) = some q ∧
    FrameTaken false h (fixedPayload q.opcode true) s

/-- Step 5 of R72 passes too: the trailer is a registered manager's, with a new counter of this epoch (R95, R532). -/
def ManagedTaken (h : Hdr) (t : Trailer) (fixed : Nat) (s : State) : Prop :=
  FrameTaken true h (fixed + 40) s ∧ trailerOk h t (s.afterLink h) = true

/-- The state in which a management frame takes effect: its counter is the last one accepted from its manager. -/
def State.afterTrailer (s : State) (h : Hdr) (t : Trailer) : State :=
  let u := s.afterLink h
  { u with sec := { u.sec with lastCounter := u.sec.lastCounter.set 0 h.src.toNat t.counter } }

/-- An order is taken: its frame is, its header's zero fields are zero (R70), its order id is new from its manager, and the device has not expelled itself
(R96, R421, R444). -/
def OrderTaken (o : Order) (s : State) : Prop :=
  ManagedTaken o.hdr o.trailer 64 s ∧ o.hdr.zeroed = true ∧ s.comps.selfExpelled = false ∧
    s.comps.results.all (fun r => decide (r.manager ≠ o.hdr.src) || decide (r.orderId ≠ o.orderId)) = true

/-- The state in which an order takes effect: it is kept for repetitions. -/
def State.orderTaken (s : State) (o : Order) : State :=
  (s.afterTrailer o.hdr o.trailer).keepOrder o.hdr.src o.orderId

/-- A member's request is taken: its frame is, its header's zero fields are zero (R70), the device is admitted, and the composition check passes (R72, R74, R427). -/
def MemberTaken (h : Hdr) (fixed : Nat) (block pointers : List Handle) (s : State) : Prop :=
  FrameTaken false h fixed s ∧ h.zeroed = true ∧ s.boot.admitted = true ∧ s.comps.selfExpelled = false ∧
    compositionCheck (s.afterLink h) h block pointers = none

/-- An authenticated step frame is taken (R70, R72 step 5). -/
def StepTaken (h : Hdr) (t : Trailer) (fixed : Nat) (s : State) : Prop :=
  FrameTaken false h (fixed + 40) s ∧ trailerOk h t (s.afterLink h) = true ∧ h.zeroed = true

end Sys2Proof.Machine
end

