-- ==== Sys2Proof/Certificates/Slice0/Obligations.lean ====
section
/-! DEFINITION. The statements for the provers. -/
open Sys2Proof Sys2Proof.Machine

/-- A step is exec of the front command on the state with the rest of the queue; on an empty queue the device goes on with what it holds, and idles where it holds nothing (the model's choice, log entries 1 and 92). -/
def Obligations.StepRunsFrontCommand : Prop :=
  (∀ (c : Instr) (rest : List Instr) (s : State),
    step { s with pending := c :: rest } = exec c { s with pending := rest }) ∧
  (∀ s : State, s.pending = [] → step s = .next s.progress ∧
    (s.holdsNothing = true → step s = .next s))

/-- The state right after reset: every output as in reset, and nothing held (R487, R630); the values that no rule states are log entry 2's. -/
def Obligations.ResetHoldsOutputsIdle : Prop :=
  State.reset.pins = { serdesIdle := true, memReset := true, xspiHiZ := true } ∧ State.reset.boot.inReset = true ∧
    State.reset.boot.admitted = false ∧ State.reset.inService = false ∧ State.reset.store = {} ∧ State.reset.comps = {} ∧
    State.reset.grid = {} ∧ State.reset.dir = {} ∧ State.reset.reqs = {} ∧ State.reset.sky = {} ∧ State.reset.health = {} ∧
    State.reset.sec = {} ∧ State.reset.switch = {} ∧ State.reset.movers = {} ∧ State.reset.emb = {} ∧
    State.reset.indexes = [] ∧ State.reset.ckpt = {} ∧ State.reset.blocks = [] ∧ State.reset.windows = [] ∧
    State.reset.power = {} ∧ State.reset.pending = [] ∧ State.reset.Inv

/-- Words written out bit by bit from R273 and R275. -/
def Obligations.GridWordsDecode : Prop :=
  ∀ i : Issue,
    decodeGrid i 0x04EE0000 = some (.add i { sd := 1, sa := 6, sb := 7 }) ∧
    decodeGrid i 0x09600000 = some (.addi i { sd := 2, sa := 6, imm := 0 }) ∧
    decodeGrid i 0x391FFFFD = some (.blt i { sa := 2, sb := 1, off := 0xFFFFD }) ∧
    decodeGrid i 0x88000000 = some (.halt i { sd := 0, sa := 0, sb := 0 }) ∧
    decodeGrid i 0x88000004 = some (.sacq i { sd := 0, sa := 0, sb := 0 }) ∧
    decodeGrid i 0x625DC010 = some (.ld i { sd := 4, sh := 5, so := 6, size := 3, var := 2, imm := 0x10 }) ∧
    decodeGrid i 0x54080000 = some (.vsld i { vd := 0, sa := 2, imm := 0 }) ∧
    decodeGrid i 0x00000000 = none ∧ decodeGrid i 0xFFFFFFFF = none

/-- Decode of encode is the identity on the grid instructions that R275 does not reserve, and encode of decode on the words that are none of its ILLEGAL ones. -/
def Obligations.GridRoundTrip : Prop :=
  (∀ (c : Instr) (w : W32), (∀ (i : Issue) (x : W32), c ≠ .reservedInstruction i x) → encodeGrid c = some w →
    gridOperandsOk c = true → ∃ i : Issue, decodeGrid i w = some c) ∧
  (∀ (i : Issue) (w : W32) (c : Instr), decodeGrid i w = some c → encodeGrid c = some w ∧ gridOperandsOk c = true)

/-- ALU: sd takes the value of R276, its poison is that of the sources (of sa alone for SEXT*, log entry 40), and pc advances. -/
def Obligations.GridAluResults : Prop :=
  ∀ (i : Issue) (f : FmtR) (s : State),
    let u := s.advanceTo i.now
    let a := (u.ctx i.thread).reg f.sa
    let b := (u.ctx i.thread).reg f.sb
    let n := (b &&& 63).toNat
    let pa := (u.ctx i.thread).regPoison f.sa
    let p := pa || (u.ctx i.thread).regPoison f.sb
    ∀ e ∈ ([(.add i f, a + b, p), (.sub i f, a - b, p), (.and i f, a &&& b, p), (.or i f, a ||| b, p), (.xor i f, a ^^^ b, p),
        (.sll i f, a <<< n, p), (.srl i f, a >>> n, p), (.sra i f, a.sshiftRight n, p),
        (.slt i f, if a.slt b then 1 else 0, p), (.sltu i f, if a.ult b then 1 else 0, p),
        (.mul i f, BitVec.ofNat 64 (a.toNat * b.toNat), p), (.mulhu i f, BitVec.ofNat 64 (a.toNat * b.toNat / 2 ^ 64), p),
        (.divu i f, if b = 0 then BitVec.allOnes 64 else a / b, p), (.remu i f, if b = 0 then a else a % b, p),
        (.min i f, if b.slt a then b else a, p), (.max i f, if b.slt a then a else b, p),
        (.sextb i f, (a.setWidth 8).signExtend 64, pa), (.sexth i f, (a.setWidth 16).signExtend 64, pa),
        (.sextw i f, (a.setWidth 32).signExtend 64, pa)] : List (Instr × W64 × Bool)),
      Issues i e.1 s → exec e.1 s = .next (u.writeReg i.thread f.sd e.2.1 e.2.2)

/-- Immediates and LUI. -/
def Obligations.GridImmediateResults : Prop :=
  ∀ (i : Issue) (f : FmtI) (g : FmtU) (s : State),
    let u := s.advanceTo i.now
    let a := (u.ctx i.thread).reg f.sa
    let pa := (u.ctx i.thread).regPoison f.sa
    let sx := f.imm.signExtend 64
    let zx := f.imm.setWidth 64
    let n := f.imm.toNat % 64
    (∀ e ∈ ([(.addi i f, a + sx), (.andi i f, a &&& zx), (.ori i f, a ||| zx), (.xori i f, a ^^^ zx),
        (.slti i f, if a.slt sx then 1 else 0), (.sltiu i f, if a.ult sx then 1 else 0),
        (.shi i f, if f.imm.toNat / 64 = 0 then a <<< n else if f.imm.toNat / 64 = 1 then a >>> n else a.sshiftRight n)] :
          List (Instr × W64)),
      Issues i e.1 s → exec e.1 s = .next (u.writeReg i.thread f.sd e.2 pa)) ∧
    (Issues i (.lui i g) s → exec (.lui i g) s = .next (u.writeReg i.thread g.sd ((g.imm.signExtend 64) <<< 20) false))

/-- JAL, JALR (its target by log entry 41) and the branches, with a target within the code and no poison. -/
def Obligations.GridControlTransfers : Prop :=
  ∀ (i : Issue) (f : FmtU) (g : FmtI) (b : FmtB) (s : State),
    let u := s.advanceTo i.now
    let t := i.thread
    let c := u.ctx t
    let code := (u.programOf t).code.length
    let link := BitVec.ofNat 64 (c.pc + 1)
    let x := c.reg b.sa
    let y := c.reg b.sb
    (∀ z : Nat, (z : Int) = c.pc + f.imm.toInt → z < code → Issues i (.jal i f) s →
      exec (.jal i f) s = .next (u.setCtx t { c.setReg f.sd link false with pc := z })) ∧
    (∀ z : Nat, (z : Int) = (c.reg g.sa).toInt + g.imm.toInt → z < code → c.regPoison g.sa = false → Issues i (.jalr i g) s →
      exec (.jalr i g) s = .next (u.setCtx t { c.setReg g.sd link false with pc := z })) ∧
    (∀ z : Nat, (z : Int) = c.pc + b.off.toInt → z < code → c.regPoison b.sa = false → c.regPoison b.sb = false →
      ∀ e ∈ ([(.beq i b, x == y), (.bne i b, !(x == y)), (.blt i b, x.slt y), (.bge i b, !x.slt y), (.bltu i b, x.ult y),
          (.bgeu i b, !x.ult y)] : List (Instr × Bool)),
        Issues i e.1 s → exec e.1 s = .next (u.setCtx t { c with pc := if e.2 then z else c.pc + 1 }))

/-- CODE_RANGE at a branch or JAL, taken or not, and at an index beyond the code whatever the instruction (R277). JALR and a poisoned branch check poison first. -/
def Obligations.GridCodeRangeFaults : Prop :=
  ∀ (i : Issue) (f : FmtU) (g : FmtI) (b : FmtB) (s : State),
    let u := s.advanceTo i.now
    let t := i.thread
    let c := u.ctx t
    let code : Int := (u.programOf t).code.length
    let out := fun z : Int => z < 0 ∨ code ≤ z
    (out (c.pc + f.imm.toInt) → Issues i (.jal i f) s → exec (.jal i f) s = .next (u.fault t 2)) ∧
    (out ((c.reg g.sa).toInt + g.imm.toInt) → c.regPoison g.sa = false → Issues i (.jalr i g) s →
      exec (.jalr i g) s = .next (u.fault t 2)) ∧
    (out (c.pc + b.off.toInt) → c.regPoison b.sa = false → c.regPoison b.sb = false →
      ∀ e ∈ ([.beq i b, .bne i b, .blt i b, .bge i b, .bltu i b, .bgeu i b] : List Instr),
        Issues i e s → exec e s = .next (u.fault t 2)) ∧
    (s.inService = true → u.mayIssue t = true → code ≤ c.pc →
      ∀ (e : Instr) (k : Thread → State → State), gridStep i e k s = u.fault t 2)

/-- Scratch accesses within the window (R280 to R282), with the poison of R271. -/
def Obligations.GridScratchAccesses : Prop :=
  ∀ (i : Issue) (m : FmtSM) (g : FmtSA) (v : FmtSV) (s : State),
    let u := s.advanceTo i.now
    let t := i.thread
    let c := u.ctx t
    let inside := fun (a : Nat) (n : Nat) => a + n ≤ (u.programOf t).scratchBytes
    let base := (u.programOf t).scratch0
    let bytes := fun (a n : Nat) => (u.core t.core).readScratch (base + a) n
    let bad := fun (a n : Nat) => ((u.core t.core).readPoison (base + a) n).any fun b => b
    let n := 2 ^ m.size.toNat
    let w := if g.size = 0 then 4 else 8
    (∀ a : Nat, (a : Int) = (c.reg m.sa).toNat + m.imm.toInt → inside a n → c.regPoison m.sa = false →
      (Issues i (.sld i m) s →
        exec (.sld i m) s = .next (u.writeReg t m.sd (BitVec.ofNat 64 (ofLe (bytes a n))) (bad a n))) ∧
      (Issues i (.sst i m) s →
        let u' := u.putScratch t a (leBytes n (c.reg m.sd).toNat) (c.regPoison m.sd)
        exec (.sst i m) s = .next (u'.retire t (u'.ctx t)))) ∧
    (∀ a : Nat, a = (c.reg g.sa).toNat → a % w = 0 → inside a w → c.regPoison g.sa = false → g.fn.toNat ≤ 9 →
      Issues i (.samo i g) s →
        let prior := ofLe (bytes a w)
        let x := if g.fn = 1 then c.reg g.sd else c.reg g.sb
        let new := atomicResult g.fn.toNat w prior x.toNat (c.reg g.sb).toNat
        let p := c.regPoison g.sb || (decide (g.fn = 1) && c.regPoison g.sd)
        let u' := u.putScratch t a (leBytes w new) (bad a w || p)
        exec (.samo i g) s = .next (u'.writeReg t g.sd (BitVec.ofNat 64 prior) (bad a w))) ∧
    (∀ a : Nat, (a : Int) = (c.reg v.sa).toNat + 64 * v.imm.toInt → a % 64 = 0 → inside a 64 → c.regPoison v.sa = false →
      c.slot.isSome = true →
      (Issues i (.vsld i v) s →
        exec (.vsld i v) s = .next (u.writeVec t v.vd.toNat (BitVec.ofNat 512 (ofLe (bytes a 64))) (bad a 64))) ∧
      (Issues i (.vsst i v) s →
        let u' := u.putScratch t a (leBytes 64 ((u.slotOf t).vec v.vd.toNat).toNat) ((u.slotOf t).vecPoison v.vd.toNat)
        exec (.vsst i v) s = .next (u'.retire t (u'.ctx t))))

/-- Requests to the store: what is sent, and whether the thread waits (R253, R284 to R288). -/
def Obligations.GridStoreRequests : Prop :=
  ∀ (i : Issue) (f : FmtRM) (v : FmtRV) (g : FmtAM) (b : FmtBT) (s : State),
    let u := s.advanceTo i.now
    let t := i.thread
    let c := u.ctx t
    let op := fun var : BitVec 2 => if var = 0 then (0x01 : Byte) else if var = 1 then 0x03 else 0x02
    let wr := fun var : Nat => if var = 0 then (0x04 : Byte) else 0x05
    u.outstanding t.core < 256 →
    (∀ z : Nat, (z : Int) = (c.reg f.so).toNat + f.imm.toInt → z < 2 ^ 48 → c.regPoison f.sh = false → c.regPoison f.so = false →
      let n := 2 ^ f.size.toNat
      let rh := (c.reg f.sh).setWidth 40
      (Issues i (.ld i f) s → exec (.ld i f) s =
        .next (u.issueLoad t { thread := t, opcode := op f.var, rh := rh, offset := z, len := n } (.load f.sd n))) ∧
      (c.regPoison f.sd = false → Issues i (.st i f) s → exec (.st i f) s =
        .next (u.issueStore t { thread := t, isWrite := true, opcode := wr f.var.toNat, rh := rh, offset := z, len := n
                                data := leBytes n (c.reg f.sd).toNat }))) ∧
    (∀ z : Nat, z = (c.reg g.so).toNat → z < 2 ^ 48 → c.regPoison g.sh = false → c.regPoison g.so = false → g.fn.toNat ≤ 9 →
      let n := if g.size = 0 then 4 else 8
      let x := if g.fn = 1 then c.reg g.sd else c.reg g.sb
      z % n = 0 → c.regPoison g.sb = false → (g.fn = 1 → c.regPoison g.sd = false) →
      Issues i (.amo i g) s → exec (.amo i g) s =
        .next (u.issueLoad t { thread := t, opcode := 0x07, rh := (c.reg g.sh).setWidth 40, offset := z, len := n
                               sub := BitVec.ofNat 8 g.fn.toNat, opA := x.toNat % 2 ^ (8 * n)
                               opB := (c.reg g.sb).toNat % 2 ^ (8 * n) } (.amo g.sd n))) ∧
    (∀ z : Nat, (z : Int) = (c.reg v.so).toNat + v.imm.toInt → z < 2 ^ 48 → c.regPoison v.sh = false → c.regPoison v.so = false →
      c.slot.isSome = true →
      let rh := (c.reg v.sh).setWidth 40
      (Issues i (.vld i v) s → exec (.vld i v) s =
        .next (u.issueLoad t { thread := t, opcode := op v.var, rh := rh, offset := z, len := 64 } (.vload v.vd))) ∧
      ((u.slotOf t).vecPoison v.vd.toNat = false → Issues i (.vst i v) s → exec (.vst i v) s =
        .next (u.issueStore t { thread := t, isWrite := true, opcode := wr v.var.toNat, rh := rh, offset := z, len := 64
                                data := leBytes 64 ((u.slotOf t).vec v.vd.toNat).toNat }))) ∧
    (∀ z a n : Nat, z = (c.reg b.so).toNat → z < 2 ^ 48 → a = (c.reg b.sa).toNat → n = (c.reg b.sl).toNat → 1 ≤ n → n ≤ 4096 →
      a + n ≤ (u.programOf t).scratchBytes →
      c.regPoison b.sl = false → c.regPoison b.sh = false → c.regPoison b.so = false → c.regPoison b.sa = false →
      let rh := (c.reg b.sh).setWidth 40
      let at_ := (u.programOf t).scratch0 + a
      (Issues i (.bget i b) s → exec (.bget i b) s =
        .next (u.issueLoad t { thread := t, opcode := 0x01, rh := rh, offset := z, len := n } (.block at_ n z))) ∧
      (((u.core t.core).readPoison at_ n).all (fun p => !p) = true → Issues i (.bput i b) s → exec (.bput i b) s =
        .next (u.issueStore t { thread := t, isWrite := true, opcode := wr b.var.toNat, rh := rh, offset := z, len := n
                                data := (u.core t.core).readScratch at_ n })))

/-- SEND and RECV (R292 to R294). -/
def Obligations.GridMessages : Prop :=
  ∀ (i : Issue) (f : FmtSend) (g : FmtRecv) (s : State),
    let u := s.advanceTo i.now
    let t := i.thread
    let c := u.ctx t
    let p := u.programOf t
    let cid := (u.threadCluster t).cid
    (∀ a target queue : Nat, a = (c.reg f.sa).toNat → a % 8 = 0 →
      target = 32 * ((c.reg f.sb).toNat / 256 % 32) + (c.reg f.sb).toNat % 32 → queue = (c.reg f.sb).toNat / 65536 % 16 →
      let n := 8 * (f.len.toNat + 1)
      a + n ≤ p.scratchBytes → c.regPoison f.sa = false → c.regPoison f.sb = false → Issues i (.send i f) s →
      let m := u.messageAt t a n
      let d := u.core target
      exec (.send i f) s = .next
        (if u.queueFull cid target queue = false then (u.postMessage t cid target queue m).writeReg t f.sd 0 false
         else if f.blk = 0 then u.writeReg t f.sd 1 false
         else (u.setCore target { d with sendWait := d.sendWait ++ [{ thread := t, queue := queue, msg := m }] }).await t
           .waitMsg (.send target f.sd))) ∧
    (∀ a : Nat, a = (c.reg g.sa).toNat → a + 64 ≤ p.scratchBytes → c.regPoison g.sa = false →
      p.queue0 ≤ g.queue.toNat → g.queue.toNat < p.queue0 + p.queues → Issues i (.recv i g) s →
      let k := u.core t.core
      (∀ m rest, k.queues.get [] g.queue.toNat = m :: rest → exec (.recv i g) s = .next
        (((u.setCore t.core { k with queues := k.queues.set [] g.queue.toNat rest }).receiveInto t (p.scratch0 + a) g.sd m).wakeSenders
          t.core g.queue.toNat 1)) ∧
      (k.queues.get [] g.queue.toNat = [] → exec (.recv i g) s = .next
        (if g.blk = 0 then u.writeReg t g.sd 0 false
         else (u.setCore t.core { k with recvWait := k.recvWait ++ [(t.ctx, g.queue.toNat)] }).await t .waitMsg
           (.recv g.queue.toNat (p.scratch0 + a) g.sd))))

/-- The SYS functions (R278): their effects on an unpoisoned operand. -/
def Obligations.GridSystemResults : Prop :=
  ∀ (i : Issue) (f : FmtR) (s : State),
    let u := s.advanceTo i.now
    let t := i.thread
    let c := u.ctx t
    let k := u.core t.core
    let p := u.programOf t
    (Issues i (.halt i f) s → exec (.halt i f) s = .next ((u.retire t c).haltThread t 0)) ∧
    (c.regPoison f.sa = false → (u.program (clusterOf t.core) ((c.reg f.sa).toNat % 4)).resident = true →
      Issues i (.switch i f) s →
      exec (.switch i f) s = .next ((u.retire t c).activate (clusterOf t.core) ((c.reg f.sa).toNat % 4))) ∧
    (c.regPoison f.sa = false → Issues i (.twait i f) s →
      exec (.twait i f) s = .next
        (if u.sky.lock = .locked ∧ (c.reg f.sa).toNat ≤ u.sky.count.toNat then u.retire t c
         else u.await t .waitTick (.tick (c.reg f.sa)))) ∧
    (Issues i (.rdsdc i f) s →
      exec (.rdsdc i f) s = .next (u.writeReg t f.sd (if u.sky.lock = .locked then u.sky.count else BitVec.allOnes 64) false)) ∧
    (Issues i (.sacq i f) s →
      (c.slot.isSome = true → exec (.sacq i f) s = .next (u.retire t c)) ∧
      (c.slot = none → ∀ x, u.freeSlotOf t = some x →
        exec (.sacq i f) s = .next ((u.setCore t.core { k with held := k.held ++ [x] }).retire t { c with slot := some x })) ∧
      (c.slot = none → u.freeSlotOf t = none →
        exec (.sacq i f) s = .next
          ((u.setCore t.core { k with slotWait := k.slotWait ++ [(t.ctx, c.program)] }).await t .waitSlot .slot))) ∧
    (∀ x, c.slot = some x → Issues i (.srel i f) s →
      exec (.srel i f) s = .next ((u.retire t { c with slot := none }).freeSlot t.core x)) ∧
    (Issues i (.sysRelease i f) s → exec (.sysRelease i f) s = .next ((u.await t .waitMem (.release f.sd)).settleRelease t)) ∧
    (Issues i (.rdinfo i f) s →
      exec (.rdinfo i f) s = .next (u.writeReg t f.sd
        (BitVec.ofNat 64 (c.program % 4 + 16 * p.queue0 + 256 * p.queues + 65536 * p.accs + 1048576 * p.slots +
          16777216 * u.aid.toNat)) false)) ∧
    (Issues i (.rdcyc i f) s → exec (.rdcyc i f) s = .next (u.writeReg t f.sd (BitVec.ofNat 64 (u.coreCyc / 4)) false))

/-- VARITH, VDOT and VDOTMX under their mask (R297 to R302). -/
def Obligations.GridVectorArithmetic : Prop :=
  ∀ (i : Issue) (f : FmtV) (s : State),
    let u := s.advanceTo i.now
    let t := i.thread
    let c := u.ctx t
    let x := u.slotOf t
    let ty := tyOr f.ty
    let a := fun (j : Nat) => elemNum ty (x.vec f.va.toNat) j
    let b := fun (j : Nat) => elemNum ty (x.vec f.vb.toNat) j
    let d := fun (j : Nat) => elemNum ty (x.vec f.vd.toNat) j
    let pa := x.vecPoison f.va.toNat
    let pb := x.vecPoison f.vb.toNat
    let pd := x.vecPoison f.vd.toNat
    let lane := laneTy ty
    let old := x.vec f.vd.toNat
    let m := x.mask f.msk.toNat
    c.slot.isSome = true →
    (x.maskPoison f.msk.toNat = false →
      ∀ e ∈ ([(.vadd i f, arithTypes, fun j => addNums (a j) (b j), pa || pb),
          (.vsub i f, arithTypes, fun j => addNums (a j) (negNum (b j)), pa || pb),
          (.vmul i f, arithTypes, fun j => mulNums (a j) (b j), pa || pb),
          (.vmin i f, arithTypes, fun j => minNum (a j) (b j), pa || pb),
          (.vmax i f, arithTypes, fun j => maxNum (a j) (b j), pa || pb),
          (.vfma i f, floatTypes, fun j => addNums (mulNums (a j) (b j)) (d j), pa || pb || pd),
          (.vfms i f, floatTypes, fun j => addNums (d j) (negNum (mulNums (a j) (b j))), pa || pb || pd),
          (.vdiv i f, [.fp32], fun j => divNums (a j) (b j), pa || pb), (.vsqrt i f, [.fp32], fun j => sqrtNum (a j), pa),
          (.vabs i f, arithTypes, fun j => absNum (a j), pa), (.vneg i f, arithTypes, fun j => negNum (a j), pa)] :
            List (Instr × List ElemTy × (Nat → Machine.Num) × Bool)),
        tyIs f.ty e.2.1 = true → Issues i e.1 s →
        exec e.1 s = .next (u.writeVec t f.vd.toNat (maskedVec ty m old fun j => narrow ty (e.2.2.1 j))
          (e.2.2.2 || (partly ty m && pd)))) ∧
    (x.maskPoison f.msk.toNat = false → tyIs f.ty dotTypes = true → Issues i (.vdot i f) s →
      exec (.vdot i f) s = .next (u.writeVec t f.vd.toNat
        (maskedVec lane m old fun j => narrow lane
          (sumNums .nearestEven (laneProducts ty (x.vec f.va.toNat) (x.vec f.vb.toNat) j ++ [elemNum lane old j])))
        (pa || pb || pd || (partly lane m && pd)))) ∧
    (c.regPoison f.msk = false → tyIs f.ty mxTypes = true → Issues i (.vdotmx i f) s →
      exec (.vdotmx i f) s = .next (u.writeVec t f.vd.toNat
        (vecOf 32 (mxLane ty (c.reg f.msk) (x.vec f.va.toNat) (x.vec f.vb.toNat) old)) (pa || pb || pd)))

/-- VMISC and VCVT (R304, R305). -/
def Obligations.GridVectorMoves : Prop :=
  ∀ (i : Issue) (f : FmtV) (g : FmtVC) (s : State),
    let u := s.advanceTo i.now
    let t := i.thread
    let c := u.ctx t
    let x := u.slotOf t
    let ty := tyOr f.ty
    let w := elemWidth ty
    let a := x.vec f.va.toNat
    let b := x.vec f.vb.toNat
    let old := x.vec f.vd.toNat
    let m := x.mask f.msk.toNat
    let pa := x.vecPoison f.va.toNat
    let pb := x.vecPoison f.vb.toNat
    let pd := x.vecPoison f.vd.toNat
    let keeps := partly ty m && pd
    let ra := f.va.setWidth 3
    let rb := f.vb.setWidth 3
    let rd := f.vd.setWidth 3
    let k := (c.reg rb).toNat
    let q := fun (h : Nat) => decodeElem .fp16 ((c.reg rb).toNat / 2 ^ h % 65536)
    c.slot.isSome = true →
    (x.maskPoison f.msk.toNat = false →
      (∀ e ∈ ([(.vand i f, fun j => vecElem w a j &&& vecElem w b j, pa || pb), (.vor i f, fun j => vecElem w a j ||| vecElem w b j, pa || pb),
          (.vxor i f, fun j => vecElem w a j ^^^ vecElem w b j, pa || pb), (.vbcast i f, fun _ => (c.reg ra).toNat, c.regPoison ra)] :
            List (Instr × (Nat → Nat) × Bool)),
        Issues i e.1 s → exec e.1 s = .next (u.writeVec t f.vd.toNat (maskedVec ty m old e.2.1) (e.2.2 || keeps))) ∧
      (Issues i (.vsel i f) s → exec (.vsel i f) s = .next (u.writeVec t f.vd.toNat
        (maskedVec ty m (maskedVec ty (BitVec.allOnes 64) 0 (vecElem w b)) (vecElem w a)) (pa || pb))) ∧
      (Issues i (.vdeq i f) s → exec (.vdeq i f) s = .next (u.writeVec t f.vd.toNat
        (maskedVec .fp32 m old fun j => narrow .fp32 (addNums (mulNums (elemNum .int32 a j) (q 0)) (q 16)))
        (pa || c.regPoison rb || (partly .fp32 m && pd)))) ∧
      (w ≠ 4 → ∀ e ∈ ([(.vcmpeq i f, fun z => decide (z = 0)), (.vcmplt i f, fun z => decide (z < 0)),
          (.vcmple i f, fun z => decide (z ≤ 0))] : List (Instr × (Int → Bool))),
        Issues i e.1 s → exec e.1 s = .next (u.writeMask t rd.toNat
          (BitVec.ofNat 64 (ofBits ((List.range (elemCount ty)).map fun j =>
            governs ty m j && decide (elemNum ty a j ≠ .nan) && decide (elemNum ty b j ≠ .nan) &&
              e.2 (cmpNums false (elemNum ty a j) (elemNum ty b j))))) (pa || pb))) ∧
      (k < elemCount ty → c.regPoison rb = false → Issues i (.vins i f) s →
        exec (.vins i f) s = .next (u.writeVec t f.vd.toNat
          (vecOf w fun j => if j = k ∧ governs ty m j then (c.reg ra).toNat % 2 ^ elemBits ty else vecElem w old j)
          (c.regPoison ra || pd)))) ∧
    (k < elemCount ty → c.regPoison rb = false → Issues i (.vext i f) s →
      exec (.vext i f) s = .next (u.writeReg t rd (BitVec.ofNat 64 (vecElem w a k % 2 ^ elemBits ty)) pa)) ∧
    (Issues i (.vmts i f) s → exec (.vmts i f) s = .next (u.writeReg t rd (x.mask ra.toNat) (x.maskPoison ra.toNat))) ∧
    (Issues i (.vstm i f) s → exec (.vstm i f) s = .next (u.writeMask t rd.toNat (c.reg ra) (c.regPoison ra))) ∧
    (let ns := elemCount (tyOr g.sty)
     let nd := elemCount (tyOr g.dty)
     let part := g.part.toNat
     let wd := elemWidth (tyOr g.dty)
     let conv := fun j => encodeElem (tyOr g.dty) (roundOf g.rm.toNat) (decide (g.sat = 1)) (elemNum (tyOr g.sty) (x.vec g.va.toNat) j)
     partOk nd ns part = true → Issues i (.vcvt i g) s →
       exec (.vcvt i g) s = .next (u.writeVec t g.vd.toNat
         (vecOf wd fun j =>
           if ns < nd then (if part * ns ≤ j ∧ j < part * ns + ns then conv (j - part * ns) else vecElem wd (x.vec g.vd.toNat) j)
           else conv (if nd < ns then part * nd + j else j))
         (x.vecPoison g.va.toNat || (decide (ns < nd) && x.vecPoison g.vd.toNat))))

/-- The exact-sum instructions (R306 to R308). -/
def Obligations.GridExactSums : Prop :=
  ∀ (i : Issue) (f : FmtX) (s : State),
    let u := s.advanceTo i.now
    let t := i.thread
    let c := u.ctx t
    let x := u.slotOf t
    let ty := tyOr f.ty
    let acc := u.acc t f.e
    let m := x.mask f.msk.toNat
    let live := (List.range (elemCount ty)).filter (governs ty m)
    let pairs := live.map fun j => (j, elemNum ty (x.vec f.va.toNat) j, elemNum ty (x.vec f.vb.toNat) j)
    let one := x.vecPoison f.va.toNat || x.maskPoison f.msk.toNat
    let two := x.vecPoison f.va.toNat || x.vecPoison f.vb.toNat || x.maskPoison f.msk.toNat
    let lost := { acc with poison := true }
    c.slot.isSome = true → f.e.toNat < (u.programOf t).accs →
    (Issues i (.xclr i f) s → exec (.xclr i f) s = .next (u.writeAcc t f.e {})) ∧
    (tyIs f.ty floatTypes = true → Issues i (.xadd i f) s → exec (.xadd i f) s = .next (u.writeAcc t f.e
      (if one then lost else acc.addAll (live.map fun j => elemNum ty (x.vec f.va.toNat) j)))) ∧
    (tyIs f.ty xdotTypes = true → Issues i (.xdot i f) s → exec (.xdot i f) s = .next (u.writeAcc t f.e
      (if two then notePoisoned x f pairs acc else pairs.foldl (fun a p => a.addProduct 0 p.2) acc))) ∧
    (tyIs f.ty mxTypes = true → c.regPoison f.sx = false → Issues i (.xdotmx i f) s →
      exec (.xdotmx i f) s = .next (u.writeAcc t f.e
        (if two then notePoisoned x f pairs
           (if x.maskPoison f.msk.toNat = false ∧ pairs.any (badScale (c.reg f.sx)) = true then { acc with nan := true } else acc)
         else pairs.foldl (addScaled (c.reg f.sx)) acc))) ∧
    (tyIs f.ty floatTypes = true → Issues i (.xread i f) s → exec (.xread i f) s = .next
      (if acc.poison then u.writeReg t f.sx 0 true
       else u.writeReg t f.sx (BitVec.ofNat 64 (acc.rounded ty (roundOf (f.vb.toNat % 4)))) false)) ∧
    (Issues i (.xflag i f) s → exec (.xflag i f) s = .next
      (u.writeReg t f.sx (BitVec.ofNat 64 (ofBits [acc.nan, acc.posInf, acc.negInf, acc.poison])) false)) ∧
    (∀ a : Nat, a = (c.reg f.sx).toNat → a % 64 = 0 → a + 128 ≤ (u.programOf t).scratchBytes → c.regPoison f.sx = false →
      (Issues i (.xexp i f) s →
        let u' := u.putScratch t a acc.limbs false
        exec (.xexp i f) s = .next (u'.retire t (u'.ctx t))) ∧
      (Issues i (.ximp i f) s → exec (.ximp i f) s = .next (u.writeAcc t f.e
        (let sum := acc.importLimbs (u.scratchBytesAt t a 128)
         if u.scratchPoisoned t a 128 then { sum with value := acc.value, poison := true } else sum))))

/-- ILLEGAL (R275, R309). -/
def Obligations.ReservedWordsAreIllegal : Prop :=
  ∀ (i : Issue) (w : W32) (s : State), decodeGrid i w = none → Issues i (.reservedInstruction i w) s →
    exec (.reservedInstruction i w) s = .next ((s.advanceTo i.now).fault i.thread 1)

/-- Responses of other devices, of the home slice, and mailbox deliveries (R259 to R261, R289 to R291). -/
def Obligations.GridResponsesComplete : Prop :=
  (∀ (now id : Nat) (h : Hdr) (data : List Byte) (mask : W64) (s : State) (r : GridReq) (q : Issued),
    s.gridReq id = some r → r.heldStore = false → r.local_ = false →
    AnswerTaken h q (s.advanceTo h.now) → q.req = .thread r.id →
    let u := (s.advanceTo h.now).afterLink h
    (r.isWrite = false → exec (.gridResponse now id (some h) data mask) s = .next (u.loadAnswered r h.status data mask)) ∧
    (r.isWrite = true → exec (.storeCompletion now id (some h)) s = .next (u.storeAnswered r h.status))) ∧
  (∀ (now id : Nat) (st' : Byte) (data data' : List Byte) (mask : W64) (mask' : W64) (s : State) (r : GridReq),
    s.withdrawn = false → s.gridReq id = some r → r.heldStore = false → r.local_ = true → r.answer = some (st', data', mask') →
    (r.isWrite = false → exec (.gridResponse now id none data mask) s = .next ((s.advanceTo now).loadAnswered r st' data' mask')) ∧
    (r.isWrite = true → exec (.storeCompletion now id none) s = .next ((s.advanceTo now).storeAnswered r st'))) ∧
  (∀ (now idx : Nat) (s : State) (m : InTransit), s.withdrawn = false → s.grid.transit[idx]? = some m →
    (∀ k < idx, ∀ x, s.grid.transit[k]? = some x → ¬ (x.fromCore = m.fromCore ∧ x.target = m.target ∧ x.queue = m.queue)) →
    let u := (s.advanceTo now).setTransit (s.grid.transit.eraseIdx idx)
    exec (.mailboxDelivery now idx) s = .next
      (if u.coreAssigned m.target m.fromCid && u.queueAllotted m.target m.queue then u.deliverMessage m.target m.queue m.msg
       else (u.countDiscard m).wakeSenders m.target m.queue 1))

/-- The write of sd: its frame, and s0 (R270 to R272). The premise is the canonical form of the two tables that it writes. -/
def Obligations.GridRegisterWrites : Prop :=
  ∀ (s : State) (t : Thread) (sd : BitVec 3) (v : W64) (p : Bool),
    Tab.wf {} s.grid.cores = true → Tab.wf {} (s.core t.core).threads = true →
    Tab.wf 0 (s.ctx t).regs = true → Tab.wf false (s.ctx t).poison = true →
    let c := s.ctx t
    let s' := s.writeReg t sd v p
    (s'.ctx t).pc = c.pc + 1 ∧
    (s'.ctx t).reg sd = (if sd = 0 then 0 else v) ∧ (s'.ctx t).regPoison sd = (if sd = 0 then false else p) ∧
    (∀ r, r ≠ sd → (s'.ctx t).reg r = c.reg r ∧ (s'.ctx t).regPoison r = c.regPoison r) ∧
    (s'.ctx t).state = c.state ∧ (s'.ctx t).slot = c.slot ∧ (s'.ctx t).status = c.status ∧ (s'.ctx t).program = c.program ∧
    (s'.ctx t).wait = c.wait ∧ (s'.ctx t).cause = c.cause ∧
    (∀ r, r ≠ t → s'.ctx r = s.ctx r) ∧ (∀ k, k ≠ t.core → s'.core k = s.core k) ∧
    (∀ a, (s'.core t.core).scratchByte a = (s.core t.core).scratchByte a) ∧
    (s'.core t.core).accs = (s.core t.core).accs ∧ (s'.core t.core).slots = (s.core t.core).slots ∧
    { s' with grid := s.grid } = s ∧ s'.grid.clusters = s.grid.clusters ∧ s'.grid.reqs = s.grid.reqs ∧
    (∀ region off, s'.byte region off = s.byte region off)

/-- A fault halts the thread and is latched (R309, R312). -/
def Obligations.GridFaultHaltsThread : Prop :=
  ∀ (s : State) (t : Thread) (cause st : Byte),
    Tab.wf {} s.grid.cores = true → Tab.wf {} (s.core t.core).threads = true →
    Tab.wf 0 (s.core t.core).latches = true → (s.ctx t).state = .ready → (s.ctx t).slot = none → (s.ctx t).wait = .none →
    let c := s.ctx t
    let s' := s.fault t cause st
    let old := (s.core t.core).latches.get 0 c.program
    (s'.ctx t).state = .halted ∧ (s'.ctx t).cause = cause ∧ (s'.ctx t).pc = c.pc ∧ (s'.ctx t).regs = c.regs ∧
    (old.getLsbD 63 = true → (s'.core t.core).latches.get 0 c.program = (old ||| (1 <<< 62))) ∧
    (old.getLsbD 63 = false → ((s'.core t.core).latches.get 0 c.program).getLsbD 63 = true ∧
      ((s'.core t.core).latches.get 0 c.program).extractLsb' 0 8 = cause ∧
      ((s'.core t.core).latches.get 0 c.program).extractLsb' 8 8 = st) ∧
    (∀ r, r ≠ t → s'.ctx r = s.ctx r) ∧ (∀ region off, s'.byte region off = s.byte region off)

/-- Read after write, frame and canonical form of the store's bytes. -/
def Obligations.StoreBytesReadBack : Prop :=
  ∀ (s : State) (region off : Nat) (l : List Byte), Memory.wf s.store.mem = true → off + l.length ≤ 2 ^ 48 →
    Memory.wf (s.writeBytes region off l).store.mem = true ∧
    readBytes (s.writeBytes region off l) region off l.length = l ∧
    (∀ r o, o < 2 ^ 48 → (r ≠ region ∨ o < off ∨ off + l.length ≤ o) → (s.writeBytes region off l).byte r o = s.byte r o)

/-- Requests that pass every check are admitted as accesses; in espresso class where the credit allows it. -/
def Obligations.DataRequestsEnterService : Prop :=
  ∀ (h : Hdr) (a : Addr) (rh : Handle) (data : List Byte) (opA opB : BitVec 128) (expected : W64) (s : State),
    let u := s.afterLink h
    let n := a.count.toNat
    let from_ := fun (x : Access) (op : Byte) (r : Handle) =>
      ({ x with origin := .frame h op, src := h.src, cid := h.cid, gen := h.gen, region := (u.localRegion r).getD 0
                position := u.standsFor r } : Access)
    let enter := fun (x : Access) (req resp : Nat) =>
      (u.enterEspresso h req resp).1.submit { x with espresso := (u.enterEspresso h req resp).2 }
    (MemberTaken h 16 [a.rh] [] s → a.sub = 0 → 1 ≤ n → n ≤ 4096 →
      ∀ e ∈ ([(.read h a, 0x01, .read), (.readAcquire h a, 0x02, .readAcquire), (.readVolatile h a, 0x03, .readVolatile)] :
          List (Instr × Byte × AccKind)),
        let x := from_ { kind := e.2.2, offset := a.offset.toNat, len := n } e.2.1 a.rh
        u.refusal h x rightRead = none → exec e.1 s = .next (enter x 16 (8 + n))) ∧
    (MemberTaken h 16 [a.rh] [] s → a.sub = 0 → bitsOf n 13 3 = 0 → data.length = bitsOf n 0 13 → h.length = 16 + data.length →
      1 ≤ data.length → data.length ≤ 4096 →
      ∀ e ∈ ([(.write h a data, 0x04, .write), (.writeFlagged h a data, 0x05, .flagged)] : List (Instr × Byte × AccKind)),
        let x := from_ { kind := e.2.2, offset := a.offset.toNat, len := data.length, data := data
                         owner := u.ownerOf h (BitVec.ofNat 16 (bitsOf n 16 16)) } e.2.1 a.rh
        u.refusal h x rightWrite = none → exec e.1 s = .next (enter x (16 + data.length) 0)) ∧
    (MemberTaken h 48 [a.rh] [] s → atomicSizeOk a.sub.toNat n = true → a.offset.toNat % n = 0 →
      let x := from_ { kind := .atomic, owner := h.src, offset := a.offset.toNat, len := n, atomicOp := a.sub.toNat
                       opA := opA.toNat, opB := opB.toNat } 0x07 a.rh
      u.refusal h x rightAtomic = none → exec (.atomic h a opA opB) s = .next (enter x 48 16)) ∧
    (MemberTaken h 16 [rh] [] s →
      let x := from_ { kind := .publish, owner := h.src, expected := expected } 0x08 rh
      u.refusal h x (if expected = BitVec.allOnes 64 then rightRead else rightWrite) = none →
      exec (.publish h rh expected) s = .next (enter x 16 8)) ∧
    (a.sub = 0 → a.offset.toNat % 64 = 0 → bitsOf n 0 16 = 0 →
      ∀ e ∈ ([(.cReadShared h a, 0x10, .cReadShared, rightRead, 16, 72, []), (.cReadOwn h a, 0x11, .cReadOwn, rightWrite, 16, 72, []),
          (.cUpgrade h a, 0x12, .cUpgrade, rightWrite, 16, 8, []),
          (.cWriteback h a data, 0x13, .cWriteback, rightWrite, 80, 0, sliceBytes data 0 64)] :
            List (Instr × Byte × AccKind × Nat × Nat × Nat × List Byte)),
        MemberTaken h e.2.2.2.2.1 [a.rh] [] s →
        let x := from_ { kind := e.2.2.1, owner := h.src, offset := a.offset.toNat, len := 64, data := e.2.2.2.2.2.2 } e.2.1 a.rh
        u.refusal h x e.2.2.2.1 = none → exec e.1 s = .next (enter x e.2.2.2.2.1 e.2.2.2.2.2.1))

/-- The answers to a READ that is not admitted, in the order of R72. -/
def Obligations.RefusedRequestsAreAnswered : Prop :=
  ∀ (h : Hdr) (a : Addr) (s : State), FrameTaken false h 16 s →
    let u := s.afterLink h
    let x : Access := { kind := .read, offset := a.offset.toNat, len := a.count.toNat, origin := .frame h 0x01, src := h.src
                        cid := h.cid, gen := h.gen, region := (u.localRegion a.rh).getD 0, position := u.standsFor a.rh }
    let valid := h.zeroed = true ∧ a.sub = 0 ∧ 1 ≤ a.count.toNat ∧ a.count.toNat ≤ 4096
    let admitted := s.boot.admitted = true ∧ s.comps.selfExpelled = false
    (¬ admitted → exec (.read h a) s = .next (u.respond h 0x01 stNotAdmitted (zeros 8))) ∧
    (admitted → ¬ valid → exec (.read h a) s = .next (u.respond h 0x01 stInvalid (zeros 8))) ∧
    (admitted → valid → h.cid ≠ 0 → ∀ reason, compositionCheck u h [a.rh] [] = some reason →
      exec (.read h a) s = .next ((u.violation h.cid h.src h.port reason).respond h 0x01 stOk (zeros (8 + a.count.toNat)))) ∧
    (admitted → valid → compositionCheck u h [a.rh] [] = none → ∀ st, u.refusal h x rightRead = some st →
      exec (.read h a) s = .next (u.respond h 0x01 st (zeros 8))) ∧
    (∀ (t : State) (op st : Byte) (l : List Byte) (reason : Nat),
      (t.respond h op st l).store = t.store ∧ (t.violation h.cid h.src h.port reason).store = t.store) ∧ u.store = s.store

/-- RELEASE (R82), the rows of R165, and where each takes its effect: conditions on the state and the operands alone. -/
def Obligations.ReleaseAndOwnershipRequests : Prop :=
  ∀ (h : Hdr) (a : Addr) (now id : Nat) (w : Waiting) (s : State),
    let u := s.afterLink h
    let v := s.advanceTo now
    let i := (u.localRegion a.rh).getD 0
    let c := a.offset.toNat / 2097152
    let o := s.store.spans.get 0 (spanKey i c)
    let n := s.reqs.nextId
    let owned := MemberTaken h 16 [a.rh] [] s ∧ a.sub = 0 ∧ a.offset.toNat % 64 = 0 ∧ bitsOf a.count.toNat 0 16 = 0 ∧
      (u.region i).coherent = false ∧ u.hasRight h false i rightWrite = true ∧ a.offset.toNat < (u.region i).size
    let unperformed := fun (src : Aid) (n : Nat) =>
      ∃ x ∈ s.reqs.held, x.id < n ∧ x.src = src ∧ x.kind.isOrderedWrite = true
    let rest := v.setWaiting (s.reqs.waiting.filter fun x => decide (x.id ≠ id))
    (MemberTaken h 8 [] [] s →
      (¬ unperformed h.src n → exec (.release h) s = .next (u.takeId.2.respond h 0x06 stOk [])) ∧
      (unperformed h.src n → exec (.release h) s = .next (u.takeId.2.setWaiting (s.reqs.waiting ++ [{ id := n, h := h }])))) ∧
    (owned →
      (o = 0 → exec (.ownTake h a) s = .next ((u.setSpan i c h.src).respond h 0x17 stOk [])) ∧
      (o ≠ 0 → o = h.src → exec (.ownTake h a) s = .next (u.respond h 0x17 stOk [])) ∧
      (o ≠ 0 → o ≠ h.src → exec (.ownTake h a) s = .next (u.respond h 0x17 stBusy [])) ∧
      (o = h.src → ¬ unperformed h.src n →
        exec (.ownGive h a) s = .next ((u.takeId.2.setSpan i c 0).respond h 0x18 stOk [])) ∧
      (o = h.src → unperformed h.src n → exec (.ownGive h a) s =
        .next (u.takeId.2.setWaiting (s.reqs.waiting ++ [{ id := n, h := h, give := some (i, c) }]))) ∧
      (o ≠ h.src → exec (.ownGive h a) s = .next (u.respond h 0x18 stNotOwner []))) ∧
    (s.withdrawn = false → (s.reqs.waiting.find? fun x => decide (x.id = id) && x.give.isNone) = some w →
      ¬ unperformed w.h.src id → exec (.releaseComplete now id) s = .next (rest.respond w.h 0x06 stOk [])) ∧
    (s.withdrawn = false → (s.reqs.waiting.find? fun x => decide (x.id = id)) = some w →
      ∀ j k : Nat, w.give = some (j, k) → s.store.spans.get 0 (spanKey j k) = w.h.src → ¬ unperformed w.h.src id →
      exec (.ownGiveComplete now id) s = .next ((rest.setSpan j k 0).respond w.h 0x18 stOk []))

/-- Events and frames that let held accesses go on. -/
def Obligations.HeldWorkGoesOn : Prop :=
  (∀ (h : Hdr) (a : Addr) (data : List Byte) (s : State) (k : Nat) (t : Transition),
    let u := s.afterLink h
    let i := (u.localRegion a.rh).getD 0
    let line := a.offset.toNat / 64
    FrameTaken false h 80 s → h.cid ≠ 0 → cDataCheck u h a.rh line = none →
      u.findEntry (dirRegion i (u.standsFor a.rh)) line = some k → u.transition k = some t →
      t.toHome = true → t.agents.contains h.src = true → t.gotData = false → t.after ≠ .discard →
      u.fencedCid (u.dirEntry k).cid = false →
      exec (.cData h a data) s = .next
        ((u.modTransition k fun t => { t with gotData := true, merging := true }).submit
          { kind := .merge, origin := .transition k, src := u.aid, owner := u.aid, cid := h.cid, gen := h.gen
            region := i, position := u.standsFor a.rh, offset := 64 * line, len := 64, data := sliceBytes data 0 64 })) ∧
  (∀ (h : Hdr) (s : State) (r : Issued) (k : Nat) (agent : Aid), AnswerTaken h r s → r.req = .snoop k agent →
    let v := s.afterLink h
    let v := { v with reqs := { v.reqs with issued := v.reqs.issued.filter fun x => decide (x.id ≠ r.id) } }
    exec (.snoopAnswer h) s = .next
      ((v.modTransition k fun t => { t with agents := t.agents.filter fun a => decide (a ≠ agent)
                                            present := t.present || decide (h.status = stOk) }).finishTransition k).pump) ∧
  (∀ (now id : Nat) (s : State) (a : Access), s.withdrawn = false → s.heldAccess id = some a → a.parked = true →
    (s.advanceTo now).earlierWrites a.src a.cid id = false →
    let v := ((s.advanceTo now).modHeld id fun a => { a with parked := false }).pump
    (a.kind = .flagged → exec (.flaggedStorePerform now id) s = .next v) ∧
    (a.kind = .publish → exec (.publishPerform now id) s = .next v))

/-- Discarded and counted under R73. -/
def Obligations.FramesAcceptedFromNobody : Prop :=
  ∀ (h : Hdr) (t : Trailer) (a : Addr) (oh : Handle) (seq : W32) (aid : Aid) (cid : Cid) (code : BitVec 16) (body : List Byte)
    (p : Ptr) (mover access reason engine total : Byte) (index id : W32) (va : W64) (s : State),
    let counted := fun (u : State) => if h.cid = 0 then u.bump 11 0 6 else u.violation h.cid h.src h.port 7
    (FrameTaken false h 16 s → ∀ e ∈ ([.cSnoopInv h a, .cSnoopFwd h a, .handoffNotice h oh seq, .handoffDone h oh seq aid cid] : List Instr),
      exec e s = .next (counted (s.afterLink h))) ∧
    (FrameTaken false h 28 s → exec (.fault h p mover access reason index va) s = .next (counted (s.afterLink h))) ∧
    (FrameTaken false h 8 s → exec (.invalAck h id engine total) s = .next (counted (s.afterLink h))) ∧
    (ManagedTaken h t 64 s → exec (.mgmtNotice h t code seq body) s = .next (counted (s.afterTrailer h t)))

/-- HANDOFF_OFFER to HANDOFF_DEADLINE, and OBJECT_QUERY (R56 to R60). -/
def Obligations.ObjectHandoffs : Prop :=
  ∀ (h : Hdr) (oh : Handle) (seq : W32) (ra : Aid) (rc : Cid) (now i : Nat) (s : State),
    let u := s.afterLink h
    let v := s.advanceTo now
    let o := u.object i
    let p := v.object i
    let sent := fun (s : State) => s.send
      { opcode := 0x21, notice := true, dst := p.recvAid, src := v.aid, cid := p.recvCid, gen := v.genOf p.recvCid
        pcp := v.pcpControl
        payload := beBytes 5 (v.objectHandle i).toNat ++ zeros 3 ++ beBytes 4 p.seq.toNat ++ zeros 4 }
    (MemberTaken h 16 [] [] s → u.objectIdx oh = some i → o.ownerAid = h.src → o.ownerCid = h.cid → o.state ≠ 0 → o.state ≠ 2 →
      let held := (u.objectRegions i o).foldl (fun s j =>
        s.modRegion j fun r => { r with rights := r.rights &&& 1, heldRights := r.rights &&& 6 }) u
      exec (.handoffOffer h oh ra rc) s = .next
        ((held.putObject i { o with
          state := 2, recvAid := ra, recvCid := rc, seq := o.seq + 1, noticeSent := false, accepting := false
          deadline := u.now / 1000 + u.boot.cfg.device.handoffDeadline }).respond h 0x20 stOk (seqPayload (o.seq + 1)))) ∧
    (MemberTaken h 16 [] [] s → u.objectIdx oh = some i → o.state = 2 → o.accepting = false → o.seq = seq → o.recvAid = h.src →
      o.recvCid = h.cid →
      exec (.handoffAccept h oh seq) s = .next
        (((u.setObject i { o with accepting := true }).takeHandoff i).respond h 0x22 stOk (seqPayload seq)) ∧
      exec (.handoffDecline h oh seq) s = .next ((u.revertHandoff i).respond h 0x23 stOk (seqPayload seq))) ∧
    (∀ t : State, (t.object i).accepting = true → (t.object i).noticeSent = true → t.takeHandoff i =
      (t.objectRegions i (t.object i)).foldl (fun s j =>
        if (s.region j).state = .assigned ∧ (s.region j).cid = (t.object i).ownerCid then s.revoke j else s) t) ∧
    (MemberTaken h 8 [] [] s → u.objectIdx oh = some i → o.state ≠ 0 → (h.cid = o.ownerCid ∨ (o.state = 2 ∧ h.cid = o.recvCid)) →
      exec (.objectQuery h oh) s = .next
        (u.respond h 0x25 stOk (beBytes 1 o.state ++ zeros 1 ++ beBytes 2 o.ownerAid.toNat ++ beBytes 4 o.seq.toNat))) ∧
    (s.withdrawn = false → p.state = 2 → p.noticeSent = false → v.anchors i = true → v.objectWritesDone i p = true →
      exec (.objectWritesDrained now i) s = .next ((sent (v.setObject i { p with noticeSent := true })).takeHandoff i)) ∧
    (s.withdrawn = false → p.state = 2 → p.accepting = false → v.anchors i = true → p.deadline * 1000 ≤ v.now →
      exec (.handoffDeadline now i) s = .next (v.revertHandoff i)) ∧
    (let mine := v.objectRegions i p
     let w := mine.foldl (fun s j => if (s.region j).state = .draining then s.recallRegion j else s) v
     let idle := mine.foldl (fun s j => if (s.region j).state = .draining then s.endDrain j else s) w
     s.withdrawn = false → p.state = 2 → p.accepting = true → p.noticeSent = true → v.anchors i = true →
     (mine.any fun j => decide ((w.region j).state = .draining) && (decide (w.inflight j ≠ 0) || w.regionEntries j)) = false →
     ∀ e, w.activeIdx p.recvCid = some e →
      let q := { p with state := 1, ownerAid := p.recvAid, ownerCid := p.recvCid, recvAid := 0, recvCid := 0, deadline := 0
                        accepting := false, noticeSent := false }
      let given := mine.foldl (fun s j =>
        if (s.region j).state = .idle then s.assign j p.recvCid (w.compAt e).gen 7 else s) idle
      exec (.handoffTransferDone now i) s = .next
        (((given.putObject i q).sendDone i q p.ownerAid p.ownerCid).sendDone i q p.recvAid p.recvCid))

/-- REGION_CREATE to REGION_RETIER on regions in the state that each asks for, and the ends of drain, release and retier. -/
def Obligations.RegionOrders : Prop :=
  ∀ (o : Order) (rh : Handle) (size : W64) (placement redundancy shape rights : Byte) (group : W32) (cid : Cid) (gen : Gen)
    (now i : Nat) (s : State),
    let u := s.orderTaken o
    let w := s.advanceTo now
    let q := w.region i
    let cls := bitsOf placement.toNat 0 2
    (OrderTaken o s → size.toNat % chunkBytes = 0 → chunkBytes ≤ size.toNat → size.toNat ≤ 2 ^ 48 → u.placementOk placement = true →
      shapeOk redundancy shape = true → u.memoryDrain = false →
      ∀ (j : Nat) (v : State), u.createRegion size.toNat placement redundancy shape group = some (j, v) →
        exec (.regionCreate o size placement redundancy shape group) s =
          .next (v.finishOrder o.ref stOk (beBytes 5 (v.regionHandle j).toNat)) ∧
        (v.region j).state = .idle ∧ (v.region j).size = size.toNat ∧ (v.region j).cls = cls) ∧
    (OrderTaken o s → u.localRegion rh = some i → (u.region i).state = .idle →
      (∀ e, u.activeIdx cid = some e → (u.compAt e).gen = gen →
        exec (.regionAssign o rh rights cid gen) s = .next ((u.assign i cid gen rights).finishOrder o.ref stOk [])) ∧
      exec (.regionRelease o rh) s = .next (u.startRelease i (some o.ref)) ∧
      (∀ (l : List (Nat × Nat)) (t : State) (key : W32) (t' : State), u.placementOk placement = true →
        u.allocate cls (u.region i).chunks.length = some (l, t) →
        (if cls = clsDeep then t.drawKey else some (0xFFFFFFFF, t)) = some (key, t') →
        exec (.regionRetier o rh placement) s = .next (t'.modRegion i fun r => { r with
          state := .retiering, newCls := cls, newDemand := placement.getLsbD 2, newCoherent := placement.getLsbD 3
          newChunks := l, newKeySlot := key, order := some o.ref }))) ∧
    (OrderTaken o s → u.localRegion rh = some i → (u.region i).state = .assigned →
      exec (.regionRevoke o rh) s = .next
        (((u.revoke i).modRegion i fun r => { r with drainRh := rh }).finishOrder o.ref stOk (beBytes 4 (u.inflight i)))) ∧
    (s.withdrawn = false → q.state = .draining → w.inAcceptedHandoff i = false → (w.recallRegion i).inflight i = 0 → (w.recallRegion i).regionEntries i = false →
      exec (.regionDrained now i) s = .next
        (((w.recallRegion i).modRegion i fun r => { r with state := .idle, cid := 0 }).drainNotice i)) ∧
    (∀ ref, s.withdrawn = false → q.state = .releasing → q.order = some ref →
      ∃ t : State, exec (.releaseZeroingDone now i) s = .next (t.finishOrder ref stOk []) ∧ t.store.released = w.store.released ++ [i] ∧
        t.pools q.cls = (w.giveBack q.cls q.chunks).pools q.cls) ∧
    (∀ ref, s.withdrawn = false → q.state = .retiering → q.order = some ref →
      ∃ t : State, exec (.retierCopyDone now i) s = .next (t.finishOrder ref stOk []) ∧
        (t.region i).state = .idle ∧ (t.region i).cls = q.newCls ∧ (t.region i).chunks = q.newChunks ∧
        (t.region i).coherent = q.newCoherent ∧ (t.region i).keySlot = q.newKeySlot)

/-- Composition orders on an ACTIVE composition, and COMP_CREATE of a cid that is not there. -/
def Obligations.CompositionOrders : Prop :=
  ∀ (o : Order) (cid : Cid) (gen : Gen) (modes action flags : Byte) (fa aid : Aid) (journal : W64) (ring : Ptr) (count ports : W32)
    (now e : Nat) (s : State),
    let u := s.orderTaken o
    let w := s.advanceTo now
    let c := u.compAt e
    let d := w.compAt e
    (OrderTaken o s → u.inServiceSession = false → u.compIdx cid = none → u.memoryDrain = false → cid ≠ 0 →
      journal.toNat % chunkBytes = 0 → 1 ≤ count.toNat → count.toNat ≤ 65536 → u.keptGen cid gen = false →
      u.comps.journalUsed + journal.toNat ≤ u.boot.cfg.carve.journal → u.lowestEntry 1024 0 = some e →
      exec (.compCreate o cid gen modes fa journal ring count) s = .next
        (((u.setJournalUsed (u.comps.journalUsed + journal.toNat)).setComp e
          { cid := cid, state := .active, gen := gen, genFloor := gen, modes := modes &&& 0x3F, faultAgent := fa
            faultCount := count.toNat, ring := ring, journal := journal.toNat, retired := gen }).finishOrder o.ref stOk [])) ∧
    (OrderTaken o s → u.activeIdx cid = some e →
      (action = 0 → c.agent aid = none → c.agents.length < 256 →
        exec (.compAgent o cid action flags aid ports) s = .next ((u.setComp e { c with
          agents := c.agents ++ [{ aid := aid, readOnly := flags.getLsbD 0, ports := ports }] }).finishOrder o.ref stOk [])) ∧
      (action = 1 → exec (.compAgent o cid action flags aid ports) s = .next ((u.setComp e { c with
          agents := c.agents.filter fun a => decide (a.aid ≠ aid) }).finishOrder o.ref stOk [])) ∧
      (c.gen = c.genFloor → exec (.compAdvance o cid modes) s = .next ((u.setComp e { c with
          gen := c.gen + 1, modes := advancedModes c.modes modes, dead := []
          agents := c.agents.map fun a => { a with dead := false } }).finishOrder o.ref stOk (beBytes 1 (c.gen + 1).toNat))) ∧
      (c.gen ≠ c.genFloor → exec (.compRetire o cid) s = .next
        ((u.setComp e { c with retiring := true }).finishOrder o.ref stOk (beBytes 4 (u.inflightFloor c)))) ∧
      exec (.compMeter o cid flags) s = .next
        ((if flags.getLsbD 0 then u.modComp e fun c => { c with meters := {} } else u).finishOrder o.ref stOk c.meters.bytes) ∧
      exec (.agentDead o aid cid) s = .next ((u.agentDies e aid).finishOrder o.ref stOk
        (beBytes 4 (u.exclusiveOf cid aid).length ++ beBytes 4 (u.spansOf cid aid).length))) ∧
    (OrderTaken o s → u.compIdx cid = some e →
      ∃ result, exec (.compQuery o cid) s = .next (u.finishOrder o.ref stOk result) ∧
        result.take 4 = beBytes 1 c.state.code ++ beBytes 1 c.gen.toNat ++ beBytes 1 c.genFloor.toNat ++ beBytes 1 c.stepState.code) ∧
    (s.withdrawn = false → w.activeIdx cid = some e → d.retiring = true → w.inflightFloor d = 0 →
      exec (.generationRetired now cid) s = .next
        ((w.setComp e { d with genFloor := d.gen, retiring := false, retired := d.genFloor }).genRetired cid d.genFloor))

/-- CLUSTER_ASSIGN to PROGRAM_UNLOAD on clusters of one composition (the ACTIVE cid of log entry 46), and the events that follow. -/
def Obligations.ClusterAndProgramOrders : Prop :=
  ∀ (o : Order) (mask : W64) (cid : Cid) (p : Byte) (desc : Ptr) (args : List W64) (now k : Nat) (s : State),
    let u := s.orderTaken o
    let w := s.advanceTo now
    let cs := clustersOf mask
    let x := w.cluster k
    (OrderTaken o s → cs ≠ [] → u.deferredOn mask = false → u.allIn cs .free = true → (u.activeIdx cid).isSome = true →
      (∀ d ∈ cs, (u.block 3 (partitionOf d)).drain = 0) →
      exec (.clusterAssign o mask cid) s = .next
        ((cs.foldl (fun s d => s.setCluster d { s.cluster d with state := .assigned, cid := cid }) u).finishOrder o.ref stOk [])) ∧
    (OrderTaken o s → u.deferredOn mask = false → u.sharedCid mask = some cid →
      (u.searchHeld mask = false →
        let v := u.releaseClusters cs
        exec (.clusterRelease o mask) s = .next
          (State.settleDeferred { v with grid := { v.grid with releases := v.grid.releases ++ [(o.ref, mask)] } })) ∧
      (p.toNat ≤ 3 →
        (let j : ProgramJob := { order := o.ref, mask := mask, program := p.toNat, desc := desc, load := true }
         ∀ (v : State) (st : Byte) (j' : ProgramJob), u.checkLoad cid j = (v, some (st, j')) →
          let v := v.forget j'.asker
          exec (.programLoad o mask p desc) s =
            .next (if st = stOk then v.setJobs (v.grid.jobs ++ [j']) else v.finishOrder o.ref st [])) ∧
        (u.residentOn mask p.toNat = true → u.searchHeld mask = false →
          (u.programRuns mask p.toNat = false →
            exec (.programStart o mask p args) s = .next ((u.startProgram mask p.toNat args).finishOrder o.ref stOk [])) ∧
          exec (.programSwitch o mask p) s = .next ((cs.foldl (fun s c => s.activate c p.toNat) u).finishOrder o.ref stOk []) ∧
          exec (.programUnload o mask p) s = .next (u.beginUnload mask p.toNat o.ref)))) ∧
    (s.withdrawn = false → x.state = .releasing → w.clusterQuiet k = true →
      exec (.clusterQuiesced now k) s = .next (w.setCluster k { x with state := .zeroing })) ∧
    (s.withdrawn = false → x.state = .zeroing →
      exec (.clusterZeroed now k) s = .next ((w.zeroCluster k).setCluster k { state := .free }).settleReleases.settleDeferred) ∧
    (∀ j cid', s.withdrawn = false → w.grid.jobs[k]? = some j → j.load = true → j.checked = true → w.sharedCid j.mask = some cid' → j.image.rh = 0 →
      let v := w.setJobs (w.grid.jobs.map fun y => if y = j then j else y)
      let n := (v.program ((cs.head?).getD 0) j.program).codeBytes
      j.mask = mask →
      ∀ (v' : State) (g : Got), v.unitRead j.asker cid' j.code.rh j.code.offset.toNat n = (v', g) → g.waits = false → g.status = stOk →
        let placed := (v'.placeProgram j (codeWords g.data n) []).measureLoad cid' j g.data
        exec (.programLoaded now k) s = .next
          (((placed.setJobs (placed.grid.jobs.filter fun y => decide (y ≠ j))).forget j.asker).finishOrder j.order stOk []).settleDeferred) ∧
    (∀ j, s.withdrawn = false → w.grid.jobs[k]? = some j → j.load = false → w.programQuiet j.mask j.program = true →
      let v := (clustersOf j.mask).foldl (fun s c =>
        let y := s.program c j.program
        if y.unloading then ((coresOf c).foldl (fun s k => s.clearShare k j.program y) s).setProgram c j.program {} else s) w
      exec (.programUnloaded now k) s = .next
        ((v.setJobs (v.grid.jobs.filter fun y => decide (y ≠ j))).finishOrder j.order stOk []).settleDeferred)

/-- The rows of R395 for STEP_OPEN and STEP_COMMIT, and the commit sequence of R158. -/
def Obligations.StepsOpenAndCommit : Prop :=
  ∀ (h : Hdr) (t : Trailer) (step : W32) (now e : Nat) (cid : Cid) (s : State),
    let u := s.afterTrailer h t
    let w := s.advanceTo now
    let c := u.compAt e
    (StepTaken h t 8 s → u.activeIdx h.cid = some e →
      ((c.stepState = .closed ∧ step ≠ 0) ∨ ((c.stepState = .fenced ∨ c.stepState = .sealed) ∧ step = c.committed + 1) →
        let v := u.openStepOf e step
        exec (.stepOpen h t step) s = .next (v.answerStep h 0x40 stOk (v.compAt e) false) ∧
        (v.compAt e).stepState = .open_ ∧ (v.compAt e).openStep = step ∧ (v.compAt e).recs = [] ∧
        (v.compAt e).committed = step - 1) ∧
      ((c.stepState = .open_ ∨ c.stepState = .unjournalled) → step = c.openStep → c.commits = [] →
        exec (.stepCommit h t step) s = .next
          (((u.setComp e { c with commits := [{ h := h, opcode := 0x41 }] }).recallExclusives c.cid).endCommit e)) ∧
      (c.stepState = .sealed → step = c.committed →
        exec (.stepCommit h t step) s = .next (u.answerStep h 0x41 stOk c c.unjournalled))) ∧
    (s.withdrawn = false → w.activeIdx cid = some e → ((w.compAt e).commits ≠ [] ∨ (w.compAt e).sealing = true) →
      exec (.commitSequenceEnd now cid) s = .next ((w.recallExclusives cid).endCommit e)) ∧
    (w.exclusives (w.compAt e).cid = [] → (w.compAt e).commits ≠ [] →
      ∃ v : State, w.endCommit e = v.pump ∧ (v.compAt e).stepState = .sealed ∧ (v.compAt e).committed = (w.compAt e).openStep ∧
        (v.compAt e).commits = [])

/-- Steps 1 to 6 of R407 and the rollback of R410 (ECLIPSING until ROLLBACK_COMPLETE is log entry 60's). -/
def Obligations.StepsUndone : Prop :=
  ∀ (h : Hdr) (t : Trailer) (step : W32) (origin : Aid) (cause : Byte) (now e : Nat) (cid : Cid) (s : State),
    let u := s.afterTrailer h t
    let w := s.advanceTo now
    let c := u.compAt e
    let d := w.compAt e
    let y := w.invalidateAll cid
    (StepTaken h t 8 s → u.activeIdx h.cid = some e →
      (c.stepState = .open_ → step = c.openStep → c.commits = [] → u.threadsRun c.cid = false → u.engineBusy c.cid = false →
        exec (.rollback h t step) s = .next
          (((u.fence e { c with rollback := some { h := h, opcode := 0x42 } } step c.committed).invalidateAll c.cid).pump)) ∧
      (3 < cause.toNat → exec (.eclipse h t step origin cause) s = .next (u.answerStep h 0x43 stInvalid c (c.unjournalled && decide (step = c.openStep)))) ∧
      (∀ (c' : Comp) (committed : W32), cause.toNat ≤ 3 → c.stepState ≠ .eclipsing → c.eclipsed step = some (c', committed) →
        exec (.eclipse h t step origin cause) s = .next
          ((c.commits.foldl (fun s x => s.answerStep x.h 0x41 stAborted c c.unjournalled) u).startEclipse e
            { c' with eclipses := [{ h := h, opcode := 0x43 }] } step committed))) ∧
    (s.withdrawn = false → w.activeIdx cid = some e → d.rollback.isSome = true → y.liveLines cid = [] → (y.compAt e).phase ≠ 5 →
      let z := (y.undoStep e).endRestore e
      exec (.rollbackComplete now cid) s = .next (if (z.compAt e).phase = 6 then z.finishUndo e else z)) ∧
    (s.withdrawn = false → w.activeIdx cid = some e → d.phase = 3 → w.eclipseQuiet cid = true →
      exec (.eclipseQuiesced now cid) s = .next ((w.setComp e { d with phase := 4 }).invalidateAll cid).pump) ∧
    (s.withdrawn = false → w.activeIdx cid = some e → d.phase = 4 → y.liveLines cid = [] →
      exec (.eclipseRestore now cid) s = .next ((y.undoStep e).endRestore e)) ∧
    (∀ v : State, (v.compAt e).phase = 5 → v.restoring e = false → v.endRestore e =
      ((v.freeLost (v.compAt e).cid (!(v.compAt e).unjournalled)).modComp e fun c => { c with phase := 6, recs := [] }).pump) ∧
    (s.withdrawn = false → w.activeIdx cid = some e → d.phase = 6 → exec (.eclipseComplete now cid) s = .next (w.finishUndo e)) ∧
    (∀ v : State, ∃ x : State, v.finishUndo e = (x.resumeMerges (v.compAt e).cid).pump ∧
      (x.compAt e).stepState = .fenced ∧ (x.compAt e).recs = [] ∧ (x.compAt e).committed = (v.compAt e).committed)

/-- Replica frames, REPLICA_ANSWER, group orders and the rebuild. -/
def Obligations.ReplicaFramesAndGroups : Prop :=
  ∀ (h : Hdr) (o : Order) (a : Addr) (step group : W32) (data : List Byte) (mask : W64) (record : Ptr) (pos : Byte) (sa : Aid) (sr : BitVec 24)
    (now i : Nat) (s : State),
    let u := s.afterLink h
    let x := s.orderTaken o
    let w := s.advanceTo now
    let j := (u.localRegion a.rh).getD 0
    let k := group.toNat
    let gx := x.comps.groups.get {} k
    let gw := w.comps.groups.get {} i
    (FrameTaken false h 24 s → h.zeroed = true → s.boot.admitted = true → s.comps.selfExpelled = false → replicaCheck u h a.rh = none →
      ∀ y ∈ ([(.mirrorWrite h a step data, 0x50, true, .mirror), (.parityDelta h a step data, 0x51, false, .parity)] :
          List (Instr × Byte × Bool × AccKind)),
        let takes := (∃ e, u.activeIdx h.cid = some e ∧ (u.compAt e).takesReplica step = true)
        let copied := y.2.2.1 && decide (a.sub = 0) && u.isCopy j a.offset.toNat data.length
        let z := if copied then u.setGroup (u.region j).group.toNat { u.groupOf j with copied := (u.groupOf j).copied + 1 } else u
        replicaValid h a data y.2.2.1 = none → (takes ∨ copied = true) →
        (a.sub = 0xFF → exec y.1 s = .next
          ((u.takeVersion j y.2.2.1 a.offset.toNat (BitVec.ofNat 64 (ofBe data))).respond h y.2.1 stOk [])) ∧
        (a.sub = 0xFE → y.2.2.1 = true → exec y.1 s = .next
          ((u.setObject (objectKey u.aid (BitVec.ofNat 40 a.offset.toNat)) (parseObject data)).respond h y.2.1 stOk [])) ∧
        (a.sub ≠ 0xFF → a.sub ≠ 0xFE → a.offset.toNat + data.length ≤ (u.region j).size →
          exec y.1 s = .next (z.submit
            { kind := y.2.2.2, origin := .frame h y.2.1, src := h.src, owner := h.src, cid := h.cid, gen := h.gen, region := j
              offset := a.offset.toNat, len := data.length, data := data, sub := a.sub.toNat, copied := copied }))) ∧
    (∀ r, AnswerTaken h r s →
      let v := u.dropIssued fun y => decide (y.id = r.id)
      (∀ acc k p, r.req = .replica acc k p →
        exec (.replicaAnswer h data mask) s = .next ((v.modHeld acc fun b => b.replicaAnswered r.id h.status).pump)) ∧
      (∀ acc p, r.req = .stripe acc p →
        exec (.replicaAnswer h data mask) s = .next
          ((v.modHeld acc fun b => b.stripeAnswered r.id p (if h.status = stOk ∧ mask = 0 then sliceBytes data 0 64 else [])).pump)) ∧
      (∀ y : UnitRead, r.req = .unit → (v.reqs.units.find? fun y => decide (y.id = r.id)) = some y →
        exec (.replicaAnswer h data mask) s = .next (v.answerUnit r.id
          { status := if h.status = stPoison then stOk else h.status, data := sliceBytes data 0 y.len
            poison := maskLines mask y.off y.len })) ∧
      (∀ m off, r.req = .unitWrite m off →
        exec (.replicaAnswer h data mask) s = .next ((v.unitFails m h.status off).settleReply m)) ∧
      (∀ k, r.req = .rebuild k → exec (.replicaAnswer h data mask) s = .next v)) ∧
    (OrderTaken o s →
      (∀ l, x.localRegion record.rh = some l → (x.region l).state ≠ .free → record.offset.toNat + 192 ≤ (x.region l).size →
        let raw := readBytes x l record.offset.toNat 192
        let g := parseGroup raw
        groupReserved raw = true → x.groupOk g = true → exec (.groupDefine o group record) s = .next
          ((x.defineGroup group.toNat { g with versions := gx.versions }).finishOrder o.ref stOk [])) ∧
      (gx.kind ≠ 0 → pos.toNat < gx.k + gx.c →
        let g := { gx with condition := 1, failed := if gx.failed.contains pos.toNat then gx.failed else gx.failed ++ [pos.toNat]
                           spareAid := 0, spareRegion := 0, sparePosition := 0, copying := false }
        let v := ((x.dropCopies [k]).defineGroup k g).adoptFailed g
        v.adoptedAids.length ≤ 15 → exec (.groupTakeover o group pos) s = .next
          ((((v.forgetPosition k pos.toNat).pump).revertTaken x.anchored).finishOrder o.ref stOk [])) ∧
      (gx.kind ≠ 0 → gx.hasFailed pos.toNat = true →
        let g := { gx with condition := 2, spareAid := sa, spareRegion := sr.toNat, sparePosition := pos.toNat, cursor := 0
                           cursorOpen := 0, copying := false, copied := 0 }
        exec (.groupRebuild o group pos sa sr) s = .next
          (((((x.dropCopies [k]).defineGroup k g).sendSpareVersions k g).sendSpareObjects k g).finishOrder o.ref stOk []))) ∧
    (s.withdrawn = false → gw.condition = 2 → w.comps.selfExpelled = false → ∀ k, w.rebuildSource gw = some k →
      (gw.copying = false → exec (.rebuildChunk now i) s = .next (w.startCopy i k gw)) ∧
      (gw.copying = true → w.copiesOut i = false →
        exec (.rebuildChunk now i) s = .next
          (if (gw.cursor + 1) * chunkBytes < gw.size then w.setGroup i { gw with cursor := gw.cursor + 1, copying := false }
           else w.rebuildDone i gw)))

/-- MOVE (R225, R227), RESUME (R233) and INVAL_RANGE (R234) on their normal paths. -/
def Obligations.MoveRequests : Prop :=
  ∀ (h : Hdr) (desc root : Ptr) (count : BitVec 16) (action : Byte) (id : W32) (start len : W64) (now m : Nat) (s : State),
    let u := s.afterLink h
    let w := s.advanceTo now
    (MemberTaken h 16 [] [desc.rh] s → 1 ≤ count.toNat → count.toNat ≤ 256 → u.fencedCid h.cid = false →
      handleAid desc.rh = u.aid → (u.region ((u.localRegion desc.rh).getD 0)).cls < clsDeep →
      let q : MoveReq := { h := h, first := desc, count := count.toNat, next := desc }
      (u.movers.queue.length < 256 →
        let v := u.setMovers { u.movers with queue := u.movers.queue ++ [q] }
        exec (.move h desc count) s = .next (match v.idleMover with
          | some k => v.dispatch k
          | none => v)) ∧
      (256 ≤ u.movers.queue.length →
        exec (.move h desc count) s = .next ((u.setMovers { u.movers with ingress := u.movers.ingress ++ [q] }).leaveAtIngress h))) ∧
    (∀ (q : MoveReq) (rest : List MoveReq), s.withdrawn = false → m < 64 → (w.mover m).req = none → w.movers.queue = q :: rest →
      exec (.moverDispatch now m) s = .next
        ((((w.setMovers { w.movers with queue := rest }).setMover m
          { w.mover m with req := some q, state := .translating }).refillQueue).startDesc m)) ∧
    (MemberTaken h 16 [] [desc.rh] s → ∀ (e : Nat) (p : Parked), u.activeIdx h.cid = some e → (u.compAt e).faultAgent = h.src →
      u.fencedCid h.cid = false →
      (u.movers.parked.find? fun p => decide (p.desc.ptr = desc) && decide (p.req.h.cid = h.cid)) = some p →
      let v := u.setParked (u.movers.parked.filter fun x => decide (x ≠ p))
      (action = 0 → exec (.resume h desc action) s = .next
        ((v.setMovers { v.movers with
          queue := v.movers.queue ++ [{ p.req with next := p.desc.ptr, resume := some p.desc.bytesDone }] }).respond h 0x32 stOk [])) ∧
      (action = 1 → exec (.resume h desc action) s = .next
        (((v.takeId.2.markDesc (engineReq v.takeId.1) p.req.h p.desc dsAborted stAborted).answerMove p.req stAborted).respond h 0x32 stOk []))) ∧
    (MemberTaken h 32 [] [root.rh] s → len ≠ 0 → start.toNat + len.toNat ≤ 2 ^ 64 →
      let v := u.respond h 0x33 stOk []
      let ms := (List.range 64).filter fun m => (v.mover m).concerned h root start.toNat len.toNat
      exec (.invalRange h root id start len) s = .next
        (if ms = [] then v.invalAck h id 0xFF 0
         else ms.foldl (fun s m => s.setMover m { s.mover m with
           inval := (s.mover m).inval ++
             [{ src := h.src, h := h, id := id, total := ms.length, root := root, start := start.toNat, len := len.toNat }]
           segments := if (s.mover m).wrote then (s.mover m).segments.take 1 else [] }) v))

/-- The mover's events on their normal paths (R219 to R237). -/
def Obligations.MoverProgress : Prop :=
  ∀ (now m : Nat) (s : State) (q : MoveReq) (d : Desc),
    let w := s.advanceTo now
    let x := w.mover m
    s.withdrawn = false → x.req = some q → x.desc = some d →
    (x.state = .translating → w.unitBusy m = false → w.unitFailure m = stOk →
      let io0 : WalkIO := { st := w.ackAll m, cid := q.h.cid, mover := m }
      (x.laid = true → x.inval = [] → exec (.walk now m) s = .next (w.settleRuns m)) ∧
      (x.laid = false →
        (∀ (io : WalkIO) (l : List Run) (p : List PageSpan), walkBoth d d.bytesDone d.length io0 = (io, .runs l p) →
          exec (.walk now m) s = .next
            ((io.st.bump 9 (108 + m % 16) 3).beginMoving m q { d with runs := l, pages := p, base := d.bytesDone })) ∧
        (∀ (io : WalkIO) (f : WalkFault), walkBoth d d.bytesDone d.length io0 = (io, .fault f) →
          io.st.movers.parked.length < 4096 →
          let f := { f with sdc := if io.st.locked then io.st.sky.count.setWidth 32 else 0 }
          exec (.walk now m) s = .next (((io.st.bump 9 (108 + m % 16) 3).forget (.mover m)).park m f)) ∧
        (∀ io : WalkIO, walkBoth d d.bytesDone d.length io0 = (io, .waits) → exec (.walk now m) s = .next io.st))) ∧
    ((((List.range 64).map fun j => (w.movers.lastGrant + 1 + j) % 64).find? fun k => w.wantsBlock k) = some m →
      w.blocksHeld < w.stagingBlocks →
      let v := w.setMover m { x with segments := x.segments ++ [(x.nextPos d, d.segment (x.nextPos d))] }
      exec (.stagingGrant now m) s = .next (v.setMovers { v.movers with lastGrant := m })) ∧
    (∀ (pos n : Nat) (rest : List (Nat × Nat)) (v : State) (bad : Bool), x.segments = (pos, n) :: rest → x.wrote = false →
      x.inval = [] → x.again = [] → w.unitBusy m = false → w.unitFailure m = stOk → w.runSegment m q d pos n = (v, some (stOk, bad)) →
      v.unitBusy m = false → v.unitFailure m = stOk →
      let v' := v.setMover m { v.mover m with wrote := true, req := some { q with poisoned := q.poisoned || bad } }
      exec (.segmentDone now m) s = .next ((v'.clearFailure m).setMover m { v'.mover m with
        segments := rest, wrote := false, desc := some { d with bytesDone := pos + n }, req := some ((v'.mover m).req.getD q) })) ∧
    (x.state = .moving → x.segments = [] → d.bytesDone = d.length → w.unitBusy m = false →
      let done := if x.marked then w else (w.markDesc m q.h d dsDone stOk).setMover m { x with marked := true }
      done.unitBusy m = false → done.unitFailure m = stOk →
      let v := done.ackAll m
      let q' := { q with done := q.done + 1, next := { d.ptr with offset := BitVec.ofNat 48 d.after } }
      let v := v.setMover m { v.mover m with req := some q', desc := none, state := .translating, marked := false }
      exec (.descriptorDone now m) s = .next
        (if q.done + 1 = q.count then v.endMove m stOk else v.startDesc m)) ∧
    (∀ (k : Nat) (p : Parked), w.movers.parked[k]? = some p → p.recorded = false →
      (∀ t, p.checked = some t → t + 10000 ≤ w.now) →
      exec (.faultSlotCheck now k) s = .next (w.recordFault k)) ∧
    (∀ f, x.fault = some f → x.state = .stalled → w.movers.parked.length < 4096 →
      exec (.parkedSlotFree now m) s = .next (w.park m f)) ∧
    ((x.inval ≠ [] ∨ x.again ≠ []) → x.wrote = false → w.unitBusy m = false →
      (x.marked = true ∨ (x.state ≠ .moving ∧ x.laid = false) → exec (.invalQuiesce now m) s = .next (w.ackAll m)) ∧
      (x.marked = false → (x.state = .moving ∨ x.laid = true) → w.unitFailure m = stOk →
        let again := x.again ++ x.inval
        let y := w.ackAll m
        let y := y.setMover m { y.mover m with segments := [], again := again }
        ∀ (io : WalkIO) (d' : Desc) (l : List Run) (p : List PageSpan),
        rewalk d again { st := y, cid := q.h.cid, mover := m } = (io, (d', .runs l p)) →
        exec (.invalQuiesce now m) s = .next (io.st.beginMoving m q d')))

/-- The roasters' requests and passes; local reads and writes that are not refused. -/
def Obligations.CheckpointRequests : Prop :=
  ∀ (h : Hdr) (src dst : Ptr) (n cap : W64) (etype mode : Byte) (now id g k : Nat) (s : State),
    let u := s.afterLink h
    let w := s.advanceTo now
    (MemberTaken h 44 [] [src.rh, dst.rh] s → u.fencedCid h.cid = false →
      (compressValid src n dst cap etype mode = none →
        exec (.ckptCompress h src n dst cap etype mode) s = .next (u.acceptCkpt
          { h := h, src := src, dst := dst, etype := etype.toNat, mode := mode.toNat, size := n.toNat
            offsets := [prologue (groupsOf n.toNat)] })) ∧
      (∀ (v : State) (q : CkptReq), u.readStream h false src n.toNat dst cap.toNat = (v, some (.inr q)) →
        exec (.ckptRestore h src n dst cap) s = .next ((v.forget (.frame h.src h.tag)).acceptCkpt q)) ∧
      (∀ (v : State) (st : Byte), u.readStream h false src n.toNat dst cap.toNat = (v, some (.inl st)) →
        exec (.ckptRestore h src n dst cap) s = .next ((v.forget (.frame h.src h.tag)).respond h 0x3D st (beBytes 8 0)))) ∧
    (∀ q : CkptReq, s.withdrawn = false → w.ckptReq id = some q → w.roasterOf id g = some k → w.ckptFailed q = none →
      (q.restore = false → q.passed g = false →
        let len := ((groupBlocks q.size g).map (blockLen q.size)).foldl (· + ·) 0
        ∀ (v : State) (got : Got), w.unitRead (.ckpt id g) q.h.cid q.src.rh (q.src.offset.toNat + 1048576 * g) len = (v, got) →
          got.waits = false → got.status = stOk →
        let blocks := (groupBlocks q.size g).map fun b =>
          let at_ := 65536 * (b - 16 * g)
          (sliceBytes got.data at_ (blockLen q.size b), ((got.poison.drop at_).take (blockLen q.size b)).any fun p => p)
        let coded := encodeGroup q.mode q.planes g blocks
        let fixed := CkptReq.assign { q with
          coded := q.coded.set [] g coded.1, codedPoison := q.codedPoison.set [] g coded.2
          poisoned := q.poisoned || blocks.any (fun b => b.2) } (groupsOf q.size)
        let q' := fixed.1
        let x := (indexWrites q' (decide (g = 0)) fixed.2).foldl (fun (x : State × Byte) e =>
          if x.2 ≠ stOk then x
          else x.1.ckptWrite q' (q'.dst.offset.toNat + e.1) e.2 []) ((v.forget (.ckpt id g)).setCkptReq q', stOk)
        exec (.cuppingPassEnd now id g) s = .next
          (if x.2 ≠ stOk then x.1.endCkpt q' x.2 0 else (x.1.runRoasters).settleCkpt id)) ∧
      (q.restore = false → q.passed g = true → q.written.contains g = false → g < q.offsets.length →
        let off := q.dst.offset.toNat + nth 0 q.offsets g
        ∀ v : State, w.ckptWrite q off (q.coded.get [] g) (taintOf off (q.codedPoison.get [] g)) = (v, stOk) →
          exec (.groupWriteDone now id g) s = .next
            (((((v.setCkptReq { q with written := q.written ++ [g], codedPoison := q.codedPoison.set [] g [] }).freeGroup id g).bump
              9 (32 + (v.roasterOf id g).getD 0) 0).runRoasters).settleCkpt id)) ∧
      (q.restore = true →
        let start := nth 0 q.offsets g
        ∀ (v : State) (got : Got), w.unitRead (.ckpt id g) q.h.cid q.src.rh (q.src.offset.toNat + start) (q.groupEnd g - start) = (v, got) →
          got.waits = false → got.status = stOk →
        let rs := decodeGroup q.mode q.planes got.data got.poison ((groupBlocks q.size g).map (blockLen q.size))
        ∀ y : State, ((groupBlocks q.size g).zip rs).foldl (fun (x : State × Byte) e =>
            if x.2 ≠ stOk then x else x.1.restoreBlock q k e.1 e.2) (v.forget (.ckpt id g), stOk) = (y, stOk) →
          exec (.restoreGroup now id g) s = .next
            (((((y.setCkptReq { q with written := q.written ++ [g], poisoned := q.poisoned || rs.any Restored.poisons }).freeGroup
              id g).bump 9 (32 + k) 0).runRoasters).settleCkpt id)))

/-- Requests to embedding tables on their normal paths. -/
def Obligations.EmbeddingRequests : Prop :=
  ∀ (h : Hdr) (o : Order) (table index out list : Ptr) (gen fmt dir : Byte) (bags count : W32) (row : BitVec 40) (scale offset : BitVec 16)
    (codes : List Byte) (s : State),
    let u := s.afterLink h
    let x := s.orderTaken o
    let a : Asker := .frame h.src h.tag
    (MemberTaken h 48 [] [table.rh, index.rh, out.rh] s → u.fencedCid h.cid = false → fmtOk fmt = true →
      u.emb.ingress = [] → u.emb.queue = [] →
      let q : GatherReq := { h := h, table := { primary := table }, tableGen := gen, fmt := fmt, index := index, out := out
                             nbags := bags.toNat }
      ∀ (v : State) (g : Got),
        (u.setEmb { u.emb with ingress := [q] }).unitRead a h.cid table.rh table.offset.toNat 64 (some h.pcp) = (v, g) →
        g.usable = true →
        let y := ((v.forget a).setEmb { v.emb with ingress := [] }).takeFromIngress h
        y.tableOk g.data (bitOf fmt.toNat 4) = true →
        let z := y.takeId.2
        exec (.gatherPool h table gen fmt bags index out) s = .next
          (((z.setEmb { z.emb with queue := z.emb.queue ++
              [{ q with id := y.takeId.1, table := parseTable g.data, poisoned := g.poisoned }] }).refillGather 3).chargeGather h)) ∧
    (∀ (w : State) (q : GatherReq) (rest : List GatherReq) (n : Nat), w.emb.queue = q :: rest → w.emb.service.length < 16 → 0 < q.nbags →
      w.refillGather (n + 1) = (w.setEmb { w.emb with
        queue := rest, service := w.emb.service ++ [{ q with engine0 := w.emb.nextEngine }]
        nextEngine := (w.emb.nextEngine + q.nbags) % 16 }).refillGather n) ∧
    (MemberTaken h 24 [] [table.rh] s → u.fencedCid h.cid = false →
      ∀ (v v1 v2 v3 : State) (g c : Got) (hd olds : Heads),
        u.unitRead a h.cid table.rh table.offset.toNat 64 (some h.pcp) = (v, g) → g.usable = true →
        let t := parseTable g.data
        let k := row.toNat
        let p := t.primaryAt k
        v.tableOk g.data true = true → (gen = t.curGen ∨ (t.replacing = true ∧ gen = t.nextGen)) → k < t.rows →
        codes.length = t.stride - 16 → v.hasRight h true ((v.localRegion p.rh).getD 0) rightWrite = true →
        v.mayTurn a p = true → (v.claim a p).readHeads a h.cid [p] = (v1, hd) → hd.usable = true →
        let primary := nth {} hd.recs 0
        let place := t.currentAt k primary
        v1.unitRead a h.cid place.rh place.off (if t.replacing && decide (gen = t.nextGen) then t.stride else 16) = (v2, c) →
        c.usable = true →
        let write := fun (x : RowRec) => { x with gen := gen, scale := scale.toNat, offset := offset.toNat, codes := codes }
        let targets := rowTargets t gen k primary (parseRow c.data) c.poison write
        v2.turnRefusal h.cid h.src t (targets.map (·.at_)) = none →
        v2.readHeads a h.cid (targets.map (·.at_)) = (v3, olds) → olds.usable = true →
        let n := (v3.close a).newReq
        exec (.rowWrite h table row gen scale offset codes) s = .next
          (((n.2.notePoison n.1 (g.poisoned || hd.poisoned || c.poisoned || olds.poisoned)).writerTurn n.1 h.cid h.src p
            (withOld targets olds.recs)).replyWhenDone n.1 h 0x39 [])) ∧
    (OrderTaken o s → (x.activeIdx o.hdr.cid).isSome = true → dir.toNat ≤ 1 → 1 ≤ count.toNat → count.toNat ≤ 4096 →
      x.fencedCid o.hdr.cid = false →
      ∀ (v y : State) (g l : Got), x.unitRead o.ref.asker o.hdr.cid table.rh table.offset.toNat 64 = (v, g) → g.usable = true →
        v.tableOk g.data false = true → (parseTable g.data).hotSlots ≠ 0 →
        v.unitRead o.ref.asker o.hdr.cid list.rh list.offset.toNat (16 * count.toNat) = (y, l) → l.usable = true →
        let n := (y.forget o.ref.asker).takeId
        let entry := fun (i : Nat) =>
          (fieldLe l.data (16 * i) 8, fieldLe l.data (16 * i + 8) 4, ((l.poison.drop (16 * i)).take 16).any fun b => b)
        let j : MigrateJob := { id := n.1, order := o.ref, cid := o.hdr.cid, table := parseTable g.data, toHot := decide (dir = 0)
                                poisoned := g.poisoned || l.poisoned, todo := (List.range count.toNat).map entry }
        exec (.rowMigrate o table dir count list) s = .next
          ((n.2.setEmb { n.2.emb with jobs := n.2.emb.jobs ++ [j] }).runJob n.1)) ∧
    (∀ (w y : State) (j : MigrateJob) (e : Nat × Nat × Bool) (l : List (Nat × Nat × Bool)) (b : Bool) (m : Migration),
      (w.migrateEntry j j.toHot e.1 e.2.1 e.2.2 = (y, .skipped b) → w.runEntries j j.toHot (e :: l) =
        y.runEntries { j with skipped := j.skipped + 1, poisoned := j.poisoned || b } j.toHot l) ∧
      (w.migrateEntry j j.toHot e.1 e.2.1 e.2.2 = (y, .begun b m) → w.runEntries j j.toHot (e :: l) =
        (y.setEmb { y.emb with migrations := y.emb.migrations ++ [m] }).runEntries
          { j with left := j.left + 1, poisoned := j.poisoned || b } j.toHot l))

/-- The events of GATHER_POOL and ROW_MIGRATE. -/
def Obligations.EmbeddingProgress : Prop :=
  ∀ (now id b e : Nat) (s : State), s.withdrawn = false →
    let w := s.advanceTo now
    (∀ (q q' : GatherReq) (v : State), (w.emb.service.find? fun (q : GatherReq) => decide (q.id = id)) = some q → b < q.nbags →
      w.readBag q b = (v, .ready q') →
      let x := q'.bags.get {} b
      let v' := v.setGather q'
      let a : Asker := .look id b e
      (∀ row weight : Nat, (x.entries.getD [])[e]? = some (row, weight) → x.refused = false → x.looked.contains e = false →
        v'.engineFree q' b e = true →
        let p := q'.table.primaryAt row
        (x.attempts e < 5 → ∀ (y : State) (res : LookRes), v'.lookRow q' a row (x.looks.get none e) false = (y, res) →
          exec (.lookup now id b e) s = .next (y.lookedUp q' b e weight res)) ∧
        (5 ≤ x.attempts e →
          let z := if v'.emb.locks.contains (p, id) then v' else v'.setEmb { v'.emb with locks := v'.emb.locks ++ [(p, id)] }
          (z.turnUnderWay p = true → exec (.heldLookup now id b e) s = .next z) ∧
          (z.turnUnderWay p = false → ∀ (y : State) (res : LookRes), z.lookRow q' a row (x.looks.get none e) true = (y, res) →
            res ≠ .waits → (∀ l : Look, res ≠ .body l) →
            exec (.heldLookup now id b e) s =
              .next (((y.bump 9 (16 + (q'.engine0 + b) % 16) 3).lookedUp q' b e weight res).unlockRow p id)))) ∧
      (x.writes = none → x.refused = false → (x.entries.getD []).length = x.looked.length → x.noVersion = false →
        let off := q'.out.offset.toNat + b * q'.outBytes
        let taint := if x.poisoned then (List.range (linesOf off q'.outBytes)).map fun j => off / 64 + j else []
        let n := v'.newReq
        ∀ y : State, n.2.unitWrite n.1 q'.h.cid q'.h.src 0 q'.out.rh off (q'.vector x) taint (some q'.h.pcp) = (y, stOk) →
          exec (.bagWrite now id b) s = .next
            ((y.setGather { q' with bags := q'.bags.set {} b { x with writes := some n.1 } }).settleGather id))) ∧
    (∀ (m : Migration) (j : MigrateJob), w.emb.migrations[b]? = some m →
      (w.emb.jobs.find? fun (j : MigrateJob) => decide (j.id = m.job)) = some j →
      let t := j.table
      let place := t.primaryAt m.row
      let a : Asker := .row j.id m.row
      (∀ req, m.flip = some req → w.unitBusy req = false →
        exec (.migrationCopyTurn now b) s = .next
          ((w.clearFailure req).endMigration b j m (decide (w.unitFailure req = stOk) || decide (w.unitFailure req = stPoison)))) ∧
      (m.flip = none → m.copy = none → ∀ (v : State) (g : Got),
        let p := if m.toHot then place else t.hotAt m.slot
        w.unitRead a j.cid p.rh p.off t.stride = (v, g) → g.usable = true →
        exec (.migrationCopyTurn now b) s = .next
          (((v.forget a).setMigrateJob { j with poisoned := j.poisoned || g.poisoned }).setMigration b
            { m with copy := some (fieldLe g.data 0 4, g.data), poison := g.poison })) ∧
      (∀ c, m.flip = none → m.copy = some c → w.mayTurn a place = true → ∀ (v : State) (x : Heads),
        (w.claim a place).readHeads a j.cid [place, t.hotAt m.slot] = (v, x) → x.usable = true →
        let primary := nth {} x.recs 0
        let hot := nth {} x.recs 1
        let seq := if m.toHot then primary.seq else hot.seq
        primary.rstate = (if m.toHot then rsMigrating else rsReturning) →
        (primary.fresh = true ∨ c.1 = seq →
          let changes := flipTurn t m primary hot
          v.turnRefusal j.cid 0 t (changes.map (·.at_)) = none →
          let n := (v.close a).newReq
          exec (.migrationCopyTurn now b) s = .next
            (((n.2.setMigrateJob { j with poisoned := j.poisoned || x.poisoned }).writerTurn n.1 j.cid 0 place changes).setMigration b
              { m with flip := some n.1 })) ∧
        (primary.fresh = false → c.1 ≠ seq →
          exec (.migrationCopyTurn now b) s = .next ((v.close a).setMigration b { m with copy := none }))))

/-- Attachment, detachment and acceptance of searches. -/
def Obligations.SearchRequests : Prop :=
  ∀ (h : Hdr) (o : Order) (desc query pred result : Ptr) (mask : W64) (program flags : Byte) (nq : W32) (k probes : BitVec 16)
    (i : Nat) (s : State),
    let u := s.afterLink h
    let x := s.orderTaken o
    let p := program.toNat
    let cs := clustersOf mask
    (OrderTaken o s → x.deferredOn mask = false → x.sharedCid mask = some o.hdr.cid → p ≤ 3 →
      (∀ c ∈ cs, (x.program c p).used = false) → x.freeAttach = some i →
      ∀ (v v' y : State) (g l : Got), x.unitRead o.ref.asker o.hdr.cid desc.rh desc.offset.toNat 128 = (v, g) → g.usable = true →
        let d := parseIndex g.data
        indexFieldsOk g.data = true → v.partsOk o.hdr.cid d = true →
        (if d.ivf then v.unitRead o.ref.asker o.hdr.cid d.directory.rh d.directory.offset.toNat (64 * d.lists) else (v, ({} : Got))) = (v', l) →
        l.waits = false → (d.ivf = true → l.status = stOk ∧ v'.listPartsOk o.hdr.cid l.data d.lists = true) →
        v'.reserveProgram cs p searchProgram = (y, stOk) →
        exec (.searchAttach o desc mask program) s = .next
          (((((y.forget o.ref.asker).placeSearch cs p).setIndex i
            { used := true, ptr := desc, desc := d, cid := o.hdr.cid, mask := mask, program := p }).resumeMerge i).finishOrder
              o.ref stOk [])) ∧
    (OrderTaken o s → x.attachedAs o.hdr.cid desc = some i → (x.indexAt i).detach = none →
      exec (.searchDetach o desc) s = .next ((x.modIndex i fun a => { a with detach := some o.ref }).settleDetach i)) ∧
    (MemberTaken h 64 [] ([desc.rh, query.rh, result.rh] ++ (if pred.rh = 0 then [] else [pred.rh])) s → u.fencedCid h.cid = false →
      1 ≤ nq.toNat → nq.toNat ≤ 65536 → 1 ≤ k.toNat → k.toNat ≤ 1024 → 1 ≤ probes.toNat → probes.toNat ≤ 4096 →
      u.attachedAs h.cid desc = some i →
      ∀ (v : State) (g : Got), (if pred.rh = 0 then (u, ({} : Got)) else u.unitRead (.frame h.src h.tag) h.cid pred.rh pred.offset.toNat 192 (some h.pcp)) = (v, g) →
        g.usable = true →
        let v := v.forget (.frame h.src h.tag)
        let d := (u.indexAt i).desc
        let block := if pred.rh = 0 then none else some g.data
        searchOk d k.toNat probes.toNat (flags.getLsbD 0) block = true →
        v.within query ((nq.toNat - 1) * d.queryStride + d.dims * d.width) = true →
        v.within result (nq.toNat * resultStride k.toNat) = true →
        let w := v.restartSearch i
        let q : SearchReq := { h := h, id := w.takeId.1, query := query, nq := nq.toNat, k := k.toNat, probes := probes.toNat, pred := block
                               predPoison := g.poisoned, result := result, exact := flags.getLsbD 0, arrived := w.now }
        let z := w.takeId.2.modIndex i fun a => a.enqueue q
        exec (.search h desc query nq k probes pred result flags) s = .next
          (if (z.indexAt i).ingress.any fun q => decide (q.id = w.takeId.1) then z.leaveAtIngress h else z))

/-- The events of an attached index. -/
def Obligations.SearchProgress : Prop :=
  ∀ (now i : Nat) (bad : List Nat) (s : State), s.withdrawn = false →
    let w := s.advanceTo now
    let a := w.indexAt i
    w.indexRuns i = true →
    (∀ (v : State) (t : TailHeader), a.resume = false → a.mergePhase = 0 → a.detach = none → w.unitBusy (engineReq a.mergeReq) = false →
      w.reading (.merge i) (fun s => s.tailHeader (.merge i) a) eventReads = (v, .ok t) →
      let y := v.forget (.merge i)
      a.desc.mergeThreshold ≤ y.tailVersion a - t.base →
      exec (.mergeStart now i) s = .next
        (((y.modIndex i fun a => { a with mergePhase := 1, mergePoint := y.tailVersion a, grown := [] }).mergeParts i 1 3 3).settleDetach i)) ∧
    (a.resume = false → a.mergePhase ≠ 0 → exec (.mergeStart now i) s = .next ((w.mergeParts i 1 3 3).settleDetach i)) ∧
    exec (.mergeTombstones now i) s = .next (((w.wakeMerge i).mergeParts i 4 5 2).settleDetach i) ∧
    exec (.mergeRepair now i) s = .next (((w.wakeMerge i).mergeParts i 6 8 3).settleDetach i) ∧
    (∀ (v : State) (x : MergeDo) (j : Nat), w.unitBusy (engineReq a.mergeReq) = false → a.detach = none → a.partReady = true →
      w.reading (.merge i) (fun s => s.planPart (.merge i) a) eventReads = (v, .ok x) → x.full = none → j = (v.forget (.merge i)).takeId.1 →
      w.mergePart i =
        (x.plan.foldl (fun (s : State) e => (s.unitWrite (engineReq j) a.cid 0 0 e.1.rh (e.1.offset.toNat + e.2.1) e.2.2 []).1)
          ((v.forget (.merge i)).takeId.2.clearFailure (engineReq a.mergeReq))).setIndex i
          { a with mergeReq := j, mergePhase := (a.mergePhase + 1) % 9, mergePoint := x.point
                   grown := if a.mergePhase = 1 then x.grown else a.grown }) ∧
    (∀ (q : SearchReq) (t : List SearchReq), (∀ b ∈ a.batches, b.begun = true) → a.waiting = q :: t →
      q.arrived + a.desc.window * 1000 ≤ w.now →
      let parts := formBatch (q.arrived + a.desc.window * 1000) 262144 (q :: t)
      exec (.searchBatch now i) s = .next (w.startBatch i parts.1 parts.2)) ∧
    (∀ (b : Batch) (k : Nat), (a.batches.zipIdx.find? fun e => !e.1.tailDone) = some (b, k) →
      (∀ (l n : Nat) (b' : Batch) (e e' : DirList) (p : Bool) (g : List Bool) (v y z : State), b.nextVisit a.desc.lists = some l →
        w.reading (.sweep i) (fun s => s.visited (.sweep i) a b l) eventReads = (v, .ok (e', n, p)) →
        v.mendGranules a e' n bad = (y, true) →
        y.reading (.sweep i) (fun s => s.visitList (.sweep i) a b l) eventReads = (z, .ok (b', e, g)) →
        exec (.lensVisit now i bad) s = .next (((z.forget (.sweep i)).countVisit e g).setIndex i (a.setBatch k b'))) ∧
      (∀ (b' : Batch) (v : State), b.nextVisit a.desc.lists = none →
        w.reading (.sweep i) (fun s => s.visitTail (.sweep i) a b) eventReads = (v, .ok b') →
        exec (.lensVisit now i bad) s = .next ((v.forget (.sweep i)).setIndex i (a.setBatch k b'))) ∧
      (∀ (t : State) (l : Nat) (b' : Batch) (e : DirList) (g : List Bool), t.visitList (.sweep i) a b l = .ok (b', e, g) →
        (b'.nextList = l + 1 ∧ b'.passed = 0) ∨ (b'.nextList = l ∧ b'.passed = (b.visit a.desc fun x => x.probes.contains l).1)) ∧
      (∀ (t : State) (b' : Batch), t.visitTail (.sweep i) a b = .ok b' →
        b'.tailDone = true ∨ b'.passed = (b.visit a.desc fun _ => true).1)) ∧
    (∀ (b : Batch) (k : Nat), (a.batches.zipIdx.find? fun e => e.1.tailDone) = some (b, k) →
      (b.written = true → exec (.searchResults now i) s = .next (w.settleBatch i k)) ∧
      (b.written = false → (b.probed = true → b.reqs.any (fun q => w.unitBusy (engineReq q.id)) = false) →
        ∀ (l : List Ranked) (v : State), w.reading (.results i) (fun s => s.rankAll (.results i) a b b.pairs) eventReads = (v, .ok ([], l)) →
        (b.probed = false → l.any v.probes = true →
          exec (.searchResults now i) s = .next ((v.probeResults a l).modIndex i fun a => a.setBatch k { b with probed := true })) ∧
        (b.probed = true ∨ l.any v.probes = false →
          let y := (v.forget (.results i)).writeResults a l b.reqs
          exec (.searchResults now i) s = .next
            ((y.1.modIndex i fun a => a.setBatch k { b with reqs := y.2, written := true }).settleBatch i k))))

/-- ORBIT_DEFINE to SKY_REARM on their normal paths. -/
def Obligations.EphemerisOrders : Prop :=
  ∀ (o : Order) (n : Byte) (cid : Cid) (period : W32) (anchor enable disable : W64) (first count : W32) (rh : Handle) (offset : BitVec 48)
    (s : State), OrderTaken o s →
    let u := s.orderTaken o
    let x := u.orbit n.toNat
    let i := handleIndex rh
    let off := offset.toNat
    (period ≠ 0 → first.toNat + count.toNat ≤ 65536 → u.orbitEnabled x = false → u.touchesEnabled first.toNat count.toNat = false →
      exec (.orbitDefine o n cid period anchor first count) s = .next ((u.setOrbit n.toNat
        { defined := true, cid := cid, period := period.toNat, anchor := anchor.toNat, first := first.toNat
          count := count.toNat, late := x.late }).finishOrder o.ref stOk [])) ∧
    (first.toNat + count.toNat ≤ 65536 → handleAid rh = u.aid → (u.region i).state ≠ .free →
      u.touchesEnabled first.toNat count.toNat = false → off + 32 * count.toNat ≤ (u.region i).size →
      ∀ (v : State) (g : Got), u.orderRead o.ref.asker rh off (32 * count.toNat) = (v, g) → g.usable = true → g.poisoned = false →
      exec (.transitLoad o rh offset first count) s = .next
        (((v.setTransits ((List.range count.toNat).foldl (fun (t : Tab Entry) j =>
          t.set {} (first.toNat + j) (parseEntry (sliceBytes g.data (32 * j) 32))) v.sky.transits)).forget o.ref.asker).finishOrder
            o.ref stOk (beBytes 4 count.toNat))) ∧
    (x.defined = true → (u.locked = true → u.sky.count.toNat < enable.toNat) → orbitOk x ((u.orbitEntries n.toNat).map (·.2)) = true →
      exec (.orbitEnable o n enable) s = .next
        ((u.setOrbit n.toNat { x with enable := some enable.toNat, disable := none }).finishOrder o.ref stOk [])) ∧
    (x.defined = true → exec (.orbitDisable o n disable) s = .next
        ((u.setOrbit n.toNat { x with disable := some disable.toNat }).finishOrder o.ref stOk [])) ∧
    exec (.skyRearm o) s = .next ((u.setSky { u.sky with lastLocked := none, regressed := false }).finishOrder o.ref stOk
      (beBytes 8 (u.sky.lastLocked.getD 0).toNat))

/-- TICK, LOCAL_TICK, SKY_EDGE and TICK_ABSENCE. -/
def Obligations.TicksOfTheCount : Prop :=
  ∀ (h : Hdr) (count : W64) (domain : BitVec 16) (now high : Nat) (s : State),
    let u := s.afterLink h
    let w := s.advanceTo now
    let k := w.sky
    (FrameTaken false h 16 s →
      let good := (u.portCfg h.port).tick = true ∧ u.ticksRun srcFrames = true ∧ domain = u.boot.cfg.device.skyDomain
      (¬ good → exec (.tick h count domain) s = .next (u.bump 0 h.port 16)) ∧
      (good → u.tickPorts.length = 2 → u.sky.isCopy count = true → exec (.tick h count domain) s = .next (u.bump 0 h.port 17)) ∧
      (good → (u.tickPorts.length ≠ 2 ∨ u.sky.isCopy count = false) → exec (.tick h count domain) s = .next
        (State.countedTick (u.setSky (u.sky.take count)) u.now count))) ∧
    (s.ticksRun srcLocal = true → ∀ t, k.lastTick = some t → k.generated ≠ 0 → t + w.boot.cfg.device.localPeriod ≤ w.now →
      exec (.localTick now) s = .next
        (State.countedTick (w.setSky { k with generated := k.generated + 1 }) w.now (BitVec.ofNat 64 (k.generated + 1)))) ∧
    (s.ticksRun srcSky = true →
      (∀ t, k.lastTick = some t → k.intervals ≠ [] → 2 * (w.now - t) * k.intervals.length < k.intervalSum →
        exec (.skyEdge now high) s = .next ((w.repeatEdge high).bump 11 0 2)) ∧
      (k.lock = .absent → k.lastTick = none → k.symbols = none →
        ∃ t : State, exec (.skyEdge now high) s = .next t ∧ t.sky.lock = .acquiring ∧ t.sky.goodRun = 1 ∧ t.sky.count = k.count ∧
          t.sky.lastTick = some w.now ∧ t.sky.instant = w.now + w.boot.cfg.device.tickHold ∧ t.store = w.store ∧ t.comps = w.comps)) ∧
    (s.inService = true → ∀ t, k.lastTick = some t → k.intervals ≠ [] → 2 * k.intervalSum < (w.now - t) * k.intervals.length →
      (k.lock = .locked → exec (.tickAbsence now) s = .next (w.loseLock 1)) ∧
      (k.lock = .acquiring → exec (.tickAbsence now) s = .next (w.setSky { k with
        intervals := [], established := false, goodRun := 0, regressed := false, symbols := none, taken := [], restart := true })))

/-- The transits' events and the ends that they bring (what a COMMIT starts ends with its STEP_COMMIT: DEDUCED, log entry 69). -/
def Obligations.TransitsFire : Prop :=
  ∀ (now i j : Nat) (s : State),
    let w := s.advanceTo now
    (∀ (d : DueTransit) (rest : List DueTransit), s.inService = true → w.locked = true → w.liveDue = d :: rest → d.entry = i →
      d.moment ≤ w.now →
      let e := w.transit i
      let v := w.setSky { w.sky with due := rest }
      let v := if d.late then v.countLate e.orbit e.cid else v
      (e.kind = kindPromote → exec (.promote now i) s = .next (v.firePromote e d.count)) ∧
      (e.kind = kindReserve → exec (.reserve now i) s = .next (v.fireReserve i e d.count)) ∧
      (e.kind = kindCommit → ∀ k, v.activeIdx e.cid = some k →
        ((v.compAt k).stepState = .open_ ∨ (v.compAt k).stepState = .unjournalled) →
        (v.compAt k).openStep.toNat = fieldLe e.operands 0 4 →
        exec (.commit now i) s = .next ((v.setComp k { v.compAt k with sealing := true }).recallExclusives e.cid)) ∧
      (e.kind = kindCalibrate → e.flags.getLsbD 0 = false → fieldLe e.operands 0 1 ≤ 1 → e.unit < 8 →
        v.calibRuns 0 e.unit = false → v.testRuns 0 e.unit = false →
        exec (.calibrate now i) s = .next (v.startCalib true e.unit (fieldLe e.operands 0 1) none (some (e.window d)))) ∧
      (e.kind = kindTest → exec (.testWindow now i) s = .next
        (v.startTest (fieldLe e.operands 0 1) e.unit (some (e.window d))))) ∧
    (∀ r : Reservation, s.withdrawn = false → w.sky.reservations[i]? = some r →
      exec (.reservationEnd now i) s = .next (if w.locked = true ∧ w.sky.reached r.endCount r.phase w.now = true then
        w.setReservations (w.sky.reservations.eraseIdx i) else w)) ∧
    (s.withdrawn = false → w.locked = true → w.releaseReached (w.sectorAt i j) = true →
      exec (.scheduledRelease now i j) s = .next ((w.demote (sectorKey i j)).pump)) ∧
    (∀ p, s.withdrawn = false → w.sky.promotes[i]? = some p → w.locked = true → w.sky.reached p.due 0 w.now = true →
      let v := w.setSky { w.sky with promotes := w.sky.promotes.eraseIdx i }
      exec (.promoteDue now i) s = .next
        (if ∀ m, m < p.count → (w.sectorAt p.region (p.first + m)).promoted = true then v
         else (v.bump 2 p.stack 5).countLate p.orbit p.cid))

/-- BLOCK_DRAIN to CALIBRATION_LAPSE on their normal paths. -/
def Obligations.BlocksOutOfService : Prop :=
  ∀ (o : Order) (cls kind margin at_ : Byte) (unit : BitVec 16) (id : W32) (now n m : Nat) (result : TestResult) (s : State),
    let u := s.orderTaken o
    let w := s.advanceTo now
    let c := cls.toNat
    let k := unit.toNat
    let b := u.block c k
    let d := w.block n m
    let cal := w.calib (decide (n = 0)) m
    (OrderTaken o s → blockExists c k = true →
      exec (.blockDrain o cls unit) s = .next
        ((if b.drain = 0 then u.setBlock c k { b with drain := 1 } else u).finishOrder o.ref stOk []) ∧
      (b.failed = false → b.test = none → u.testRuns c k = false → u.calibRuns c k = false → c ≠ 4 →
        exec (.blockReturn o cls unit) s = .next ((u.setBlock c k { b with drain := 0, test := none }).finishOrder o.ref stOk [])) ∧
      (u.lifecycle = 1 → kind.toNat ≤ 1 → margin = 0 → at_.toNat ≤ 1 → b.test = none → u.testRuns c k = false →
        exec (.testOrder o cls kind unit margin at_ id) s = .next
          (((u.setBlock c k { b with test := some { kind := kind.toNat, atWindow := decide (at_ = 1), testId := id } }).finishOrder
            o.ref stOk []).startTest c k none)) ∧
      (c ≤ 1 → kind.toNat ≤ 1 → b.drain = 2 → u.testRuns c k = false → u.calibRuns c k = false →
        exec (.calibRun o cls kind unit) s = .next (u.startCalib (decide (c = 0)) k kind.toNat (some o.ref) none))) ∧
    (s.withdrawn = false → d.drain = 1 → w.drained n m = true → n ≠ 4 →
      exec (.blockDrainDone now n m) s = .next (((w.setBlock n m { d with drain := 2 }).drainedNotice n m).startTest n m none)) ∧
    (s.withdrawn = false → ∀ t, d.test = some t → t.running = true → t.window = none → n ≠ 3 → n ≠ 5 →
      exec (.testEnd now n m result) s = .next
        (((w.reinit n m t result).setBlock n m
          { d with test := none, failed := d.failed || decide (testOutcome result t n = 2), outcome := testOutcome result t n
                   testId := t.testId }).testDone
            n m t.testId (testOutcome result t n) (failedCount result t n) result.firstFailure 0)) ∧
    (s.withdrawn = false → ∀ t, d.test = some t → t.running = true → t.window = none → n = 3 → m < 4 →
      let y := (w.isolate 3 m false 0).reinit 3 m t result
      let z := y.setBlock 3 m { d with test := none, failed := d.failed || decide (testOutcome result t 3 = 2)
                                       outcome := testOutcome result t 3, testId := t.testId }
      exec (.testEnd now n m result) s = .next ((z.countMismatches 3 m result).testDone 3 m t.testId (testOutcome result t 3)
        (failedCount result t 3) result.firstFailure (mismatched result).length)) ∧
    (s.withdrawn = false → ∀ t, d.test = some t → t.running = true → n = 5 → ∃ v : State, exec (.testEnd now n m result) s = .next v.enterReset) ∧
    (s.withdrawn = false → ∀ i, cal.busy = some i → cal.until_ ≤ w.now → cal.byOrder = none → cal.window = none →
      exec (.calibrationDone now n m) s = .next ((w.setCalib (decide (n = 0)) m
        (if i = 0 then { cal with busy := none, lastImp := w.now, lapseImp := 0 }
         else { cal with busy := none, lastTrain := w.now, lapseTrain := 0, tempAtTrain := cal.temp })).pump)) ∧
    (s.withdrawn = false → n ≤ 1 → 10 ≤ w.boot.step → w.unitInUse (decide (n = 0)) m = true →
      (cal.lastImp + 128000000 * (cal.lapseImp + 1) < w.now → exec (.calibrationLapse now n m 0) s = .next
        ((w.setCalib (decide (n = 0)) m { cal with lapseImp := cal.lapseImp + 1 }).lateCalibrate (decide (n = 0)) m)) ∧
      (cal.lastTrain + 1000000000 * (cal.lapseTrain + 1) < w.now → exec (.calibrationLapse now n m 1) s = .next
        ((w.setCalib (decide (n = 0)) m { cal with lapseTrain := cal.lapseTrain + 1 }).lateCalibrate (decide (n = 0)) m)))

/-- RESET and CORE_ERROR. -/
def Obligations.ResetsAndCoreErrors : Prop :=
  ∀ (o : Order) (scope x y q : Byte) (mask m : W64) (now core line e : Nat) (s : State),
    let u := s.orderTaken o
    let v := (s.advanceTo now).bumpAlert 8 (partitionOf (clusterOf core)) 1
    let k := v.core core
    (OrderTaken o s → resetMask scope.toNat x.toNat y.toNat q.toNat mask = some m →
      (∀ c ∈ clustersOf m, scope = 2 ∨ (u.cluster c).state ≠ .unavailable) → (∀ c ∈ clustersOf m, u.underTest (partitionOf c) = false) →
      exec (.reset o scope x y q mask) s = .next
        (u.defer { order := some o.ref, mask := m, op := .reset scope.toNat x.toNat y.toNat q.toNat }).settleDeferred) ∧
    (s.inService = true → core < 1024 →
      (∀ place ∈ ([.context, .instructionStore, .pipeline] : List CoreErrorWhere), exec (.coreError now core place) s = .next
        (v.defer { mask := 1 <<< clusterOf core, op := .reset 0 (core % 32) (core / 32) 0 }).settleDeferred) ∧
      exec (.coreError now core (.scratch line)) s = .next
        (v.setCore core { k with scratchPoison := k.scratchPoison.set false line true }) ∧
      exec (.coreError now core (.accumulator e)) s = .next
        (v.setCore core { k with accs := k.accs.mod {} e fun a => { a with poison := true } })) ∧
    (∀ c p i : Nat, (s.resetThread c p i).ctx ⟨c, i⟩ = { state := .halted, cause := gcExternal, program := p })

/-- The tiers' events on their normal paths. -/
def Obligations.TierEvents : Prop :=
  ∀ (now i j retries ch b bank : Nat) (soft up d ddr management : Bool) (errors : List (Nat × Byte)) (s : State),
    let w := s.advanceTo now
    let x := w.sectorAt i j
    (s.withdrawn = false → x.state = .filling up → x.writeback = false → ∀ l, w.flashSector i j = some l →
      exec (.sectorFillDone now i j retries soft false) s = .next
        ((((((w.fillSector i j l).countFlashRead i j retries soft false).resumePrograms i j)).setSector i j
          { x with state := if up then .hbm false else .dram false }).settleHold (sectorKey i j)).pump) ∧
    (s.withdrawn = false → x.state = .moving up d → exec (.sectorMoveDone now i j) s = .next
      (((w.setSector i j { x with state := if up then .hbm d else .dram d }).settleHold (sectorKey i j)).pump)) ∧
    (s.withdrawn = false → ∀ k, x.writeback = true → w.openBlock (nandChannel (w.granule i j)) = some k →
      exec (.flashProgramDone now i j true) s = .next
        ((((w.programSector i j).dropCopy i j).setSector i j { x with writeback := false, suspended := 0 }).pump) ∧
      exec (.flashProgramDone now i j false) s = .next ((w.bump 6 (dieOfBlock k) 2).retireBlock k)) ∧
    (s.inService = true → w.belowShare ch 20 = true → w.collects ch (w.blockOf ch b) = true → (w.openBlock ch).isSome = true →
      let k := w.blockOf ch b
      let v := (w.granulesIn ch k).foldl State.relocate w
      v.granulesIn ch k = [] → (v.nandBlock k).early = false →
        let y := v.bump 5 ch 1
        exec (.garbageCollection now ch b true) s = .next (((((y.eraseCodewords k).setNandBlock k
          { y.nandBlock k with valid := 0, used := 0, early := false, erases := (y.nandBlock k).erases + 1 }).wearLevels
            (dieOfBlock k)).flashLevels ch).pump) ∧
        exec (.garbageCollection now ch b false) s = .next
          ((((y.bump 6 (dieOfBlock k) 3).retireBlock k).flashLevels ch).pump)) ∧
    (s.inService = true → ∀ n, w.placeOf i (64 * j) = .hbm n → (w.region i).state ≠ .free → 64 * j < (w.region i).size →
      w.calibrating i (64 * j) = none → errors = [] → w.poisoned i j = false → Memory.wf w.store.mem = true →
      Tab.wf false w.store.poison = true → 64 * j + 64 ≤ 2 ^ 48 →
      ∃ t : State, exec (.patrolScrub now i j errors) s = .next t ∧ t.store.scrubbed = w.store.scrubbed + 1 ∧
        t.health = w.health ∧ t.poisoned i j = false ∧ ∀ o, o < 2 ^ 48 → t.byte i o = w.byte i o) ∧
    (s.inService = true → s.unitInUse (!ddr) i = true →
      exec (.refresh now ddr i bank management) s = .next { w with store := { w.store with
        refreshed := w.store.refreshed.set 0 ((calibKey (!ddr) i) * 2 ^ 16 + bank) w.now } })

/-- LINK_TRAINING_START to HOP_HOLD_EXPIRY on their normal paths. -/
def Obligations.LinksTrainAndFail : Prop :=
  ∀ (o : Order) (now port sub pcp codewords : Nat) (pcs : Bool) (speed bp bs : Byte) (partner : Aid) (s : State),
    let u := s.orderTaken o
    let w := s.advanceTo now
    let k := subKey port sub
    let p := w.subPort k
    (s.inService = true → p.link = .down → p.everTrained = false →
      exec (.linkTrainingStart now port sub) s = .next
        (w.modSub k fun p => { p with link := .training, everTrained := true, lastAttempt := w.now })) ∧
    (s.inService = true → p.link = .training → speedAllowed (w.portCfg port).mode speed = true → w.boot.step ≠ 9 →
      p.holdFrom = none → p.portDownSent = false →
      exec (.linkUp now port sub speed partner) s = .next (((w.setSub k { p with
        link := .up, speed := speed, fecLock := true, partner := partner, holdFrom := none, holdExpired := false
        portDownSent := false, discardedHold := 0, settled := true }).resyncFrames k).installManagers port sub)) ∧
    (p.link = .training → p.lastAttempt + (if p.medium = 2 then 500000000 else 4000000000) ≤ w.now →
      exec (.trainingTimeout now port sub) s = .next ((w.setSub k { p with link := .down, settled := true }).endStep10)) ∧
    exec (.linkLoss now port sub pcs) s = .next (w.retrain k (if pcs then 2 else 1)) ∧
    (s.arrives port sub = true → p.fecDegrade ≠ 0 → p.fecDegrade ≤ codewords →
      exec (.fecDegrade now port sub codewords) s = .next ((w.bumpBy 0 port 4 codewords).retrain k 4)) ∧
    (∀ since ends : Nat, p.paused.get none pcp = some (since, ends) → bitsOf w.switch.bufferCtl.toNat 20 12 ≠ 0 →
      since + bitsOf w.switch.bufferCtl.toNat 20 12 * 1000000 < w.now →
      exec (.pfcWatchdog now port sub pcp) s = .next (w.retrain k 5)) ∧
    (OrderTaken o s → bp.toNat < 32 → bs.toNat < 8 → (u.subPort (subKey bp.toNat bs.toNat)).link ≠ .disabled →
      exec (.portRetrain o bp bs) s = .next ((u.finishOrder o.ref stOk []).retrain (subKey bp.toNat bs.toNat) 6)) ∧
    (∀ (v : State) (j cause : Nat), (v.subPort j).link = .up → cause < 256 →
      ((v.retrain j cause).subPort j).link = .training ∧ ((v.retrain j cause).subPort j).downCause = BitVec.ofNat 8 cause ∧
      ((v.retrain j cause).subPort j).holdFrom = some v.now ∧ ((v.retrain j cause).subPort j).inFlight = none) ∧
    (∀ t, p.holdFrom = some t → p.link ≠ .up → p.link ≠ .disabled → p.holdExpired = false →
      t + w.boot.cfg.device.hopHold ≤ w.now →
      let v := ((((w.dropHops k).modSub k fun p => { p with holdExpired := true, portDownSent := true }).failOver k).bumpAlert 0 port 7)
      exec (.hopHoldExpiry now port sub) s = .next (v.notice 0x0093 (beBytes 1 port ++ beBytes 1 sub ++ zeros 2 ++
        beBytes 4 (v.subPort k).discardedHold ++ beBytes 2 p.partner.toNat)))

/-- Link frames and the replay timer. -/
def Obligations.HopProtocol : Prop :=
  ∀ (h : Hdr) (pcp flags : Byte) (ack : BitVec 16) (epoch : W32) (now port sub : Nat) (s : State),
    let u := (s.advanceTo h.now).bump 0 h.port 0
    let k := subKey h.port h.sub
    let q := pcp.toNat
    let p := (u.subPort k).hop q
    let w := s.advanceTo now
    let j := subKey port sub
    (s.arrives h.port h.sub = true → h.check = .passed → h.tagged = true → s.encapOk h = true → 8 ≤ h.length → h.length ≤ h.received →
      h.src = (u.subPort k).partner → q < 8 → u.lossless h.port q = true →
      (p.resync = true → flags.getLsbD 0 = false → flags.getLsbD 1 = false →
        exec (.hopAck h pcp flags ack epoch) s = .next (u.modHop k q fun p => p.acked ack)) ∧
      (p.resync = false → epoch ≠ p.partnerEpoch → p.fresh = true →
        exec (.hopAck h pcp flags ack epoch) s = .next
          ((u.restartHop k q).modHop k q fun p => { p with partnerEpoch := epoch, resync := true, fresh := false })) ∧
      (let v := u.modHop k q fun p => p.acked (ack - 1)
       exec (.hopNak h pcp ack) s = .next (v.replayFrames k q ((v.subPort k).hop q).replay))) ∧
    (∀ (r : Replay) (l : List Replay), s.inService = true → (w.subPort j).link = .up → ((w.subPort j).hop q).resync = true →
      (w.subPort j).paused.get none q = none → ((w.subPort j).hop q).replay = r :: l →
      ((w.subPort j).hop q).pendingReplay.any (fun f => decide (f.hopSeq = r.frame.hopSeq)) = false →
      r.sent + w.boot.cfg.device.replayTimeout < w.now →
      exec (.replayTimeout now port sub q) s = .next (w.replayFrames j q (r :: l))) ∧
    (∀ (v : State) (i n : Nat) (l : List Replay), l ≠ [] →
      v.replayFrames i n l = if ∃ r ∈ l, 8 ≤ r.count then (v.bump 0 (i / 8) 9).retrain i 3
        else v.modHop i n fun h => { h with pendingReplay := l.map (·.frame), until_ := l.getLast?.map (·.frame.hopSeq) })

/-- What passes a sub-port besides consumed frames of version 2. -/
def Obligations.SwitchAndFlowControl : Prop :=
  ∀ (h : Hdr) (f : Transit) (x : UnlistedOrder) (op enable : Byte) (quanta : List Nat) (now port sub pcp seconds nanos : Nat) (sync : Bool) (mka : MkaMessage)
    (target ask : BitVec 128) (mac : BitVec 48) (s : State),
    let u := s.afterLink h
    let w := s.advanceTo now
    let k := subKey port sub
    let p := w.subPort k
    let a := (s.advanceTo h.now).bump 0 h.port 0
    let o : Order := { hdr := h, trailer := x.trailer, orderId := x.orderId }
    (s.answersTo h.dst = false → f.v1 = true → s.arrives h.port h.sub = true → (s.advanceTo h.now).portDrain h.port = false →
      h.check = .passed → (s.advanceTo h.now).macClosed h.port h.sub = false → h.tagged = true → s.encapOk h = true →
      (a.bufferPlace (subKey h.port h.sub) h.pcp (bufferBytes h.length)).isSome = true → h.length ≤ h.received →
      exec (.forwardFrame h f) s = .next ((a.markConsumed h).forward h f)) ∧
    (s.answersTo h.dst = false → f.v1 = false → FrameTaken false { h with dst := s.aid } (fixedPayload f.opcode f.resp) s → f.opcode ≠ 0x60 →
      f.opcode ≠ 0x7E → f.opcode ≠ 0x7F → (f.opcode.toNat < 0x70 ∨ 0x75 < f.opcode.toNat) →
      exec (.forwardFrame h f) s = .next (u.forward h f)) ∧
    (listedOpcode op = false → FrameTaken false h 0 s →
      exec (.unlistedOpcode h op none) s = .next (u.respond h op stUnsupported [])) ∧
    (listedOrder x.code = false → OrderTaken o s →
      exec (.unlistedOpcode h 0x72 (some x)) s = .next ((s.orderTaken o).finishOrder o.ref stInvalid [])) ∧
    (s.arrives h.port h.sub = true → (s.advanceTo h.now).portDrain h.port = false → h.check = .passed →
      (s.advanceTo h.now).macClosed h.port h.sub = false →
      exec (.otherFrame h .untaggedTfp) s = .next (((s.advanceTo h.now).bump 0 h.port 0).bump 0 h.port 13)) ∧
    (s.arrives port sub = true →
      (let v := match p.inFlight with
        | some f => ((w.uncharge f).modSub k fun p => { p with inFlight := none, wire := [] }).bump 0 port 1
        | none => w
       ∀ (again : Bool) (g : OutFrame) (v' : State), v.choose k = (some (again, g), v') →
        exec (.egressSelect now port sub) s = .next ((v'.transmit k again g).flowControl (k / 128))) ∧
      (w.portDrain port = false →
        (let named := (List.range 8).filter fun q => enable.getLsbD q
         exec (.pfcFrame now port sub enable quanta) s = .next (named.foldl (fun s q => s.pausePcp k q (nth 0 quanta q))
          (if ∃ q ∈ named, nth 0 quanta q ≠ 0 then w.bump 0 port 10 else w))) ∧
        ((w.portCfg port).macsec = true → (w.sec.caks.get {} k).held = true →
          exec (.eapolFrame now port sub mka) s = .next
            (if mka.live = true ∧ mka.suite = gcmAesXpn256 ∧ mka.offset = 0 then w.secureSub k mka else w.closeSub k)) ∧
        (w.macClosed port sub = false →
          (p.ptp = true → exec (.ptpMessage now port sub seconds nanos sync) s = .next
            { w with switch := { w.switch with wallSec := seconds, wallNs := nanos, wallAt := w.now, wallSync := sync } }) ∧
          ((w.portCfg port).ipv6 = true → target = p.ipv6 →
            exec (.neighborSolicitation now port sub target ask mac) s = .next (w.queueAt k (advertisement p w.pcpControl ask mac)))))) ∧
    (∀ since ends : Nat, p.paused.get none pcp = some (since, ends) → ends ≤ w.now →
      exec (.pauseExpiry now port sub pcp) s = .next (w.resumePcp k pcp)) ∧
    (∀ t, s.inService = true → w.portDrain port = false → p.link = .up → p.xoff.get none pcp = some t → w.flowPcp k pcp = w → w.chargeFull k pcp = true →
      t + quantaNs p.speed 0xFFFF / 2 ≤ w.now →
      exec (.xoffRefresh now port sub pcp) s = .next
        ((w.modSub k fun p => { p with xoff := p.xoff.set none pcp (some w.now) }).queueAt k (pauseFrame w pcp 0xFFFF)))

/-- V1_FRAME (R114). -/
def Obligations.Version1Frames : Prop :=
  ∀ (h : Hdr) (region : BitVec 24) (offset : BitVec 40) (len : BitVec 16) (op : V1Op) (e : Nat) (s : State),
    let a := (s.advanceTo h.now).bump 0 h.port 0
    let v := a.markConsumed h
    let g := { h with gen := v.genOf h.cid }
    let rh := mkHandle h.dst region.toNat
    s.answersTo h.dst = true → s.arrives h.port h.sub = true → (s.advanceTo h.now).portDrain h.port = false → h.check = .passed →
    (s.advanceTo h.now).macClosed h.port h.sub = false → h.tagged = true → s.encapOk h = true → h.length ≤ h.received →
    (a.bufferPlace (subKey h.port h.sub) h.pcp (bufferBytes h.length)).isSome = true → (v.portCfg h.port).v1 = true →
    v.compIdx h.cid = some e → (v.compAt e).modes.getLsbD 5 = true → v.boot.admitted = true → v.comps.selfExpelled = false →
    (v1Valid offset.toNat len.toNat op = false →
      exec (.v1Frame h region offset len op) s = .next (v.respondV1 g (v1Opcode op) false [])) ∧
    (∀ reason, op = .read → v1Valid offset.toNat len.toNat op = true → compositionCheck v g [rh] [] = some reason →
      exec (.v1Frame h region offset len op) s = .next
        ((v.violation h.cid h.src h.port reason).respondV1 g 0x01 true (zeros len.toNat))) ∧
    (∀ src srcLen dst dstCap, op = .ckptRestore src srcLen dst dstCap → compositionCheck v g [] [src.rh, dst.rh] = none →
      v.fencedCid h.cid = false → exec (.v1Frame h region offset len op) s = .next
        (v.restore g true src srcLen.toNat dst dstCap.toNat)) ∧
    (v1Valid offset.toNat len.toNat op = true → compositionCheck v g [rh] [] = none →
      (op = .read → exec (.v1Frame h region offset len op) s = .next
        (v.v1Access g 0x01 rh rightRead { kind := .read, offset := offset.toNat, len := len.toNat })) ∧
      (∀ data, op = .write data → exec (.v1Frame h region offset len op) s = .next
        (v.v1Access g 0x02 rh rightWrite { kind := .write, offset := offset.toNat, len := data.length, data := data })) ∧
      (∀ fn a b, op = .atomic fn a b → exec (.v1Frame h region offset len op) s = .next
        (v.v1Access g 0x03 rh rightAtomic
          { kind := .atomic, offset := offset.toNat, len := 8, atomicOp := fn.toNat, opA := a.toNat, opB := b.toNat })))

/-- Events of the supply, the clocks and the sensors. -/
def Obligations.WithdrawalAndThrottling : Prop :=
  ∀ (now n mv ca w1 w10 w1s : Nat) (die hbm : List (Nat × Nat)) (s : State),
    let w := s.advanceTo now
    (∀ v : State, v.withdraw.withdrawn = true ∧ v.withdraw.pins.serdesIdle = true ∧ v.withdraw.pins.ready = false ∧
      v.withdraw.store = v.store ∧ v.withdraw.inService = false) ∧
    (s.inService = true →
      (n ≤ 2 → exec (.d2dRetryFailure now n) s = .next ((w.bumpBy 11 0 7 8).bumpBy 11 0 8 9).withdraw ∧
        exec (.refclkLoss now n) s = .next w.withdraw) ∧
      exec (.vio18Loss now) s = .next w.withdraw ∧
      (s.sensorUsed n = true → exec (.thermalTrip now false n) s = .next
        (let v := w.bumpAlert 7 n 4
         (v.setPower { v.power with throttle := 4, tripped := true }).withdraw))) ∧
    (s.boot.inReset = false →
      (s.sensorUsed n = true → exec (.sensorFault now n) s = .next
        (let v := w.bumpAlert 7 n 4
         v.setPower { v.power with faulted := v.power.faulted ++ [n] })) ∧
      (37000 ≤ mv → mv < 40000 → exec (.lowInput now mv) s = .next (w.setPower { w.power with mv := mv, lowInput := true })) ∧
      (let v := hbm.foldl State.readStack (die.foldl State.readSensor w)
       let coolFor := if v.cool w10 w1s then v.power.coolFor + 1 else 0
       ∃ t : State, exec (.throttleStep now mv ca w1 w10 w1s die hbm) s = .next t ∧ t.power.mv = mv ∧ t.power.ca = ca ∧
        t.power.watts = w1 ∧ t.power.lowInput = decide (mv < 40000) ∧ t.power.peak = max v.power.peak w10 ∧
        t.power.throttle = (if v.power.tripped = true then v.power.throttle
          else if v.tooHot mv ca w10 w1s = true then (if v.power.throttle < 4 then v.power.throttle + 1 else v.power.throttle)
          else if 10 ≤ coolFor then v.power.throttle - 1 else v.power.throttle))) ∧
    (mv < 37000 → ∃ t : State, exec (.inputUndervoltage mv) s = .next t ∧ t.boot.inReset = true ∧ t.power.vinQualified = false ∧
      t.power.mv = mv)

/-- The start and reset commands. -/
def Obligations.StartAndWholeReset : Prop :=
  ∀ (b : StartFacts) (o : Order) (now width : Nat) (image : Ptr) (length : W32) (ok : Bool) (s : State),
    let w := s.advanceTo now
    let u := s.orderTaken o
    (s.boot.inReset = true → s.supplyReady b = true →
      exec (.startSequence b) s = .next (s.startStep1.startStep2 b) ∧
      (∀ x : LogRec, s.startStep1.chooseSlot s.startStep1.noCandidate s.startStep1.candidates = .error x →
        ∃ t : State, exec (.startSequence b) s = .next t ∧ t.boot.cfgFault = true ∧ t.pins.cfgFaultN = true ∧
          t.pins.serdesIdle = true ∧ t.boot.cause = x.cause)) ∧
    (s.boot.inReset = false → 1000 ≤ width → w.boot.cfgFault = false →
      w.boot.hwFault = false → exec (.reloadN now width b) s = .next (w.modBoot fun b => { b with reloads := b.reloads + 1 })) ∧
    (s.boot.inReset = false → 1000 ≤ width → (w.boot.cfgFault = true ∨ w.boot.hwFault = true) →
      let v := w.modBoot fun b => { b with cfgFault := false, hwFault := false, cause := 0, step := 1 }
      exec (.reloadN now width b) s = .next ((State.settleAlert
        { v with pins := { serdesIdle := true, memReset := true, rstN := v.pins.rstN } }).startStep2 b)) ∧
    (w.inService = true → w.boot.admitted = false → w.boot.installed ≠ [] →
      (w.boot.lastPresent = 0 ∨ w.boot.lastPresent + 100000000 ≤ w.now) →
      exec (.presentTimer now) s = .next ((w.modBoot fun b => { b with lastPresent := w.now }).notice 0x0005 w.presentBody)) ∧
    (OrderTaken o s → u.boot.imageJob = none → handleAid image.rh = u.aid →
      let i := handleIndex image.rh
      let off := image.offset.toNat
      (u.region i).state ≠ .free → off + length.toNat ≤ (u.region i).size → length.toNat ≤ 8 * mib →
      ∀ (v : State) (g : Got), u.orderRead o.ref.asker image.rh off length.toNat = (v, g) → g.usable = true → g.poisoned = false →
      v.imageFits { bytes := g.data } = true →
      exec (.imageWrite o image length) s = .next ((v.forget o.ref.asker).modBoot fun b => { b with
        imageJob := some { order := o.ref, slot := 1 - v.boot.slot, image := { bytes := g.data }, ptr := image, length := length.toNat }
        slotA := if 1 - v.boot.slot = 0 then {} else b.slotA
        slotB := if 1 - v.boot.slot = 1 then {} else b.slotB })) ∧
    (∀ j, w.boot.imageJob = some j → w.inService = true →
      ∃ t : State, (ok = true → exec (.imageProgrammed now ok) s = .next
          ((t.extendM3 (imageEvent j)).finishOrder j.order stOk (beBytes 1 j.slot))) ∧
        (ok = false → exec (.imageProgrammed now ok) s = .next (t.finishOrder j.order stInvalid [])) ∧
        t.boot.imageJob = none ∧ t.boot.slotA = (if j.slot = 0 then (if ok then j.image else {}) else w.boot.slotA) ∧
        t.boot.slotB = (if j.slot = 1 then (if ok then j.image else {}) else w.boot.slotB)) ∧
    exec (.wholeDeviceReset .rstN) s = .next { s.enterReset with pins := { s.enterReset.pins with rstN := false } } ∧
    (s.testRuns 5 0 = true → exec (.wholeDeviceReset .selfTestEnd) s = .next s.enterReset) ∧
    (∀ t, w.comps.resetAt = some t → t ≤ w.now → exec (.deviceResetEntry now) s = .next w.enterReset)

/-- Management accesses to registers. -/
def Obligations.RegistersByManagement : Prop :=
  ∀ (h : Hdr) (t : Trailer) (a : W32) (count : BitVec 16) (aid : Aid) (core program : Nat) (v : W64) (s : State),
    let u := s.afterTrailer h t
    (ManagedTaken h t 8 s → h.zeroed = true →
      (count = 1 → a.toNat % 8 = 0 → a.toNat < csrEnd →
        exec (.mgmtRead h t a count) s = .next
          ((u.takeCsr h.src a.toNat).2.respondAuth h 0x70 stOk (beBytes 8 (u.readCsr h.src a.toNat).toNat))) ∧
      (count = 1 → a.toNat % 8 ≠ 0 → exec (.mgmtRead h t a count) s = .next (u.respondAuth h 0x70 stAlign [])) ∧
      (count = 1 → a.toNat % 8 = 0 → csrEnd ≤ a.toNat →
        exec (.mgmtRead h t a count) s = .next (u.countInvalid.respondAuth h 0x70 stInvalid [])) ∧
      (count = 0 ∨ 64 < count.toNat → exec (.mgmtRead h t a count) s = .next (u.respondAuth h 0x70 stInvalid [])) ∧
      exec (.pwrPeak h t) s = .next ((u.setPower { u.power with peak := 0 }).respondAuth h 0x70 stOk
        (beBytes 8 (min 65535 u.power.peak)))) ∧
    (ManagedTaken h t 8 s → h.zeroed = true → 56 ≤ h.length → s.comps.selfExpelled = false → s.boot.admitted = true →
      (a.toNat % 8 = 0 → a.toNat < csrEnd →
        exec (.mgmtWrite h t a [v]) s = .next ((u.writeCsr h.src a.toNat v).respondAuth h 0x71 stOk [])) ∧
      exec (.cmpRecSel h t v) s = .next ((u.selectRecord h.src v).respondAuth h 0x71 stOk []) ∧
      exec (.swtFwd h t aid v) s = .next ((u.setSwitch { u.switch with
        fwd := u.switch.fwd.set 0 aid.toNat (v &&& 0x007FFFFFFFFFFFFB) }).respondAuth h 0x71 stOk []) ∧
      (core < 1024 → program < 4 → v.getLsbD 63 = true →
        exec (.grdFaultLatch h t core program v) s = .next
          ((u.setCore core { u.core core with latches := (u.core core).latches.set 0 program 0 }).respondAuth h 0x71 stOk [])) ∧
      (v.getLsbD 63 = true → exec (.hltAlert h t v) s = .next ((State.settleAlert
        { u with health := { u.health with alert := { u.health.alert with valid := false } } }).respondAuth h 0x71 stOk [])))

/-- Release, tallies and admission. -/
def Obligations.ReleaseAndQuorum : Prop :=
  ∀ (h : Hdr) (t : Trailer) (o : Order) (target : Aid) (nonce : W64) (cid : Cid) (flags floor : Byte) (fuses : FuseRun) (now e : Nat) (s : State),
    let u := s.afterTrailer h t
    let x := s.orderTaken o
    let w := s.advanceTo now
    (OrderTaken o s → x.activeIdx cid = some e → (x.compAt e).stepState = .closed →
      let mine := (x.finishOrder o.ref stOk []).regionsOf cid .assigned
      exec (.compRelease o cid flags) s = .next (mine.foldl State.revoke ((x.finishOrder o.ref stOk []).modComp e fun c =>
        { c with state := .releasing, releaseRegions := flags.getLsbD 0, drainedRegions := mine }))) ∧
    (s.withdrawn = false → w.compIdx cid = some e → (w.compAt e).state = .releasing → w.regionsOf cid .assigned = [] → w.regionsOf cid .draining = [] →
      let v := if (w.compAt e).ended then w else w.endRelease e
      (v.clustersLeft cid = false → (v.compAt e).releaseRegions = false →
        exec (.compReleaseDone now cid) s = .next (v.freeComp e)) ∧
      (v.clustersLeft cid = true → exec (.compReleaseDone now cid) s = .next v)) ∧
    (ManagedTaken h t 16 s → h.zeroed = true → u.comps.selfExpelled = false →
      let c := u.countTally .expel target.toNat nonce h.src
      let v := c.1.respondAuth h 0x74 stOk []
      exec (.expel h t target nonce) s = .next
        (if c.2 = false then v else if target = v.aid then v.expelSelf nonce else v.expelOther target nonce)) ∧
    (ManagedTaken h t 8 s → h.zeroed = true → u.comps.selfExpelled = false → u.lifecycle ≠ 5 → u.sec.scanUnlocked = false →
      (target ≠ u.aid → exec (.admitDevice h t target fuses) s = .next (State.respondAuth
        { u with comps := { u.comps with expelled := u.comps.expelled.filter fun a => decide (a ≠ target) } } h 0x75 stOk [])) ∧
      (target = u.aid → u.boot.admitted = false → u.boot.cfg.life.rotate = false → (u.admitFuses = true → fusesTake fuses = true) →
        exec (.admitDevice h t target fuses) s = .next (u.admitSelf.respondAuth h 0x75 stOk []) ∧
        u.admitSelf.boot.admitted = true ∧ u.admitSelf.pins.ready = true)) ∧
    (OrderTaken o s →
      (target = x.aid →
        (let c := x.countTally .deviceReset target.toNat nonce o.hdr.src
         let v := c.1.finishOrder o.ref stOk []
         exec (.deviceReset o target nonce) s = .next
          (if c.2 then { v with comps := { v.comps with resetAt := some (v.now + 100000) } } else v)) ∧
        (x.lifecycle ≠ 5 → fusesTake fuses = true →
          let c := x.countTally .lcRetire target.toNat nonce o.hdr.src
          let v := c.1.finishOrder o.ref stOk []
          exec (.lcRetire o target nonce fuses) s = .next (if c.2 then v.retireDevice else v))) ∧
      (x.sec.floor ≤ floor.toNat → floor.toNat ≤ x.boot.securityVersion → fusesTake fuses = true →
        let c := x.countTally .floorRaise floor.toNat nonce o.hdr.src
        let v := (c.1.extendM3 (floorEvent floor nonce)).finishOrder o.ref stOk []
        exec (.floorRaise o floor nonce fuses) s = .next (if c.2 then v.setFloor floor.toNat else v))) ∧
    (∀ y, s.withdrawn = false → w.comps.tallies[e]? = some y → y.start + 2000000000 ≤ w.now →
      exec (.tallyExpiry now e) s = .next (w.setTallies (w.comps.tallies.eraseIdx e)))

/-- ATTEST to BOUNDARY_SCAN. -/
def Obligations.KeysAttestationAndJtag : Prop :=
  ∀ (o : Order) (cid : Cid) (nonce : BitVec 256) (report : Ptr) (target flags : Byte) (ckn : BitVec 112) (wrapped : BitVec 320)
    (now level : Nat) (hash key : BitVec 256)
    (challenge : BitVec 512) (token : List Byte) (fuses : FuseRun) (instr : JtagInstr) (s : State),
    let u := s.orderTaken o
    let w := s.jtagTime now
    (OrderTaken o s →
      (let j : AttestJob := { order := o.ref, cid := cid, nonce := nonce, report := report }
       let v := u.modSec fun x => { x with attests := x.attests ++ [j] }
       u.attestFault j = none → exec (.attest o cid nonce report fuses) s = .next (State.runAttests fuses v.sec.attests.length v)) ∧
      (∀ cak, ((u.managerWrap o.hdr.src).bind fun k => Config.unwrap k (beBytes 40 wrapped.toNat)) = some cak →
        target.toNat / 32 < subPorts (u.portCfg (target.toNat % 32)).mode →
        let new : Cak := { held := true, ckn := ckn, key := cak, preferred := flags.getLsbD 0 }
        exec (.macsecCak o target flags ckn wrapped) s = .next
          (((u.modSec fun x => { x with caks := x.caks.set {} (subKey (target.toNat % 32) (target.toNat / 32)) new }).extendM3
            (cakEvent target flags ckn)).finishOrder o.ref stOk []))) ∧
    (s.inService = true → s.sec.nextKeyStarted = true → s.sec.nextKeyReady = false →
      let v := ((s.advanceTo now).modSec fun x => { x with nextKeyReady := true }).settleKey fuses
      exec (.attestKeyReady now fuses) s = .next (State.runAttests fuses v.sec.attests.length v)) ∧
    (s.fusedState = 0 → fusesTake fuses = true → ∃ (t : State) (seed : Nat), exec (.lcManufacture now fuses) s = .next t ∧
      t.fusedState = 1 ∧ t.sec.identitySeed = some seed ∧ t.boot.nodeCache = identityNodes seed ∧
      t.sec.shifted = some (.identityKey (Config.xmssPublic seed none)) ∧ t.sec.owners = s.sec.owners) ∧
    ((s.fusedState = 0 → fusesTake fuses = false → exec (.lcManufacture now fuses) s = .next (w.shiftOut .invalid)) ∧
      (s.fusedState = 1 → fusesTake fuses = false → exec (.provision now hash key fuses) s = .next (w.shiftOut .invalid))) ∧
    (s.fusedState = 1 → fusesTake fuses = true → ∃ t : State, exec (.provision now hash key fuses) s = .next t ∧ t.fusedState = 2 ∧
      t.sec.owners[0]? = some { filled := true, hash := hash, wrap := key } ∧ t.sec.identitySeed = s.sec.identitySeed) ∧
    (let sent := hash256 (Config.draw w.fresh.1) ++ w.identityHash
     let good := decide (challenge = sent) && w.tokenGood level challenge token
     ∃ t : State, exec (.jtagToken now level challenge token) s = .next t ∧ t.sec.shifted = some (.challenge sent) ∧
      t.sec.level1 = (w.sec.level1 || (good && decide (level = 1))) ∧ t.sec.level2 = (w.sec.level2 || (good && decide (level = 2))) ∧
      t.sec.owners = w.sec.owners ∧ t.store = w.store) ∧
    (s.jtagOpen = true ∨ (s.sec.level1 = true ∧ s.sec.level2 = true) →
      exec (.scanTest now) s = .next w.eraseForScan ∧ w.eraseForScan.sec.sessionKey = none ∧ w.eraseForScan.sec.keySlots = [] ∧
      w.eraseForScan.sec.scanUnlocked = true) ∧
    (s.jtagAllows instr = true → exec (.boundaryScan now instr) s = .next (w.modSec fun x => { x with jtag := some instr }))

/-- MAGNITUDE_UPDATE, DIMM_TEMPERATURE_POLL and REQUEST_TIMEOUT. -/
def Obligations.HealthAndTimeouts : Prop :=
  ∀ (now id dimm temp : Nat) (counted : List (Nat × Nat × Nat × Nat)) (s : State),
    let w := s.advanceTo now
    (s.boot.inReset = false → (s.health.minutes + 1) * 60000000000 ≤ now →
      let x := w.countHardware counted
      let y := (List.range 64).foldl State.sensorMinute x
      ∃ t : State, exec (.magnitudeUpdate now counted) s = .next t ∧ t.health.minutes = w.health.minutes + 1 ∧ t.health.noticed = [] ∧
        t.health.scores = y.allScores (decide (1440 ≤ w.health.minutes + 1)) ∧
        t.health.history = x.health.counters :: x.health.history.take 1439) ∧
    (∀ (v : State) (cls unit : Nat) (old : Score), (v.scoreOf cls unit false old).band = 0 ∧
      (v.scoreOf cls unit true old).band = nextBand (v.scoreOf cls unit true old).magnitude old.band) ∧
    (∀ m b : Nat, nextBand m b = (if bandReached m < bandHeld m b then bandHeld m b else bandReached m) ∧
      (1000 ≤ m → nextBand m b = max 3 (bandHeld m b)) ∧ (m < 80 → b ≤ 3 → nextBand m b = 0) ∧ (80 ≤ m → m < 100 → nextBand m 1 = 1)) ∧
    (s.inService = true → dimm % 2 < (nth {} w.boot.cfg.mem.ddr (dimm / 2)).dimms → temp ≠ 0 →
      ∃ t : State, exec (.dimmTemperaturePoll now [(dimm, temp)]) s = .next t ∧ t.counter 4 dimm 4 = temp ∧
        t.comps = w.comps ∧ t.store.mem = w.store.mem ∧ t.store.regions = w.store.regions) ∧
    (s.withdrawn = false → ∀ r, w.issuedReq id = some r → r.timedOut = false → r.at_ + w.boot.cfg.device.requestTimeout ≤ w.now →
      let v := w.unresponsive r
      (∀ k, r.req = .thread k → exec (.requestTimeout now id) s = .next (v.threadTimeout k)) ∧
      (∀ acc p, r.req = .stripe acc p → exec (.requestTimeout now id) s = .next
        (((v.dropIssued fun x => decide (x.id = id)).modHeld acc fun a => a.stripeAnswered id p []).pump)) ∧
      (r.req = .unit → exec (.requestTimeout now id) s = .next
        ((v.dropIssued fun x => decide (x.id = id)).unitAnswered id stPoison [] (BitVec.allOnes 64))) ∧
      (∀ n off, r.req = .unitWrite n off → exec (.requestTimeout now id) s = .next
        (((v.dropIssued fun x => decide (x.id = id)).unitFails n stPoison off).settleReply n)) ∧
      (∀ k a, r.req = .snoop k a → exec (.requestTimeout now id) s = .next { v with reqs := { v.reqs with
        issued := v.reqs.issued.map fun x => if x.id = id then { x with timedOut := true } else x } }))

/-- The canonical form of memory is kept by every step, from any state that has it. -/
def Obligations.StepKeepsMemoryCanonical : Prop :=
  ∀ s s' : State, s.Inv → s.steps s' → s'.Inv

/-- R28: creation orders of any other size are refused, and no other size is made. -/
def Obligations.CreationRefusesBadSizes : Prop :=
  ∀ (o : Order) (size : W64) (placement redundancy shape : Byte) (group : W32) (s : State),
    let u := s.orderTaken o
    let legal := fun n : Nat => n % 2097152 = 0 ∧ 2097152 ≤ n ∧ n ≤ 281474976710656
    (OrderTaken o s → ¬ legal size.toNat →
      exec (.regionCreate o size placement redundancy shape group) s = .next (u.finishOrder o.ref stInvalid []) ∧
      (u.finishOrder o.ref stInvalid []).store = s.store) ∧
    (∀ (t : State) (i : Nat), exec (.regionCreate o size placement redundancy shape group) s = .next t →
      t.region i ≠ s.region i → legal (t.region i).size)

/-- R74: the answer to each request before admission, and the frames that are processed all the same. -/
def Obligations.UnadmittedRequestsAreAnswered : Prop :=
  ∀ (h : Hdr) (t : Trailer) (a : Addr) (rh oh : Handle) (data : List Byte) (opA opB : BitVec 128) (v len srcLen dstCap : W64)
    (ra : Aid) (rc : Cid) (seq id bags nq step : W32) (desc q2 out pred : Ptr) (count k probes scale off : BitVec 16) (row : BitVec 40)
    (action gen fmt flags etype mode pcp hflags : Byte) (ack : BitVec 16) (domain : BitVec 16) (s : State),
    s.boot.admitted = false →
    let u := s.afterLink h
    let w := (s.advanceTo h.now).bump 0 h.port 0
    let j := subKey h.port h.sub
    (∀ e ∈ ([(.read h a, 0x01, 16, zeros 8), (.readAcquire h a, 0x02, 16, zeros 8), (.readVolatile h a, 0x03, 16, zeros 8),
        (.write h a data, 0x04, 16, []), (.writeFlagged h a data, 0x05, 16, []), (.release h, 0x06, 8, []),
        (.atomic h a opA opB, 0x07, 48, zeros 16), (.publish h rh v, 0x08, 16, zeros 8),
        (.cReadShared h a, 0x10, 16, zeros 8), (.cReadOwn h a, 0x11, 16, zeros 8), (.cUpgrade h a, 0x12, 16, zeros 8),
        (.cWriteback h a data, 0x13, 80, []), (.ownTake h a, 0x17, 16, []), (.ownGive h a, 0x18, 16, []),
        (.handoffOffer h oh ra rc, 0x20, 16, zeros 8), (.handoffAccept h oh seq, 0x22, 16, zeros 8),
        (.handoffDecline h oh seq, 0x23, 16, zeros 8), (.objectQuery h oh, 0x25, 8, zeros 8),
        (.move h desc count, 0x30, 16, zeros 8), (.invalRange h desc id v len, 0x33, 32, []),
        (.gatherPool h desc gen fmt bags q2 out, 0x38, 48, zeros 8), (.rowWrite h desc row gen scale off data, 0x39, 24, []),
        (.search h desc q2 nq k probes pred out flags, 0x3A, 64, zeros 16),
        (.ckptCompress h desc srcLen out dstCap etype mode, 0x3C, 44, zeros 8),
        (.ckptRestore h desc srcLen out dstCap, 0x3D, 44, zeros 8),
        (.mirrorWrite h a step data, 0x50, 24, []), (.parityDelta h a step data, 0x51, 24, [])] :
          List (Instr × Byte × Nat × List Byte)),
      FrameTaken false h e.2.2.1 s → exec e.1 s = .next (u.respond h e.2.1 stNotAdmitted e.2.2.2)) ∧
    (FrameTaken false h 16 s → exec (.resume h desc action) s = .next (u.respond h 0x32 stNotAdmitted [])) ∧
    (∀ (st op : Byte) (l : List Byte), (u.respond h op st l).store = s.store ∧ (u.respond h op st l).reqs = s.reqs ∧
      (u.respond h op st l).comps = u.comps) ∧
    (∀ (n : Nat) (go : State → State),
      (ManagedTaken h t n s → managed h t n go s = go (s.afterTrailer h t)) ∧
      (StepTaken h t n s → authenticated h t n go s = go (s.afterTrailer h t))) ∧
    (FrameTaken false h 16 s → (u.portCfg h.port).tick = true → u.ticksRun srcFrames = true → domain = u.boot.cfg.device.skyDomain →
      u.sky.isCopy v = false → exec (.tick h v domain) s = .next (State.countedTick (u.setSky (u.sky.take v)) u.now v)) ∧
    (s.arrives h.port h.sub = true → h.check = .passed → h.tagged = true → s.encapOk h = true → 8 ≤ h.length → h.length ≤ h.received →
      h.src = (w.subPort j).partner → pcp.toNat < 8 → w.lossless h.port pcp.toNat = true →
      (((w.subPort j).hop pcp.toNat).resync = true → hflags.getLsbD 0 = false → hflags.getLsbD 1 = false →
        exec (.hopAck h pcp hflags ack step) s = .next (w.modHop j pcp.toNat fun p => p.acked ack)) ∧
      (let x := w.modHop j pcp.toNat fun p => p.acked (ack - 1)
       exec (.hopNak h pcp ack) s = .next (x.replayFrames j pcp.toNat ((x.subPort j).hop pcp.toNat).replay)))

/-- R84, with its table of sizes written out. -/
def Obligations.AtomicsOutOfShape : Prop :=
  (∀ (h : Hdr) (a : Addr) (opA opB : BitVec 128) (s : State),
    FrameTaken false h 48 s → s.boot.admitted = true → s.comps.selfExpelled = false →
    a.sub.toNat ≤ 9 →
    let n := a.count.toNat
    (¬ (n = 4 ∨ n = 8 ∨ (n = 16 ∧ a.sub.toNat ≤ 1)) ∨ a.offset.toNat % n ≠ 0) →
    exec (.atomic h a opA opB) s = .next ((s.afterLink h).respond h 0x07 stInvalid (zeros 16)) ∧
    ((s.afterLink h).respond h 0x07 stInvalid (zeros 16)).store = s.store)

/-- R602; an access of several registers is refused when any of them lies outside (DEDUCED, log entry 62). -/
def Obligations.ExpelledDeviceWritesOnlySwitch : Prop :=
  ∀ (h : Hdr) (t : Trailer) (addr : W32) (values : List W64) (count : BitVec 16) (s : State), s.comps.selfExpelled = true →
    let u := s.afterTrailer h t
    (ManagedTaken h t (8 + 8 * values.length) s → h.zeroed = true → 1 ≤ values.length → values.length ≤ 64 →
      (addr.toNat < 0x300000 ∨ 0x400000 < addr.toNat + 8 * values.length) →
      exec (.mgmtWrite h t addr values) s = .next (u.respondAuth h 0x71 stDenied []) ∧
      (u.respondAuth h 0x71 stDenied []).boot = u.boot ∧ (u.respondAuth h 0x71 stDenied []).comps = u.comps ∧
      (u.respondAuth h 0x71 stDenied []).store = u.store ∧ (u.respondAuth h 0x71 stDenied []).health = u.health ∧
      (u.respondAuth h 0x71 stDenied []).sky = u.sky) ∧
    (ManagedTaken h t 8 s → h.zeroed = true → 1 ≤ count.toNat → count.toNat ≤ 64 →
      exec (.mgmtRead h t addr count) s = .next
        ((u.readRegs h.src addr.toNat count.toNat).1.respondAuth h 0x70 (u.readRegs h.src addr.toNat count.toNat).2.2
          (u.readRegs h.src addr.toNat count.toNat).2.1))
end

