-- ==== Sys2Proof/Laws/State.lean ====
section
/-! SUPPORT. What each field of the state reads as after each plain update, so that no proof unfolds a record update. -/
namespace Sys2Proof.Machine

section
variable (s : State) (cls unit ctr n : Nat)
@[simp] theorem State.bumpBy_now : (s.bumpBy cls unit ctr n).now = s.now := rfl
@[simp] theorem State.bumpBy_coreCyc : (s.bumpBy cls unit ctr n).coreCyc = s.coreCyc := rfl
@[simp] theorem State.bumpBy_free : (s.bumpBy cls unit ctr n).free = s.free := rfl
@[simp] theorem State.bumpBy_withdrawn : (s.bumpBy cls unit ctr n).withdrawn = s.withdrawn := rfl
@[simp] theorem State.bumpBy_pins : (s.bumpBy cls unit ctr n).pins = s.pins := rfl
@[simp] theorem State.bumpBy_boot : (s.bumpBy cls unit ctr n).boot = s.boot := rfl
@[simp] theorem State.bumpBy_sec : (s.bumpBy cls unit ctr n).sec = s.sec := rfl
@[simp] theorem State.bumpBy_switch : (s.bumpBy cls unit ctr n).switch = s.switch := rfl
@[simp] theorem State.bumpBy_store : (s.bumpBy cls unit ctr n).store = s.store := rfl
@[simp] theorem State.bumpBy_reqs : (s.bumpBy cls unit ctr n).reqs = s.reqs := rfl
@[simp] theorem State.bumpBy_dir : (s.bumpBy cls unit ctr n).dir = s.dir := rfl
@[simp] theorem State.bumpBy_comps : (s.bumpBy cls unit ctr n).comps = s.comps := rfl
@[simp] theorem State.bumpBy_sky : (s.bumpBy cls unit ctr n).sky = s.sky := rfl
@[simp] theorem State.bumpBy_movers : (s.bumpBy cls unit ctr n).movers = s.movers := rfl
@[simp] theorem State.bumpBy_grid : (s.bumpBy cls unit ctr n).grid = s.grid := rfl
@[simp] theorem State.bumpBy_emb : (s.bumpBy cls unit ctr n).emb = s.emb := rfl
@[simp] theorem State.bumpBy_indexes : (s.bumpBy cls unit ctr n).indexes = s.indexes := rfl
@[simp] theorem State.bumpBy_ckpt : (s.bumpBy cls unit ctr n).ckpt = s.ckpt := rfl
@[simp] theorem State.bumpBy_blocks : (s.bumpBy cls unit ctr n).blocks = s.blocks := rfl
@[simp] theorem State.bumpBy_power : (s.bumpBy cls unit ctr n).power = s.power := rfl
@[simp] theorem State.bumpBy_windows : (s.bumpBy cls unit ctr n).windows = s.windows := rfl
@[simp] theorem State.bumpBy_pending : (s.bumpBy cls unit ctr n).pending = s.pending := rfl
end

section
variable (s : State) (cls unit ctr v : Nat)
@[simp] theorem State.setLevel_now : (s.setLevel cls unit ctr v).now = s.now := rfl
@[simp] theorem State.setLevel_coreCyc : (s.setLevel cls unit ctr v).coreCyc = s.coreCyc := rfl
@[simp] theorem State.setLevel_free : (s.setLevel cls unit ctr v).free = s.free := rfl
@[simp] theorem State.setLevel_withdrawn : (s.setLevel cls unit ctr v).withdrawn = s.withdrawn := rfl
@[simp] theorem State.setLevel_pins : (s.setLevel cls unit ctr v).pins = s.pins := rfl
@[simp] theorem State.setLevel_boot : (s.setLevel cls unit ctr v).boot = s.boot := rfl
@[simp] theorem State.setLevel_sec : (s.setLevel cls unit ctr v).sec = s.sec := rfl
@[simp] theorem State.setLevel_switch : (s.setLevel cls unit ctr v).switch = s.switch := rfl
@[simp] theorem State.setLevel_store : (s.setLevel cls unit ctr v).store = s.store := rfl
@[simp] theorem State.setLevel_reqs : (s.setLevel cls unit ctr v).reqs = s.reqs := rfl
@[simp] theorem State.setLevel_dir : (s.setLevel cls unit ctr v).dir = s.dir := rfl
@[simp] theorem State.setLevel_comps : (s.setLevel cls unit ctr v).comps = s.comps := rfl
@[simp] theorem State.setLevel_sky : (s.setLevel cls unit ctr v).sky = s.sky := rfl
@[simp] theorem State.setLevel_movers : (s.setLevel cls unit ctr v).movers = s.movers := rfl
@[simp] theorem State.setLevel_grid : (s.setLevel cls unit ctr v).grid = s.grid := rfl
@[simp] theorem State.setLevel_emb : (s.setLevel cls unit ctr v).emb = s.emb := rfl
@[simp] theorem State.setLevel_indexes : (s.setLevel cls unit ctr v).indexes = s.indexes := rfl
@[simp] theorem State.setLevel_ckpt : (s.setLevel cls unit ctr v).ckpt = s.ckpt := rfl
@[simp] theorem State.setLevel_blocks : (s.setLevel cls unit ctr v).blocks = s.blocks := rfl
@[simp] theorem State.setLevel_power : (s.setLevel cls unit ctr v).power = s.power := rfl
@[simp] theorem State.setLevel_windows : (s.setLevel cls unit ctr v).windows = s.windows := rfl
@[simp] theorem State.setLevel_pending : (s.setLevel cls unit ctr v).pending = s.pending := rfl
end

section
variable (s : State) (e : Nat) (c : Comp)
@[simp] theorem State.setComp_now : (s.setComp e c).now = s.now := rfl
@[simp] theorem State.setComp_coreCyc : (s.setComp e c).coreCyc = s.coreCyc := rfl
@[simp] theorem State.setComp_free : (s.setComp e c).free = s.free := rfl
@[simp] theorem State.setComp_withdrawn : (s.setComp e c).withdrawn = s.withdrawn := rfl
@[simp] theorem State.setComp_pins : (s.setComp e c).pins = s.pins := rfl
@[simp] theorem State.setComp_boot : (s.setComp e c).boot = s.boot := rfl
@[simp] theorem State.setComp_sec : (s.setComp e c).sec = s.sec := rfl
@[simp] theorem State.setComp_switch : (s.setComp e c).switch = s.switch := rfl
@[simp] theorem State.setComp_store : (s.setComp e c).store = s.store := rfl
@[simp] theorem State.setComp_reqs : (s.setComp e c).reqs = s.reqs := rfl
@[simp] theorem State.setComp_dir : (s.setComp e c).dir = s.dir := rfl
@[simp] theorem State.setComp_comps_entries : (s.setComp e c).comps.entries = s.comps.entries.set {} e c := rfl
@[simp] theorem State.setComp_comps_kept : (s.setComp e c).comps.kept = s.comps.kept := rfl
@[simp] theorem State.setComp_comps_groups : (s.setComp e c).comps.groups = s.comps.groups := rfl
@[simp] theorem State.setComp_comps_adopted : (s.setComp e c).comps.adopted = s.comps.adopted := rfl
@[simp] theorem State.setComp_comps_expelled : (s.setComp e c).comps.expelled = s.comps.expelled := rfl
@[simp] theorem State.setComp_comps_selfExpelled : (s.setComp e c).comps.selfExpelled = s.comps.selfExpelled := rfl
@[simp] theorem State.setComp_comps_tallies : (s.setComp e c).comps.tallies = s.comps.tallies := rfl
@[simp] theorem State.setComp_comps_resetAt : (s.setComp e c).comps.resetAt = s.comps.resetAt := rfl
@[simp] theorem State.setComp_comps_results : (s.setComp e c).comps.results = s.comps.results := rfl
@[simp] theorem State.setComp_comps_noticeSeq : (s.setComp e c).comps.noticeSeq = s.comps.noticeSeq := rfl
@[simp] theorem State.setComp_comps_journalUsed : (s.setComp e c).comps.journalUsed = s.comps.journalUsed := rfl
@[simp] theorem State.setComp_sky : (s.setComp e c).sky = s.sky := rfl
@[simp] theorem State.setComp_movers : (s.setComp e c).movers = s.movers := rfl
@[simp] theorem State.setComp_grid : (s.setComp e c).grid = s.grid := rfl
@[simp] theorem State.setComp_emb : (s.setComp e c).emb = s.emb := rfl
@[simp] theorem State.setComp_indexes : (s.setComp e c).indexes = s.indexes := rfl
@[simp] theorem State.setComp_ckpt : (s.setComp e c).ckpt = s.ckpt := rfl
@[simp] theorem State.setComp_health : (s.setComp e c).health = s.health := rfl
@[simp] theorem State.setComp_blocks : (s.setComp e c).blocks = s.blocks := rfl
@[simp] theorem State.setComp_power : (s.setComp e c).power = s.power := rfl
@[simp] theorem State.setComp_windows : (s.setComp e c).windows = s.windows := rfl
@[simp] theorem State.setComp_pending : (s.setComp e c).pending = s.pending := rfl
end

section
variable (s : State) (k : Nat) (g : Group)
@[simp] theorem State.setGroup_now : (s.setGroup k g).now = s.now := rfl
@[simp] theorem State.setGroup_coreCyc : (s.setGroup k g).coreCyc = s.coreCyc := rfl
@[simp] theorem State.setGroup_free : (s.setGroup k g).free = s.free := rfl
@[simp] theorem State.setGroup_withdrawn : (s.setGroup k g).withdrawn = s.withdrawn := rfl
@[simp] theorem State.setGroup_pins : (s.setGroup k g).pins = s.pins := rfl
@[simp] theorem State.setGroup_boot : (s.setGroup k g).boot = s.boot := rfl
@[simp] theorem State.setGroup_sec : (s.setGroup k g).sec = s.sec := rfl
@[simp] theorem State.setGroup_switch : (s.setGroup k g).switch = s.switch := rfl
@[simp] theorem State.setGroup_store : (s.setGroup k g).store = s.store := rfl
@[simp] theorem State.setGroup_reqs : (s.setGroup k g).reqs = s.reqs := rfl
@[simp] theorem State.setGroup_dir : (s.setGroup k g).dir = s.dir := rfl
@[simp] theorem State.setGroup_comps_entries : (s.setGroup k g).comps.entries = s.comps.entries := rfl
@[simp] theorem State.setGroup_comps_kept : (s.setGroup k g).comps.kept = s.comps.kept := rfl
@[simp] theorem State.setGroup_comps_groups : (s.setGroup k g).comps.groups = s.comps.groups.set {} k g := rfl
@[simp] theorem State.setGroup_comps_adopted : (s.setGroup k g).comps.adopted = s.comps.adopted := rfl
@[simp] theorem State.setGroup_comps_expelled : (s.setGroup k g).comps.expelled = s.comps.expelled := rfl
@[simp] theorem State.setGroup_comps_selfExpelled : (s.setGroup k g).comps.selfExpelled = s.comps.selfExpelled := rfl
@[simp] theorem State.setGroup_comps_tallies : (s.setGroup k g).comps.tallies = s.comps.tallies := rfl
@[simp] theorem State.setGroup_comps_resetAt : (s.setGroup k g).comps.resetAt = s.comps.resetAt := rfl
@[simp] theorem State.setGroup_comps_results : (s.setGroup k g).comps.results = s.comps.results := rfl
@[simp] theorem State.setGroup_comps_noticeSeq : (s.setGroup k g).comps.noticeSeq = s.comps.noticeSeq := rfl
@[simp] theorem State.setGroup_comps_journalUsed : (s.setGroup k g).comps.journalUsed = s.comps.journalUsed := rfl
@[simp] theorem State.setGroup_sky : (s.setGroup k g).sky = s.sky := rfl
@[simp] theorem State.setGroup_movers : (s.setGroup k g).movers = s.movers := rfl
@[simp] theorem State.setGroup_grid : (s.setGroup k g).grid = s.grid := rfl
@[simp] theorem State.setGroup_emb : (s.setGroup k g).emb = s.emb := rfl
@[simp] theorem State.setGroup_indexes : (s.setGroup k g).indexes = s.indexes := rfl
@[simp] theorem State.setGroup_ckpt : (s.setGroup k g).ckpt = s.ckpt := rfl
@[simp] theorem State.setGroup_health : (s.setGroup k g).health = s.health := rfl
@[simp] theorem State.setGroup_blocks : (s.setGroup k g).blocks = s.blocks := rfl
@[simp] theorem State.setGroup_power : (s.setGroup k g).power = s.power := rfl
@[simp] theorem State.setGroup_windows : (s.setGroup k g).windows = s.windows := rfl
@[simp] theorem State.setGroup_pending : (s.setGroup k g).pending = s.pending := rfl
end

section
variable (s : State) (l : List KeptResult)
@[simp] theorem State.setResults_now : (s.setResults l).now = s.now := rfl
@[simp] theorem State.setResults_coreCyc : (s.setResults l).coreCyc = s.coreCyc := rfl
@[simp] theorem State.setResults_free : (s.setResults l).free = s.free := rfl
@[simp] theorem State.setResults_withdrawn : (s.setResults l).withdrawn = s.withdrawn := rfl
@[simp] theorem State.setResults_pins : (s.setResults l).pins = s.pins := rfl
@[simp] theorem State.setResults_boot : (s.setResults l).boot = s.boot := rfl
@[simp] theorem State.setResults_sec : (s.setResults l).sec = s.sec := rfl
@[simp] theorem State.setResults_switch : (s.setResults l).switch = s.switch := rfl
@[simp] theorem State.setResults_store : (s.setResults l).store = s.store := rfl
@[simp] theorem State.setResults_reqs : (s.setResults l).reqs = s.reqs := rfl
@[simp] theorem State.setResults_dir : (s.setResults l).dir = s.dir := rfl
@[simp] theorem State.setResults_comps_entries : (s.setResults l).comps.entries = s.comps.entries := rfl
@[simp] theorem State.setResults_comps_kept : (s.setResults l).comps.kept = s.comps.kept := rfl
@[simp] theorem State.setResults_comps_groups : (s.setResults l).comps.groups = s.comps.groups := rfl
@[simp] theorem State.setResults_comps_adopted : (s.setResults l).comps.adopted = s.comps.adopted := rfl
@[simp] theorem State.setResults_comps_expelled : (s.setResults l).comps.expelled = s.comps.expelled := rfl
@[simp] theorem State.setResults_comps_selfExpelled : (s.setResults l).comps.selfExpelled = s.comps.selfExpelled := rfl
@[simp] theorem State.setResults_comps_tallies : (s.setResults l).comps.tallies = s.comps.tallies := rfl
@[simp] theorem State.setResults_comps_resetAt : (s.setResults l).comps.resetAt = s.comps.resetAt := rfl
@[simp] theorem State.setResults_comps_results : (s.setResults l).comps.results = l := rfl
@[simp] theorem State.setResults_comps_noticeSeq : (s.setResults l).comps.noticeSeq = s.comps.noticeSeq := rfl
@[simp] theorem State.setResults_comps_journalUsed : (s.setResults l).comps.journalUsed = s.comps.journalUsed := rfl
@[simp] theorem State.setResults_sky : (s.setResults l).sky = s.sky := rfl
@[simp] theorem State.setResults_movers : (s.setResults l).movers = s.movers := rfl
@[simp] theorem State.setResults_grid : (s.setResults l).grid = s.grid := rfl
@[simp] theorem State.setResults_emb : (s.setResults l).emb = s.emb := rfl
@[simp] theorem State.setResults_indexes : (s.setResults l).indexes = s.indexes := rfl
@[simp] theorem State.setResults_ckpt : (s.setResults l).ckpt = s.ckpt := rfl
@[simp] theorem State.setResults_health : (s.setResults l).health = s.health := rfl
@[simp] theorem State.setResults_blocks : (s.setResults l).blocks = s.blocks := rfl
@[simp] theorem State.setResults_power : (s.setResults l).power = s.power := rfl
@[simp] theorem State.setResults_windows : (s.setResults l).windows = s.windows := rfl
@[simp] theorem State.setResults_pending : (s.setResults l).pending = s.pending := rfl
end

section
variable (s : State) (i : Nat) (r : Region)
@[simp] theorem State.setRegion_now : (s.setRegion i r).now = s.now := rfl
@[simp] theorem State.setRegion_coreCyc : (s.setRegion i r).coreCyc = s.coreCyc := rfl
@[simp] theorem State.setRegion_free : (s.setRegion i r).free = s.free := rfl
@[simp] theorem State.setRegion_withdrawn : (s.setRegion i r).withdrawn = s.withdrawn := rfl
@[simp] theorem State.setRegion_pins : (s.setRegion i r).pins = s.pins := rfl
@[simp] theorem State.setRegion_boot : (s.setRegion i r).boot = s.boot := rfl
@[simp] theorem State.setRegion_sec : (s.setRegion i r).sec = s.sec := rfl
@[simp] theorem State.setRegion_switch : (s.setRegion i r).switch = s.switch := rfl
@[simp] theorem State.setRegion_store_regions : (s.setRegion i r).store.regions = s.store.regions.set {} i r := rfl
@[simp] theorem State.setRegion_store_nextFresh : (s.setRegion i r).store.nextFresh = s.store.nextFresh := rfl
@[simp] theorem State.setRegion_store_released : (s.setRegion i r).store.released = s.store.released := rfl
@[simp] theorem State.setRegion_store_hbm : (s.setRegion i r).store.hbm = s.store.hbm := rfl
@[simp] theorem State.setRegion_store_dram : (s.setRegion i r).store.dram = s.store.dram := rfl
@[simp] theorem State.setRegion_store_flashPool : (s.setRegion i r).store.flashPool = s.store.flashPool := rfl
@[simp] theorem State.setRegion_store_chunkTop : (s.setRegion i r).store.chunkTop = s.store.chunkTop := rfl
@[simp] theorem State.setRegion_store_mem : (s.setRegion i r).store.mem = s.store.mem := rfl
@[simp] theorem State.setRegion_store_poison : (s.setRegion i r).store.poison = s.store.poison := rfl
@[simp] theorem State.setRegion_store_spans : (s.setRegion i r).store.spans = s.store.spans := rfl
@[simp] theorem State.setRegion_store_sectors : (s.setRegion i r).store.sectors = s.store.sectors := rfl
@[simp] theorem State.setRegion_store_sweep : (s.setRegion i r).store.sweep = s.store.sweep := rfl
@[simp] theorem State.setRegion_store_sweepFrom : (s.setRegion i r).store.sweepFrom = s.store.sweepFrom := rfl
@[simp] theorem State.setRegion_store_evictions : (s.setRegion i r).store.evictions = s.store.evictions := rfl
@[simp] theorem State.setRegion_store_map : (s.setRegion i r).store.map = s.store.map := rfl
@[simp] theorem State.setRegion_store_blocks : (s.setRegion i r).store.blocks = s.store.blocks := rfl
@[simp] theorem State.setRegion_store_channels : (s.setRegion i r).store.channels = s.store.channels := rfl
@[simp] theorem State.setRegion_store_objects : (s.setRegion i r).store.objects = s.store.objects := rfl
@[simp] theorem State.setRegion_store_calib : (s.setRegion i r).store.calib = s.store.calib := rfl
@[simp] theorem State.setRegion_store_scrubbed : (s.setRegion i r).store.scrubbed = s.store.scrubbed := rfl
@[simp] theorem State.setRegion_store_refreshed : (s.setRegion i r).store.refreshed = s.store.refreshed := rfl
@[simp] theorem State.setRegion_reqs : (s.setRegion i r).reqs = s.reqs := rfl
@[simp] theorem State.setRegion_dir : (s.setRegion i r).dir = s.dir := rfl
@[simp] theorem State.setRegion_comps : (s.setRegion i r).comps = s.comps := rfl
@[simp] theorem State.setRegion_sky : (s.setRegion i r).sky = s.sky := rfl
@[simp] theorem State.setRegion_movers : (s.setRegion i r).movers = s.movers := rfl
@[simp] theorem State.setRegion_grid : (s.setRegion i r).grid = s.grid := rfl
@[simp] theorem State.setRegion_emb : (s.setRegion i r).emb = s.emb := rfl
@[simp] theorem State.setRegion_indexes : (s.setRegion i r).indexes = s.indexes := rfl
@[simp] theorem State.setRegion_ckpt : (s.setRegion i r).ckpt = s.ckpt := rfl
@[simp] theorem State.setRegion_health : (s.setRegion i r).health = s.health := rfl
@[simp] theorem State.setRegion_blocks : (s.setRegion i r).blocks = s.blocks := rfl
@[simp] theorem State.setRegion_power : (s.setRegion i r).power = s.power := rfl
@[simp] theorem State.setRegion_windows : (s.setRegion i r).windows = s.windows := rfl
@[simp] theorem State.setRegion_pending : (s.setRegion i r).pending = s.pending := rfl
end

section
variable (s : State) (region off : Nat) (l : List Byte)
@[simp] theorem State.writeBytes_now : (s.writeBytes region off l).now = s.now := rfl
@[simp] theorem State.writeBytes_coreCyc : (s.writeBytes region off l).coreCyc = s.coreCyc := rfl
@[simp] theorem State.writeBytes_free : (s.writeBytes region off l).free = s.free := rfl
@[simp] theorem State.writeBytes_withdrawn : (s.writeBytes region off l).withdrawn = s.withdrawn := rfl
@[simp] theorem State.writeBytes_pins : (s.writeBytes region off l).pins = s.pins := rfl
@[simp] theorem State.writeBytes_boot : (s.writeBytes region off l).boot = s.boot := rfl
@[simp] theorem State.writeBytes_sec : (s.writeBytes region off l).sec = s.sec := rfl
@[simp] theorem State.writeBytes_switch : (s.writeBytes region off l).switch = s.switch := rfl
@[simp] theorem State.writeBytes_store_regions : (s.writeBytes region off l).store.regions = s.store.regions := rfl
@[simp] theorem State.writeBytes_store_nextFresh : (s.writeBytes region off l).store.nextFresh = s.store.nextFresh := rfl
@[simp] theorem State.writeBytes_store_released : (s.writeBytes region off l).store.released = s.store.released := rfl
@[simp] theorem State.writeBytes_store_hbm : (s.writeBytes region off l).store.hbm = s.store.hbm := rfl
@[simp] theorem State.writeBytes_store_dram : (s.writeBytes region off l).store.dram = s.store.dram := rfl
@[simp] theorem State.writeBytes_store_flashPool : (s.writeBytes region off l).store.flashPool = s.store.flashPool := rfl
@[simp] theorem State.writeBytes_store_chunkTop : (s.writeBytes region off l).store.chunkTop = s.store.chunkTop := rfl
@[simp] theorem State.writeBytes_store_mem : (s.writeBytes region off l).store.mem = writeMem region off l s.store.mem := rfl
@[simp] theorem State.writeBytes_store_poison : (s.writeBytes region off l).store.poison = s.store.poison := rfl
@[simp] theorem State.writeBytes_store_spans : (s.writeBytes region off l).store.spans = s.store.spans := rfl
@[simp] theorem State.writeBytes_store_sectors : (s.writeBytes region off l).store.sectors = s.store.sectors := rfl
@[simp] theorem State.writeBytes_store_sweep : (s.writeBytes region off l).store.sweep = s.store.sweep := rfl
@[simp] theorem State.writeBytes_store_sweepFrom : (s.writeBytes region off l).store.sweepFrom = s.store.sweepFrom := rfl
@[simp] theorem State.writeBytes_store_evictions : (s.writeBytes region off l).store.evictions = s.store.evictions := rfl
@[simp] theorem State.writeBytes_store_map : (s.writeBytes region off l).store.map = s.store.map := rfl
@[simp] theorem State.writeBytes_store_blocks : (s.writeBytes region off l).store.blocks = s.store.blocks := rfl
@[simp] theorem State.writeBytes_store_channels : (s.writeBytes region off l).store.channels = s.store.channels := rfl
@[simp] theorem State.writeBytes_store_objects : (s.writeBytes region off l).store.objects = s.store.objects := rfl
@[simp] theorem State.writeBytes_store_calib : (s.writeBytes region off l).store.calib = s.store.calib := rfl
@[simp] theorem State.writeBytes_store_scrubbed : (s.writeBytes region off l).store.scrubbed = s.store.scrubbed := rfl
@[simp] theorem State.writeBytes_store_refreshed : (s.writeBytes region off l).store.refreshed = s.store.refreshed := rfl
@[simp] theorem State.writeBytes_reqs : (s.writeBytes region off l).reqs = s.reqs := rfl
@[simp] theorem State.writeBytes_dir : (s.writeBytes region off l).dir = s.dir := rfl
@[simp] theorem State.writeBytes_comps : (s.writeBytes region off l).comps = s.comps := rfl
@[simp] theorem State.writeBytes_sky : (s.writeBytes region off l).sky = s.sky := rfl
@[simp] theorem State.writeBytes_movers : (s.writeBytes region off l).movers = s.movers := rfl
@[simp] theorem State.writeBytes_grid : (s.writeBytes region off l).grid = s.grid := rfl
@[simp] theorem State.writeBytes_emb : (s.writeBytes region off l).emb = s.emb := rfl
@[simp] theorem State.writeBytes_indexes : (s.writeBytes region off l).indexes = s.indexes := rfl
@[simp] theorem State.writeBytes_ckpt : (s.writeBytes region off l).ckpt = s.ckpt := rfl
@[simp] theorem State.writeBytes_health : (s.writeBytes region off l).health = s.health := rfl
@[simp] theorem State.writeBytes_blocks : (s.writeBytes region off l).blocks = s.blocks := rfl
@[simp] theorem State.writeBytes_power : (s.writeBytes region off l).power = s.power := rfl
@[simp] theorem State.writeBytes_windows : (s.writeBytes region off l).windows = s.windows := rfl
@[simp] theorem State.writeBytes_pending : (s.writeBytes region off l).pending = s.pending := rfl
end

section
variable (s : State) (region line : Nat) (b : Bool)
@[simp] theorem State.setPoison_now : (s.setPoison region line b).now = s.now := rfl
@[simp] theorem State.setPoison_coreCyc : (s.setPoison region line b).coreCyc = s.coreCyc := rfl
@[simp] theorem State.setPoison_free : (s.setPoison region line b).free = s.free := rfl
@[simp] theorem State.setPoison_withdrawn : (s.setPoison region line b).withdrawn = s.withdrawn := rfl
@[simp] theorem State.setPoison_pins : (s.setPoison region line b).pins = s.pins := rfl
@[simp] theorem State.setPoison_boot : (s.setPoison region line b).boot = s.boot := rfl
@[simp] theorem State.setPoison_sec : (s.setPoison region line b).sec = s.sec := rfl
@[simp] theorem State.setPoison_switch : (s.setPoison region line b).switch = s.switch := rfl
@[simp] theorem State.setPoison_store_regions : (s.setPoison region line b).store.regions = s.store.regions := rfl
@[simp] theorem State.setPoison_store_nextFresh : (s.setPoison region line b).store.nextFresh = s.store.nextFresh := rfl
@[simp] theorem State.setPoison_store_released : (s.setPoison region line b).store.released = s.store.released := rfl
@[simp] theorem State.setPoison_store_hbm : (s.setPoison region line b).store.hbm = s.store.hbm := rfl
@[simp] theorem State.setPoison_store_dram : (s.setPoison region line b).store.dram = s.store.dram := rfl
@[simp] theorem State.setPoison_store_flashPool : (s.setPoison region line b).store.flashPool = s.store.flashPool := rfl
@[simp] theorem State.setPoison_store_chunkTop : (s.setPoison region line b).store.chunkTop = s.store.chunkTop := rfl
@[simp] theorem State.setPoison_store_mem : (s.setPoison region line b).store.mem = s.store.mem := rfl
@[simp] theorem State.setPoison_store_poison : (s.setPoison region line b).store.poison = s.store.poison.set false (lineKey region line) b := rfl
@[simp] theorem State.setPoison_store_spans : (s.setPoison region line b).store.spans = s.store.spans := rfl
@[simp] theorem State.setPoison_store_sectors : (s.setPoison region line b).store.sectors = s.store.sectors := rfl
@[simp] theorem State.setPoison_store_sweep : (s.setPoison region line b).store.sweep = s.store.sweep := rfl
@[simp] theorem State.setPoison_store_sweepFrom : (s.setPoison region line b).store.sweepFrom = s.store.sweepFrom := rfl
@[simp] theorem State.setPoison_store_evictions : (s.setPoison region line b).store.evictions = s.store.evictions := rfl
@[simp] theorem State.setPoison_store_map : (s.setPoison region line b).store.map = s.store.map := rfl
@[simp] theorem State.setPoison_store_blocks : (s.setPoison region line b).store.blocks = s.store.blocks := rfl
@[simp] theorem State.setPoison_store_channels : (s.setPoison region line b).store.channels = s.store.channels := rfl
@[simp] theorem State.setPoison_store_objects : (s.setPoison region line b).store.objects = s.store.objects := rfl
@[simp] theorem State.setPoison_store_calib : (s.setPoison region line b).store.calib = s.store.calib := rfl
@[simp] theorem State.setPoison_store_scrubbed : (s.setPoison region line b).store.scrubbed = s.store.scrubbed := rfl
@[simp] theorem State.setPoison_store_refreshed : (s.setPoison region line b).store.refreshed = s.store.refreshed := rfl
@[simp] theorem State.setPoison_reqs : (s.setPoison region line b).reqs = s.reqs := rfl
@[simp] theorem State.setPoison_dir : (s.setPoison region line b).dir = s.dir := rfl
@[simp] theorem State.setPoison_comps : (s.setPoison region line b).comps = s.comps := rfl
@[simp] theorem State.setPoison_sky : (s.setPoison region line b).sky = s.sky := rfl
@[simp] theorem State.setPoison_movers : (s.setPoison region line b).movers = s.movers := rfl
@[simp] theorem State.setPoison_grid : (s.setPoison region line b).grid = s.grid := rfl
@[simp] theorem State.setPoison_emb : (s.setPoison region line b).emb = s.emb := rfl
@[simp] theorem State.setPoison_indexes : (s.setPoison region line b).indexes = s.indexes := rfl
@[simp] theorem State.setPoison_ckpt : (s.setPoison region line b).ckpt = s.ckpt := rfl
@[simp] theorem State.setPoison_health : (s.setPoison region line b).health = s.health := rfl
@[simp] theorem State.setPoison_blocks : (s.setPoison region line b).blocks = s.blocks := rfl
@[simp] theorem State.setPoison_power : (s.setPoison region line b).power = s.power := rfl
@[simp] theorem State.setPoison_windows : (s.setPoison region line b).windows = s.windows := rfl
@[simp] theorem State.setPoison_pending : (s.setPoison region line b).pending = s.pending := rfl
end

section
variable (s : State) (region sector : Nat) (x : Sector)
@[simp] theorem State.setSector_now : (s.setSector region sector x).now = s.now := rfl
@[simp] theorem State.setSector_coreCyc : (s.setSector region sector x).coreCyc = s.coreCyc := rfl
@[simp] theorem State.setSector_free : (s.setSector region sector x).free = s.free := rfl
@[simp] theorem State.setSector_withdrawn : (s.setSector region sector x).withdrawn = s.withdrawn := rfl
@[simp] theorem State.setSector_pins : (s.setSector region sector x).pins = s.pins := rfl
@[simp] theorem State.setSector_boot : (s.setSector region sector x).boot = s.boot := rfl
@[simp] theorem State.setSector_sec : (s.setSector region sector x).sec = s.sec := rfl
@[simp] theorem State.setSector_switch : (s.setSector region sector x).switch = s.switch := rfl
@[simp] theorem State.setSector_store_regions : (s.setSector region sector x).store.regions = s.store.regions := rfl
@[simp] theorem State.setSector_store_nextFresh : (s.setSector region sector x).store.nextFresh = s.store.nextFresh := rfl
@[simp] theorem State.setSector_store_released : (s.setSector region sector x).store.released = s.store.released := rfl
@[simp] theorem State.setSector_store_hbm : (s.setSector region sector x).store.hbm = s.store.hbm := rfl
@[simp] theorem State.setSector_store_dram : (s.setSector region sector x).store.dram = s.store.dram := rfl
@[simp] theorem State.setSector_store_flashPool : (s.setSector region sector x).store.flashPool = s.store.flashPool := rfl
@[simp] theorem State.setSector_store_chunkTop : (s.setSector region sector x).store.chunkTop = s.store.chunkTop := rfl
@[simp] theorem State.setSector_store_mem : (s.setSector region sector x).store.mem = s.store.mem := rfl
@[simp] theorem State.setSector_store_poison : (s.setSector region sector x).store.poison = s.store.poison := rfl
@[simp] theorem State.setSector_store_spans : (s.setSector region sector x).store.spans = s.store.spans := rfl
@[simp] theorem State.setSector_store_sectors : (s.setSector region sector x).store.sectors = s.store.sectors.set {} (sectorKey region sector) x := rfl
@[simp] theorem State.setSector_store_sweep : (s.setSector region sector x).store.sweep = s.store.sweep := rfl
@[simp] theorem State.setSector_store_sweepFrom : (s.setSector region sector x).store.sweepFrom = s.store.sweepFrom := rfl
@[simp] theorem State.setSector_store_evictions : (s.setSector region sector x).store.evictions = s.store.evictions := rfl
@[simp] theorem State.setSector_store_map : (s.setSector region sector x).store.map = s.store.map := rfl
@[simp] theorem State.setSector_store_blocks : (s.setSector region sector x).store.blocks = s.store.blocks := rfl
@[simp] theorem State.setSector_store_channels : (s.setSector region sector x).store.channels = s.store.channels := rfl
@[simp] theorem State.setSector_store_objects : (s.setSector region sector x).store.objects = s.store.objects := rfl
@[simp] theorem State.setSector_store_calib : (s.setSector region sector x).store.calib = s.store.calib := rfl
@[simp] theorem State.setSector_store_scrubbed : (s.setSector region sector x).store.scrubbed = s.store.scrubbed := rfl
@[simp] theorem State.setSector_store_refreshed : (s.setSector region sector x).store.refreshed = s.store.refreshed := rfl
@[simp] theorem State.setSector_reqs : (s.setSector region sector x).reqs = s.reqs := rfl
@[simp] theorem State.setSector_dir : (s.setSector region sector x).dir = s.dir := rfl
@[simp] theorem State.setSector_comps : (s.setSector region sector x).comps = s.comps := rfl
@[simp] theorem State.setSector_sky : (s.setSector region sector x).sky = s.sky := rfl
@[simp] theorem State.setSector_movers : (s.setSector region sector x).movers = s.movers := rfl
@[simp] theorem State.setSector_grid : (s.setSector region sector x).grid = s.grid := rfl
@[simp] theorem State.setSector_emb : (s.setSector region sector x).emb = s.emb := rfl
@[simp] theorem State.setSector_indexes : (s.setSector region sector x).indexes = s.indexes := rfl
@[simp] theorem State.setSector_ckpt : (s.setSector region sector x).ckpt = s.ckpt := rfl
@[simp] theorem State.setSector_health : (s.setSector region sector x).health = s.health := rfl
@[simp] theorem State.setSector_blocks : (s.setSector region sector x).blocks = s.blocks := rfl
@[simp] theorem State.setSector_power : (s.setSector region sector x).power = s.power := rfl
@[simp] theorem State.setSector_windows : (s.setSector region sector x).windows = s.windows := rfl
@[simp] theorem State.setSector_pending : (s.setSector region sector x).pending = s.pending := rfl
end

section
variable (s : State) (t : Tab FlashEntry)
@[simp] theorem State.setMap_now : (s.setMap t).now = s.now := rfl
@[simp] theorem State.setMap_coreCyc : (s.setMap t).coreCyc = s.coreCyc := rfl
@[simp] theorem State.setMap_free : (s.setMap t).free = s.free := rfl
@[simp] theorem State.setMap_withdrawn : (s.setMap t).withdrawn = s.withdrawn := rfl
@[simp] theorem State.setMap_pins : (s.setMap t).pins = s.pins := rfl
@[simp] theorem State.setMap_boot : (s.setMap t).boot = s.boot := rfl
@[simp] theorem State.setMap_sec : (s.setMap t).sec = s.sec := rfl
@[simp] theorem State.setMap_switch : (s.setMap t).switch = s.switch := rfl
@[simp] theorem State.setMap_store_regions : (s.setMap t).store.regions = s.store.regions := rfl
@[simp] theorem State.setMap_store_nextFresh : (s.setMap t).store.nextFresh = s.store.nextFresh := rfl
@[simp] theorem State.setMap_store_released : (s.setMap t).store.released = s.store.released := rfl
@[simp] theorem State.setMap_store_hbm : (s.setMap t).store.hbm = s.store.hbm := rfl
@[simp] theorem State.setMap_store_dram : (s.setMap t).store.dram = s.store.dram := rfl
@[simp] theorem State.setMap_store_flashPool : (s.setMap t).store.flashPool = s.store.flashPool := rfl
@[simp] theorem State.setMap_store_chunkTop : (s.setMap t).store.chunkTop = s.store.chunkTop := rfl
@[simp] theorem State.setMap_store_mem : (s.setMap t).store.mem = s.store.mem := rfl
@[simp] theorem State.setMap_store_poison : (s.setMap t).store.poison = s.store.poison := rfl
@[simp] theorem State.setMap_store_spans : (s.setMap t).store.spans = s.store.spans := rfl
@[simp] theorem State.setMap_store_sectors : (s.setMap t).store.sectors = s.store.sectors := rfl
@[simp] theorem State.setMap_store_sweep : (s.setMap t).store.sweep = s.store.sweep := rfl
@[simp] theorem State.setMap_store_sweepFrom : (s.setMap t).store.sweepFrom = s.store.sweepFrom := rfl
@[simp] theorem State.setMap_store_evictions : (s.setMap t).store.evictions = s.store.evictions := rfl
@[simp] theorem State.setMap_store_map : (s.setMap t).store.map = t := rfl
@[simp] theorem State.setMap_store_blocks : (s.setMap t).store.blocks = s.store.blocks := rfl
@[simp] theorem State.setMap_store_channels : (s.setMap t).store.channels = s.store.channels := rfl
@[simp] theorem State.setMap_store_objects : (s.setMap t).store.objects = s.store.objects := rfl
@[simp] theorem State.setMap_store_calib : (s.setMap t).store.calib = s.store.calib := rfl
@[simp] theorem State.setMap_store_scrubbed : (s.setMap t).store.scrubbed = s.store.scrubbed := rfl
@[simp] theorem State.setMap_store_refreshed : (s.setMap t).store.refreshed = s.store.refreshed := rfl
@[simp] theorem State.setMap_reqs : (s.setMap t).reqs = s.reqs := rfl
@[simp] theorem State.setMap_dir : (s.setMap t).dir = s.dir := rfl
@[simp] theorem State.setMap_comps : (s.setMap t).comps = s.comps := rfl
@[simp] theorem State.setMap_sky : (s.setMap t).sky = s.sky := rfl
@[simp] theorem State.setMap_movers : (s.setMap t).movers = s.movers := rfl
@[simp] theorem State.setMap_grid : (s.setMap t).grid = s.grid := rfl
@[simp] theorem State.setMap_emb : (s.setMap t).emb = s.emb := rfl
@[simp] theorem State.setMap_indexes : (s.setMap t).indexes = s.indexes := rfl
@[simp] theorem State.setMap_ckpt : (s.setMap t).ckpt = s.ckpt := rfl
@[simp] theorem State.setMap_health : (s.setMap t).health = s.health := rfl
@[simp] theorem State.setMap_blocks : (s.setMap t).blocks = s.blocks := rfl
@[simp] theorem State.setMap_power : (s.setMap t).power = s.power := rfl
@[simp] theorem State.setMap_windows : (s.setMap t).windows = s.windows := rfl
@[simp] theorem State.setMap_pending : (s.setMap t).pending = s.pending := rfl
end

section
variable (s : State) (k : Nat) (b : NandBlock)
@[simp] theorem State.setNandBlock_now : (s.setNandBlock k b).now = s.now := rfl
@[simp] theorem State.setNandBlock_coreCyc : (s.setNandBlock k b).coreCyc = s.coreCyc := rfl
@[simp] theorem State.setNandBlock_free : (s.setNandBlock k b).free = s.free := rfl
@[simp] theorem State.setNandBlock_withdrawn : (s.setNandBlock k b).withdrawn = s.withdrawn := rfl
@[simp] theorem State.setNandBlock_pins : (s.setNandBlock k b).pins = s.pins := rfl
@[simp] theorem State.setNandBlock_boot : (s.setNandBlock k b).boot = s.boot := rfl
@[simp] theorem State.setNandBlock_sec : (s.setNandBlock k b).sec = s.sec := rfl
@[simp] theorem State.setNandBlock_switch : (s.setNandBlock k b).switch = s.switch := rfl
@[simp] theorem State.setNandBlock_store_regions : (s.setNandBlock k b).store.regions = s.store.regions := rfl
@[simp] theorem State.setNandBlock_store_nextFresh : (s.setNandBlock k b).store.nextFresh = s.store.nextFresh := rfl
@[simp] theorem State.setNandBlock_store_released : (s.setNandBlock k b).store.released = s.store.released := rfl
@[simp] theorem State.setNandBlock_store_hbm : (s.setNandBlock k b).store.hbm = s.store.hbm := rfl
@[simp] theorem State.setNandBlock_store_dram : (s.setNandBlock k b).store.dram = s.store.dram := rfl
@[simp] theorem State.setNandBlock_store_flashPool : (s.setNandBlock k b).store.flashPool = s.store.flashPool := rfl
@[simp] theorem State.setNandBlock_store_chunkTop : (s.setNandBlock k b).store.chunkTop = s.store.chunkTop := rfl
@[simp] theorem State.setNandBlock_store_mem : (s.setNandBlock k b).store.mem = s.store.mem := rfl
@[simp] theorem State.setNandBlock_store_poison : (s.setNandBlock k b).store.poison = s.store.poison := rfl
@[simp] theorem State.setNandBlock_store_spans : (s.setNandBlock k b).store.spans = s.store.spans := rfl
@[simp] theorem State.setNandBlock_store_sectors : (s.setNandBlock k b).store.sectors = s.store.sectors := rfl
@[simp] theorem State.setNandBlock_store_sweep : (s.setNandBlock k b).store.sweep = s.store.sweep := rfl
@[simp] theorem State.setNandBlock_store_sweepFrom : (s.setNandBlock k b).store.sweepFrom = s.store.sweepFrom := rfl
@[simp] theorem State.setNandBlock_store_evictions : (s.setNandBlock k b).store.evictions = s.store.evictions := rfl
@[simp] theorem State.setNandBlock_store_map : (s.setNandBlock k b).store.map = s.store.map := rfl
@[simp] theorem State.setNandBlock_store_blocks : (s.setNandBlock k b).store.blocks = s.store.blocks.set {} k b := rfl
@[simp] theorem State.setNandBlock_store_channels : (s.setNandBlock k b).store.channels = s.store.channels := rfl
@[simp] theorem State.setNandBlock_store_objects : (s.setNandBlock k b).store.objects = s.store.objects := rfl
@[simp] theorem State.setNandBlock_store_calib : (s.setNandBlock k b).store.calib = s.store.calib := rfl
@[simp] theorem State.setNandBlock_store_scrubbed : (s.setNandBlock k b).store.scrubbed = s.store.scrubbed := rfl
@[simp] theorem State.setNandBlock_store_refreshed : (s.setNandBlock k b).store.refreshed = s.store.refreshed := rfl
@[simp] theorem State.setNandBlock_reqs : (s.setNandBlock k b).reqs = s.reqs := rfl
@[simp] theorem State.setNandBlock_dir : (s.setNandBlock k b).dir = s.dir := rfl
@[simp] theorem State.setNandBlock_comps : (s.setNandBlock k b).comps = s.comps := rfl
@[simp] theorem State.setNandBlock_sky : (s.setNandBlock k b).sky = s.sky := rfl
@[simp] theorem State.setNandBlock_movers : (s.setNandBlock k b).movers = s.movers := rfl
@[simp] theorem State.setNandBlock_grid : (s.setNandBlock k b).grid = s.grid := rfl
@[simp] theorem State.setNandBlock_emb : (s.setNandBlock k b).emb = s.emb := rfl
@[simp] theorem State.setNandBlock_indexes : (s.setNandBlock k b).indexes = s.indexes := rfl
@[simp] theorem State.setNandBlock_ckpt : (s.setNandBlock k b).ckpt = s.ckpt := rfl
@[simp] theorem State.setNandBlock_health : (s.setNandBlock k b).health = s.health := rfl
@[simp] theorem State.setNandBlock_blocks : (s.setNandBlock k b).blocks = s.blocks := rfl
@[simp] theorem State.setNandBlock_power : (s.setNandBlock k b).power = s.power := rfl
@[simp] theorem State.setNandBlock_windows : (s.setNandBlock k b).windows = s.windows := rfl
@[simp] theorem State.setNandBlock_pending : (s.setNandBlock k b).pending = s.pending := rfl
end

section
variable (s : State) (ch : Nat) (c : NandChannel)
@[simp] theorem State.setNandChan_now : (s.setNandChan ch c).now = s.now := rfl
@[simp] theorem State.setNandChan_coreCyc : (s.setNandChan ch c).coreCyc = s.coreCyc := rfl
@[simp] theorem State.setNandChan_free : (s.setNandChan ch c).free = s.free := rfl
@[simp] theorem State.setNandChan_withdrawn : (s.setNandChan ch c).withdrawn = s.withdrawn := rfl
@[simp] theorem State.setNandChan_pins : (s.setNandChan ch c).pins = s.pins := rfl
@[simp] theorem State.setNandChan_boot : (s.setNandChan ch c).boot = s.boot := rfl
@[simp] theorem State.setNandChan_sec : (s.setNandChan ch c).sec = s.sec := rfl
@[simp] theorem State.setNandChan_switch : (s.setNandChan ch c).switch = s.switch := rfl
@[simp] theorem State.setNandChan_store_regions : (s.setNandChan ch c).store.regions = s.store.regions := rfl
@[simp] theorem State.setNandChan_store_nextFresh : (s.setNandChan ch c).store.nextFresh = s.store.nextFresh := rfl
@[simp] theorem State.setNandChan_store_released : (s.setNandChan ch c).store.released = s.store.released := rfl
@[simp] theorem State.setNandChan_store_hbm : (s.setNandChan ch c).store.hbm = s.store.hbm := rfl
@[simp] theorem State.setNandChan_store_dram : (s.setNandChan ch c).store.dram = s.store.dram := rfl
@[simp] theorem State.setNandChan_store_flashPool : (s.setNandChan ch c).store.flashPool = s.store.flashPool := rfl
@[simp] theorem State.setNandChan_store_chunkTop : (s.setNandChan ch c).store.chunkTop = s.store.chunkTop := rfl
@[simp] theorem State.setNandChan_store_mem : (s.setNandChan ch c).store.mem = s.store.mem := rfl
@[simp] theorem State.setNandChan_store_poison : (s.setNandChan ch c).store.poison = s.store.poison := rfl
@[simp] theorem State.setNandChan_store_spans : (s.setNandChan ch c).store.spans = s.store.spans := rfl
@[simp] theorem State.setNandChan_store_sectors : (s.setNandChan ch c).store.sectors = s.store.sectors := rfl
@[simp] theorem State.setNandChan_store_sweep : (s.setNandChan ch c).store.sweep = s.store.sweep := rfl
@[simp] theorem State.setNandChan_store_sweepFrom : (s.setNandChan ch c).store.sweepFrom = s.store.sweepFrom := rfl
@[simp] theorem State.setNandChan_store_evictions : (s.setNandChan ch c).store.evictions = s.store.evictions := rfl
@[simp] theorem State.setNandChan_store_map : (s.setNandChan ch c).store.map = s.store.map := rfl
@[simp] theorem State.setNandChan_store_blocks : (s.setNandChan ch c).store.blocks = s.store.blocks := rfl
@[simp] theorem State.setNandChan_store_channels : (s.setNandChan ch c).store.channels = s.store.channels.set {} ch c := rfl
@[simp] theorem State.setNandChan_store_objects : (s.setNandChan ch c).store.objects = s.store.objects := rfl
@[simp] theorem State.setNandChan_store_calib : (s.setNandChan ch c).store.calib = s.store.calib := rfl
@[simp] theorem State.setNandChan_store_scrubbed : (s.setNandChan ch c).store.scrubbed = s.store.scrubbed := rfl
@[simp] theorem State.setNandChan_store_refreshed : (s.setNandChan ch c).store.refreshed = s.store.refreshed := rfl
@[simp] theorem State.setNandChan_reqs : (s.setNandChan ch c).reqs = s.reqs := rfl
@[simp] theorem State.setNandChan_dir : (s.setNandChan ch c).dir = s.dir := rfl
@[simp] theorem State.setNandChan_comps : (s.setNandChan ch c).comps = s.comps := rfl
@[simp] theorem State.setNandChan_sky : (s.setNandChan ch c).sky = s.sky := rfl
@[simp] theorem State.setNandChan_movers : (s.setNandChan ch c).movers = s.movers := rfl
@[simp] theorem State.setNandChan_grid : (s.setNandChan ch c).grid = s.grid := rfl
@[simp] theorem State.setNandChan_emb : (s.setNandChan ch c).emb = s.emb := rfl
@[simp] theorem State.setNandChan_indexes : (s.setNandChan ch c).indexes = s.indexes := rfl
@[simp] theorem State.setNandChan_ckpt : (s.setNandChan ch c).ckpt = s.ckpt := rfl
@[simp] theorem State.setNandChan_health : (s.setNandChan ch c).health = s.health := rfl
@[simp] theorem State.setNandChan_blocks : (s.setNandChan ch c).blocks = s.blocks := rfl
@[simp] theorem State.setNandChan_power : (s.setNandChan ch c).power = s.power := rfl
@[simp] theorem State.setNandChan_windows : (s.setNandChan ch c).windows = s.windows := rfl
@[simp] theorem State.setNandChan_pending : (s.setNandChan ch c).pending = s.pending := rfl
end

section
variable (s : State) (i : Nat) (o : ObjRec)
@[simp] theorem State.setObject_now : (s.setObject i o).now = s.now := rfl
@[simp] theorem State.setObject_coreCyc : (s.setObject i o).coreCyc = s.coreCyc := rfl
@[simp] theorem State.setObject_free : (s.setObject i o).free = s.free := rfl
@[simp] theorem State.setObject_withdrawn : (s.setObject i o).withdrawn = s.withdrawn := rfl
@[simp] theorem State.setObject_pins : (s.setObject i o).pins = s.pins := rfl
@[simp] theorem State.setObject_boot : (s.setObject i o).boot = s.boot := rfl
@[simp] theorem State.setObject_sec : (s.setObject i o).sec = s.sec := rfl
@[simp] theorem State.setObject_switch : (s.setObject i o).switch = s.switch := rfl
@[simp] theorem State.setObject_store_regions : (s.setObject i o).store.regions = s.store.regions := rfl
@[simp] theorem State.setObject_store_nextFresh : (s.setObject i o).store.nextFresh = s.store.nextFresh := rfl
@[simp] theorem State.setObject_store_released : (s.setObject i o).store.released = s.store.released := rfl
@[simp] theorem State.setObject_store_hbm : (s.setObject i o).store.hbm = s.store.hbm := rfl
@[simp] theorem State.setObject_store_dram : (s.setObject i o).store.dram = s.store.dram := rfl
@[simp] theorem State.setObject_store_flashPool : (s.setObject i o).store.flashPool = s.store.flashPool := rfl
@[simp] theorem State.setObject_store_chunkTop : (s.setObject i o).store.chunkTop = s.store.chunkTop := rfl
@[simp] theorem State.setObject_store_mem : (s.setObject i o).store.mem = s.store.mem := rfl
@[simp] theorem State.setObject_store_poison : (s.setObject i o).store.poison = s.store.poison := rfl
@[simp] theorem State.setObject_store_spans : (s.setObject i o).store.spans = s.store.spans := rfl
@[simp] theorem State.setObject_store_sectors : (s.setObject i o).store.sectors = s.store.sectors := rfl
@[simp] theorem State.setObject_store_sweep : (s.setObject i o).store.sweep = s.store.sweep := rfl
@[simp] theorem State.setObject_store_sweepFrom : (s.setObject i o).store.sweepFrom = s.store.sweepFrom := rfl
@[simp] theorem State.setObject_store_evictions : (s.setObject i o).store.evictions = s.store.evictions := rfl
@[simp] theorem State.setObject_store_map : (s.setObject i o).store.map = s.store.map := rfl
@[simp] theorem State.setObject_store_blocks : (s.setObject i o).store.blocks = s.store.blocks := rfl
@[simp] theorem State.setObject_store_channels : (s.setObject i o).store.channels = s.store.channels := rfl
@[simp] theorem State.setObject_store_objects : (s.setObject i o).store.objects = s.store.objects.set {} i o := rfl
@[simp] theorem State.setObject_store_calib : (s.setObject i o).store.calib = s.store.calib := rfl
@[simp] theorem State.setObject_store_scrubbed : (s.setObject i o).store.scrubbed = s.store.scrubbed := rfl
@[simp] theorem State.setObject_store_refreshed : (s.setObject i o).store.refreshed = s.store.refreshed := rfl
@[simp] theorem State.setObject_reqs : (s.setObject i o).reqs = s.reqs := rfl
@[simp] theorem State.setObject_dir : (s.setObject i o).dir = s.dir := rfl
@[simp] theorem State.setObject_comps : (s.setObject i o).comps = s.comps := rfl
@[simp] theorem State.setObject_sky : (s.setObject i o).sky = s.sky := rfl
@[simp] theorem State.setObject_movers : (s.setObject i o).movers = s.movers := rfl
@[simp] theorem State.setObject_grid : (s.setObject i o).grid = s.grid := rfl
@[simp] theorem State.setObject_emb : (s.setObject i o).emb = s.emb := rfl
@[simp] theorem State.setObject_indexes : (s.setObject i o).indexes = s.indexes := rfl
@[simp] theorem State.setObject_ckpt : (s.setObject i o).ckpt = s.ckpt := rfl
@[simp] theorem State.setObject_health : (s.setObject i o).health = s.health := rfl
@[simp] theorem State.setObject_blocks : (s.setObject i o).blocks = s.blocks := rfl
@[simp] theorem State.setObject_power : (s.setObject i o).power = s.power := rfl
@[simp] theorem State.setObject_windows : (s.setObject i o).windows = s.windows := rfl
@[simp] theorem State.setObject_pending : (s.setObject i o).pending = s.pending := rfl
end

section
variable (s : State) (cls unit : Nat) (b : Block)
@[simp] theorem State.setBlock_now : (s.setBlock cls unit b).now = s.now := rfl
@[simp] theorem State.setBlock_coreCyc : (s.setBlock cls unit b).coreCyc = s.coreCyc := rfl
@[simp] theorem State.setBlock_free : (s.setBlock cls unit b).free = s.free := rfl
@[simp] theorem State.setBlock_withdrawn : (s.setBlock cls unit b).withdrawn = s.withdrawn := rfl
@[simp] theorem State.setBlock_pins : (s.setBlock cls unit b).pins = s.pins := rfl
@[simp] theorem State.setBlock_boot : (s.setBlock cls unit b).boot = s.boot := rfl
@[simp] theorem State.setBlock_sec : (s.setBlock cls unit b).sec = s.sec := rfl
@[simp] theorem State.setBlock_switch : (s.setBlock cls unit b).switch = s.switch := rfl
@[simp] theorem State.setBlock_store : (s.setBlock cls unit b).store = s.store := rfl
@[simp] theorem State.setBlock_reqs : (s.setBlock cls unit b).reqs = s.reqs := rfl
@[simp] theorem State.setBlock_dir : (s.setBlock cls unit b).dir = s.dir := rfl
@[simp] theorem State.setBlock_comps : (s.setBlock cls unit b).comps = s.comps := rfl
@[simp] theorem State.setBlock_sky : (s.setBlock cls unit b).sky = s.sky := rfl
@[simp] theorem State.setBlock_movers : (s.setBlock cls unit b).movers = s.movers := rfl
@[simp] theorem State.setBlock_grid : (s.setBlock cls unit b).grid = s.grid := rfl
@[simp] theorem State.setBlock_emb : (s.setBlock cls unit b).emb = s.emb := rfl
@[simp] theorem State.setBlock_indexes : (s.setBlock cls unit b).indexes = s.indexes := rfl
@[simp] theorem State.setBlock_ckpt : (s.setBlock cls unit b).ckpt = s.ckpt := rfl
@[simp] theorem State.setBlock_health : (s.setBlock cls unit b).health = s.health := rfl
@[simp] theorem State.setBlock_power : (s.setBlock cls unit b).power = s.power := rfl
@[simp] theorem State.setBlock_windows : (s.setBlock cls unit b).windows = s.windows := rfl
@[simp] theorem State.setBlock_pending : (s.setBlock cls unit b).pending = s.pending := rfl
end

section
variable (s : State) (k : Nat) (p : SubPort)
@[simp] theorem State.setSub_now : (s.setSub k p).now = s.now := rfl
@[simp] theorem State.setSub_coreCyc : (s.setSub k p).coreCyc = s.coreCyc := rfl
@[simp] theorem State.setSub_free : (s.setSub k p).free = s.free := rfl
@[simp] theorem State.setSub_withdrawn : (s.setSub k p).withdrawn = s.withdrawn := rfl
@[simp] theorem State.setSub_pins : (s.setSub k p).pins = s.pins := rfl
@[simp] theorem State.setSub_boot : (s.setSub k p).boot = s.boot := rfl
@[simp] theorem State.setSub_sec : (s.setSub k p).sec = s.sec := rfl
@[simp] theorem State.setSub_store : (s.setSub k p).store = s.store := rfl
@[simp] theorem State.setSub_reqs : (s.setSub k p).reqs = s.reqs := rfl
@[simp] theorem State.setSub_dir : (s.setSub k p).dir = s.dir := rfl
@[simp] theorem State.setSub_comps : (s.setSub k p).comps = s.comps := rfl
@[simp] theorem State.setSub_sky : (s.setSub k p).sky = s.sky := rfl
@[simp] theorem State.setSub_movers : (s.setSub k p).movers = s.movers := rfl
@[simp] theorem State.setSub_grid : (s.setSub k p).grid = s.grid := rfl
@[simp] theorem State.setSub_emb : (s.setSub k p).emb = s.emb := rfl
@[simp] theorem State.setSub_indexes : (s.setSub k p).indexes = s.indexes := rfl
@[simp] theorem State.setSub_ckpt : (s.setSub k p).ckpt = s.ckpt := rfl
@[simp] theorem State.setSub_health : (s.setSub k p).health = s.health := rfl
@[simp] theorem State.setSub_blocks : (s.setSub k p).blocks = s.blocks := rfl
@[simp] theorem State.setSub_power : (s.setSub k p).power = s.power := rfl
@[simp] theorem State.setSub_windows : (s.setSub k p).windows = s.windows := rfl
@[simp] theorem State.setSub_pending : (s.setSub k p).pending = s.pending := rfl
end

section
variable (s : State) (l : List Access)
@[simp] theorem State.setHeld_now : (s.setHeld l).now = s.now := rfl
@[simp] theorem State.setHeld_coreCyc : (s.setHeld l).coreCyc = s.coreCyc := rfl
@[simp] theorem State.setHeld_free : (s.setHeld l).free = s.free := rfl
@[simp] theorem State.setHeld_withdrawn : (s.setHeld l).withdrawn = s.withdrawn := rfl
@[simp] theorem State.setHeld_pins : (s.setHeld l).pins = s.pins := rfl
@[simp] theorem State.setHeld_boot : (s.setHeld l).boot = s.boot := rfl
@[simp] theorem State.setHeld_sec : (s.setHeld l).sec = s.sec := rfl
@[simp] theorem State.setHeld_switch : (s.setHeld l).switch = s.switch := rfl
@[simp] theorem State.setHeld_store : (s.setHeld l).store = s.store := rfl
@[simp] theorem State.setHeld_dir : (s.setHeld l).dir = s.dir := rfl
@[simp] theorem State.setHeld_comps : (s.setHeld l).comps = s.comps := rfl
@[simp] theorem State.setHeld_sky : (s.setHeld l).sky = s.sky := rfl
@[simp] theorem State.setHeld_movers : (s.setHeld l).movers = s.movers := rfl
@[simp] theorem State.setHeld_grid : (s.setHeld l).grid = s.grid := rfl
@[simp] theorem State.setHeld_emb : (s.setHeld l).emb = s.emb := rfl
@[simp] theorem State.setHeld_indexes : (s.setHeld l).indexes = s.indexes := rfl
@[simp] theorem State.setHeld_ckpt : (s.setHeld l).ckpt = s.ckpt := rfl
@[simp] theorem State.setHeld_health : (s.setHeld l).health = s.health := rfl
@[simp] theorem State.setHeld_blocks : (s.setHeld l).blocks = s.blocks := rfl
@[simp] theorem State.setHeld_power : (s.setHeld l).power = s.power := rfl
@[simp] theorem State.setHeld_windows : (s.setHeld l).windows = s.windows := rfl
@[simp] theorem State.setHeld_pending : (s.setHeld l).pending = s.pending := rfl
end

section
variable (s : State) (l : List Waiting)
@[simp] theorem State.setWaiting_now : (s.setWaiting l).now = s.now := rfl
@[simp] theorem State.setWaiting_coreCyc : (s.setWaiting l).coreCyc = s.coreCyc := rfl
@[simp] theorem State.setWaiting_free : (s.setWaiting l).free = s.free := rfl
@[simp] theorem State.setWaiting_withdrawn : (s.setWaiting l).withdrawn = s.withdrawn := rfl
@[simp] theorem State.setWaiting_pins : (s.setWaiting l).pins = s.pins := rfl
@[simp] theorem State.setWaiting_boot : (s.setWaiting l).boot = s.boot := rfl
@[simp] theorem State.setWaiting_sec : (s.setWaiting l).sec = s.sec := rfl
@[simp] theorem State.setWaiting_switch : (s.setWaiting l).switch = s.switch := rfl
@[simp] theorem State.setWaiting_store : (s.setWaiting l).store = s.store := rfl
@[simp] theorem State.setWaiting_dir : (s.setWaiting l).dir = s.dir := rfl
@[simp] theorem State.setWaiting_comps : (s.setWaiting l).comps = s.comps := rfl
@[simp] theorem State.setWaiting_sky : (s.setWaiting l).sky = s.sky := rfl
@[simp] theorem State.setWaiting_movers : (s.setWaiting l).movers = s.movers := rfl
@[simp] theorem State.setWaiting_grid : (s.setWaiting l).grid = s.grid := rfl
@[simp] theorem State.setWaiting_emb : (s.setWaiting l).emb = s.emb := rfl
@[simp] theorem State.setWaiting_indexes : (s.setWaiting l).indexes = s.indexes := rfl
@[simp] theorem State.setWaiting_ckpt : (s.setWaiting l).ckpt = s.ckpt := rfl
@[simp] theorem State.setWaiting_health : (s.setWaiting l).health = s.health := rfl
@[simp] theorem State.setWaiting_blocks : (s.setWaiting l).blocks = s.blocks := rfl
@[simp] theorem State.setWaiting_power : (s.setWaiting l).power = s.power := rfl
@[simp] theorem State.setWaiting_windows : (s.setWaiting l).windows = s.windows := rfl
@[simp] theorem State.setWaiting_pending : (s.setWaiting l).pending = s.pending := rfl
end

section
variable (s : State) (l : List Transition)
@[simp] theorem State.setTransitions_now : (s.setTransitions l).now = s.now := rfl
@[simp] theorem State.setTransitions_coreCyc : (s.setTransitions l).coreCyc = s.coreCyc := rfl
@[simp] theorem State.setTransitions_free : (s.setTransitions l).free = s.free := rfl
@[simp] theorem State.setTransitions_withdrawn : (s.setTransitions l).withdrawn = s.withdrawn := rfl
@[simp] theorem State.setTransitions_pins : (s.setTransitions l).pins = s.pins := rfl
@[simp] theorem State.setTransitions_boot : (s.setTransitions l).boot = s.boot := rfl
@[simp] theorem State.setTransitions_sec : (s.setTransitions l).sec = s.sec := rfl
@[simp] theorem State.setTransitions_switch : (s.setTransitions l).switch = s.switch := rfl
@[simp] theorem State.setTransitions_store : (s.setTransitions l).store = s.store := rfl
@[simp] theorem State.setTransitions_reqs : (s.setTransitions l).reqs = s.reqs := rfl
@[simp] theorem State.setTransitions_comps : (s.setTransitions l).comps = s.comps := rfl
@[simp] theorem State.setTransitions_sky : (s.setTransitions l).sky = s.sky := rfl
@[simp] theorem State.setTransitions_movers : (s.setTransitions l).movers = s.movers := rfl
@[simp] theorem State.setTransitions_grid : (s.setTransitions l).grid = s.grid := rfl
@[simp] theorem State.setTransitions_emb : (s.setTransitions l).emb = s.emb := rfl
@[simp] theorem State.setTransitions_indexes : (s.setTransitions l).indexes = s.indexes := rfl
@[simp] theorem State.setTransitions_ckpt : (s.setTransitions l).ckpt = s.ckpt := rfl
@[simp] theorem State.setTransitions_health : (s.setTransitions l).health = s.health := rfl
@[simp] theorem State.setTransitions_blocks : (s.setTransitions l).blocks = s.blocks := rfl
@[simp] theorem State.setTransitions_power : (s.setTransitions l).power = s.power := rfl
@[simp] theorem State.setTransitions_windows : (s.setTransitions l).windows = s.windows := rfl
@[simp] theorem State.setTransitions_pending : (s.setTransitions l).pending = s.pending := rfl
end

section
variable (s : State) (t : Tab Core)
@[simp] theorem State.setCores_now : (s.setCores t).now = s.now := rfl
@[simp] theorem State.setCores_coreCyc : (s.setCores t).coreCyc = s.coreCyc := rfl
@[simp] theorem State.setCores_free : (s.setCores t).free = s.free := rfl
@[simp] theorem State.setCores_withdrawn : (s.setCores t).withdrawn = s.withdrawn := rfl
@[simp] theorem State.setCores_pins : (s.setCores t).pins = s.pins := rfl
@[simp] theorem State.setCores_boot : (s.setCores t).boot = s.boot := rfl
@[simp] theorem State.setCores_sec : (s.setCores t).sec = s.sec := rfl
@[simp] theorem State.setCores_switch : (s.setCores t).switch = s.switch := rfl
@[simp] theorem State.setCores_store : (s.setCores t).store = s.store := rfl
@[simp] theorem State.setCores_reqs : (s.setCores t).reqs = s.reqs := rfl
@[simp] theorem State.setCores_dir : (s.setCores t).dir = s.dir := rfl
@[simp] theorem State.setCores_comps : (s.setCores t).comps = s.comps := rfl
@[simp] theorem State.setCores_sky : (s.setCores t).sky = s.sky := rfl
@[simp] theorem State.setCores_movers : (s.setCores t).movers = s.movers := rfl
@[simp] theorem State.setCores_emb : (s.setCores t).emb = s.emb := rfl
@[simp] theorem State.setCores_indexes : (s.setCores t).indexes = s.indexes := rfl
@[simp] theorem State.setCores_ckpt : (s.setCores t).ckpt = s.ckpt := rfl
@[simp] theorem State.setCores_health : (s.setCores t).health = s.health := rfl
@[simp] theorem State.setCores_blocks : (s.setCores t).blocks = s.blocks := rfl
@[simp] theorem State.setCores_power : (s.setCores t).power = s.power := rfl
@[simp] theorem State.setCores_windows : (s.setCores t).windows = s.windows := rfl
@[simp] theorem State.setCores_pending : (s.setCores t).pending = s.pending := rfl
end

section
variable (s : State) (k : Sky)
@[simp] theorem State.setSky_now : (s.setSky k).now = s.now := rfl
@[simp] theorem State.setSky_coreCyc : (s.setSky k).coreCyc = s.coreCyc := rfl
@[simp] theorem State.setSky_free : (s.setSky k).free = s.free := rfl
@[simp] theorem State.setSky_withdrawn : (s.setSky k).withdrawn = s.withdrawn := rfl
@[simp] theorem State.setSky_pins : (s.setSky k).pins = s.pins := rfl
@[simp] theorem State.setSky_boot : (s.setSky k).boot = s.boot := rfl
@[simp] theorem State.setSky_sec : (s.setSky k).sec = s.sec := rfl
@[simp] theorem State.setSky_switch : (s.setSky k).switch = s.switch := rfl
@[simp] theorem State.setSky_store : (s.setSky k).store = s.store := rfl
@[simp] theorem State.setSky_reqs : (s.setSky k).reqs = s.reqs := rfl
@[simp] theorem State.setSky_dir : (s.setSky k).dir = s.dir := rfl
@[simp] theorem State.setSky_comps : (s.setSky k).comps = s.comps := rfl
@[simp] theorem State.setSky_sky : (s.setSky k).sky = k := rfl
@[simp] theorem State.setSky_movers : (s.setSky k).movers = s.movers := rfl
@[simp] theorem State.setSky_grid : (s.setSky k).grid = s.grid := rfl
@[simp] theorem State.setSky_emb : (s.setSky k).emb = s.emb := rfl
@[simp] theorem State.setSky_indexes : (s.setSky k).indexes = s.indexes := rfl
@[simp] theorem State.setSky_ckpt : (s.setSky k).ckpt = s.ckpt := rfl
@[simp] theorem State.setSky_health : (s.setSky k).health = s.health := rfl
@[simp] theorem State.setSky_blocks : (s.setSky k).blocks = s.blocks := rfl
@[simp] theorem State.setSky_power : (s.setSky k).power = s.power := rfl
@[simp] theorem State.setSky_windows : (s.setSky k).windows = s.windows := rfl
@[simp] theorem State.setSky_pending : (s.setSky k).pending = s.pending := rfl
end

section
variable (s : State) (x : Movers)
@[simp] theorem State.setMovers_now : (s.setMovers x).now = s.now := rfl
@[simp] theorem State.setMovers_coreCyc : (s.setMovers x).coreCyc = s.coreCyc := rfl
@[simp] theorem State.setMovers_free : (s.setMovers x).free = s.free := rfl
@[simp] theorem State.setMovers_withdrawn : (s.setMovers x).withdrawn = s.withdrawn := rfl
@[simp] theorem State.setMovers_pins : (s.setMovers x).pins = s.pins := rfl
@[simp] theorem State.setMovers_boot : (s.setMovers x).boot = s.boot := rfl
@[simp] theorem State.setMovers_sec : (s.setMovers x).sec = s.sec := rfl
@[simp] theorem State.setMovers_switch : (s.setMovers x).switch = s.switch := rfl
@[simp] theorem State.setMovers_store : (s.setMovers x).store = s.store := rfl
@[simp] theorem State.setMovers_reqs : (s.setMovers x).reqs = s.reqs := rfl
@[simp] theorem State.setMovers_dir : (s.setMovers x).dir = s.dir := rfl
@[simp] theorem State.setMovers_comps : (s.setMovers x).comps = s.comps := rfl
@[simp] theorem State.setMovers_sky : (s.setMovers x).sky = s.sky := rfl
@[simp] theorem State.setMovers_movers : (s.setMovers x).movers = x := rfl
@[simp] theorem State.setMovers_grid : (s.setMovers x).grid = s.grid := rfl
@[simp] theorem State.setMovers_emb : (s.setMovers x).emb = s.emb := rfl
@[simp] theorem State.setMovers_indexes : (s.setMovers x).indexes = s.indexes := rfl
@[simp] theorem State.setMovers_ckpt : (s.setMovers x).ckpt = s.ckpt := rfl
@[simp] theorem State.setMovers_health : (s.setMovers x).health = s.health := rfl
@[simp] theorem State.setMovers_blocks : (s.setMovers x).blocks = s.blocks := rfl
@[simp] theorem State.setMovers_power : (s.setMovers x).power = s.power := rfl
@[simp] theorem State.setMovers_windows : (s.setMovers x).windows = s.windows := rfl
@[simp] theorem State.setMovers_pending : (s.setMovers x).pending = s.pending := rfl
end

section
variable (s : State) (e : Emb)
@[simp] theorem State.setEmb_now : (s.setEmb e).now = s.now := rfl
@[simp] theorem State.setEmb_coreCyc : (s.setEmb e).coreCyc = s.coreCyc := rfl
@[simp] theorem State.setEmb_free : (s.setEmb e).free = s.free := rfl
@[simp] theorem State.setEmb_withdrawn : (s.setEmb e).withdrawn = s.withdrawn := rfl
@[simp] theorem State.setEmb_pins : (s.setEmb e).pins = s.pins := rfl
@[simp] theorem State.setEmb_boot : (s.setEmb e).boot = s.boot := rfl
@[simp] theorem State.setEmb_sec : (s.setEmb e).sec = s.sec := rfl
@[simp] theorem State.setEmb_switch : (s.setEmb e).switch = s.switch := rfl
@[simp] theorem State.setEmb_store : (s.setEmb e).store = s.store := rfl
@[simp] theorem State.setEmb_reqs : (s.setEmb e).reqs = s.reqs := rfl
@[simp] theorem State.setEmb_dir : (s.setEmb e).dir = s.dir := rfl
@[simp] theorem State.setEmb_comps : (s.setEmb e).comps = s.comps := rfl
@[simp] theorem State.setEmb_sky : (s.setEmb e).sky = s.sky := rfl
@[simp] theorem State.setEmb_movers : (s.setEmb e).movers = s.movers := rfl
@[simp] theorem State.setEmb_grid : (s.setEmb e).grid = s.grid := rfl
@[simp] theorem State.setEmb_emb : (s.setEmb e).emb = e := rfl
@[simp] theorem State.setEmb_indexes : (s.setEmb e).indexes = s.indexes := rfl
@[simp] theorem State.setEmb_ckpt : (s.setEmb e).ckpt = s.ckpt := rfl
@[simp] theorem State.setEmb_health : (s.setEmb e).health = s.health := rfl
@[simp] theorem State.setEmb_blocks : (s.setEmb e).blocks = s.blocks := rfl
@[simp] theorem State.setEmb_power : (s.setEmb e).power = s.power := rfl
@[simp] theorem State.setEmb_windows : (s.setEmb e).windows = s.windows := rfl
@[simp] theorem State.setEmb_pending : (s.setEmb e).pending = s.pending := rfl
end

section
variable (s : State) (c : Ckpt)
@[simp] theorem State.setCkpt_now : (s.setCkpt c).now = s.now := rfl
@[simp] theorem State.setCkpt_coreCyc : (s.setCkpt c).coreCyc = s.coreCyc := rfl
@[simp] theorem State.setCkpt_free : (s.setCkpt c).free = s.free := rfl
@[simp] theorem State.setCkpt_withdrawn : (s.setCkpt c).withdrawn = s.withdrawn := rfl
@[simp] theorem State.setCkpt_pins : (s.setCkpt c).pins = s.pins := rfl
@[simp] theorem State.setCkpt_boot : (s.setCkpt c).boot = s.boot := rfl
@[simp] theorem State.setCkpt_sec : (s.setCkpt c).sec = s.sec := rfl
@[simp] theorem State.setCkpt_switch : (s.setCkpt c).switch = s.switch := rfl
@[simp] theorem State.setCkpt_store : (s.setCkpt c).store = s.store := rfl
@[simp] theorem State.setCkpt_reqs : (s.setCkpt c).reqs = s.reqs := rfl
@[simp] theorem State.setCkpt_dir : (s.setCkpt c).dir = s.dir := rfl
@[simp] theorem State.setCkpt_comps : (s.setCkpt c).comps = s.comps := rfl
@[simp] theorem State.setCkpt_sky : (s.setCkpt c).sky = s.sky := rfl
@[simp] theorem State.setCkpt_movers : (s.setCkpt c).movers = s.movers := rfl
@[simp] theorem State.setCkpt_grid : (s.setCkpt c).grid = s.grid := rfl
@[simp] theorem State.setCkpt_emb : (s.setCkpt c).emb = s.emb := rfl
@[simp] theorem State.setCkpt_indexes : (s.setCkpt c).indexes = s.indexes := rfl
@[simp] theorem State.setCkpt_ckpt : (s.setCkpt c).ckpt = c := rfl
@[simp] theorem State.setCkpt_health : (s.setCkpt c).health = s.health := rfl
@[simp] theorem State.setCkpt_blocks : (s.setCkpt c).blocks = s.blocks := rfl
@[simp] theorem State.setCkpt_power : (s.setCkpt c).power = s.power := rfl
@[simp] theorem State.setCkpt_windows : (s.setCkpt c).windows = s.windows := rfl
@[simp] theorem State.setCkpt_pending : (s.setCkpt c).pending = s.pending := rfl
end

section
variable (s : State) (p : Power)
@[simp] theorem State.setPower_now : (s.setPower p).now = s.now := rfl
@[simp] theorem State.setPower_coreCyc : (s.setPower p).coreCyc = s.coreCyc := rfl
@[simp] theorem State.setPower_free : (s.setPower p).free = s.free := rfl
@[simp] theorem State.setPower_withdrawn : (s.setPower p).withdrawn = s.withdrawn := rfl
@[simp] theorem State.setPower_pins : (s.setPower p).pins = s.pins := rfl
@[simp] theorem State.setPower_boot : (s.setPower p).boot = s.boot := rfl
@[simp] theorem State.setPower_sec : (s.setPower p).sec = s.sec := rfl
@[simp] theorem State.setPower_switch : (s.setPower p).switch = s.switch := rfl
@[simp] theorem State.setPower_store : (s.setPower p).store = s.store := rfl
@[simp] theorem State.setPower_reqs : (s.setPower p).reqs = s.reqs := rfl
@[simp] theorem State.setPower_dir : (s.setPower p).dir = s.dir := rfl
@[simp] theorem State.setPower_comps : (s.setPower p).comps = s.comps := rfl
@[simp] theorem State.setPower_sky : (s.setPower p).sky = s.sky := rfl
@[simp] theorem State.setPower_movers : (s.setPower p).movers = s.movers := rfl
@[simp] theorem State.setPower_grid : (s.setPower p).grid = s.grid := rfl
@[simp] theorem State.setPower_emb : (s.setPower p).emb = s.emb := rfl
@[simp] theorem State.setPower_indexes : (s.setPower p).indexes = s.indexes := rfl
@[simp] theorem State.setPower_ckpt : (s.setPower p).ckpt = s.ckpt := rfl
@[simp] theorem State.setPower_health : (s.setPower p).health = s.health := rfl
@[simp] theorem State.setPower_blocks : (s.setPower p).blocks = s.blocks := rfl
@[simp] theorem State.setPower_power : (s.setPower p).power = p := rfl
@[simp] theorem State.setPower_windows : (s.setPower p).windows = s.windows := rfl
@[simp] theorem State.setPower_pending : (s.setPower p).pending = s.pending := rfl
end

section
variable (s : State) (x : Switch)
@[simp] theorem State.setSwitch_now : (s.setSwitch x).now = s.now := rfl
@[simp] theorem State.setSwitch_coreCyc : (s.setSwitch x).coreCyc = s.coreCyc := rfl
@[simp] theorem State.setSwitch_free : (s.setSwitch x).free = s.free := rfl
@[simp] theorem State.setSwitch_withdrawn : (s.setSwitch x).withdrawn = s.withdrawn := rfl
@[simp] theorem State.setSwitch_pins : (s.setSwitch x).pins = s.pins := rfl
@[simp] theorem State.setSwitch_boot : (s.setSwitch x).boot = s.boot := rfl
@[simp] theorem State.setSwitch_sec : (s.setSwitch x).sec = s.sec := rfl
@[simp] theorem State.setSwitch_switch : (s.setSwitch x).switch = x := rfl
@[simp] theorem State.setSwitch_store : (s.setSwitch x).store = s.store := rfl
@[simp] theorem State.setSwitch_reqs : (s.setSwitch x).reqs = s.reqs := rfl
@[simp] theorem State.setSwitch_dir : (s.setSwitch x).dir = s.dir := rfl
@[simp] theorem State.setSwitch_comps : (s.setSwitch x).comps = s.comps := rfl
@[simp] theorem State.setSwitch_sky : (s.setSwitch x).sky = s.sky := rfl
@[simp] theorem State.setSwitch_movers : (s.setSwitch x).movers = s.movers := rfl
@[simp] theorem State.setSwitch_grid : (s.setSwitch x).grid = s.grid := rfl
@[simp] theorem State.setSwitch_emb : (s.setSwitch x).emb = s.emb := rfl
@[simp] theorem State.setSwitch_indexes : (s.setSwitch x).indexes = s.indexes := rfl
@[simp] theorem State.setSwitch_ckpt : (s.setSwitch x).ckpt = s.ckpt := rfl
@[simp] theorem State.setSwitch_health : (s.setSwitch x).health = s.health := rfl
@[simp] theorem State.setSwitch_blocks : (s.setSwitch x).blocks = s.blocks := rfl
@[simp] theorem State.setSwitch_power : (s.setSwitch x).power = s.power := rfl
@[simp] theorem State.setSwitch_windows : (s.setSwitch x).windows = s.windows := rfl
@[simp] theorem State.setSwitch_pending : (s.setSwitch x).pending = s.pending := rfl
end

section
variable (s : State) (x : Health)
@[simp] theorem State.setHealth_now : (s.setHealth x).now = s.now := rfl
@[simp] theorem State.setHealth_coreCyc : (s.setHealth x).coreCyc = s.coreCyc := rfl
@[simp] theorem State.setHealth_free : (s.setHealth x).free = s.free := rfl
@[simp] theorem State.setHealth_withdrawn : (s.setHealth x).withdrawn = s.withdrawn := rfl
@[simp] theorem State.setHealth_pins : (s.setHealth x).pins = s.pins := rfl
@[simp] theorem State.setHealth_boot : (s.setHealth x).boot = s.boot := rfl
@[simp] theorem State.setHealth_sec : (s.setHealth x).sec = s.sec := rfl
@[simp] theorem State.setHealth_switch : (s.setHealth x).switch = s.switch := rfl
@[simp] theorem State.setHealth_store : (s.setHealth x).store = s.store := rfl
@[simp] theorem State.setHealth_reqs : (s.setHealth x).reqs = s.reqs := rfl
@[simp] theorem State.setHealth_dir : (s.setHealth x).dir = s.dir := rfl
@[simp] theorem State.setHealth_comps : (s.setHealth x).comps = s.comps := rfl
@[simp] theorem State.setHealth_sky : (s.setHealth x).sky = s.sky := rfl
@[simp] theorem State.setHealth_movers : (s.setHealth x).movers = s.movers := rfl
@[simp] theorem State.setHealth_grid : (s.setHealth x).grid = s.grid := rfl
@[simp] theorem State.setHealth_emb : (s.setHealth x).emb = s.emb := rfl
@[simp] theorem State.setHealth_indexes : (s.setHealth x).indexes = s.indexes := rfl
@[simp] theorem State.setHealth_ckpt : (s.setHealth x).ckpt = s.ckpt := rfl
@[simp] theorem State.setHealth_health : (s.setHealth x).health = x := rfl
@[simp] theorem State.setHealth_blocks : (s.setHealth x).blocks = s.blocks := rfl
@[simp] theorem State.setHealth_power : (s.setHealth x).power = s.power := rfl
@[simp] theorem State.setHealth_windows : (s.setHealth x).windows = s.windows := rfl
@[simp] theorem State.setHealth_pending : (s.setHealth x).pending = s.pending := rfl
end

section
variable (s : State) (f : Boot → Boot)
@[simp] theorem State.modBoot_now : (s.modBoot f).now = s.now := rfl
@[simp] theorem State.modBoot_coreCyc : (s.modBoot f).coreCyc = s.coreCyc := rfl
@[simp] theorem State.modBoot_free : (s.modBoot f).free = s.free := rfl
@[simp] theorem State.modBoot_withdrawn : (s.modBoot f).withdrawn = s.withdrawn := rfl
@[simp] theorem State.modBoot_pins : (s.modBoot f).pins = s.pins := rfl
@[simp] theorem State.modBoot_boot : (s.modBoot f).boot = f s.boot := rfl
@[simp] theorem State.modBoot_sec : (s.modBoot f).sec = s.sec := rfl
@[simp] theorem State.modBoot_switch : (s.modBoot f).switch = s.switch := rfl
@[simp] theorem State.modBoot_store : (s.modBoot f).store = s.store := rfl
@[simp] theorem State.modBoot_reqs : (s.modBoot f).reqs = s.reqs := rfl
@[simp] theorem State.modBoot_dir : (s.modBoot f).dir = s.dir := rfl
@[simp] theorem State.modBoot_comps : (s.modBoot f).comps = s.comps := rfl
@[simp] theorem State.modBoot_sky : (s.modBoot f).sky = s.sky := rfl
@[simp] theorem State.modBoot_movers : (s.modBoot f).movers = s.movers := rfl
@[simp] theorem State.modBoot_grid : (s.modBoot f).grid = s.grid := rfl
@[simp] theorem State.modBoot_emb : (s.modBoot f).emb = s.emb := rfl
@[simp] theorem State.modBoot_indexes : (s.modBoot f).indexes = s.indexes := rfl
@[simp] theorem State.modBoot_ckpt : (s.modBoot f).ckpt = s.ckpt := rfl
@[simp] theorem State.modBoot_health : (s.modBoot f).health = s.health := rfl
@[simp] theorem State.modBoot_blocks : (s.modBoot f).blocks = s.blocks := rfl
@[simp] theorem State.modBoot_power : (s.modBoot f).power = s.power := rfl
@[simp] theorem State.modBoot_windows : (s.modBoot f).windows = s.windows := rfl
@[simp] theorem State.modBoot_pending : (s.modBoot f).pending = s.pending := rfl
end

section
variable (s : State) (f : Security → Security)
@[simp] theorem State.modSec_now : (s.modSec f).now = s.now := rfl
@[simp] theorem State.modSec_coreCyc : (s.modSec f).coreCyc = s.coreCyc := rfl
@[simp] theorem State.modSec_free : (s.modSec f).free = s.free := rfl
@[simp] theorem State.modSec_withdrawn : (s.modSec f).withdrawn = s.withdrawn := rfl
@[simp] theorem State.modSec_pins : (s.modSec f).pins = s.pins := rfl
@[simp] theorem State.modSec_boot : (s.modSec f).boot = s.boot := rfl
@[simp] theorem State.modSec_sec : (s.modSec f).sec = f s.sec := rfl
@[simp] theorem State.modSec_switch : (s.modSec f).switch = s.switch := rfl
@[simp] theorem State.modSec_store : (s.modSec f).store = s.store := rfl
@[simp] theorem State.modSec_reqs : (s.modSec f).reqs = s.reqs := rfl
@[simp] theorem State.modSec_dir : (s.modSec f).dir = s.dir := rfl
@[simp] theorem State.modSec_comps : (s.modSec f).comps = s.comps := rfl
@[simp] theorem State.modSec_sky : (s.modSec f).sky = s.sky := rfl
@[simp] theorem State.modSec_movers : (s.modSec f).movers = s.movers := rfl
@[simp] theorem State.modSec_grid : (s.modSec f).grid = s.grid := rfl
@[simp] theorem State.modSec_emb : (s.modSec f).emb = s.emb := rfl
@[simp] theorem State.modSec_indexes : (s.modSec f).indexes = s.indexes := rfl
@[simp] theorem State.modSec_ckpt : (s.modSec f).ckpt = s.ckpt := rfl
@[simp] theorem State.modSec_health : (s.modSec f).health = s.health := rfl
@[simp] theorem State.modSec_blocks : (s.modSec f).blocks = s.blocks := rfl
@[simp] theorem State.modSec_power : (s.modSec f).power = s.power := rfl
@[simp] theorem State.modSec_windows : (s.modSec f).windows = s.windows := rfl
@[simp] theorem State.modSec_pending : (s.modSec f).pending = s.pending := rfl
end

section
variable (s : State) (i : Nat) (a : Attached)
@[simp] theorem State.setIndex_now : (s.setIndex i a).now = s.now := rfl
@[simp] theorem State.setIndex_coreCyc : (s.setIndex i a).coreCyc = s.coreCyc := rfl
@[simp] theorem State.setIndex_free : (s.setIndex i a).free = s.free := rfl
@[simp] theorem State.setIndex_withdrawn : (s.setIndex i a).withdrawn = s.withdrawn := rfl
@[simp] theorem State.setIndex_pins : (s.setIndex i a).pins = s.pins := rfl
@[simp] theorem State.setIndex_boot : (s.setIndex i a).boot = s.boot := rfl
@[simp] theorem State.setIndex_sec : (s.setIndex i a).sec = s.sec := rfl
@[simp] theorem State.setIndex_switch : (s.setIndex i a).switch = s.switch := rfl
@[simp] theorem State.setIndex_store : (s.setIndex i a).store = s.store := rfl
@[simp] theorem State.setIndex_reqs : (s.setIndex i a).reqs = s.reqs := rfl
@[simp] theorem State.setIndex_dir : (s.setIndex i a).dir = s.dir := rfl
@[simp] theorem State.setIndex_comps : (s.setIndex i a).comps = s.comps := rfl
@[simp] theorem State.setIndex_sky : (s.setIndex i a).sky = s.sky := rfl
@[simp] theorem State.setIndex_movers : (s.setIndex i a).movers = s.movers := rfl
@[simp] theorem State.setIndex_grid : (s.setIndex i a).grid = s.grid := rfl
@[simp] theorem State.setIndex_emb : (s.setIndex i a).emb = s.emb := rfl
@[simp] theorem State.setIndex_indexes : (s.setIndex i a).indexes = s.indexes.set {} i a := rfl
@[simp] theorem State.setIndex_ckpt : (s.setIndex i a).ckpt = s.ckpt := rfl
@[simp] theorem State.setIndex_health : (s.setIndex i a).health = s.health := rfl
@[simp] theorem State.setIndex_blocks : (s.setIndex i a).blocks = s.blocks := rfl
@[simp] theorem State.setIndex_power : (s.setIndex i a).power = s.power := rfl
@[simp] theorem State.setIndex_windows : (s.setIndex i a).windows = s.windows := rfl
@[simp] theorem State.setIndex_pending : (s.setIndex i a).pending = s.pending := rfl
end

end Sys2Proof.Machine
end

