-- ==== Sys2Proof/Laws/Frames.lean ====
section
/-! SUPPORT. What the shared operations leave unchanged: each is shown once to be an update of the few fields that it writes,
and every other field then reads as before. -/
namespace Sys2Proof.Machine

theorem State.switchDiscard_shape (s : State) : ∃ (sw : Switch),
    s.switchDiscard = { s with switch := sw } := by
  exact ⟨_, rfl⟩

section
variable (s : State)
@[simp] theorem State.switchDiscard_now : (s.switchDiscard).now = s.now := by obtain ⟨_, e⟩ := s.switchDiscard_shape; rw [e]
@[simp] theorem State.switchDiscard_coreCyc : (s.switchDiscard).coreCyc = s.coreCyc := by obtain ⟨_, e⟩ := s.switchDiscard_shape; rw [e]
@[simp] theorem State.switchDiscard_free : (s.switchDiscard).free = s.free := by obtain ⟨_, e⟩ := s.switchDiscard_shape; rw [e]
@[simp] theorem State.switchDiscard_withdrawn : (s.switchDiscard).withdrawn = s.withdrawn := by obtain ⟨_, e⟩ := s.switchDiscard_shape; rw [e]
@[simp] theorem State.switchDiscard_pins : (s.switchDiscard).pins = s.pins := by obtain ⟨_, e⟩ := s.switchDiscard_shape; rw [e]
@[simp] theorem State.switchDiscard_boot : (s.switchDiscard).boot = s.boot := by obtain ⟨_, e⟩ := s.switchDiscard_shape; rw [e]
@[simp] theorem State.switchDiscard_sec : (s.switchDiscard).sec = s.sec := by obtain ⟨_, e⟩ := s.switchDiscard_shape; rw [e]
@[simp] theorem State.switchDiscard_store : (s.switchDiscard).store = s.store := by obtain ⟨_, e⟩ := s.switchDiscard_shape; rw [e]
@[simp] theorem State.switchDiscard_reqs : (s.switchDiscard).reqs = s.reqs := by obtain ⟨_, e⟩ := s.switchDiscard_shape; rw [e]
@[simp] theorem State.switchDiscard_dir : (s.switchDiscard).dir = s.dir := by obtain ⟨_, e⟩ := s.switchDiscard_shape; rw [e]
@[simp] theorem State.switchDiscard_comps : (s.switchDiscard).comps = s.comps := by obtain ⟨_, e⟩ := s.switchDiscard_shape; rw [e]
@[simp] theorem State.switchDiscard_sky : (s.switchDiscard).sky = s.sky := by obtain ⟨_, e⟩ := s.switchDiscard_shape; rw [e]
@[simp] theorem State.switchDiscard_movers : (s.switchDiscard).movers = s.movers := by obtain ⟨_, e⟩ := s.switchDiscard_shape; rw [e]
@[simp] theorem State.switchDiscard_grid : (s.switchDiscard).grid = s.grid := by obtain ⟨_, e⟩ := s.switchDiscard_shape; rw [e]
@[simp] theorem State.switchDiscard_emb : (s.switchDiscard).emb = s.emb := by obtain ⟨_, e⟩ := s.switchDiscard_shape; rw [e]
@[simp] theorem State.switchDiscard_indexes : (s.switchDiscard).indexes = s.indexes := by obtain ⟨_, e⟩ := s.switchDiscard_shape; rw [e]
@[simp] theorem State.switchDiscard_ckpt : (s.switchDiscard).ckpt = s.ckpt := by obtain ⟨_, e⟩ := s.switchDiscard_shape; rw [e]
@[simp] theorem State.switchDiscard_health : (s.switchDiscard).health = s.health := by obtain ⟨_, e⟩ := s.switchDiscard_shape; rw [e]
@[simp] theorem State.switchDiscard_blocks : (s.switchDiscard).blocks = s.blocks := by obtain ⟨_, e⟩ := s.switchDiscard_shape; rw [e]
@[simp] theorem State.switchDiscard_power : (s.switchDiscard).power = s.power := by obtain ⟨_, e⟩ := s.switchDiscard_shape; rw [e]
@[simp] theorem State.switchDiscard_windows : (s.switchDiscard).windows = s.windows := by obtain ⟨_, e⟩ := s.switchDiscard_shape; rw [e]
@[simp] theorem State.switchDiscard_pending : (s.switchDiscard).pending = s.pending := by obtain ⟨_, e⟩ := s.switchDiscard_shape; rw [e]
end

theorem State.linkDiscards_shape (s : State) (k n : Nat) : ∃ (sw : Switch) (he : Health),
    s.linkDiscards k n = { s with switch := sw, health := he } := by
  exact ⟨_, _, rfl⟩

section
variable (s : State) (k n : Nat)
@[simp] theorem State.linkDiscards_now : (s.linkDiscards k n).now = s.now := by obtain ⟨_, _, e⟩ := s.linkDiscards_shape k n; rw [e]
@[simp] theorem State.linkDiscards_coreCyc : (s.linkDiscards k n).coreCyc = s.coreCyc := by obtain ⟨_, _, e⟩ := s.linkDiscards_shape k n; rw [e]
@[simp] theorem State.linkDiscards_free : (s.linkDiscards k n).free = s.free := by obtain ⟨_, _, e⟩ := s.linkDiscards_shape k n; rw [e]
@[simp] theorem State.linkDiscards_withdrawn : (s.linkDiscards k n).withdrawn = s.withdrawn := by obtain ⟨_, _, e⟩ := s.linkDiscards_shape k n; rw [e]
@[simp] theorem State.linkDiscards_pins : (s.linkDiscards k n).pins = s.pins := by obtain ⟨_, _, e⟩ := s.linkDiscards_shape k n; rw [e]
@[simp] theorem State.linkDiscards_boot : (s.linkDiscards k n).boot = s.boot := by obtain ⟨_, _, e⟩ := s.linkDiscards_shape k n; rw [e]
@[simp] theorem State.linkDiscards_sec : (s.linkDiscards k n).sec = s.sec := by obtain ⟨_, _, e⟩ := s.linkDiscards_shape k n; rw [e]
@[simp] theorem State.linkDiscards_store : (s.linkDiscards k n).store = s.store := by obtain ⟨_, _, e⟩ := s.linkDiscards_shape k n; rw [e]
@[simp] theorem State.linkDiscards_reqs : (s.linkDiscards k n).reqs = s.reqs := by obtain ⟨_, _, e⟩ := s.linkDiscards_shape k n; rw [e]
@[simp] theorem State.linkDiscards_dir : (s.linkDiscards k n).dir = s.dir := by obtain ⟨_, _, e⟩ := s.linkDiscards_shape k n; rw [e]
@[simp] theorem State.linkDiscards_comps : (s.linkDiscards k n).comps = s.comps := by obtain ⟨_, _, e⟩ := s.linkDiscards_shape k n; rw [e]
@[simp] theorem State.linkDiscards_sky : (s.linkDiscards k n).sky = s.sky := by obtain ⟨_, _, e⟩ := s.linkDiscards_shape k n; rw [e]
@[simp] theorem State.linkDiscards_movers : (s.linkDiscards k n).movers = s.movers := by obtain ⟨_, _, e⟩ := s.linkDiscards_shape k n; rw [e]
@[simp] theorem State.linkDiscards_grid : (s.linkDiscards k n).grid = s.grid := by obtain ⟨_, _, e⟩ := s.linkDiscards_shape k n; rw [e]
@[simp] theorem State.linkDiscards_emb : (s.linkDiscards k n).emb = s.emb := by obtain ⟨_, _, e⟩ := s.linkDiscards_shape k n; rw [e]
@[simp] theorem State.linkDiscards_indexes : (s.linkDiscards k n).indexes = s.indexes := by obtain ⟨_, _, e⟩ := s.linkDiscards_shape k n; rw [e]
@[simp] theorem State.linkDiscards_ckpt : (s.linkDiscards k n).ckpt = s.ckpt := by obtain ⟨_, _, e⟩ := s.linkDiscards_shape k n; rw [e]
@[simp] theorem State.linkDiscards_blocks : (s.linkDiscards k n).blocks = s.blocks := by obtain ⟨_, _, e⟩ := s.linkDiscards_shape k n; rw [e]
@[simp] theorem State.linkDiscards_power : (s.linkDiscards k n).power = s.power := by obtain ⟨_, _, e⟩ := s.linkDiscards_shape k n; rw [e]
@[simp] theorem State.linkDiscards_windows : (s.linkDiscards k n).windows = s.windows := by obtain ⟨_, _, e⟩ := s.linkDiscards_shape k n; rw [e]
@[simp] theorem State.linkDiscards_pending : (s.linkDiscards k n).pending = s.pending := by obtain ⟨_, _, e⟩ := s.linkDiscards_shape k n; rw [e]
end

theorem State.enqueue_shape (s : State) (k : Nat) (f : OutFrame) : ∃ (sw : Switch) (he : Health),
    s.enqueue k f = { s with switch := sw, health := he } := by
  unfold State.enqueue
  split
  · exact ⟨_, s.health, rfl⟩
  · split
    · exact s.linkDiscards_shape k 1
    · split
      · exact ⟨s.switch, _, rfl⟩
      · exact ⟨_, s.health, rfl⟩

section
variable (s : State) (k : Nat) (f : OutFrame)
@[simp] theorem State.enqueue_now : (s.enqueue k f).now = s.now := by obtain ⟨_, _, e⟩ := s.enqueue_shape k f; rw [e]
@[simp] theorem State.enqueue_coreCyc : (s.enqueue k f).coreCyc = s.coreCyc := by obtain ⟨_, _, e⟩ := s.enqueue_shape k f; rw [e]
@[simp] theorem State.enqueue_free : (s.enqueue k f).free = s.free := by obtain ⟨_, _, e⟩ := s.enqueue_shape k f; rw [e]
@[simp] theorem State.enqueue_withdrawn : (s.enqueue k f).withdrawn = s.withdrawn := by obtain ⟨_, _, e⟩ := s.enqueue_shape k f; rw [e]
@[simp] theorem State.enqueue_pins : (s.enqueue k f).pins = s.pins := by obtain ⟨_, _, e⟩ := s.enqueue_shape k f; rw [e]
@[simp] theorem State.enqueue_boot : (s.enqueue k f).boot = s.boot := by obtain ⟨_, _, e⟩ := s.enqueue_shape k f; rw [e]
@[simp] theorem State.enqueue_sec : (s.enqueue k f).sec = s.sec := by obtain ⟨_, _, e⟩ := s.enqueue_shape k f; rw [e]
@[simp] theorem State.enqueue_store : (s.enqueue k f).store = s.store := by obtain ⟨_, _, e⟩ := s.enqueue_shape k f; rw [e]
@[simp] theorem State.enqueue_reqs : (s.enqueue k f).reqs = s.reqs := by obtain ⟨_, _, e⟩ := s.enqueue_shape k f; rw [e]
@[simp] theorem State.enqueue_dir : (s.enqueue k f).dir = s.dir := by obtain ⟨_, _, e⟩ := s.enqueue_shape k f; rw [e]
@[simp] theorem State.enqueue_comps : (s.enqueue k f).comps = s.comps := by obtain ⟨_, _, e⟩ := s.enqueue_shape k f; rw [e]
@[simp] theorem State.enqueue_sky : (s.enqueue k f).sky = s.sky := by obtain ⟨_, _, e⟩ := s.enqueue_shape k f; rw [e]
@[simp] theorem State.enqueue_movers : (s.enqueue k f).movers = s.movers := by obtain ⟨_, _, e⟩ := s.enqueue_shape k f; rw [e]
@[simp] theorem State.enqueue_grid : (s.enqueue k f).grid = s.grid := by obtain ⟨_, _, e⟩ := s.enqueue_shape k f; rw [e]
@[simp] theorem State.enqueue_emb : (s.enqueue k f).emb = s.emb := by obtain ⟨_, _, e⟩ := s.enqueue_shape k f; rw [e]
@[simp] theorem State.enqueue_indexes : (s.enqueue k f).indexes = s.indexes := by obtain ⟨_, _, e⟩ := s.enqueue_shape k f; rw [e]
@[simp] theorem State.enqueue_ckpt : (s.enqueue k f).ckpt = s.ckpt := by obtain ⟨_, _, e⟩ := s.enqueue_shape k f; rw [e]
@[simp] theorem State.enqueue_blocks : (s.enqueue k f).blocks = s.blocks := by obtain ⟨_, _, e⟩ := s.enqueue_shape k f; rw [e]
@[simp] theorem State.enqueue_power : (s.enqueue k f).power = s.power := by obtain ⟨_, _, e⟩ := s.enqueue_shape k f; rw [e]
@[simp] theorem State.enqueue_windows : (s.enqueue k f).windows = s.windows := by obtain ⟨_, _, e⟩ := s.enqueue_shape k f; rw [e]
@[simp] theorem State.enqueue_pending : (s.enqueue k f).pending = s.pending := by obtain ⟨_, _, e⟩ := s.enqueue_shape k f; rw [e]
end

theorem State.send_shape (s : State) (f : OutFrame) (a : Option Nat) : ∃ (sw : Switch) (he : Health),
    s.send f a = { s with switch := sw, health := he } := by
  unfold State.send
  split
  · exact s.enqueue_shape _ _
  · exact ⟨_, s.health, rfl⟩

section
variable (s : State) (f : OutFrame) (a : Option Nat)
@[simp] theorem State.send_now : (s.send f a).now = s.now := by obtain ⟨_, _, e⟩ := s.send_shape f a; rw [e]
@[simp] theorem State.send_coreCyc : (s.send f a).coreCyc = s.coreCyc := by obtain ⟨_, _, e⟩ := s.send_shape f a; rw [e]
@[simp] theorem State.send_free : (s.send f a).free = s.free := by obtain ⟨_, _, e⟩ := s.send_shape f a; rw [e]
@[simp] theorem State.send_withdrawn : (s.send f a).withdrawn = s.withdrawn := by obtain ⟨_, _, e⟩ := s.send_shape f a; rw [e]
@[simp] theorem State.send_pins : (s.send f a).pins = s.pins := by obtain ⟨_, _, e⟩ := s.send_shape f a; rw [e]
@[simp] theorem State.send_boot : (s.send f a).boot = s.boot := by obtain ⟨_, _, e⟩ := s.send_shape f a; rw [e]
@[simp] theorem State.send_sec : (s.send f a).sec = s.sec := by obtain ⟨_, _, e⟩ := s.send_shape f a; rw [e]
@[simp] theorem State.send_store : (s.send f a).store = s.store := by obtain ⟨_, _, e⟩ := s.send_shape f a; rw [e]
@[simp] theorem State.send_reqs : (s.send f a).reqs = s.reqs := by obtain ⟨_, _, e⟩ := s.send_shape f a; rw [e]
@[simp] theorem State.send_dir : (s.send f a).dir = s.dir := by obtain ⟨_, _, e⟩ := s.send_shape f a; rw [e]
@[simp] theorem State.send_comps : (s.send f a).comps = s.comps := by obtain ⟨_, _, e⟩ := s.send_shape f a; rw [e]
@[simp] theorem State.send_sky : (s.send f a).sky = s.sky := by obtain ⟨_, _, e⟩ := s.send_shape f a; rw [e]
@[simp] theorem State.send_movers : (s.send f a).movers = s.movers := by obtain ⟨_, _, e⟩ := s.send_shape f a; rw [e]
@[simp] theorem State.send_grid : (s.send f a).grid = s.grid := by obtain ⟨_, _, e⟩ := s.send_shape f a; rw [e]
@[simp] theorem State.send_emb : (s.send f a).emb = s.emb := by obtain ⟨_, _, e⟩ := s.send_shape f a; rw [e]
@[simp] theorem State.send_indexes : (s.send f a).indexes = s.indexes := by obtain ⟨_, _, e⟩ := s.send_shape f a; rw [e]
@[simp] theorem State.send_ckpt : (s.send f a).ckpt = s.ckpt := by obtain ⟨_, _, e⟩ := s.send_shape f a; rw [e]
@[simp] theorem State.send_blocks : (s.send f a).blocks = s.blocks := by obtain ⟨_, _, e⟩ := s.send_shape f a; rw [e]
@[simp] theorem State.send_power : (s.send f a).power = s.power := by obtain ⟨_, _, e⟩ := s.send_shape f a; rw [e]
@[simp] theorem State.send_windows : (s.send f a).windows = s.windows := by obtain ⟨_, _, e⟩ := s.send_shape f a; rw [e]
@[simp] theorem State.send_pending : (s.send f a).pending = s.pending := by obtain ⟨_, _, e⟩ := s.send_shape f a; rw [e]
end

theorem State.respond_shape (s : State) (h : Hdr) (op st : Byte) (l : List Byte) : ∃ (sw : Switch) (he : Health),
    s.respond h op st l = { s with switch := sw, health := he } := by
  exact State.send_shape (s.unmark h) _ none

section
variable (s : State) (h : Hdr) (op st : Byte) (l : List Byte)
@[simp] theorem State.respond_now : (s.respond h op st l).now = s.now := by obtain ⟨_, _, e⟩ := s.respond_shape h op st l; rw [e]
@[simp] theorem State.respond_coreCyc : (s.respond h op st l).coreCyc = s.coreCyc := by obtain ⟨_, _, e⟩ := s.respond_shape h op st l; rw [e]
@[simp] theorem State.respond_free : (s.respond h op st l).free = s.free := by obtain ⟨_, _, e⟩ := s.respond_shape h op st l; rw [e]
@[simp] theorem State.respond_withdrawn : (s.respond h op st l).withdrawn = s.withdrawn := by obtain ⟨_, _, e⟩ := s.respond_shape h op st l; rw [e]
@[simp] theorem State.respond_pins : (s.respond h op st l).pins = s.pins := by obtain ⟨_, _, e⟩ := s.respond_shape h op st l; rw [e]
@[simp] theorem State.respond_boot : (s.respond h op st l).boot = s.boot := by obtain ⟨_, _, e⟩ := s.respond_shape h op st l; rw [e]
@[simp] theorem State.respond_sec : (s.respond h op st l).sec = s.sec := by obtain ⟨_, _, e⟩ := s.respond_shape h op st l; rw [e]
@[simp] theorem State.respond_store : (s.respond h op st l).store = s.store := by obtain ⟨_, _, e⟩ := s.respond_shape h op st l; rw [e]
@[simp] theorem State.respond_reqs : (s.respond h op st l).reqs = s.reqs := by obtain ⟨_, _, e⟩ := s.respond_shape h op st l; rw [e]
@[simp] theorem State.respond_dir : (s.respond h op st l).dir = s.dir := by obtain ⟨_, _, e⟩ := s.respond_shape h op st l; rw [e]
@[simp] theorem State.respond_comps : (s.respond h op st l).comps = s.comps := by obtain ⟨_, _, e⟩ := s.respond_shape h op st l; rw [e]
@[simp] theorem State.respond_sky : (s.respond h op st l).sky = s.sky := by obtain ⟨_, _, e⟩ := s.respond_shape h op st l; rw [e]
@[simp] theorem State.respond_movers : (s.respond h op st l).movers = s.movers := by obtain ⟨_, _, e⟩ := s.respond_shape h op st l; rw [e]
@[simp] theorem State.respond_grid : (s.respond h op st l).grid = s.grid := by obtain ⟨_, _, e⟩ := s.respond_shape h op st l; rw [e]
@[simp] theorem State.respond_emb : (s.respond h op st l).emb = s.emb := by obtain ⟨_, _, e⟩ := s.respond_shape h op st l; rw [e]
@[simp] theorem State.respond_indexes : (s.respond h op st l).indexes = s.indexes := by obtain ⟨_, _, e⟩ := s.respond_shape h op st l; rw [e]
@[simp] theorem State.respond_ckpt : (s.respond h op st l).ckpt = s.ckpt := by obtain ⟨_, _, e⟩ := s.respond_shape h op st l; rw [e]
@[simp] theorem State.respond_blocks : (s.respond h op st l).blocks = s.blocks := by obtain ⟨_, _, e⟩ := s.respond_shape h op st l; rw [e]
@[simp] theorem State.respond_power : (s.respond h op st l).power = s.power := by obtain ⟨_, _, e⟩ := s.respond_shape h op st l; rw [e]
@[simp] theorem State.respond_windows : (s.respond h op st l).windows = s.windows := by obtain ⟨_, _, e⟩ := s.respond_shape h op st l; rw [e]
@[simp] theorem State.respond_pending : (s.respond h op st l).pending = s.pending := by obtain ⟨_, _, e⟩ := s.respond_shape h op st l; rw [e]
end

theorem State.respondAuth_shape (s : State) (h : Hdr) (op st : Byte) (l : List Byte) : ∃ (sw : Switch) (he : Health) (se : Security),
    s.respondAuth h op st l = { s with switch := sw, health := he, sec := se } := by
  obtain ⟨sw, he, e⟩ := State.send_shape ((s.nextCounter).2.unmark h) ((s.nextCounter).2.sealed
    { opcode := op, resp := true, ece := (s.nextCounter).2.echoes h, dst := h.src, src := h.dst, cid := h.cid, gen := h.gen,
      status := st, tag := h.tag, pcp := h.pcp, payload := l } s.nextCounter.1) none
  exact ⟨sw, he, _, e⟩

section
variable (s : State) (h : Hdr) (op st : Byte) (l : List Byte)
@[simp] theorem State.respondAuth_now : (s.respondAuth h op st l).now = s.now := by obtain ⟨_, _, _, e⟩ := s.respondAuth_shape h op st l; rw [e]
@[simp] theorem State.respondAuth_coreCyc : (s.respondAuth h op st l).coreCyc = s.coreCyc := by obtain ⟨_, _, _, e⟩ := s.respondAuth_shape h op st l; rw [e]
@[simp] theorem State.respondAuth_free : (s.respondAuth h op st l).free = s.free := by obtain ⟨_, _, _, e⟩ := s.respondAuth_shape h op st l; rw [e]
@[simp] theorem State.respondAuth_withdrawn : (s.respondAuth h op st l).withdrawn = s.withdrawn := by obtain ⟨_, _, _, e⟩ := s.respondAuth_shape h op st l; rw [e]
@[simp] theorem State.respondAuth_pins : (s.respondAuth h op st l).pins = s.pins := by obtain ⟨_, _, _, e⟩ := s.respondAuth_shape h op st l; rw [e]
@[simp] theorem State.respondAuth_boot : (s.respondAuth h op st l).boot = s.boot := by obtain ⟨_, _, _, e⟩ := s.respondAuth_shape h op st l; rw [e]
@[simp] theorem State.respondAuth_store : (s.respondAuth h op st l).store = s.store := by obtain ⟨_, _, _, e⟩ := s.respondAuth_shape h op st l; rw [e]
@[simp] theorem State.respondAuth_reqs : (s.respondAuth h op st l).reqs = s.reqs := by obtain ⟨_, _, _, e⟩ := s.respondAuth_shape h op st l; rw [e]
@[simp] theorem State.respondAuth_dir : (s.respondAuth h op st l).dir = s.dir := by obtain ⟨_, _, _, e⟩ := s.respondAuth_shape h op st l; rw [e]
@[simp] theorem State.respondAuth_comps : (s.respondAuth h op st l).comps = s.comps := by obtain ⟨_, _, _, e⟩ := s.respondAuth_shape h op st l; rw [e]
@[simp] theorem State.respondAuth_sky : (s.respondAuth h op st l).sky = s.sky := by obtain ⟨_, _, _, e⟩ := s.respondAuth_shape h op st l; rw [e]
@[simp] theorem State.respondAuth_movers : (s.respondAuth h op st l).movers = s.movers := by obtain ⟨_, _, _, e⟩ := s.respondAuth_shape h op st l; rw [e]
@[simp] theorem State.respondAuth_grid : (s.respondAuth h op st l).grid = s.grid := by obtain ⟨_, _, _, e⟩ := s.respondAuth_shape h op st l; rw [e]
@[simp] theorem State.respondAuth_emb : (s.respondAuth h op st l).emb = s.emb := by obtain ⟨_, _, _, e⟩ := s.respondAuth_shape h op st l; rw [e]
@[simp] theorem State.respondAuth_indexes : (s.respondAuth h op st l).indexes = s.indexes := by obtain ⟨_, _, _, e⟩ := s.respondAuth_shape h op st l; rw [e]
@[simp] theorem State.respondAuth_ckpt : (s.respondAuth h op st l).ckpt = s.ckpt := by obtain ⟨_, _, _, e⟩ := s.respondAuth_shape h op st l; rw [e]
@[simp] theorem State.respondAuth_blocks : (s.respondAuth h op st l).blocks = s.blocks := by obtain ⟨_, _, _, e⟩ := s.respondAuth_shape h op st l; rw [e]
@[simp] theorem State.respondAuth_power : (s.respondAuth h op st l).power = s.power := by obtain ⟨_, _, _, e⟩ := s.respondAuth_shape h op st l; rw [e]
@[simp] theorem State.respondAuth_windows : (s.respondAuth h op st l).windows = s.windows := by obtain ⟨_, _, _, e⟩ := s.respondAuth_shape h op st l; rw [e]
@[simp] theorem State.respondAuth_pending : (s.respondAuth h op st l).pending = s.pending := by obtain ⟨_, _, _, e⟩ := s.respondAuth_shape h op st l; rw [e]
end

/-- A fold whose steps only send changes only what sends change. -/
theorem foldl_sends {α : Type} (g : State → α → State)
    (hg : ∀ v m, ∃ (sw : Switch) (he : Health) (se : Security), g v m = { v with switch := sw, health := he, sec := se }) :
    ∀ (l : List α) (u : State), ∃ (sw : Switch) (he : Health) (se : Security),
      l.foldl g u = { u with switch := sw, health := he, sec := se }
  | [], u => ⟨u.switch, u.health, u.sec, rfl⟩
  | m :: l, u => by
    obtain ⟨sw, he, se, e⟩ := hg u m
    obtain ⟨sw', he', se', e'⟩ := foldl_sends g hg l (g u m)
    rw [List.foldl_cons, e', e]
    exact ⟨sw', he', se', rfl⟩

theorem State.notice_shape (s : State) (code : Nat) (body : List Byte) (cid : Cid) : ∃ (sw : Switch) (he : Health) (se : Security) (nq : W32),
    s.notice code body cid = { s with switch := sw, health := he, sec := se, comps := { s.comps with noticeSeq := nq } } := by
  obtain ⟨sw, he, se, e⟩ := foldl_sends (fun (v : State) (m : ManagerCfg) =>
    if v.boot.installed.contains m.aid then
      (v.nextCounter).2.send ((v.nextCounter).2.sealed { opcode := 0x73, notice := true, dst := m.aid, src := (v.nextCounter).2.aid, cid := cid, gen := (v.nextCounter).2.genOf cid, pcp := (v.nextCounter).2.pcpControl, payload := beBytes 2 code ++ zeros 2 ++ beBytes 4 (s.comps.noticeSeq + 1).toNat ++ body56 body } (v.nextCounter).1)
    else v) (by
      intro v m
      split
      · obtain ⟨sw, he, e⟩ := State.send_shape (v.nextCounter).2 ((v.nextCounter).2.sealed { opcode := 0x73, notice := true, dst := m.aid, src := (v.nextCounter).2.aid, cid := cid, gen := (v.nextCounter).2.genOf cid, pcp := (v.nextCounter).2.pcpControl, payload := beBytes 2 code ++ zeros 2 ++ beBytes 4 (s.comps.noticeSeq + 1).toNat ++ body56 body } (v.nextCounter).1) none
        exact ⟨sw, he, _, e⟩
      · exact ⟨v.switch, v.health, v.sec, rfl⟩) s.boot.cfg.managers
    { s with comps := { s.comps with noticeSeq := s.comps.noticeSeq + 1 } }
  exact ⟨sw, he, se, _, e⟩

section
variable (s : State) (code : Nat) (body : List Byte) (cid : Cid)
@[simp] theorem State.notice_now : (s.notice code body cid).now = s.now := by obtain ⟨_, _, _, _, e⟩ := s.notice_shape code body cid; rw [e]
@[simp] theorem State.notice_coreCyc : (s.notice code body cid).coreCyc = s.coreCyc := by obtain ⟨_, _, _, _, e⟩ := s.notice_shape code body cid; rw [e]
@[simp] theorem State.notice_free : (s.notice code body cid).free = s.free := by obtain ⟨_, _, _, _, e⟩ := s.notice_shape code body cid; rw [e]
@[simp] theorem State.notice_withdrawn : (s.notice code body cid).withdrawn = s.withdrawn := by obtain ⟨_, _, _, _, e⟩ := s.notice_shape code body cid; rw [e]
@[simp] theorem State.notice_pins : (s.notice code body cid).pins = s.pins := by obtain ⟨_, _, _, _, e⟩ := s.notice_shape code body cid; rw [e]
@[simp] theorem State.notice_boot : (s.notice code body cid).boot = s.boot := by obtain ⟨_, _, _, _, e⟩ := s.notice_shape code body cid; rw [e]
@[simp] theorem State.notice_store : (s.notice code body cid).store = s.store := by obtain ⟨_, _, _, _, e⟩ := s.notice_shape code body cid; rw [e]
@[simp] theorem State.notice_reqs : (s.notice code body cid).reqs = s.reqs := by obtain ⟨_, _, _, _, e⟩ := s.notice_shape code body cid; rw [e]
@[simp] theorem State.notice_dir : (s.notice code body cid).dir = s.dir := by obtain ⟨_, _, _, _, e⟩ := s.notice_shape code body cid; rw [e]
@[simp] theorem State.notice_sky : (s.notice code body cid).sky = s.sky := by obtain ⟨_, _, _, _, e⟩ := s.notice_shape code body cid; rw [e]
@[simp] theorem State.notice_movers : (s.notice code body cid).movers = s.movers := by obtain ⟨_, _, _, _, e⟩ := s.notice_shape code body cid; rw [e]
@[simp] theorem State.notice_grid : (s.notice code body cid).grid = s.grid := by obtain ⟨_, _, _, _, e⟩ := s.notice_shape code body cid; rw [e]
@[simp] theorem State.notice_emb : (s.notice code body cid).emb = s.emb := by obtain ⟨_, _, _, _, e⟩ := s.notice_shape code body cid; rw [e]
@[simp] theorem State.notice_indexes : (s.notice code body cid).indexes = s.indexes := by obtain ⟨_, _, _, _, e⟩ := s.notice_shape code body cid; rw [e]
@[simp] theorem State.notice_ckpt : (s.notice code body cid).ckpt = s.ckpt := by obtain ⟨_, _, _, _, e⟩ := s.notice_shape code body cid; rw [e]
@[simp] theorem State.notice_blocks : (s.notice code body cid).blocks = s.blocks := by obtain ⟨_, _, _, _, e⟩ := s.notice_shape code body cid; rw [e]
@[simp] theorem State.notice_power : (s.notice code body cid).power = s.power := by obtain ⟨_, _, _, _, e⟩ := s.notice_shape code body cid; rw [e]
@[simp] theorem State.notice_windows : (s.notice code body cid).windows = s.windows := by obtain ⟨_, _, _, _, e⟩ := s.notice_shape code body cid; rw [e]
@[simp] theorem State.notice_pending : (s.notice code body cid).pending = s.pending := by obtain ⟨_, _, _, _, e⟩ := s.notice_shape code body cid; rw [e]
@[simp] theorem State.notice_comps_entries : (s.notice code body cid).comps.entries = s.comps.entries := by obtain ⟨_, _, _, _, e⟩ := s.notice_shape code body cid; rw [e]
@[simp] theorem State.notice_comps_kept : (s.notice code body cid).comps.kept = s.comps.kept := by obtain ⟨_, _, _, _, e⟩ := s.notice_shape code body cid; rw [e]
@[simp] theorem State.notice_comps_groups : (s.notice code body cid).comps.groups = s.comps.groups := by obtain ⟨_, _, _, _, e⟩ := s.notice_shape code body cid; rw [e]
@[simp] theorem State.notice_comps_adopted : (s.notice code body cid).comps.adopted = s.comps.adopted := by obtain ⟨_, _, _, _, e⟩ := s.notice_shape code body cid; rw [e]
@[simp] theorem State.notice_comps_expelled : (s.notice code body cid).comps.expelled = s.comps.expelled := by obtain ⟨_, _, _, _, e⟩ := s.notice_shape code body cid; rw [e]
@[simp] theorem State.notice_comps_selfExpelled : (s.notice code body cid).comps.selfExpelled = s.comps.selfExpelled := by obtain ⟨_, _, _, _, e⟩ := s.notice_shape code body cid; rw [e]
@[simp] theorem State.notice_comps_tallies : (s.notice code body cid).comps.tallies = s.comps.tallies := by obtain ⟨_, _, _, _, e⟩ := s.notice_shape code body cid; rw [e]
@[simp] theorem State.notice_comps_resetAt : (s.notice code body cid).comps.resetAt = s.comps.resetAt := by obtain ⟨_, _, _, _, e⟩ := s.notice_shape code body cid; rw [e]
@[simp] theorem State.notice_comps_results : (s.notice code body cid).comps.results = s.comps.results := by obtain ⟨_, _, _, _, e⟩ := s.notice_shape code body cid; rw [e]
@[simp] theorem State.notice_comps_journalUsed : (s.notice code body cid).comps.journalUsed = s.comps.journalUsed := by obtain ⟨_, _, _, _, e⟩ := s.notice_shape code body cid; rw [e]
end

theorem State.settleAlert_shape (s : State) : ∃ (pi : Pins),
    s.settleAlert = { s with pins := pi } := by
  exact ⟨_, rfl⟩

section
variable (s : State)
@[simp] theorem State.settleAlert_now : (s.settleAlert).now = s.now := by obtain ⟨_, e⟩ := s.settleAlert_shape; rw [e]
@[simp] theorem State.settleAlert_coreCyc : (s.settleAlert).coreCyc = s.coreCyc := by obtain ⟨_, e⟩ := s.settleAlert_shape; rw [e]
@[simp] theorem State.settleAlert_free : (s.settleAlert).free = s.free := by obtain ⟨_, e⟩ := s.settleAlert_shape; rw [e]
@[simp] theorem State.settleAlert_withdrawn : (s.settleAlert).withdrawn = s.withdrawn := by obtain ⟨_, e⟩ := s.settleAlert_shape; rw [e]
@[simp] theorem State.settleAlert_boot : (s.settleAlert).boot = s.boot := by obtain ⟨_, e⟩ := s.settleAlert_shape; rw [e]
@[simp] theorem State.settleAlert_sec : (s.settleAlert).sec = s.sec := by obtain ⟨_, e⟩ := s.settleAlert_shape; rw [e]
@[simp] theorem State.settleAlert_switch : (s.settleAlert).switch = s.switch := by obtain ⟨_, e⟩ := s.settleAlert_shape; rw [e]
@[simp] theorem State.settleAlert_store : (s.settleAlert).store = s.store := by obtain ⟨_, e⟩ := s.settleAlert_shape; rw [e]
@[simp] theorem State.settleAlert_reqs : (s.settleAlert).reqs = s.reqs := by obtain ⟨_, e⟩ := s.settleAlert_shape; rw [e]
@[simp] theorem State.settleAlert_dir : (s.settleAlert).dir = s.dir := by obtain ⟨_, e⟩ := s.settleAlert_shape; rw [e]
@[simp] theorem State.settleAlert_comps : (s.settleAlert).comps = s.comps := by obtain ⟨_, e⟩ := s.settleAlert_shape; rw [e]
@[simp] theorem State.settleAlert_sky : (s.settleAlert).sky = s.sky := by obtain ⟨_, e⟩ := s.settleAlert_shape; rw [e]
@[simp] theorem State.settleAlert_movers : (s.settleAlert).movers = s.movers := by obtain ⟨_, e⟩ := s.settleAlert_shape; rw [e]
@[simp] theorem State.settleAlert_grid : (s.settleAlert).grid = s.grid := by obtain ⟨_, e⟩ := s.settleAlert_shape; rw [e]
@[simp] theorem State.settleAlert_emb : (s.settleAlert).emb = s.emb := by obtain ⟨_, e⟩ := s.settleAlert_shape; rw [e]
@[simp] theorem State.settleAlert_indexes : (s.settleAlert).indexes = s.indexes := by obtain ⟨_, e⟩ := s.settleAlert_shape; rw [e]
@[simp] theorem State.settleAlert_ckpt : (s.settleAlert).ckpt = s.ckpt := by obtain ⟨_, e⟩ := s.settleAlert_shape; rw [e]
@[simp] theorem State.settleAlert_health : (s.settleAlert).health = s.health := by obtain ⟨_, e⟩ := s.settleAlert_shape; rw [e]
@[simp] theorem State.settleAlert_blocks : (s.settleAlert).blocks = s.blocks := by obtain ⟨_, e⟩ := s.settleAlert_shape; rw [e]
@[simp] theorem State.settleAlert_power : (s.settleAlert).power = s.power := by obtain ⟨_, e⟩ := s.settleAlert_shape; rw [e]
@[simp] theorem State.settleAlert_windows : (s.settleAlert).windows = s.windows := by obtain ⟨_, e⟩ := s.settleAlert_shape; rw [e]
@[simp] theorem State.settleAlert_pending : (s.settleAlert).pending = s.pending := by obtain ⟨_, e⟩ := s.settleAlert_shape; rw [e]
end

theorem State.latchAlert_shape (s : State) (cls unit ctr : Nat) : ∃ (pi : Pins) (he : Health),
    s.latchAlert cls unit ctr = { s with pins := pi, health := he } := by
  unfold State.latchAlert
  split
  · exact ⟨s.pins, s.health, rfl⟩
  · exact ⟨_, _, rfl⟩

section
variable (s : State) (cls unit ctr : Nat)
@[simp] theorem State.latchAlert_now : (s.latchAlert cls unit ctr).now = s.now := by obtain ⟨_, _, e⟩ := s.latchAlert_shape cls unit ctr; rw [e]
@[simp] theorem State.latchAlert_coreCyc : (s.latchAlert cls unit ctr).coreCyc = s.coreCyc := by obtain ⟨_, _, e⟩ := s.latchAlert_shape cls unit ctr; rw [e]
@[simp] theorem State.latchAlert_free : (s.latchAlert cls unit ctr).free = s.free := by obtain ⟨_, _, e⟩ := s.latchAlert_shape cls unit ctr; rw [e]
@[simp] theorem State.latchAlert_withdrawn : (s.latchAlert cls unit ctr).withdrawn = s.withdrawn := by obtain ⟨_, _, e⟩ := s.latchAlert_shape cls unit ctr; rw [e]
@[simp] theorem State.latchAlert_boot : (s.latchAlert cls unit ctr).boot = s.boot := by obtain ⟨_, _, e⟩ := s.latchAlert_shape cls unit ctr; rw [e]
@[simp] theorem State.latchAlert_sec : (s.latchAlert cls unit ctr).sec = s.sec := by obtain ⟨_, _, e⟩ := s.latchAlert_shape cls unit ctr; rw [e]
@[simp] theorem State.latchAlert_switch : (s.latchAlert cls unit ctr).switch = s.switch := by obtain ⟨_, _, e⟩ := s.latchAlert_shape cls unit ctr; rw [e]
@[simp] theorem State.latchAlert_store : (s.latchAlert cls unit ctr).store = s.store := by obtain ⟨_, _, e⟩ := s.latchAlert_shape cls unit ctr; rw [e]
@[simp] theorem State.latchAlert_reqs : (s.latchAlert cls unit ctr).reqs = s.reqs := by obtain ⟨_, _, e⟩ := s.latchAlert_shape cls unit ctr; rw [e]
@[simp] theorem State.latchAlert_dir : (s.latchAlert cls unit ctr).dir = s.dir := by obtain ⟨_, _, e⟩ := s.latchAlert_shape cls unit ctr; rw [e]
@[simp] theorem State.latchAlert_comps : (s.latchAlert cls unit ctr).comps = s.comps := by obtain ⟨_, _, e⟩ := s.latchAlert_shape cls unit ctr; rw [e]
@[simp] theorem State.latchAlert_sky : (s.latchAlert cls unit ctr).sky = s.sky := by obtain ⟨_, _, e⟩ := s.latchAlert_shape cls unit ctr; rw [e]
@[simp] theorem State.latchAlert_movers : (s.latchAlert cls unit ctr).movers = s.movers := by obtain ⟨_, _, e⟩ := s.latchAlert_shape cls unit ctr; rw [e]
@[simp] theorem State.latchAlert_grid : (s.latchAlert cls unit ctr).grid = s.grid := by obtain ⟨_, _, e⟩ := s.latchAlert_shape cls unit ctr; rw [e]
@[simp] theorem State.latchAlert_emb : (s.latchAlert cls unit ctr).emb = s.emb := by obtain ⟨_, _, e⟩ := s.latchAlert_shape cls unit ctr; rw [e]
@[simp] theorem State.latchAlert_indexes : (s.latchAlert cls unit ctr).indexes = s.indexes := by obtain ⟨_, _, e⟩ := s.latchAlert_shape cls unit ctr; rw [e]
@[simp] theorem State.latchAlert_ckpt : (s.latchAlert cls unit ctr).ckpt = s.ckpt := by obtain ⟨_, _, e⟩ := s.latchAlert_shape cls unit ctr; rw [e]
@[simp] theorem State.latchAlert_blocks : (s.latchAlert cls unit ctr).blocks = s.blocks := by obtain ⟨_, _, e⟩ := s.latchAlert_shape cls unit ctr; rw [e]
@[simp] theorem State.latchAlert_power : (s.latchAlert cls unit ctr).power = s.power := by obtain ⟨_, _, e⟩ := s.latchAlert_shape cls unit ctr; rw [e]
@[simp] theorem State.latchAlert_windows : (s.latchAlert cls unit ctr).windows = s.windows := by obtain ⟨_, _, e⟩ := s.latchAlert_shape cls unit ctr; rw [e]
@[simp] theorem State.latchAlert_pending : (s.latchAlert cls unit ctr).pending = s.pending := by obtain ⟨_, _, e⟩ := s.latchAlert_shape cls unit ctr; rw [e]
end

theorem State.alertNow_shape (s : State) (cls unit ctr : Nat) : ∃ (pi : Pins) (sw : Switch) (he : Health) (se : Security) (nq : W32),
    s.alertNow cls unit ctr = { s with pins := pi, switch := sw, health := he, sec := se, comps := { s.comps with noticeSeq := nq } } := by
  unfold State.alertNow
  dsimp only
  obtain ⟨p, he, e⟩ := s.latchAlert_shape cls unit ctr
  split
  · exact ⟨p, s.switch, he, s.sec, s.comps.noticeSeq, e⟩
  · obtain ⟨sw, he', se, nq, e'⟩ := State.notice_shape
      { s.latchAlert cls unit ctr with health := { (s.latchAlert cls unit ctr).health with
          noticed := (s.latchAlert cls unit ctr).health.noticed ++ [(cls, unit)] } } 0x0004
      ((s.latchAlert cls unit ctr).alertBody cls unit ctr 2) 0
    refine ⟨p, sw, he', se, nq, ?_⟩
    simp only [e'] 
    rw [e]

section
variable (s : State) (cls unit ctr : Nat)
@[simp] theorem State.alertNow_now : (s.alertNow cls unit ctr).now = s.now := by obtain ⟨_, _, _, _, _, e⟩ := s.alertNow_shape cls unit ctr; rw [e]
@[simp] theorem State.alertNow_coreCyc : (s.alertNow cls unit ctr).coreCyc = s.coreCyc := by obtain ⟨_, _, _, _, _, e⟩ := s.alertNow_shape cls unit ctr; rw [e]
@[simp] theorem State.alertNow_free : (s.alertNow cls unit ctr).free = s.free := by obtain ⟨_, _, _, _, _, e⟩ := s.alertNow_shape cls unit ctr; rw [e]
@[simp] theorem State.alertNow_withdrawn : (s.alertNow cls unit ctr).withdrawn = s.withdrawn := by obtain ⟨_, _, _, _, _, e⟩ := s.alertNow_shape cls unit ctr; rw [e]
@[simp] theorem State.alertNow_boot : (s.alertNow cls unit ctr).boot = s.boot := by obtain ⟨_, _, _, _, _, e⟩ := s.alertNow_shape cls unit ctr; rw [e]
@[simp] theorem State.alertNow_store : (s.alertNow cls unit ctr).store = s.store := by obtain ⟨_, _, _, _, _, e⟩ := s.alertNow_shape cls unit ctr; rw [e]
@[simp] theorem State.alertNow_reqs : (s.alertNow cls unit ctr).reqs = s.reqs := by obtain ⟨_, _, _, _, _, e⟩ := s.alertNow_shape cls unit ctr; rw [e]
@[simp] theorem State.alertNow_dir : (s.alertNow cls unit ctr).dir = s.dir := by obtain ⟨_, _, _, _, _, e⟩ := s.alertNow_shape cls unit ctr; rw [e]
@[simp] theorem State.alertNow_sky : (s.alertNow cls unit ctr).sky = s.sky := by obtain ⟨_, _, _, _, _, e⟩ := s.alertNow_shape cls unit ctr; rw [e]
@[simp] theorem State.alertNow_movers : (s.alertNow cls unit ctr).movers = s.movers := by obtain ⟨_, _, _, _, _, e⟩ := s.alertNow_shape cls unit ctr; rw [e]
@[simp] theorem State.alertNow_grid : (s.alertNow cls unit ctr).grid = s.grid := by obtain ⟨_, _, _, _, _, e⟩ := s.alertNow_shape cls unit ctr; rw [e]
@[simp] theorem State.alertNow_emb : (s.alertNow cls unit ctr).emb = s.emb := by obtain ⟨_, _, _, _, _, e⟩ := s.alertNow_shape cls unit ctr; rw [e]
@[simp] theorem State.alertNow_indexes : (s.alertNow cls unit ctr).indexes = s.indexes := by obtain ⟨_, _, _, _, _, e⟩ := s.alertNow_shape cls unit ctr; rw [e]
@[simp] theorem State.alertNow_ckpt : (s.alertNow cls unit ctr).ckpt = s.ckpt := by obtain ⟨_, _, _, _, _, e⟩ := s.alertNow_shape cls unit ctr; rw [e]
@[simp] theorem State.alertNow_blocks : (s.alertNow cls unit ctr).blocks = s.blocks := by obtain ⟨_, _, _, _, _, e⟩ := s.alertNow_shape cls unit ctr; rw [e]
@[simp] theorem State.alertNow_power : (s.alertNow cls unit ctr).power = s.power := by obtain ⟨_, _, _, _, _, e⟩ := s.alertNow_shape cls unit ctr; rw [e]
@[simp] theorem State.alertNow_windows : (s.alertNow cls unit ctr).windows = s.windows := by obtain ⟨_, _, _, _, _, e⟩ := s.alertNow_shape cls unit ctr; rw [e]
@[simp] theorem State.alertNow_pending : (s.alertNow cls unit ctr).pending = s.pending := by obtain ⟨_, _, _, _, _, e⟩ := s.alertNow_shape cls unit ctr; rw [e]
@[simp] theorem State.alertNow_comps_entries : (s.alertNow cls unit ctr).comps.entries = s.comps.entries := by obtain ⟨_, _, _, _, _, e⟩ := s.alertNow_shape cls unit ctr; rw [e]
@[simp] theorem State.alertNow_comps_kept : (s.alertNow cls unit ctr).comps.kept = s.comps.kept := by obtain ⟨_, _, _, _, _, e⟩ := s.alertNow_shape cls unit ctr; rw [e]
@[simp] theorem State.alertNow_comps_groups : (s.alertNow cls unit ctr).comps.groups = s.comps.groups := by obtain ⟨_, _, _, _, _, e⟩ := s.alertNow_shape cls unit ctr; rw [e]
@[simp] theorem State.alertNow_comps_adopted : (s.alertNow cls unit ctr).comps.adopted = s.comps.adopted := by obtain ⟨_, _, _, _, _, e⟩ := s.alertNow_shape cls unit ctr; rw [e]
@[simp] theorem State.alertNow_comps_expelled : (s.alertNow cls unit ctr).comps.expelled = s.comps.expelled := by obtain ⟨_, _, _, _, _, e⟩ := s.alertNow_shape cls unit ctr; rw [e]
@[simp] theorem State.alertNow_comps_selfExpelled : (s.alertNow cls unit ctr).comps.selfExpelled = s.comps.selfExpelled := by obtain ⟨_, _, _, _, _, e⟩ := s.alertNow_shape cls unit ctr; rw [e]
@[simp] theorem State.alertNow_comps_tallies : (s.alertNow cls unit ctr).comps.tallies = s.comps.tallies := by obtain ⟨_, _, _, _, _, e⟩ := s.alertNow_shape cls unit ctr; rw [e]
@[simp] theorem State.alertNow_comps_resetAt : (s.alertNow cls unit ctr).comps.resetAt = s.comps.resetAt := by obtain ⟨_, _, _, _, _, e⟩ := s.alertNow_shape cls unit ctr; rw [e]
@[simp] theorem State.alertNow_comps_results : (s.alertNow cls unit ctr).comps.results = s.comps.results := by obtain ⟨_, _, _, _, _, e⟩ := s.alertNow_shape cls unit ctr; rw [e]
@[simp] theorem State.alertNow_comps_journalUsed : (s.alertNow cls unit ctr).comps.journalUsed = s.comps.journalUsed := by obtain ⟨_, _, _, _, _, e⟩ := s.alertNow_shape cls unit ctr; rw [e]
end

theorem State.bumpAlert_shape (s : State) (cls unit ctr : Nat) : ∃ (pi : Pins) (sw : Switch) (he : Health) (se : Security) (nq : W32),
    s.bumpAlert cls unit ctr = { s with pins := pi, switch := sw, health := he, sec := se, comps := { s.comps with noticeSeq := nq } } := by
  obtain ⟨p, sw, he, se, nq, e⟩ := (s.bump cls unit ctr).alertNow_shape cls unit ctr
  exact ⟨p, sw, he, se, nq, e⟩

section
variable (s : State) (cls unit ctr : Nat)
@[simp] theorem State.bumpAlert_now : (s.bumpAlert cls unit ctr).now = s.now := by obtain ⟨_, _, _, _, _, e⟩ := s.bumpAlert_shape cls unit ctr; rw [e]
@[simp] theorem State.bumpAlert_coreCyc : (s.bumpAlert cls unit ctr).coreCyc = s.coreCyc := by obtain ⟨_, _, _, _, _, e⟩ := s.bumpAlert_shape cls unit ctr; rw [e]
@[simp] theorem State.bumpAlert_free : (s.bumpAlert cls unit ctr).free = s.free := by obtain ⟨_, _, _, _, _, e⟩ := s.bumpAlert_shape cls unit ctr; rw [e]
@[simp] theorem State.bumpAlert_withdrawn : (s.bumpAlert cls unit ctr).withdrawn = s.withdrawn := by obtain ⟨_, _, _, _, _, e⟩ := s.bumpAlert_shape cls unit ctr; rw [e]
@[simp] theorem State.bumpAlert_boot : (s.bumpAlert cls unit ctr).boot = s.boot := by obtain ⟨_, _, _, _, _, e⟩ := s.bumpAlert_shape cls unit ctr; rw [e]
@[simp] theorem State.bumpAlert_store : (s.bumpAlert cls unit ctr).store = s.store := by obtain ⟨_, _, _, _, _, e⟩ := s.bumpAlert_shape cls unit ctr; rw [e]
@[simp] theorem State.bumpAlert_reqs : (s.bumpAlert cls unit ctr).reqs = s.reqs := by obtain ⟨_, _, _, _, _, e⟩ := s.bumpAlert_shape cls unit ctr; rw [e]
@[simp] theorem State.bumpAlert_dir : (s.bumpAlert cls unit ctr).dir = s.dir := by obtain ⟨_, _, _, _, _, e⟩ := s.bumpAlert_shape cls unit ctr; rw [e]
@[simp] theorem State.bumpAlert_sky : (s.bumpAlert cls unit ctr).sky = s.sky := by obtain ⟨_, _, _, _, _, e⟩ := s.bumpAlert_shape cls unit ctr; rw [e]
@[simp] theorem State.bumpAlert_movers : (s.bumpAlert cls unit ctr).movers = s.movers := by obtain ⟨_, _, _, _, _, e⟩ := s.bumpAlert_shape cls unit ctr; rw [e]
@[simp] theorem State.bumpAlert_grid : (s.bumpAlert cls unit ctr).grid = s.grid := by obtain ⟨_, _, _, _, _, e⟩ := s.bumpAlert_shape cls unit ctr; rw [e]
@[simp] theorem State.bumpAlert_emb : (s.bumpAlert cls unit ctr).emb = s.emb := by obtain ⟨_, _, _, _, _, e⟩ := s.bumpAlert_shape cls unit ctr; rw [e]
@[simp] theorem State.bumpAlert_indexes : (s.bumpAlert cls unit ctr).indexes = s.indexes := by obtain ⟨_, _, _, _, _, e⟩ := s.bumpAlert_shape cls unit ctr; rw [e]
@[simp] theorem State.bumpAlert_ckpt : (s.bumpAlert cls unit ctr).ckpt = s.ckpt := by obtain ⟨_, _, _, _, _, e⟩ := s.bumpAlert_shape cls unit ctr; rw [e]
@[simp] theorem State.bumpAlert_blocks : (s.bumpAlert cls unit ctr).blocks = s.blocks := by obtain ⟨_, _, _, _, _, e⟩ := s.bumpAlert_shape cls unit ctr; rw [e]
@[simp] theorem State.bumpAlert_power : (s.bumpAlert cls unit ctr).power = s.power := by obtain ⟨_, _, _, _, _, e⟩ := s.bumpAlert_shape cls unit ctr; rw [e]
@[simp] theorem State.bumpAlert_windows : (s.bumpAlert cls unit ctr).windows = s.windows := by obtain ⟨_, _, _, _, _, e⟩ := s.bumpAlert_shape cls unit ctr; rw [e]
@[simp] theorem State.bumpAlert_pending : (s.bumpAlert cls unit ctr).pending = s.pending := by obtain ⟨_, _, _, _, _, e⟩ := s.bumpAlert_shape cls unit ctr; rw [e]
@[simp] theorem State.bumpAlert_comps_entries : (s.bumpAlert cls unit ctr).comps.entries = s.comps.entries := by obtain ⟨_, _, _, _, _, e⟩ := s.bumpAlert_shape cls unit ctr; rw [e]
@[simp] theorem State.bumpAlert_comps_kept : (s.bumpAlert cls unit ctr).comps.kept = s.comps.kept := by obtain ⟨_, _, _, _, _, e⟩ := s.bumpAlert_shape cls unit ctr; rw [e]
@[simp] theorem State.bumpAlert_comps_groups : (s.bumpAlert cls unit ctr).comps.groups = s.comps.groups := by obtain ⟨_, _, _, _, _, e⟩ := s.bumpAlert_shape cls unit ctr; rw [e]
@[simp] theorem State.bumpAlert_comps_adopted : (s.bumpAlert cls unit ctr).comps.adopted = s.comps.adopted := by obtain ⟨_, _, _, _, _, e⟩ := s.bumpAlert_shape cls unit ctr; rw [e]
@[simp] theorem State.bumpAlert_comps_expelled : (s.bumpAlert cls unit ctr).comps.expelled = s.comps.expelled := by obtain ⟨_, _, _, _, _, e⟩ := s.bumpAlert_shape cls unit ctr; rw [e]
@[simp] theorem State.bumpAlert_comps_selfExpelled : (s.bumpAlert cls unit ctr).comps.selfExpelled = s.comps.selfExpelled := by obtain ⟨_, _, _, _, _, e⟩ := s.bumpAlert_shape cls unit ctr; rw [e]
@[simp] theorem State.bumpAlert_comps_tallies : (s.bumpAlert cls unit ctr).comps.tallies = s.comps.tallies := by obtain ⟨_, _, _, _, _, e⟩ := s.bumpAlert_shape cls unit ctr; rw [e]
@[simp] theorem State.bumpAlert_comps_resetAt : (s.bumpAlert cls unit ctr).comps.resetAt = s.comps.resetAt := by obtain ⟨_, _, _, _, _, e⟩ := s.bumpAlert_shape cls unit ctr; rw [e]
@[simp] theorem State.bumpAlert_comps_results : (s.bumpAlert cls unit ctr).comps.results = s.comps.results := by obtain ⟨_, _, _, _, _, e⟩ := s.bumpAlert_shape cls unit ctr; rw [e]
@[simp] theorem State.bumpAlert_comps_journalUsed : (s.bumpAlert cls unit ctr).comps.journalUsed = s.comps.journalUsed := by obtain ⟨_, _, _, _, _, e⟩ := s.bumpAlert_shape cls unit ctr; rw [e]
end

theorem State.finishOrder_shape (s : State) (o : OrderRef) (st : Byte) (l : List Byte) : ∃ (sw : Switch) (he : Health) (se : Security) (rs : List KeptResult),
    s.finishOrder o st l = { s with switch := sw, health := he, sec := se, comps := { s.comps with results := rs } } := by
  unfold State.finishOrder
  dsimp only
  obtain ⟨sw, he, se, e⟩ := foldl_sends (fun (s : State) (h : Hdr) => s.respondAuth h 0x72 st (orderPayload o.orderId l))
    (fun v h => v.respondAuth_shape h 0x72 st (orderPayload o.orderId l) |>.imp fun _ h => h)
    ((s.comps.results.filter fun r =>
      decide (r.manager = o.h.src) && decide (r.orderId = o.orderId) && !r.complete).flatMap (·.waiting))
    ((s.setResults (s.comps.results.map fun r =>
      if (decide (r.manager = o.h.src) && decide (r.orderId = o.orderId) && !r.complete) = true then
        { r with status := st, result := body56 l, complete := true, waiting := [] } else r)).respondAuth o.h 0x72 st
      (orderPayload o.orderId l))
  rw [e]
  obtain ⟨sw', he', se', e'⟩ := State.respondAuth_shape (s.setResults (s.comps.results.map fun r =>
      if (decide (r.manager = o.h.src) && decide (r.orderId = o.orderId) && !r.complete) = true then
        { r with status := st, result := body56 l, complete := true, waiting := [] } else r)) o.h 0x72 st
      (orderPayload o.orderId l)
  rw [e']
  exact ⟨sw, he, se, _, rfl⟩

section
variable (s : State) (o : OrderRef) (st : Byte) (l : List Byte)
@[simp] theorem State.finishOrder_now : (s.finishOrder o st l).now = s.now := by obtain ⟨_, _, _, _, e⟩ := s.finishOrder_shape o st l; rw [e]
@[simp] theorem State.finishOrder_coreCyc : (s.finishOrder o st l).coreCyc = s.coreCyc := by obtain ⟨_, _, _, _, e⟩ := s.finishOrder_shape o st l; rw [e]
@[simp] theorem State.finishOrder_free : (s.finishOrder o st l).free = s.free := by obtain ⟨_, _, _, _, e⟩ := s.finishOrder_shape o st l; rw [e]
@[simp] theorem State.finishOrder_withdrawn : (s.finishOrder o st l).withdrawn = s.withdrawn := by obtain ⟨_, _, _, _, e⟩ := s.finishOrder_shape o st l; rw [e]
@[simp] theorem State.finishOrder_pins : (s.finishOrder o st l).pins = s.pins := by obtain ⟨_, _, _, _, e⟩ := s.finishOrder_shape o st l; rw [e]
@[simp] theorem State.finishOrder_boot : (s.finishOrder o st l).boot = s.boot := by obtain ⟨_, _, _, _, e⟩ := s.finishOrder_shape o st l; rw [e]
@[simp] theorem State.finishOrder_store : (s.finishOrder o st l).store = s.store := by obtain ⟨_, _, _, _, e⟩ := s.finishOrder_shape o st l; rw [e]
@[simp] theorem State.finishOrder_reqs : (s.finishOrder o st l).reqs = s.reqs := by obtain ⟨_, _, _, _, e⟩ := s.finishOrder_shape o st l; rw [e]
@[simp] theorem State.finishOrder_dir : (s.finishOrder o st l).dir = s.dir := by obtain ⟨_, _, _, _, e⟩ := s.finishOrder_shape o st l; rw [e]
@[simp] theorem State.finishOrder_sky : (s.finishOrder o st l).sky = s.sky := by obtain ⟨_, _, _, _, e⟩ := s.finishOrder_shape o st l; rw [e]
@[simp] theorem State.finishOrder_movers : (s.finishOrder o st l).movers = s.movers := by obtain ⟨_, _, _, _, e⟩ := s.finishOrder_shape o st l; rw [e]
@[simp] theorem State.finishOrder_grid : (s.finishOrder o st l).grid = s.grid := by obtain ⟨_, _, _, _, e⟩ := s.finishOrder_shape o st l; rw [e]
@[simp] theorem State.finishOrder_emb : (s.finishOrder o st l).emb = s.emb := by obtain ⟨_, _, _, _, e⟩ := s.finishOrder_shape o st l; rw [e]
@[simp] theorem State.finishOrder_indexes : (s.finishOrder o st l).indexes = s.indexes := by obtain ⟨_, _, _, _, e⟩ := s.finishOrder_shape o st l; rw [e]
@[simp] theorem State.finishOrder_ckpt : (s.finishOrder o st l).ckpt = s.ckpt := by obtain ⟨_, _, _, _, e⟩ := s.finishOrder_shape o st l; rw [e]
@[simp] theorem State.finishOrder_blocks : (s.finishOrder o st l).blocks = s.blocks := by obtain ⟨_, _, _, _, e⟩ := s.finishOrder_shape o st l; rw [e]
@[simp] theorem State.finishOrder_power : (s.finishOrder o st l).power = s.power := by obtain ⟨_, _, _, _, e⟩ := s.finishOrder_shape o st l; rw [e]
@[simp] theorem State.finishOrder_windows : (s.finishOrder o st l).windows = s.windows := by obtain ⟨_, _, _, _, e⟩ := s.finishOrder_shape o st l; rw [e]
@[simp] theorem State.finishOrder_pending : (s.finishOrder o st l).pending = s.pending := by obtain ⟨_, _, _, _, e⟩ := s.finishOrder_shape o st l; rw [e]
@[simp] theorem State.finishOrder_comps_entries : (s.finishOrder o st l).comps.entries = s.comps.entries := by obtain ⟨_, _, _, _, e⟩ := s.finishOrder_shape o st l; rw [e]
@[simp] theorem State.finishOrder_comps_kept : (s.finishOrder o st l).comps.kept = s.comps.kept := by obtain ⟨_, _, _, _, e⟩ := s.finishOrder_shape o st l; rw [e]
@[simp] theorem State.finishOrder_comps_groups : (s.finishOrder o st l).comps.groups = s.comps.groups := by obtain ⟨_, _, _, _, e⟩ := s.finishOrder_shape o st l; rw [e]
@[simp] theorem State.finishOrder_comps_adopted : (s.finishOrder o st l).comps.adopted = s.comps.adopted := by obtain ⟨_, _, _, _, e⟩ := s.finishOrder_shape o st l; rw [e]
@[simp] theorem State.finishOrder_comps_expelled : (s.finishOrder o st l).comps.expelled = s.comps.expelled := by obtain ⟨_, _, _, _, e⟩ := s.finishOrder_shape o st l; rw [e]
@[simp] theorem State.finishOrder_comps_selfExpelled : (s.finishOrder o st l).comps.selfExpelled = s.comps.selfExpelled := by obtain ⟨_, _, _, _, e⟩ := s.finishOrder_shape o st l; rw [e]
@[simp] theorem State.finishOrder_comps_tallies : (s.finishOrder o st l).comps.tallies = s.comps.tallies := by obtain ⟨_, _, _, _, e⟩ := s.finishOrder_shape o st l; rw [e]
@[simp] theorem State.finishOrder_comps_resetAt : (s.finishOrder o st l).comps.resetAt = s.comps.resetAt := by obtain ⟨_, _, _, _, e⟩ := s.finishOrder_shape o st l; rw [e]
@[simp] theorem State.finishOrder_comps_noticeSeq : (s.finishOrder o st l).comps.noticeSeq = s.comps.noticeSeq := by obtain ⟨_, _, _, _, e⟩ := s.finishOrder_shape o st l; rw [e]
@[simp] theorem State.finishOrder_comps_journalUsed : (s.finishOrder o st l).comps.journalUsed = s.comps.journalUsed := by obtain ⟨_, _, _, _, e⟩ := s.finishOrder_shape o st l; rw [e]
end

theorem State.violation_shape (s : State) (cid : Cid) (src : Aid) (port reason : Nat) : ∃ (he : Health) (en : Tab Comp),
    s.violation cid src port reason = { s with health := he, comps := { s.comps with entries := en } } := by
  unfold State.violation
  split
  · exact ⟨s.health, _, rfl⟩
  · exact ⟨_, s.comps.entries, rfl⟩

section
variable (s : State) (cid : Cid) (src : Aid) (port reason : Nat)
@[simp] theorem State.violation_now : (s.violation cid src port reason).now = s.now := by obtain ⟨_, _, e⟩ := s.violation_shape cid src port reason; rw [e]
@[simp] theorem State.violation_coreCyc : (s.violation cid src port reason).coreCyc = s.coreCyc := by obtain ⟨_, _, e⟩ := s.violation_shape cid src port reason; rw [e]
@[simp] theorem State.violation_free : (s.violation cid src port reason).free = s.free := by obtain ⟨_, _, e⟩ := s.violation_shape cid src port reason; rw [e]
@[simp] theorem State.violation_withdrawn : (s.violation cid src port reason).withdrawn = s.withdrawn := by obtain ⟨_, _, e⟩ := s.violation_shape cid src port reason; rw [e]
@[simp] theorem State.violation_pins : (s.violation cid src port reason).pins = s.pins := by obtain ⟨_, _, e⟩ := s.violation_shape cid src port reason; rw [e]
@[simp] theorem State.violation_boot : (s.violation cid src port reason).boot = s.boot := by obtain ⟨_, _, e⟩ := s.violation_shape cid src port reason; rw [e]
@[simp] theorem State.violation_sec : (s.violation cid src port reason).sec = s.sec := by obtain ⟨_, _, e⟩ := s.violation_shape cid src port reason; rw [e]
@[simp] theorem State.violation_switch : (s.violation cid src port reason).switch = s.switch := by obtain ⟨_, _, e⟩ := s.violation_shape cid src port reason; rw [e]
@[simp] theorem State.violation_store : (s.violation cid src port reason).store = s.store := by obtain ⟨_, _, e⟩ := s.violation_shape cid src port reason; rw [e]
@[simp] theorem State.violation_reqs : (s.violation cid src port reason).reqs = s.reqs := by obtain ⟨_, _, e⟩ := s.violation_shape cid src port reason; rw [e]
@[simp] theorem State.violation_dir : (s.violation cid src port reason).dir = s.dir := by obtain ⟨_, _, e⟩ := s.violation_shape cid src port reason; rw [e]
@[simp] theorem State.violation_sky : (s.violation cid src port reason).sky = s.sky := by obtain ⟨_, _, e⟩ := s.violation_shape cid src port reason; rw [e]
@[simp] theorem State.violation_movers : (s.violation cid src port reason).movers = s.movers := by obtain ⟨_, _, e⟩ := s.violation_shape cid src port reason; rw [e]
@[simp] theorem State.violation_grid : (s.violation cid src port reason).grid = s.grid := by obtain ⟨_, _, e⟩ := s.violation_shape cid src port reason; rw [e]
@[simp] theorem State.violation_emb : (s.violation cid src port reason).emb = s.emb := by obtain ⟨_, _, e⟩ := s.violation_shape cid src port reason; rw [e]
@[simp] theorem State.violation_indexes : (s.violation cid src port reason).indexes = s.indexes := by obtain ⟨_, _, e⟩ := s.violation_shape cid src port reason; rw [e]
@[simp] theorem State.violation_ckpt : (s.violation cid src port reason).ckpt = s.ckpt := by obtain ⟨_, _, e⟩ := s.violation_shape cid src port reason; rw [e]
@[simp] theorem State.violation_blocks : (s.violation cid src port reason).blocks = s.blocks := by obtain ⟨_, _, e⟩ := s.violation_shape cid src port reason; rw [e]
@[simp] theorem State.violation_power : (s.violation cid src port reason).power = s.power := by obtain ⟨_, _, e⟩ := s.violation_shape cid src port reason; rw [e]
@[simp] theorem State.violation_windows : (s.violation cid src port reason).windows = s.windows := by obtain ⟨_, _, e⟩ := s.violation_shape cid src port reason; rw [e]
@[simp] theorem State.violation_pending : (s.violation cid src port reason).pending = s.pending := by obtain ⟨_, _, e⟩ := s.violation_shape cid src port reason; rw [e]
@[simp] theorem State.violation_comps_kept : (s.violation cid src port reason).comps.kept = s.comps.kept := by obtain ⟨_, _, e⟩ := s.violation_shape cid src port reason; rw [e]
@[simp] theorem State.violation_comps_groups : (s.violation cid src port reason).comps.groups = s.comps.groups := by obtain ⟨_, _, e⟩ := s.violation_shape cid src port reason; rw [e]
@[simp] theorem State.violation_comps_adopted : (s.violation cid src port reason).comps.adopted = s.comps.adopted := by obtain ⟨_, _, e⟩ := s.violation_shape cid src port reason; rw [e]
@[simp] theorem State.violation_comps_expelled : (s.violation cid src port reason).comps.expelled = s.comps.expelled := by obtain ⟨_, _, e⟩ := s.violation_shape cid src port reason; rw [e]
@[simp] theorem State.violation_comps_selfExpelled : (s.violation cid src port reason).comps.selfExpelled = s.comps.selfExpelled := by obtain ⟨_, _, e⟩ := s.violation_shape cid src port reason; rw [e]
@[simp] theorem State.violation_comps_tallies : (s.violation cid src port reason).comps.tallies = s.comps.tallies := by obtain ⟨_, _, e⟩ := s.violation_shape cid src port reason; rw [e]
@[simp] theorem State.violation_comps_resetAt : (s.violation cid src port reason).comps.resetAt = s.comps.resetAt := by obtain ⟨_, _, e⟩ := s.violation_shape cid src port reason; rw [e]
@[simp] theorem State.violation_comps_results : (s.violation cid src port reason).comps.results = s.comps.results := by obtain ⟨_, _, e⟩ := s.violation_shape cid src port reason; rw [e]
@[simp] theorem State.violation_comps_noticeSeq : (s.violation cid src port reason).comps.noticeSeq = s.comps.noticeSeq := by obtain ⟨_, _, e⟩ := s.violation_shape cid src port reason; rw [e]
@[simp] theorem State.violation_comps_journalUsed : (s.violation cid src port reason).comps.journalUsed = s.comps.journalUsed := by obtain ⟨_, _, e⟩ := s.violation_shape cid src port reason; rw [e]
end

theorem State.advanceTo_shape (s : State) (t : Nat) : ∃ (t1 : Nat) (cc : Nat) (en : Tab Comp),
    s.advanceTo t = { s with now := t1, coreCyc := cc, comps := { s.comps with entries := en } } := by
  unfold State.advanceTo
  dsimp only
  split
  · exact ⟨s.now, s.coreCyc, s.comps.entries, rfl⟩
  · exact ⟨_, _, _, rfl⟩

section
variable (s : State) (t : Nat)
@[simp] theorem State.advanceTo_free : (s.advanceTo t).free = s.free := by obtain ⟨_, _, _, e⟩ := s.advanceTo_shape t; rw [e]
@[simp] theorem State.advanceTo_withdrawn : (s.advanceTo t).withdrawn = s.withdrawn := by obtain ⟨_, _, _, e⟩ := s.advanceTo_shape t; rw [e]
@[simp] theorem State.advanceTo_pins : (s.advanceTo t).pins = s.pins := by obtain ⟨_, _, _, e⟩ := s.advanceTo_shape t; rw [e]
@[simp] theorem State.advanceTo_boot : (s.advanceTo t).boot = s.boot := by obtain ⟨_, _, _, e⟩ := s.advanceTo_shape t; rw [e]
@[simp] theorem State.advanceTo_sec : (s.advanceTo t).sec = s.sec := by obtain ⟨_, _, _, e⟩ := s.advanceTo_shape t; rw [e]
@[simp] theorem State.advanceTo_switch : (s.advanceTo t).switch = s.switch := by obtain ⟨_, _, _, e⟩ := s.advanceTo_shape t; rw [e]
@[simp] theorem State.advanceTo_store : (s.advanceTo t).store = s.store := by obtain ⟨_, _, _, e⟩ := s.advanceTo_shape t; rw [e]
@[simp] theorem State.advanceTo_reqs : (s.advanceTo t).reqs = s.reqs := by obtain ⟨_, _, _, e⟩ := s.advanceTo_shape t; rw [e]
@[simp] theorem State.advanceTo_dir : (s.advanceTo t).dir = s.dir := by obtain ⟨_, _, _, e⟩ := s.advanceTo_shape t; rw [e]
@[simp] theorem State.advanceTo_sky : (s.advanceTo t).sky = s.sky := by obtain ⟨_, _, _, e⟩ := s.advanceTo_shape t; rw [e]
@[simp] theorem State.advanceTo_movers : (s.advanceTo t).movers = s.movers := by obtain ⟨_, _, _, e⟩ := s.advanceTo_shape t; rw [e]
@[simp] theorem State.advanceTo_grid : (s.advanceTo t).grid = s.grid := by obtain ⟨_, _, _, e⟩ := s.advanceTo_shape t; rw [e]
@[simp] theorem State.advanceTo_emb : (s.advanceTo t).emb = s.emb := by obtain ⟨_, _, _, e⟩ := s.advanceTo_shape t; rw [e]
@[simp] theorem State.advanceTo_indexes : (s.advanceTo t).indexes = s.indexes := by obtain ⟨_, _, _, e⟩ := s.advanceTo_shape t; rw [e]
@[simp] theorem State.advanceTo_ckpt : (s.advanceTo t).ckpt = s.ckpt := by obtain ⟨_, _, _, e⟩ := s.advanceTo_shape t; rw [e]
@[simp] theorem State.advanceTo_health : (s.advanceTo t).health = s.health := by obtain ⟨_, _, _, e⟩ := s.advanceTo_shape t; rw [e]
@[simp] theorem State.advanceTo_blocks : (s.advanceTo t).blocks = s.blocks := by obtain ⟨_, _, _, e⟩ := s.advanceTo_shape t; rw [e]
@[simp] theorem State.advanceTo_power : (s.advanceTo t).power = s.power := by obtain ⟨_, _, _, e⟩ := s.advanceTo_shape t; rw [e]
@[simp] theorem State.advanceTo_windows : (s.advanceTo t).windows = s.windows := by obtain ⟨_, _, _, e⟩ := s.advanceTo_shape t; rw [e]
@[simp] theorem State.advanceTo_pending : (s.advanceTo t).pending = s.pending := by obtain ⟨_, _, _, e⟩ := s.advanceTo_shape t; rw [e]
@[simp] theorem State.advanceTo_comps_kept : (s.advanceTo t).comps.kept = s.comps.kept := by obtain ⟨_, _, _, e⟩ := s.advanceTo_shape t; rw [e]
@[simp] theorem State.advanceTo_comps_groups : (s.advanceTo t).comps.groups = s.comps.groups := by obtain ⟨_, _, _, e⟩ := s.advanceTo_shape t; rw [e]
@[simp] theorem State.advanceTo_comps_adopted : (s.advanceTo t).comps.adopted = s.comps.adopted := by obtain ⟨_, _, _, e⟩ := s.advanceTo_shape t; rw [e]
@[simp] theorem State.advanceTo_comps_expelled : (s.advanceTo t).comps.expelled = s.comps.expelled := by obtain ⟨_, _, _, e⟩ := s.advanceTo_shape t; rw [e]
@[simp] theorem State.advanceTo_comps_selfExpelled : (s.advanceTo t).comps.selfExpelled = s.comps.selfExpelled := by obtain ⟨_, _, _, e⟩ := s.advanceTo_shape t; rw [e]
@[simp] theorem State.advanceTo_comps_tallies : (s.advanceTo t).comps.tallies = s.comps.tallies := by obtain ⟨_, _, _, e⟩ := s.advanceTo_shape t; rw [e]
@[simp] theorem State.advanceTo_comps_resetAt : (s.advanceTo t).comps.resetAt = s.comps.resetAt := by obtain ⟨_, _, _, e⟩ := s.advanceTo_shape t; rw [e]
@[simp] theorem State.advanceTo_comps_results : (s.advanceTo t).comps.results = s.comps.results := by obtain ⟨_, _, _, e⟩ := s.advanceTo_shape t; rw [e]
@[simp] theorem State.advanceTo_comps_noticeSeq : (s.advanceTo t).comps.noticeSeq = s.comps.noticeSeq := by obtain ⟨_, _, _, e⟩ := s.advanceTo_shape t; rw [e]
@[simp] theorem State.advanceTo_comps_journalUsed : (s.advanceTo t).comps.journalUsed = s.comps.journalUsed := by obtain ⟨_, _, _, e⟩ := s.advanceTo_shape t; rw [e]
end

theorem State.markConsumed_shape (s : State) (h : Hdr) : ∃ (sw : Switch) (he : Health),
    s.markConsumed h = { s with switch := sw, health := he } := by
  unfold State.markConsumed
  dsimp only
  split
  · exact ⟨_, _, rfl⟩
  · exact ⟨s.switch, s.health, rfl⟩

section
variable (s : State) (h : Hdr)
@[simp] theorem State.markConsumed_now : (s.markConsumed h).now = s.now := by obtain ⟨_, _, e⟩ := s.markConsumed_shape h; rw [e]
@[simp] theorem State.markConsumed_coreCyc : (s.markConsumed h).coreCyc = s.coreCyc := by obtain ⟨_, _, e⟩ := s.markConsumed_shape h; rw [e]
@[simp] theorem State.markConsumed_free : (s.markConsumed h).free = s.free := by obtain ⟨_, _, e⟩ := s.markConsumed_shape h; rw [e]
@[simp] theorem State.markConsumed_withdrawn : (s.markConsumed h).withdrawn = s.withdrawn := by obtain ⟨_, _, e⟩ := s.markConsumed_shape h; rw [e]
@[simp] theorem State.markConsumed_pins : (s.markConsumed h).pins = s.pins := by obtain ⟨_, _, e⟩ := s.markConsumed_shape h; rw [e]
@[simp] theorem State.markConsumed_boot : (s.markConsumed h).boot = s.boot := by obtain ⟨_, _, e⟩ := s.markConsumed_shape h; rw [e]
@[simp] theorem State.markConsumed_sec : (s.markConsumed h).sec = s.sec := by obtain ⟨_, _, e⟩ := s.markConsumed_shape h; rw [e]
@[simp] theorem State.markConsumed_store : (s.markConsumed h).store = s.store := by obtain ⟨_, _, e⟩ := s.markConsumed_shape h; rw [e]
@[simp] theorem State.markConsumed_reqs : (s.markConsumed h).reqs = s.reqs := by obtain ⟨_, _, e⟩ := s.markConsumed_shape h; rw [e]
@[simp] theorem State.markConsumed_dir : (s.markConsumed h).dir = s.dir := by obtain ⟨_, _, e⟩ := s.markConsumed_shape h; rw [e]
@[simp] theorem State.markConsumed_comps : (s.markConsumed h).comps = s.comps := by obtain ⟨_, _, e⟩ := s.markConsumed_shape h; rw [e]
@[simp] theorem State.markConsumed_sky : (s.markConsumed h).sky = s.sky := by obtain ⟨_, _, e⟩ := s.markConsumed_shape h; rw [e]
@[simp] theorem State.markConsumed_movers : (s.markConsumed h).movers = s.movers := by obtain ⟨_, _, e⟩ := s.markConsumed_shape h; rw [e]
@[simp] theorem State.markConsumed_grid : (s.markConsumed h).grid = s.grid := by obtain ⟨_, _, e⟩ := s.markConsumed_shape h; rw [e]
@[simp] theorem State.markConsumed_emb : (s.markConsumed h).emb = s.emb := by obtain ⟨_, _, e⟩ := s.markConsumed_shape h; rw [e]
@[simp] theorem State.markConsumed_indexes : (s.markConsumed h).indexes = s.indexes := by obtain ⟨_, _, e⟩ := s.markConsumed_shape h; rw [e]
@[simp] theorem State.markConsumed_ckpt : (s.markConsumed h).ckpt = s.ckpt := by obtain ⟨_, _, e⟩ := s.markConsumed_shape h; rw [e]
@[simp] theorem State.markConsumed_blocks : (s.markConsumed h).blocks = s.blocks := by obtain ⟨_, _, e⟩ := s.markConsumed_shape h; rw [e]
@[simp] theorem State.markConsumed_power : (s.markConsumed h).power = s.power := by obtain ⟨_, _, e⟩ := s.markConsumed_shape h; rw [e]
@[simp] theorem State.markConsumed_windows : (s.markConsumed h).windows = s.windows := by obtain ⟨_, _, e⟩ := s.markConsumed_shape h; rw [e]
@[simp] theorem State.markConsumed_pending : (s.markConsumed h).pending = s.pending := by obtain ⟨_, _, e⟩ := s.markConsumed_shape h; rw [e]
end

theorem State.queueAt_shape (s : State) (k : Nat) (f : OutFrame) : ∃ sw : Switch, s.queueAt k f = { s with switch := sw } := by
  unfold State.queueAt
  split
  · exact ⟨s.switch, rfl⟩
  · exact ⟨_, rfl⟩

theorem hopCheck_shape (h : Hdr) (s : State) : ∃ sw : Switch, (hopCheck h s).2 = { s with switch := sw } := by
  unfold hopCheck
  dsimp only
  repeat' split
  all_goals first
    | exact ⟨_, rfl⟩
    | exact State.queueAt_shape _ _ _

theorem State.afterLink_shape (s : State) (h : Hdr) : ∃ (t1 : Nat) (cc : Nat) (en : Tab Comp) (sw : Switch) (he : Health),
    s.afterLink h = { s with now := t1, coreCyc := cc, comps := { s.comps with entries := en }, switch := sw, health := he } := by
  obtain ⟨t1, cc, en, e⟩ := s.advanceTo_shape h.now
  obtain ⟨sw, e'⟩ := hopCheck_shape h ((s.advanceTo h.now).bump 0 h.port 0)
  obtain ⟨sw', he, e2⟩ := (hopCheck h ((s.advanceTo h.now).bump 0 h.port 0)).2.markConsumed_shape h
  unfold State.afterLink
  rw [e2, e', e]
  exact ⟨_, _, _, _, _, rfl⟩

section
variable (s : State) (h : Hdr)
@[simp] theorem State.afterLink_free : (s.afterLink h).free = s.free := by obtain ⟨_, _, _, _, _, e⟩ := s.afterLink_shape h; rw [e]
@[simp] theorem State.afterLink_withdrawn : (s.afterLink h).withdrawn = s.withdrawn := by obtain ⟨_, _, _, _, _, e⟩ := s.afterLink_shape h; rw [e]
@[simp] theorem State.afterLink_pins : (s.afterLink h).pins = s.pins := by obtain ⟨_, _, _, _, _, e⟩ := s.afterLink_shape h; rw [e]
@[simp] theorem State.afterLink_boot : (s.afterLink h).boot = s.boot := by obtain ⟨_, _, _, _, _, e⟩ := s.afterLink_shape h; rw [e]
@[simp] theorem State.afterLink_sec : (s.afterLink h).sec = s.sec := by obtain ⟨_, _, _, _, _, e⟩ := s.afterLink_shape h; rw [e]
@[simp] theorem State.afterLink_store : (s.afterLink h).store = s.store := by obtain ⟨_, _, _, _, _, e⟩ := s.afterLink_shape h; rw [e]
@[simp] theorem State.afterLink_reqs : (s.afterLink h).reqs = s.reqs := by obtain ⟨_, _, _, _, _, e⟩ := s.afterLink_shape h; rw [e]
@[simp] theorem State.afterLink_dir : (s.afterLink h).dir = s.dir := by obtain ⟨_, _, _, _, _, e⟩ := s.afterLink_shape h; rw [e]
@[simp] theorem State.afterLink_sky : (s.afterLink h).sky = s.sky := by obtain ⟨_, _, _, _, _, e⟩ := s.afterLink_shape h; rw [e]
@[simp] theorem State.afterLink_movers : (s.afterLink h).movers = s.movers := by obtain ⟨_, _, _, _, _, e⟩ := s.afterLink_shape h; rw [e]
@[simp] theorem State.afterLink_grid : (s.afterLink h).grid = s.grid := by obtain ⟨_, _, _, _, _, e⟩ := s.afterLink_shape h; rw [e]
@[simp] theorem State.afterLink_emb : (s.afterLink h).emb = s.emb := by obtain ⟨_, _, _, _, _, e⟩ := s.afterLink_shape h; rw [e]
@[simp] theorem State.afterLink_indexes : (s.afterLink h).indexes = s.indexes := by obtain ⟨_, _, _, _, _, e⟩ := s.afterLink_shape h; rw [e]
@[simp] theorem State.afterLink_ckpt : (s.afterLink h).ckpt = s.ckpt := by obtain ⟨_, _, _, _, _, e⟩ := s.afterLink_shape h; rw [e]
@[simp] theorem State.afterLink_blocks : (s.afterLink h).blocks = s.blocks := by obtain ⟨_, _, _, _, _, e⟩ := s.afterLink_shape h; rw [e]
@[simp] theorem State.afterLink_power : (s.afterLink h).power = s.power := by obtain ⟨_, _, _, _, _, e⟩ := s.afterLink_shape h; rw [e]
@[simp] theorem State.afterLink_windows : (s.afterLink h).windows = s.windows := by obtain ⟨_, _, _, _, _, e⟩ := s.afterLink_shape h; rw [e]
@[simp] theorem State.afterLink_pending : (s.afterLink h).pending = s.pending := by obtain ⟨_, _, _, _, _, e⟩ := s.afterLink_shape h; rw [e]
@[simp] theorem State.afterLink_comps_kept : (s.afterLink h).comps.kept = s.comps.kept := by obtain ⟨_, _, _, _, _, e⟩ := s.afterLink_shape h; rw [e]
@[simp] theorem State.afterLink_comps_groups : (s.afterLink h).comps.groups = s.comps.groups := by obtain ⟨_, _, _, _, _, e⟩ := s.afterLink_shape h; rw [e]
@[simp] theorem State.afterLink_comps_adopted : (s.afterLink h).comps.adopted = s.comps.adopted := by obtain ⟨_, _, _, _, _, e⟩ := s.afterLink_shape h; rw [e]
@[simp] theorem State.afterLink_comps_expelled : (s.afterLink h).comps.expelled = s.comps.expelled := by obtain ⟨_, _, _, _, _, e⟩ := s.afterLink_shape h; rw [e]
@[simp] theorem State.afterLink_comps_selfExpelled : (s.afterLink h).comps.selfExpelled = s.comps.selfExpelled := by obtain ⟨_, _, _, _, _, e⟩ := s.afterLink_shape h; rw [e]
@[simp] theorem State.afterLink_comps_tallies : (s.afterLink h).comps.tallies = s.comps.tallies := by obtain ⟨_, _, _, _, _, e⟩ := s.afterLink_shape h; rw [e]
@[simp] theorem State.afterLink_comps_resetAt : (s.afterLink h).comps.resetAt = s.comps.resetAt := by obtain ⟨_, _, _, _, _, e⟩ := s.afterLink_shape h; rw [e]
@[simp] theorem State.afterLink_comps_results : (s.afterLink h).comps.results = s.comps.results := by obtain ⟨_, _, _, _, _, e⟩ := s.afterLink_shape h; rw [e]
@[simp] theorem State.afterLink_comps_noticeSeq : (s.afterLink h).comps.noticeSeq = s.comps.noticeSeq := by obtain ⟨_, _, _, _, _, e⟩ := s.afterLink_shape h; rw [e]
@[simp] theorem State.afterLink_comps_journalUsed : (s.afterLink h).comps.journalUsed = s.comps.journalUsed := by obtain ⟨_, _, _, _, _, e⟩ := s.afterLink_shape h; rw [e]
end

theorem State.afterTrailer_shape (s : State) (h : Hdr) (t : Trailer) : ∃ (t1 : Nat) (cc : Nat) (en : Tab Comp) (sw : Switch) (he : Health) (se : Security),
    s.afterTrailer h t = { s with now := t1, coreCyc := cc, comps := { s.comps with entries := en }, switch := sw, health := he, sec := se } := by
  obtain ⟨t1, cc, en, sw, he, e⟩ := s.afterLink_shape h
  refine ⟨t1, cc, en, sw, he, ?_, ?_⟩
  rotate_left
  · unfold State.afterTrailer
    simp only [e]
    rfl

section
variable (s : State) (h : Hdr) (t : Trailer)
@[simp] theorem State.afterTrailer_free : (s.afterTrailer h t).free = s.free := by obtain ⟨_, _, _, _, _, _, e⟩ := s.afterTrailer_shape h t; rw [e]
@[simp] theorem State.afterTrailer_withdrawn : (s.afterTrailer h t).withdrawn = s.withdrawn := by obtain ⟨_, _, _, _, _, _, e⟩ := s.afterTrailer_shape h t; rw [e]
@[simp] theorem State.afterTrailer_pins : (s.afterTrailer h t).pins = s.pins := by obtain ⟨_, _, _, _, _, _, e⟩ := s.afterTrailer_shape h t; rw [e]
@[simp] theorem State.afterTrailer_boot : (s.afterTrailer h t).boot = s.boot := by obtain ⟨_, _, _, _, _, _, e⟩ := s.afterTrailer_shape h t; rw [e]
@[simp] theorem State.afterTrailer_store : (s.afterTrailer h t).store = s.store := by obtain ⟨_, _, _, _, _, _, e⟩ := s.afterTrailer_shape h t; rw [e]
@[simp] theorem State.afterTrailer_reqs : (s.afterTrailer h t).reqs = s.reqs := by obtain ⟨_, _, _, _, _, _, e⟩ := s.afterTrailer_shape h t; rw [e]
@[simp] theorem State.afterTrailer_dir : (s.afterTrailer h t).dir = s.dir := by obtain ⟨_, _, _, _, _, _, e⟩ := s.afterTrailer_shape h t; rw [e]
@[simp] theorem State.afterTrailer_sky : (s.afterTrailer h t).sky = s.sky := by obtain ⟨_, _, _, _, _, _, e⟩ := s.afterTrailer_shape h t; rw [e]
@[simp] theorem State.afterTrailer_movers : (s.afterTrailer h t).movers = s.movers := by obtain ⟨_, _, _, _, _, _, e⟩ := s.afterTrailer_shape h t; rw [e]
@[simp] theorem State.afterTrailer_grid : (s.afterTrailer h t).grid = s.grid := by obtain ⟨_, _, _, _, _, _, e⟩ := s.afterTrailer_shape h t; rw [e]
@[simp] theorem State.afterTrailer_emb : (s.afterTrailer h t).emb = s.emb := by obtain ⟨_, _, _, _, _, _, e⟩ := s.afterTrailer_shape h t; rw [e]
@[simp] theorem State.afterTrailer_indexes : (s.afterTrailer h t).indexes = s.indexes := by obtain ⟨_, _, _, _, _, _, e⟩ := s.afterTrailer_shape h t; rw [e]
@[simp] theorem State.afterTrailer_ckpt : (s.afterTrailer h t).ckpt = s.ckpt := by obtain ⟨_, _, _, _, _, _, e⟩ := s.afterTrailer_shape h t; rw [e]
@[simp] theorem State.afterTrailer_blocks : (s.afterTrailer h t).blocks = s.blocks := by obtain ⟨_, _, _, _, _, _, e⟩ := s.afterTrailer_shape h t; rw [e]
@[simp] theorem State.afterTrailer_power : (s.afterTrailer h t).power = s.power := by obtain ⟨_, _, _, _, _, _, e⟩ := s.afterTrailer_shape h t; rw [e]
@[simp] theorem State.afterTrailer_windows : (s.afterTrailer h t).windows = s.windows := by obtain ⟨_, _, _, _, _, _, e⟩ := s.afterTrailer_shape h t; rw [e]
@[simp] theorem State.afterTrailer_pending : (s.afterTrailer h t).pending = s.pending := by obtain ⟨_, _, _, _, _, _, e⟩ := s.afterTrailer_shape h t; rw [e]
@[simp] theorem State.afterTrailer_comps_kept : (s.afterTrailer h t).comps.kept = s.comps.kept := by obtain ⟨_, _, _, _, _, _, e⟩ := s.afterTrailer_shape h t; rw [e]
@[simp] theorem State.afterTrailer_comps_groups : (s.afterTrailer h t).comps.groups = s.comps.groups := by obtain ⟨_, _, _, _, _, _, e⟩ := s.afterTrailer_shape h t; rw [e]
@[simp] theorem State.afterTrailer_comps_adopted : (s.afterTrailer h t).comps.adopted = s.comps.adopted := by obtain ⟨_, _, _, _, _, _, e⟩ := s.afterTrailer_shape h t; rw [e]
@[simp] theorem State.afterTrailer_comps_expelled : (s.afterTrailer h t).comps.expelled = s.comps.expelled := by obtain ⟨_, _, _, _, _, _, e⟩ := s.afterTrailer_shape h t; rw [e]
@[simp] theorem State.afterTrailer_comps_selfExpelled : (s.afterTrailer h t).comps.selfExpelled = s.comps.selfExpelled := by obtain ⟨_, _, _, _, _, _, e⟩ := s.afterTrailer_shape h t; rw [e]
@[simp] theorem State.afterTrailer_comps_tallies : (s.afterTrailer h t).comps.tallies = s.comps.tallies := by obtain ⟨_, _, _, _, _, _, e⟩ := s.afterTrailer_shape h t; rw [e]
@[simp] theorem State.afterTrailer_comps_resetAt : (s.afterTrailer h t).comps.resetAt = s.comps.resetAt := by obtain ⟨_, _, _, _, _, _, e⟩ := s.afterTrailer_shape h t; rw [e]
@[simp] theorem State.afterTrailer_comps_results : (s.afterTrailer h t).comps.results = s.comps.results := by obtain ⟨_, _, _, _, _, _, e⟩ := s.afterTrailer_shape h t; rw [e]
@[simp] theorem State.afterTrailer_comps_noticeSeq : (s.afterTrailer h t).comps.noticeSeq = s.comps.noticeSeq := by obtain ⟨_, _, _, _, _, _, e⟩ := s.afterTrailer_shape h t; rw [e]
@[simp] theorem State.afterTrailer_comps_journalUsed : (s.afterTrailer h t).comps.journalUsed = s.comps.journalUsed := by obtain ⟨_, _, _, _, _, _, e⟩ := s.afterTrailer_shape h t; rw [e]
end

theorem State.keepOrder_shape (s : State) (m : Aid) (id : W32) : ∃ (rs : List KeptResult),
    s.keepOrder m id = { s with comps := { s.comps with results := rs } } := by
  exact ⟨_, rfl⟩

section
variable (s : State) (m : Aid) (id : W32)
@[simp] theorem State.keepOrder_now : (s.keepOrder m id).now = s.now := by obtain ⟨_, e⟩ := s.keepOrder_shape m id; rw [e]
@[simp] theorem State.keepOrder_coreCyc : (s.keepOrder m id).coreCyc = s.coreCyc := by obtain ⟨_, e⟩ := s.keepOrder_shape m id; rw [e]
@[simp] theorem State.keepOrder_free : (s.keepOrder m id).free = s.free := by obtain ⟨_, e⟩ := s.keepOrder_shape m id; rw [e]
@[simp] theorem State.keepOrder_withdrawn : (s.keepOrder m id).withdrawn = s.withdrawn := by obtain ⟨_, e⟩ := s.keepOrder_shape m id; rw [e]
@[simp] theorem State.keepOrder_pins : (s.keepOrder m id).pins = s.pins := by obtain ⟨_, e⟩ := s.keepOrder_shape m id; rw [e]
@[simp] theorem State.keepOrder_boot : (s.keepOrder m id).boot = s.boot := by obtain ⟨_, e⟩ := s.keepOrder_shape m id; rw [e]
@[simp] theorem State.keepOrder_sec : (s.keepOrder m id).sec = s.sec := by obtain ⟨_, e⟩ := s.keepOrder_shape m id; rw [e]
@[simp] theorem State.keepOrder_switch : (s.keepOrder m id).switch = s.switch := by obtain ⟨_, e⟩ := s.keepOrder_shape m id; rw [e]
@[simp] theorem State.keepOrder_store : (s.keepOrder m id).store = s.store := by obtain ⟨_, e⟩ := s.keepOrder_shape m id; rw [e]
@[simp] theorem State.keepOrder_reqs : (s.keepOrder m id).reqs = s.reqs := by obtain ⟨_, e⟩ := s.keepOrder_shape m id; rw [e]
@[simp] theorem State.keepOrder_dir : (s.keepOrder m id).dir = s.dir := by obtain ⟨_, e⟩ := s.keepOrder_shape m id; rw [e]
@[simp] theorem State.keepOrder_sky : (s.keepOrder m id).sky = s.sky := by obtain ⟨_, e⟩ := s.keepOrder_shape m id; rw [e]
@[simp] theorem State.keepOrder_movers : (s.keepOrder m id).movers = s.movers := by obtain ⟨_, e⟩ := s.keepOrder_shape m id; rw [e]
@[simp] theorem State.keepOrder_grid : (s.keepOrder m id).grid = s.grid := by obtain ⟨_, e⟩ := s.keepOrder_shape m id; rw [e]
@[simp] theorem State.keepOrder_emb : (s.keepOrder m id).emb = s.emb := by obtain ⟨_, e⟩ := s.keepOrder_shape m id; rw [e]
@[simp] theorem State.keepOrder_indexes : (s.keepOrder m id).indexes = s.indexes := by obtain ⟨_, e⟩ := s.keepOrder_shape m id; rw [e]
@[simp] theorem State.keepOrder_ckpt : (s.keepOrder m id).ckpt = s.ckpt := by obtain ⟨_, e⟩ := s.keepOrder_shape m id; rw [e]
@[simp] theorem State.keepOrder_health : (s.keepOrder m id).health = s.health := by obtain ⟨_, e⟩ := s.keepOrder_shape m id; rw [e]
@[simp] theorem State.keepOrder_blocks : (s.keepOrder m id).blocks = s.blocks := by obtain ⟨_, e⟩ := s.keepOrder_shape m id; rw [e]
@[simp] theorem State.keepOrder_power : (s.keepOrder m id).power = s.power := by obtain ⟨_, e⟩ := s.keepOrder_shape m id; rw [e]
@[simp] theorem State.keepOrder_windows : (s.keepOrder m id).windows = s.windows := by obtain ⟨_, e⟩ := s.keepOrder_shape m id; rw [e]
@[simp] theorem State.keepOrder_pending : (s.keepOrder m id).pending = s.pending := by obtain ⟨_, e⟩ := s.keepOrder_shape m id; rw [e]
@[simp] theorem State.keepOrder_comps_entries : (s.keepOrder m id).comps.entries = s.comps.entries := by obtain ⟨_, e⟩ := s.keepOrder_shape m id; rw [e]
@[simp] theorem State.keepOrder_comps_kept : (s.keepOrder m id).comps.kept = s.comps.kept := by obtain ⟨_, e⟩ := s.keepOrder_shape m id; rw [e]
@[simp] theorem State.keepOrder_comps_groups : (s.keepOrder m id).comps.groups = s.comps.groups := by obtain ⟨_, e⟩ := s.keepOrder_shape m id; rw [e]
@[simp] theorem State.keepOrder_comps_adopted : (s.keepOrder m id).comps.adopted = s.comps.adopted := by obtain ⟨_, e⟩ := s.keepOrder_shape m id; rw [e]
@[simp] theorem State.keepOrder_comps_expelled : (s.keepOrder m id).comps.expelled = s.comps.expelled := by obtain ⟨_, e⟩ := s.keepOrder_shape m id; rw [e]
@[simp] theorem State.keepOrder_comps_selfExpelled : (s.keepOrder m id).comps.selfExpelled = s.comps.selfExpelled := by obtain ⟨_, e⟩ := s.keepOrder_shape m id; rw [e]
@[simp] theorem State.keepOrder_comps_tallies : (s.keepOrder m id).comps.tallies = s.comps.tallies := by obtain ⟨_, e⟩ := s.keepOrder_shape m id; rw [e]
@[simp] theorem State.keepOrder_comps_resetAt : (s.keepOrder m id).comps.resetAt = s.comps.resetAt := by obtain ⟨_, e⟩ := s.keepOrder_shape m id; rw [e]
@[simp] theorem State.keepOrder_comps_noticeSeq : (s.keepOrder m id).comps.noticeSeq = s.comps.noticeSeq := by obtain ⟨_, e⟩ := s.keepOrder_shape m id; rw [e]
@[simp] theorem State.keepOrder_comps_journalUsed : (s.keepOrder m id).comps.journalUsed = s.comps.journalUsed := by obtain ⟨_, e⟩ := s.keepOrder_shape m id; rw [e]
end

theorem State.orderTaken_shape (s : State) (o : Order) : ∃ (t1 : Nat) (cc : Nat) (en : Tab Comp) (rs : List KeptResult) (sw : Switch) (he : Health) (se : Security),
    s.orderTaken o = { s with now := t1, coreCyc := cc, comps := { s.comps with entries := en, results := rs }, switch := sw, health := he, sec := se } := by
  obtain ⟨t1, cc, en, sw, he, se, e⟩ := s.afterTrailer_shape o.hdr o.trailer
  refine ⟨t1, cc, en, ?_, sw, he, se, ?_⟩
  rotate_left
  · unfold State.orderTaken
    rw [e]
    rfl

section
variable (s : State) (o : Order)
@[simp] theorem State.orderTaken_free : (s.orderTaken o).free = s.free := by obtain ⟨_, _, _, _, _, _, _, e⟩ := s.orderTaken_shape o; rw [e]
@[simp] theorem State.orderTaken_withdrawn : (s.orderTaken o).withdrawn = s.withdrawn := by obtain ⟨_, _, _, _, _, _, _, e⟩ := s.orderTaken_shape o; rw [e]
@[simp] theorem State.orderTaken_pins : (s.orderTaken o).pins = s.pins := by obtain ⟨_, _, _, _, _, _, _, e⟩ := s.orderTaken_shape o; rw [e]
@[simp] theorem State.orderTaken_boot : (s.orderTaken o).boot = s.boot := by obtain ⟨_, _, _, _, _, _, _, e⟩ := s.orderTaken_shape o; rw [e]
@[simp] theorem State.orderTaken_store : (s.orderTaken o).store = s.store := by obtain ⟨_, _, _, _, _, _, _, e⟩ := s.orderTaken_shape o; rw [e]
@[simp] theorem State.orderTaken_reqs : (s.orderTaken o).reqs = s.reqs := by obtain ⟨_, _, _, _, _, _, _, e⟩ := s.orderTaken_shape o; rw [e]
@[simp] theorem State.orderTaken_dir : (s.orderTaken o).dir = s.dir := by obtain ⟨_, _, _, _, _, _, _, e⟩ := s.orderTaken_shape o; rw [e]
@[simp] theorem State.orderTaken_sky : (s.orderTaken o).sky = s.sky := by obtain ⟨_, _, _, _, _, _, _, e⟩ := s.orderTaken_shape o; rw [e]
@[simp] theorem State.orderTaken_movers : (s.orderTaken o).movers = s.movers := by obtain ⟨_, _, _, _, _, _, _, e⟩ := s.orderTaken_shape o; rw [e]
@[simp] theorem State.orderTaken_grid : (s.orderTaken o).grid = s.grid := by obtain ⟨_, _, _, _, _, _, _, e⟩ := s.orderTaken_shape o; rw [e]
@[simp] theorem State.orderTaken_emb : (s.orderTaken o).emb = s.emb := by obtain ⟨_, _, _, _, _, _, _, e⟩ := s.orderTaken_shape o; rw [e]
@[simp] theorem State.orderTaken_indexes : (s.orderTaken o).indexes = s.indexes := by obtain ⟨_, _, _, _, _, _, _, e⟩ := s.orderTaken_shape o; rw [e]
@[simp] theorem State.orderTaken_ckpt : (s.orderTaken o).ckpt = s.ckpt := by obtain ⟨_, _, _, _, _, _, _, e⟩ := s.orderTaken_shape o; rw [e]
@[simp] theorem State.orderTaken_blocks : (s.orderTaken o).blocks = s.blocks := by obtain ⟨_, _, _, _, _, _, _, e⟩ := s.orderTaken_shape o; rw [e]
@[simp] theorem State.orderTaken_power : (s.orderTaken o).power = s.power := by obtain ⟨_, _, _, _, _, _, _, e⟩ := s.orderTaken_shape o; rw [e]
@[simp] theorem State.orderTaken_windows : (s.orderTaken o).windows = s.windows := by obtain ⟨_, _, _, _, _, _, _, e⟩ := s.orderTaken_shape o; rw [e]
@[simp] theorem State.orderTaken_pending : (s.orderTaken o).pending = s.pending := by obtain ⟨_, _, _, _, _, _, _, e⟩ := s.orderTaken_shape o; rw [e]
@[simp] theorem State.orderTaken_comps_kept : (s.orderTaken o).comps.kept = s.comps.kept := by obtain ⟨_, _, _, _, _, _, _, e⟩ := s.orderTaken_shape o; rw [e]
@[simp] theorem State.orderTaken_comps_groups : (s.orderTaken o).comps.groups = s.comps.groups := by obtain ⟨_, _, _, _, _, _, _, e⟩ := s.orderTaken_shape o; rw [e]
@[simp] theorem State.orderTaken_comps_adopted : (s.orderTaken o).comps.adopted = s.comps.adopted := by obtain ⟨_, _, _, _, _, _, _, e⟩ := s.orderTaken_shape o; rw [e]
@[simp] theorem State.orderTaken_comps_expelled : (s.orderTaken o).comps.expelled = s.comps.expelled := by obtain ⟨_, _, _, _, _, _, _, e⟩ := s.orderTaken_shape o; rw [e]
@[simp] theorem State.orderTaken_comps_selfExpelled : (s.orderTaken o).comps.selfExpelled = s.comps.selfExpelled := by obtain ⟨_, _, _, _, _, _, _, e⟩ := s.orderTaken_shape o; rw [e]
@[simp] theorem State.orderTaken_comps_tallies : (s.orderTaken o).comps.tallies = s.comps.tallies := by obtain ⟨_, _, _, _, _, _, _, e⟩ := s.orderTaken_shape o; rw [e]
@[simp] theorem State.orderTaken_comps_resetAt : (s.orderTaken o).comps.resetAt = s.comps.resetAt := by obtain ⟨_, _, _, _, _, _, _, e⟩ := s.orderTaken_shape o; rw [e]
@[simp] theorem State.orderTaken_comps_noticeSeq : (s.orderTaken o).comps.noticeSeq = s.comps.noticeSeq := by obtain ⟨_, _, _, _, _, _, _, e⟩ := s.orderTaken_shape o; rw [e]
@[simp] theorem State.orderTaken_comps_journalUsed : (s.orderTaken o).comps.journalUsed = s.comps.journalUsed := by obtain ⟨_, _, _, _, _, _, _, e⟩ := s.orderTaken_shape o; rw [e]
end

end Sys2Proof.Machine
end

