-- ==== Sys2Proof/Laws/Grid.lean ====
section
/-! SUPPORT. What an issued grid instruction does: its own meaning, at the time of the issue. -/
namespace Sys2Proof.Machine

theorem gridStep_issues {i : Issue} {c : Instr} {s : State} (ok : Issues i c s) (k : Thread → State → State) :
    gridStep i c k s = k i.thread (s.advanceTo i.now) := by
  obtain ⟨sv, mi, ops, w, hw, enc⟩ := ok
  have hl : ¬ ((s.advanceTo i.now).programOf i.thread).code.length ≤ ((s.advanceTo i.now).ctx i.thread).pc := by
    intro hle
    rw [List.getElem?_eq_none hle] at hw
    simp at hw
  have he : encodeGrid c = ((s.advanceTo i.now).programOf i.thread).code[((s.advanceTo i.now).ctx i.thread).pc]? := by
    rw [hw, enc]
  simp [gridStep, sv, mi, ops, hl, he]

/-- An index beyond the code is a CODE_RANGE fault, whatever the instruction (R277). -/
theorem gridStep_beyond {i : Issue} {s : State} (sv : s.inService = true) (mi : (s.advanceTo i.now).mayIssue i.thread = true)
    (hl : ((s.advanceTo i.now).programOf i.thread).code.length ≤ ((s.advanceTo i.now).ctx i.thread).pc) (c : Instr)
    (k : Thread → State → State) : gridStep i c k s = (s.advanceTo i.now).fault i.thread gcCodeRange := by
  simp [gridStep, sv, mi, hl]

end Sys2Proof.Machine
end

