-- ==== Sys2Proof/Laws/Tab.lean ====
section
/-! SUPPORT. Laws of the sparse tables: reading back what was set, reading what was not, and the canonical form. -/
namespace Sys2Proof

variable {α : Type} [DecidableEq α]

/-- An entry below every key is the default. -/
theorem Tab.get_below (d : α) : ∀ (t : Tab α) (lo k : Nat), Tab.wfFrom d lo t = true → k < lo → Tab.get d t k = d
  | [], _, _, _, _ => rfl
  | (j, v) :: t, lo, k, h, hk => by
    simp only [Tab.wfFrom, Bool.and_eq_true, decide_eq_true_eq] at h
    have hj : j ≠ k := by omega
    have hl : ¬ j < k := by omega
    simp [Tab.get, hj, hl]

/-- A table that is canonical from one key on is so from every lower one. -/
theorem Tab.wfFrom_lower (d : α) (t : Tab α) {lo lo' : Nat} (hlo : lo' ≤ lo) (h : Tab.wfFrom d lo t = true) :
    Tab.wfFrom d lo' t = true := by
  cases t with
  | nil => rfl
  | cons e t =>
    obtain ⟨j, v⟩ := e
    simp only [Tab.wfFrom, Bool.and_eq_true, decide_eq_true_eq] at h ⊢
    exact ⟨⟨by omega, h.1.2⟩, h.2⟩

/-- Setting an entry at or above `lo` keeps the canonical form from `lo` on. -/
theorem Tab.wfFrom_set (d : α) : ∀ (t : Tab α) (lo k : Nat) (v : α), Tab.wfFrom d lo t = true → lo ≤ k →
    Tab.wfFrom d lo (Tab.set d t k v) = true
  | [], lo, k, v, _, hk => by
    by_cases hv : v = d
    · simp [Tab.set, hv, Tab.wfFrom]
    · simp [Tab.set, hv, Tab.wfFrom, hk]
  | (j, u) :: t, lo, k, v, h, hk => by
    have h' := h
    simp only [Tab.wfFrom, Bool.and_eq_true, decide_eq_true_eq] at h
    obtain ⟨⟨hj, hu⟩, ht⟩ := h
    unfold Tab.set
    split
    · rename_i hjk
      have := Tab.wfFrom_set d t (j + 1) k v ht (by omega)
      simp [Tab.wfFrom, hj, hu, this]
    · split
      · rename_i _ hjk
        split
        · exact Tab.wfFrom_lower d t (by omega) ht
        · rename_i hv
          simp [Tab.wfFrom, hk, hv]
          exact hjk ▸ ht
      · rename_i h1 h2
        split
        · exact h'
        · rename_i hv
          have hlt : k + 1 ≤ j := by omega
          simp [Tab.wfFrom, hk, hv, hlt, hu, ht]

/-- Setting an entry keeps the canonical form. -/
theorem Tab.wf_set (d : α) (t : Tab α) (k : Nat) (v : α) (h : Tab.wf d t = true) : Tab.wf d (Tab.set d t k v) = true :=
  Tab.wfFrom_set d t 0 k v h (Nat.zero_le k)

/-- The entry that was set reads as set. -/
theorem Tab.get_set_same (d : α) : ∀ (t : Tab α) (lo k : Nat) (v : α), Tab.wfFrom d lo t = true →
    Tab.get d (Tab.set d t k v) k = v
  | [], _, k, v, _ => by
    by_cases hv : v = d
    · simp [Tab.set, hv, Tab.get]
    · simp [Tab.set, hv, Tab.get]
  | (j, u) :: t, lo, k, v, h => by
    simp only [Tab.wfFrom, Bool.and_eq_true, decide_eq_true_eq] at h
    obtain ⟨_, ht⟩ := h
    unfold Tab.set
    split
    · rename_i hjk
      have hne : j ≠ k := by omega
      simp [Tab.get, hne, hjk, Tab.get_set_same d t (j + 1) k v ht]
    · split
      · rename_i _ hjk
        split
        · rename_i hv
          rw [hv]
          exact Tab.get_below d t (j + 1) k ht (by omega)
        · simp [Tab.get]
      · rename_i h1 h2
        split
        · rename_i hv
          have hl : ¬ j < k := h1
          simp [Tab.get, h2, hl, hv]
        · simp [Tab.get]

/-- An entry that was not set reads as before. -/
theorem Tab.get_set_other (d : α) : ∀ (t : Tab α) (lo k i : Nat) (v : α), Tab.wfFrom d lo t = true → i ≠ k →
    Tab.get d (Tab.set d t k v) i = Tab.get d t i
  | [], _, k, i, v, _, hi => by
    have hne : k ≠ i := fun e => hi e.symm
    by_cases hv : v = d
    · simp [Tab.set, hv, Tab.get]
    · simp [Tab.set, hv, Tab.get, hne]
  | (j, u) :: t, lo, k, i, v, h, hi => by
    simp only [Tab.wfFrom, Bool.and_eq_true, decide_eq_true_eq] at h
    obtain ⟨_, ht⟩ := h
    have hne : k ≠ i := fun e => hi e.symm
    unfold Tab.set
    split
    · by_cases hji : j = i
      · simp [Tab.get, hji]
      · by_cases hlt : j < i
        · simp [Tab.get, hji, hlt, Tab.get_set_other d t (j + 1) k i v ht hi]
        · simp [Tab.get, hji, hlt]
    · split
      · rename_i _ hjk
        have hji : j ≠ i := by omega
        split
        · by_cases hlt : j < i
          · simp [Tab.get, hji, hlt]
          · simp [Tab.get, hji, hlt]
            exact Tab.get_below d t (j + 1) i ht (by omega)
        · by_cases hlt : j < i
          · have hki : k < i := by omega
            simp [Tab.get, hne, hki, hji, hlt]
          · have hki : ¬ k < i := by omega
            simp [Tab.get, hne, hki, hji, hlt]
      · rename_i h1 h2
        split
        · rfl
        · by_cases hki : k < i
          · simp [Tab.get, hne, hki]
          · have hji : j ≠ i := by omega
            have hlt : ¬ j < i := by omega
            simp [Tab.get, hne, hki, hji, hlt]

/-- What a table reads as after one entry is set. -/
theorem Tab.get_set (d : α) (t : Tab α) (k i : Nat) (v : α) (h : Tab.wf d t = true) :
    Tab.get d (Tab.set d t k v) i = if i = k then v else Tab.get d t i := by
  by_cases hi : i = k
  · rw [hi]; simp [Tab.get_set_same d t 0 k v h]
  · simp [hi, Tab.get_set_other d t 0 k i v h hi]

/-- Dropping entries by their key keeps the canonical form. -/
theorem Tab.wfFrom_filter (d : α) (p : Nat × α → Bool) : ∀ (t : Tab α) (lo : Nat), Tab.wfFrom d lo t = true →
    Tab.wfFrom d lo (List.filter p t) = true
  | [], _, _ => rfl
  | (j, v) :: t, lo, h => by
    simp only [Tab.wfFrom, Bool.and_eq_true, decide_eq_true_eq] at h
    obtain ⟨⟨hj, hv⟩, ht⟩ := h
    have ih := Tab.wfFrom_filter d p t (j + 1) ht
    by_cases hp : p (j, v) = true
    · simp [List.filter, hp, Tab.wfFrom, hj, hv, ih]
    · simp [List.filter, hp]
      exact Tab.wfFrom_lower d _ (by omega) ih

theorem Tab.wf_keep (d : α) (p : Nat → Bool) (t : Tab α) (h : Tab.wf d t = true) : Tab.wf d (Tab.keep p t) = true :=
  Tab.wfFrom_filter d _ t 0 h

theorem Tab.wf_drop (d : α) (t : Tab α) (lo hi : Nat) (h : Tab.wf d t = true) : Tab.wf d (Tab.drop t lo hi) = true :=
  Tab.wfFrom_filter d _ t 0 h

theorem Tab.wf_mod (d : α) (t : Tab α) (k : Nat) (f : α → α) (h : Tab.wf d t = true) : Tab.wf d (Tab.mod d t k f) = true :=
  Tab.wf_set d t k _ h

theorem Tab.wf_nil (d : α) : Tab.wf d ([] : Tab α) = true := rfl

/-- Changing every entry keeps the canonical form. -/
theorem Tab.wfFrom_mapAll (d : α) (f : Nat → α → α) : ∀ (t : Tab α) (lo : Nat), Tab.wfFrom d lo t = true →
    Tab.wfFrom d lo (Tab.mapAll d f t) = true
  | [], _, _ => rfl
  | (j, v) :: t, lo, h => by
    simp only [Tab.wfFrom, Bool.and_eq_true, decide_eq_true_eq] at h
    obtain ⟨⟨hj, _⟩, ht⟩ := h
    have ih := Tab.wfFrom_mapAll d f t (j + 1) ht
    by_cases hf : f j v = d
    · simp [Tab.mapAll, hf]
      exact Tab.wfFrom_lower d _ (by omega) ih
    · simp [Tab.mapAll, hf, Tab.wfFrom, hj, ih]

theorem Tab.wf_mapAll (d : α) (f : Nat → α → α) (t : Tab α) (h : Tab.wf d t = true) : Tab.wf d (Tab.mapAll d f t) = true :=
  Tab.wfFrom_mapAll d f t 0 h

end Sys2Proof
end

