-- ==== Sys2Proof/Laws/Memory.lean ====
section
/-! SUPPORT. The store's bytes: every operation that writes or drops bytes keeps their canonical form, and a write leaves every
other key alone. -/
namespace Sys2Proof.Machine

theorem Memory.wf_writeMem (region : Nat) : ∀ (l : List Byte) (off : Nat) (m : List Host.Cell), Memory.wf m = true →
    Memory.wf (writeMem region off l m) = true
  | [], _, _, h => h
  | b :: t, off, m, h => Memory.wf_writeMem region t (off + 1) _ (Tab.wf_set 0 m (storeKey region off) b h)

/-- Keys of no written byte read as before. -/
theorem get_writeMem_other (region : Nat) : ∀ (l : List Byte) (off k : Nat) (m : List Host.Cell), Memory.wf m = true →
    (∀ j, j < l.length → k ≠ storeKey region (off + j)) → Tab.get 0 (writeMem region off l m) k = Tab.get 0 m k
  | [], _, _, _, _, _ => rfl
  | b :: t, off, k, m, h, hk => by
    have h0 : k ≠ storeKey region off := hk 0 (Nat.succ_pos _)
    have ht : ∀ j, j < t.length → k ≠ storeKey region (off + 1 + j) := fun j hj => by
      have := hk (j + 1) (Nat.succ_lt_succ hj)
      rwa [Nat.add_assoc, Nat.add_comm 1 j]
    rw [writeMem, get_writeMem_other region t (off + 1) k _ (Tab.wf_set 0 m _ b h) ht, Tab.get_set 0 m _ k b h, if_neg h0]

/-- Offsets below 2^48 of different regions or places have different keys. -/
theorem storeKey_ne {i j o p : Nat} (ho : o < 2 ^ 48) (hp : p < 2 ^ 48) (h : i ≠ j ∨ o ≠ p) : storeKey i o ≠ storeKey j p := by
  unfold storeKey; omega

/-- Reads rest on the store's bytes alone. -/
theorem readBytes_congr {s t : State} (h : s.store.mem = t.store.mem) (i : Nat) : ∀ (off n : Nat), readBytes s i off n = readBytes t i off n
  | _, 0 => rfl
  | off, n + 1 => by rw [readBytes, readBytes, State.byte, State.byte, h, readBytes_congr h i (off + 1) n]

/-- Bytes read back as a list as they were written. -/
theorem readBytes_writeBytes (s : State) (i : Nat) : ∀ (off : Nat) (l : List Byte), s.Inv →
    readBytes (s.writeBytes i off l) i off l.length = l
  | _, [], _ => rfl
  | off, b :: t, h => by
    have h1 : (s.writeBytes i off [b]).Inv := Memory.wf_writeMem i [b] off _ h
    have e : s.writeBytes i off (b :: t) = (s.writeBytes i off [b]).writeBytes i (off + 1) t := rfl
    have hb : (s.writeBytes i off (b :: t)).byte i off = b := by
      have := get_writeMem_other i t (off + 1) (storeKey i off) (Tab.set 0 s.store.mem (storeKey i off) b)
        (Tab.wf_set 0 _ _ b h) (fun j _ => by unfold storeKey; omega)
      exact this.trans ((Tab.get_set 0 s.store.mem (storeKey i off) (storeKey i off) b h).trans (if_pos rfl))
    rw [List.length_cons, readBytes, hb, e, readBytes_writeBytes (s.writeBytes i off [b]) i (off + 1) t h1]

theorem State.Inv_writeBytes (s : State) (region off : Nat) (l : List Byte) (h : s.Inv) : (s.writeBytes region off l).Inv :=
  Memory.wf_writeMem region l off _ h

theorem State.Inv_setPoison (s : State) (region line : Nat) (b : Bool) (h : s.Inv) : (s.setPoison region line b).Inv := h

theorem State.Inv_writeLinePart (s : State) (region off : Nat) (l : List Byte) (h : s.Inv) : (s.writeLinePart region off l).Inv := by
  unfold State.writeLinePart
  have hw := s.Inv_writeBytes region off l h
  dsimp only
  split
  · exact hw
  · exact hw

theorem State.Inv_wipeRegion (s : State) (i : Nat) (h : s.Inv) : (s.wipeRegion i).Inv :=
  Tab.wf_drop 0 s.store.mem _ _ h

theorem State.Inv_zeroPinned (s : State) (h : s.Inv) : s.zeroPinned.Inv := by
  exact Tab.wf_keep (0 : Byte) (fun k => decide ((s.region (k / 2 ^ 48)).cls = clsDeep)) s.store.mem h

theorem State.Inv_scrubbed (s : State) (region line : Nat) (received : List Byte) (l : Option (List Byte)) (h : s.Inv) :
    (match l with
      | some v => (s.writeBytes region (64 * line) v).setPoison region line false
      | none => (s.writeBytes region (64 * line) received).setPoison region line true).Inv := by
  cases l
  · exact s.Inv_writeBytes region _ received h
  · exact s.Inv_writeBytes region _ _ h

theorem State.Inv_advanceTo (s : State) (now : Nat) (h : s.Inv) : (s.advanceTo now).Inv := by
  unfold State.Inv; rw [State.advanceTo_store]; exact h

theorem State.Inv_modRegion (s : State) (i : Nat) (f : Region → Region) (h : s.Inv) : (s.modRegion i f).Inv := h

theorem State.Inv_setSector (s : State) (i j : Nat) (x : Sector) (h : s.Inv) : (s.setSector i j x).Inv := h

theorem State.reset_wf : Memory.wf State.reset.store.mem = true := rfl

end Sys2Proof.Machine
end

