-- ==== Sys2Proof/Laws/Taken.lean ====
section
/-! SUPPORT. What the ingress checks do with a frame that passes them: one lemma per shared check, which says that the
frame's own handling goes on from the state after the checks. -/
namespace Sys2Proof.Machine

theorem State.encapOk_of_boot {s t : State} (e : t.boot = s.boot) (h : Hdr) : t.encapOk h = s.encapOk h := by
  simp [State.encapOk, State.portCfg, e]

/-- Steps 1 to 3 of R72 passed. -/
theorem linkChecks_taken {mgmt : Bool} {h : Hdr} {fixed : Nat} {s : State} (ok : FrameTaken mgmt h fixed s) (k : State → State) :
    linkChecks mgmt h fixed k s = k (s.afterLink h) := by
  obtain ⟨_, arr, chk, tag, en, hf, hr, dr, mc, bp, hc⟩ := ok
  have he : ((s.advanceTo h.now).bump 0 h.port 0).encapOk h = true := by
    rw [State.encapOk_of_boot (s := s) (by simp [State.bump]), en]
  have hm : (!mgmt && (s.advanceTo h.now).macClosed h.port h.sub) = false := by
    cases mgmt <;> simp_all
  have hb : (((s.advanceTo h.now).bump 0 h.port 0).bufferPlace (subKey h.port h.sub) h.pcp (bufferBytes h.length)).isNone = false := by
    cases hx : (((s.advanceTo h.now).bump 0 h.port 0).bufferPlace (subKey h.port h.sub) h.pcp (bufferBytes h.length)) <;> simp_all
  have h1 : ¬ h.received < h.length := by omega
  have h2 : ¬ h.length < fixed := by omega
  simp only [linkChecks, arr, chk, tag, dr, hm, he, hb, hc, h1, h2, State.afterLink]
  simp

/-- A consumed frame that is taken goes on to its opcode. -/
theorem consumed_taken {h : Hdr} {fixed : Nat} {s : State} (ok : FrameTaken false h fixed s) (k : State → State) :
    consumed h fixed k s = k (s.afterLink h) := by
  simp [consumed, ok.1, linkChecks_taken ok]

/-- A response that is taken goes to the request that it answers. -/
theorem answerTo_taken {h : Hdr} {q : Issued} {s : State} (ok : AnswerTaken h q s) (k : Issued → State → State) :
    answerTo h k s = k q (s.afterLink h) := by
  obtain ⟨e, ok⟩ := ok
  simp [answerTo, e, consumed_taken ok]

/-- A management frame whose trailer verifies goes on. -/
theorem managed_taken {h : Hdr} {t : Trailer} {fixed : Nat} {s : State} (ok : ManagedTaken h t fixed s) (k : State → State) :
    managed h t fixed k s = k (s.afterTrailer h t) := by
  simp [managed, ok.1.1, linkChecks_taken ok.1, trailerChecked, ok.2, State.afterTrailer]

/-- A management frame whose trailer fails is counted and discarded (R95). -/
theorem managed_rejected {h : Hdr} {t : Trailer} {fixed : Nat} {s : State} (ok : FrameTaken true h (fixed + 40) s)
    (bad : trailerOk h t (s.afterLink h) = false) (k : State → State) :
    managed h t fixed k s = (s.afterLink h).bump 11 0 5 := by
  simp [managed, ok.1, linkChecks_taken ok, trailerChecked, bad]

/-- An authenticated step frame goes on. -/
theorem authenticated_taken {h : Hdr} {t : Trailer} {fixed : Nat} {s : State} (ok : StepTaken h t fixed s) (k : State → State) :
    authenticated h t fixed k s = k (s.afterTrailer h t) := by
  simp [authenticated, consumed_taken ok.1, trailerChecked, ok.2.1, State.afterTrailer]

/-- A new order of a registered manager goes on once it is kept for repetitions. -/
theorem orderRequest_taken {o : Order} {s : State} (ok : OrderTaken o s) (k : OrderRef → State → State) :
    orderRequest o k s = k o.ref (s.orderTaken o) := by
  obtain ⟨ok, hz, hx, hr⟩ := ok
  have hf : (s.comps.results.find? fun r => decide (r.manager = o.hdr.src) && decide (r.orderId = o.orderId)) = none := by
    rw [List.find?_eq_none]
    intro r hm
    have := List.all_eq_true.mp hr r hm
    simp at this ⊢
    intro e; rcases this with h | h
    · exact absurd e h
    · exact h
  simp [orderRequest, managed_taken ok, zeroChecked, hz, hf, hx, State.orderTaken, Order.ref]

/-- A member's request that is admitted goes on. -/
theorem memberRequest_taken {h : Hdr} {fixed : Nat} {block pointers : List Handle} {s : State}
    (ok : MemberTaken h fixed block pointers s) (opcode : Byte) (fail zero : List Byte) (k : State → State) :
    memberRequest h opcode fixed none fail zero block pointers k s = k (s.afterLink h) := by
  obtain ⟨ok, hz, ha, hx, hc⟩ := ok
  simp [memberRequest, consumed_taken ok, memberChecked, hz, ha, hx, hc]

/-- Before admission a member's request is answered NOT_ADMITTED (R74). -/
theorem memberRequest_unadmitted {h : Hdr} {fixed : Nat} {s : State} (ok : FrameTaken false h fixed s)
    (no : s.boot.admitted = false ∨ s.comps.selfExpelled = true) (opcode : Byte) (valid : Option Byte) (fail zero : List Byte)
    (block pointers : List Handle) (k : State → State) :
    memberRequest h opcode fixed valid fail zero block pointers k s = (s.afterLink h).respond h opcode stNotAdmitted fail := by
  rcases no with h1 | h1 <;> simp [memberRequest, consumed_taken ok, memberChecked, h1]

/-- A member's request with a field out of range is answered with its status (R70). -/
theorem memberRequest_invalid {h : Hdr} {fixed : Nat} {s : State} (ok : FrameTaken false h fixed s) (hz : h.zeroed = true)
    (ha : s.boot.admitted = true) (hx : s.comps.selfExpelled = false) (opcode st : Byte) (fail zero : List Byte)
    (block pointers : List Handle) (k : State → State) :
    memberRequest h opcode fixed (some st) fail zero block pointers k s = (s.afterLink h).respond h opcode st fail := by
  simp [memberRequest, consumed_taken ok, memberChecked, hz, ha, hx]

/-- A member's request that fails the composition check is a violation, answered OK with zeros (R102, R431). -/
theorem memberRequest_violation {h : Hdr} {fixed : Nat} {block pointers : List Handle} {s : State} {reason : Nat}
    (ok : FrameTaken false h fixed s) (hz : h.zeroed = true) (hm : h.cid ≠ 0) (ha : s.boot.admitted = true)
    (hx : s.comps.selfExpelled = false) (hc : compositionCheck (s.afterLink h) h block pointers = some reason)
    (opcode : Byte) (fail zero : List Byte) (k : State → State) :
    memberRequest h opcode fixed none fail zero block pointers k s =
      ((s.afterLink h).violation h.cid h.src h.port reason).respond h opcode stOk zero := by
  simp [memberRequest, consumed_taken ok, memberChecked, hz, ha, hx, hc]
  exact fun e => absurd e hm

end Sys2Proof.Machine
end

