-- ==== Sys2Proof/WellFormed.lean ====
section
/-! DEFINITION. Which commands are well formed: the units they name exist (R10, R249, R250), and a grid instruction is one
that R275 does not reserve. The bytes that the trailer of an authenticated frame covers are those of the frame that the command is (R67,
R94, R96). The meanings need no well-formed command: a command that names no unit changes nothing. -/
namespace Sys2Proof
open Sys2Proof.Machine

/-- The frame arrives at a sub-port of one of the 32 ports, at one of eight priorities (R10, R548). -/
def hdrOk (h : Hdr) : Bool := decide (h.port < 32) && decide (h.sub < 8) && decide (h.pcp < 8)

/-- The thread lies on one of the 1,024 cores (R10); its number is 2,048·p plus its index in program p. -/
def issueOk (i : Issue) : Bool := decide (i.thread.core < 1024) && decide (i.thread.ctx < 8192)

/-- The bytes stand where the fields say. -/
def fieldsStand (l : List Byte) (fields : List (Nat × List Byte)) : Bool :=
  fields.all fun e => decide ((l.drop e.1).take e.2.length = e.2)

/-- The 24 bytes of the header with its hop fields zero (R67, R94). -/
def headBytes (h : Hdr) (opcode : Nat) (notice : Bool) : List Byte :=
  beBytes 1 (0x20 + (if notice then 4 else 0) + (if h.ce then 2 else 0)) ++ beBytes 1 opcode ++ beBytes 2 h.dst.toNat ++
    beBytes 2 h.src.toNat ++ beBytes 2 h.cid.toNat ++ beBytes 1 h.gen.toNat ++ beBytes 1 h.status.toNat ++ beBytes 2 h.length ++
    beBytes 4 h.tag.toNat ++ zeros 4 ++ beBytes 4 h.reserved.toNat

/-- An authenticated frame: its trailer covers its header and a payload that holds these fields; the payload's reserved bytes may hold
anything (R94). -/
def frameOk (h : Hdr) (t : Trailer) (opcode : Nat) (notice : Bool) (fields : List (Nat × List Byte)) : Bool :=
  hdrOk h && decide (t.text.length + 16 = h.length) && decide (t.text.take 24 = headBytes h opcode notice) &&
    fieldsStand (t.text.drop 24) fields

/-- A MGMT_ORDER with its order code, its order_id and these operands (R96). -/
def orderOk (o : Order) (code : Nat) (operands : List (Nat × List Byte)) : Bool :=
  frameOk o.hdr o.trailer 0x72 false
    ((0, beBytes 2 code) :: (4, beBytes 4 o.orderId.toNat) :: operands.map fun e => (8 + e.1, e.2))

def instrWf : Instr → Bool
  | .add i _ => issueOk i
  | .sub i _ => issueOk i
  | .and i _ => issueOk i
  | .or i _ => issueOk i
  | .xor i _ => issueOk i
  | .sll i _ => issueOk i
  | .srl i _ => issueOk i
  | .sra i _ => issueOk i
  | .slt i _ => issueOk i
  | .sltu i _ => issueOk i
  | .mul i _ => issueOk i
  | .mulhu i _ => issueOk i
  | .divu i _ => issueOk i
  | .remu i _ => issueOk i
  | .min i _ => issueOk i
  | .max i _ => issueOk i
  | .sextb i _ => issueOk i
  | .sexth i _ => issueOk i
  | .sextw i _ => issueOk i
  | .addi i _ => issueOk i
  | .andi i _ => issueOk i
  | .ori i _ => issueOk i
  | .xori i _ => issueOk i
  | .slti i _ => issueOk i
  | .sltiu i _ => issueOk i
  | .shi i f => issueOk i && gridOperandsOk (.shi i f)
  | .lui i _ => issueOk i
  | .jal i _ => issueOk i
  | .jalr i _ => issueOk i
  | .beq i _ => issueOk i
  | .bne i _ => issueOk i
  | .blt i _ => issueOk i
  | .bge i _ => issueOk i
  | .bltu i _ => issueOk i
  | .bgeu i _ => issueOk i
  | .sld i _ => issueOk i
  | .sst i _ => issueOk i
  | .samo i _ => issueOk i
  | .vsld i _ => issueOk i
  | .vsst i _ => issueOk i
  | .ld i f => issueOk i && gridOperandsOk (.ld i f)
  | .st i f => issueOk i && gridOperandsOk (.st i f)
  | .amo i _ => issueOk i
  | .vld i f => issueOk i && gridOperandsOk (.vld i f)
  | .vst i f => issueOk i && gridOperandsOk (.vst i f)
  | .bget i f => issueOk i && gridOperandsOk (.bget i f)
  | .bput i _ => issueOk i
  | .send i _ => issueOk i
  | .recv i _ => issueOk i
  | .halt i _ => issueOk i
  | .switch i _ => issueOk i
  | .twait i _ => issueOk i
  | .rdsdc i _ => issueOk i
  | .sacq i _ => issueOk i
  | .srel i _ => issueOk i
  | .sysRelease i _ => issueOk i
  | .rdinfo i _ => issueOk i
  | .rdcyc i _ => issueOk i
  | .vadd i f => issueOk i && gridOperandsOk (.vadd i f)
  | .vsub i f => issueOk i && gridOperandsOk (.vsub i f)
  | .vmul i f => issueOk i && gridOperandsOk (.vmul i f)
  | .vfma i f => issueOk i && gridOperandsOk (.vfma i f)
  | .vfms i f => issueOk i && gridOperandsOk (.vfms i f)
  | .vmin i f => issueOk i && gridOperandsOk (.vmin i f)
  | .vmax i f => issueOk i && gridOperandsOk (.vmax i f)
  | .vabs i f => issueOk i && gridOperandsOk (.vabs i f)
  | .vneg i f => issueOk i && gridOperandsOk (.vneg i f)
  | .vdiv i f => issueOk i && gridOperandsOk (.vdiv i f)
  | .vsqrt i f => issueOk i && gridOperandsOk (.vsqrt i f)
  | .vdot i f => issueOk i && gridOperandsOk (.vdot i f)
  | .vdotmx i f => issueOk i && gridOperandsOk (.vdotmx i f)
  | .vcvt i f => issueOk i && gridOperandsOk (.vcvt i f)
  | .vand i f => issueOk i && gridOperandsOk (.vand i f)
  | .vor i f => issueOk i && gridOperandsOk (.vor i f)
  | .vxor i f => issueOk i && gridOperandsOk (.vxor i f)
  | .vsel i f => issueOk i && gridOperandsOk (.vsel i f)
  | .vcmpeq i f => issueOk i && gridOperandsOk (.vcmpeq i f)
  | .vcmplt i f => issueOk i && gridOperandsOk (.vcmplt i f)
  | .vcmple i f => issueOk i && gridOperandsOk (.vcmple i f)
  | .vbcast i f => issueOk i && gridOperandsOk (.vbcast i f)
  | .vext i f => issueOk i && gridOperandsOk (.vext i f)
  | .vins i f => issueOk i && gridOperandsOk (.vins i f)
  | .vmts i f => issueOk i && gridOperandsOk (.vmts i f)
  | .vstm i f => issueOk i && gridOperandsOk (.vstm i f)
  | .vdeq i f => issueOk i && gridOperandsOk (.vdeq i f)
  | .xclr i f => issueOk i && gridOperandsOk (.xclr i f)
  | .xadd i f => issueOk i && gridOperandsOk (.xadd i f)
  | .xdot i f => issueOk i && gridOperandsOk (.xdot i f)
  | .xdotmx i f => issueOk i && gridOperandsOk (.xdotmx i f)
  | .xread i f => issueOk i && gridOperandsOk (.xread i f)
  | .xexp i f => issueOk i && gridOperandsOk (.xexp i f)
  | .ximp i f => issueOk i && gridOperandsOk (.ximp i f)
  | .xflag i f => issueOk i && gridOperandsOk (.xflag i f)
  | .reservedInstruction i _ => issueOk i
  | .storeCompletion _ _ via => via.all hdrOk
  | .rollbackComplete _ _ => true
  | .refresh _ _ _ _ _ => true
  | .read h _ => hdrOk h
  | .readAcquire h _ => hdrOk h
  | .readVolatile h _ => hdrOk h
  | .write h _ _ => hdrOk h
  | .writeFlagged h _ _ => hdrOk h
  | .release h => hdrOk h
  | .atomic h _ _ _ => hdrOk h
  | .publish h _ _ => hdrOk h
  | .cReadShared h _ => hdrOk h
  | .cReadOwn h _ => hdrOk h
  | .cUpgrade h _ => hdrOk h
  | .cWriteback h _ _ => hdrOk h
  | .cSnoopInv h _ => hdrOk h
  | .cSnoopFwd h _ => hdrOk h
  | .cData h _ _ => hdrOk h
  | .ownTake h _ => hdrOk h
  | .ownGive h _ => hdrOk h
  | .ownGiveComplete _ _ => true
  | .handoffOffer h _ _ _ => hdrOk h
  | .objectWritesDrained _ _ => true
  | .handoffAccept h _ _ => hdrOk h
  | .handoffTransferDone _ _ => true
  | .handoffDecline h _ _ => hdrOk h
  | .handoffDeadline _ _ => true
  | .handoffNotice h _ _ => hdrOk h
  | .handoffDone h _ _ _ _ => hdrOk h
  | .objectQuery h _ => hdrOk h
  | .move h _ _ => hdrOk h
  | .fault h _ _ _ _ _ _ => hdrOk h
  | .resume h _ _ => hdrOk h
  | .invalRange h _ _ _ _ => hdrOk h
  | .invalAck h _ _ _ => hdrOk h
  | .gatherPool h _ _ _ _ _ _ => hdrOk h
  | .rowWrite h _ _ _ _ _ _ => hdrOk h
  | .search h _ _ _ _ _ _ _ _ => hdrOk h
  | .ckptCompress h _ _ _ _ _ _ => hdrOk h
  | .ckptRestore h _ _ _ _ => hdrOk h
  | .stepOpen h t step => frameOk h t 0x40 false [(0, beBytes 4 step.toNat)]
  | .stepCommit h t step => frameOk h t 0x41 false [(0, beBytes 4 step.toNat)]
  | .commitSequenceEnd _ _ => true
  | .rollback h t step => frameOk h t 0x42 false [(0, beBytes 4 step.toNat)]
  | .eclipse h t step origin cause =>
    frameOk h t 0x43 false [(0, beBytes 4 step.toNat), (4, beBytes 2 origin.toNat), (6, beBytes 1 cause.toNat)]
  | .eclipseQuiesced _ _ => true
  | .eclipseRestore _ _ => true
  | .eclipseComplete _ _ => true
  | .mirrorWrite h _ _ _ => hdrOk h
  | .parityDelta h _ _ _ => hdrOk h
  | .replicaAnswer h _ _ => hdrOk h
  | .tick h _ _ => hdrOk h
  | .mgmtRead h t addr count => frameOk h t 0x70 false [(0, beBytes 4 addr.toNat), (4, beBytes 2 count.toNat)]
  | .mgmtWrite h t addr values =>
    frameOk h t 0x71 false [(0, beBytes 4 addr.toNat), (4, beBytes 2 values.length), (8, values.flatMap fun x => beBytes 8
      x.toNat)]
  | .mgmtNotice h t code seq body =>
    frameOk h t 0x73 true [(0, beBytes 2 code.toNat), (4, beBytes 4 seq.toNat), (8, body)] && decide (body.length = 56)
  | .expel h t target nonce => frameOk h t 0x74 false [(0, beBytes 2 target.toNat), (8, beBytes 8 nonce.toNat)]
  | .admitDevice h t target _ => frameOk h t 0x75 false [(0, beBytes 2 target.toNat)]
  | .hopAck h _ _ _ _ => hdrOk h
  | .hopNak h _ _ => hdrOk h
  | .unlistedOpcode h _ _ => hdrOk h
  | .v1Frame h _ _ _ _ => hdrOk h
  | .forwardFrame h _ => hdrOk h
  | .otherFrame h _ => hdrOk h
  | .pfcFrame _ port sub _ _ => decide (port < 32) && decide (sub < 8)
  | .pauseExpiry _ port sub pcp => decide (port < 32) && decide (sub < 8) && decide (pcp < 8)
  | .xoffRefresh _ port sub pcp => decide (port < 32) && decide (sub < 8) && decide (pcp < 8)
  | .egressSelect _ port sub => decide (port < 32) && decide (sub < 8)
  | .eapolFrame _ port sub _ => decide (port < 32) && decide (sub < 8)
  | .ptpMessage _ port sub _ _ _ => decide (port < 32) && decide (sub < 8)
  | .neighborSolicitation _ port sub _ _ _ => decide (port < 32) && decide (sub < 8)
  | .replayTimeout _ port sub pcp => decide (port < 32) && decide (sub < 8) && decide (pcp < 8)
  | .hopHoldExpiry _ port sub => decide (port < 32) && decide (sub < 8)
  | .linkTrainingStart _ port sub => decide (port < 32) && decide (sub < 8)
  | .linkUp _ port sub _ _ => decide (port < 32) && decide (sub < 8)
  | .trainingTimeout _ port sub => decide (port < 32) && decide (sub < 8)
  | .linkLoss _ port sub _ => decide (port < 32) && decide (sub < 8)
  | .fecDegrade _ port sub _ => decide (port < 32) && decide (sub < 8)
  | .pfcWatchdog _ port sub pcp => decide (port < 32) && decide (sub < 8) && decide (pcp < 8)
  | .d2dRetryFailure _ link => decide (link < 3)
  | .refclkLoss _ _ => true
  | .vio18Loss _ => true
  | .thermalTrip _ _ _ => true
  | .sensorFault _ _ => true
  | .throttleStep _ _ _ _ _ _ _ _ => true
  | .lowInput _ _ => true
  | .wholeDeviceReset _ => true
  | .inputUndervoltage _ => true
  | .startSequence _ => true
  | .reloadN _ _ _ => true
  | .presentTimer _ => true
  | .requestTimeout _ _ => true
  | .tallyExpiry _ _ => true
  | .deviceResetEntry _ => true
  | .skyEdge _ _ => true
  | .localTick _ => true
  | .tickAbsence _ => true
  | .promote _ entry => decide (entry < 65536)
  | .reserve _ entry => decide (entry < 65536)
  | .commit _ entry => decide (entry < 65536)
  | .calibrate _ entry => decide (entry < 65536)
  | .testWindow _ entry => decide (entry < 65536)
  | .reservationEnd _ _ => true
  | .scheduledRelease _ _ _ => true
  | .promoteDue _ _ => true
  | .calibrationDone _ _ _ => true
  | .calibrationLapse _ _ _ _ => true
  | .sectorFillDone _ _ _ _ _ _ => true
  | .sectorMoveDone _ _ _ => true
  | .flashProgramDone _ _ _ _ => true
  | .garbageCollection _ channel _ _ => decide (channel < 32)
  | .patrolScrub _ _ _ errors => errors.all fun e => decide (e.1 < 80) && decide (e.2 ≠ 0)
  | .regionDrained _ _ => true
  | .retierCopyDone _ _ => true
  | .releaseZeroingDone _ _ => true
  | .snoopAnswer h => hdrOk h
  | .flaggedStorePerform _ _ => true
  | .releaseComplete _ _ => true
  | .publishPerform _ _ => true
  | .moverDispatch _ mover => decide (mover < 64)
  | .walk _ mover => decide (mover < 64)
  | .stagingGrant _ mover => decide (mover < 64)
  | .segmentDone _ mover => decide (mover < 64)
  | .descriptorDone _ mover => decide (mover < 64)
  | .faultSlotCheck _ _ => true
  | .parkedSlotFree _ mover => decide (mover < 64)
  | .invalQuiesce _ mover => decide (mover < 64)
  | .lookup _ _ _ _ => true
  | .heldLookup _ _ _ _ => true
  | .bagWrite _ _ _ => true
  | .migrationCopyTurn _ _ => true
  | .mergeStart _ index => decide (index < 16)
  | .mergeTombstones _ index => decide (index < 16)
  | .mergeRepair _ index => decide (index < 16)
  | .searchBatch _ index => decide (index < 16)
  | .lensVisit _ index _ => decide (index < 16)
  | .searchResults _ index => decide (index < 16)
  | .cuppingPassEnd _ _ _ => true
  | .groupWriteDone _ _ _ => true
  | .restoreGroup _ _ _ => true
  | .rebuildChunk _ _ => true
  | .generationRetired _ _ => true
  | .compReleaseDone _ _ => true
  | .clusterQuiesced _ cluster => decide (cluster < 64)
  | .clusterZeroed _ cluster => decide (cluster < 64)
  | .programLoaded _ _ => true
  | .programUnloaded _ _ => true
  | .blockDrainDone _ _ _ => true
  | .testEnd _ _ _ _ => true
  | .imageProgrammed _ _ => true
  | .attestKeyReady _ _ => true
  | .magnitudeUpdate _ _ => true
  | .dimmTemperaturePoll _ _ => true
  | .coreError _ core _ => decide (core < 1024)
  | .mailboxDelivery _ _ => true
  | .gridResponse _ _ via _ _ => via.all hdrOk
  | .regionCreate o size placement redundancy shape group =>
    orderOk o 0x01 [(0, beBytes 8 size.toNat), (8, beBytes 1 placement.toNat), (9, beBytes 1 redundancy.toNat), (10, beBytes 1
      shape.toNat), (12, beBytes 4 group.toNat)]
  | .regionAssign o rh rights cid gen =>
    orderOk o 0x02 [(0, beBytes 5 rh.toNat), (5, beBytes 1 rights.toNat), (6, beBytes 2 cid.toNat), (8, beBytes 1 gen.toNat)]
  | .regionRevoke o rh => orderOk o 0x03 [(0, beBytes 5 rh.toNat)]
  | .regionRelease o rh => orderOk o 0x04 [(0, beBytes 5 rh.toNat)]
  | .regionRetier o rh placement => orderOk o 0x05 [(0, beBytes 5 rh.toNat), (5, beBytes 1 placement.toNat)]
  | .compCreate o cid gen modes faultAgent journal ring ringCount =>
    orderOk o 0x10 [(0, beBytes 2 cid.toNat), (2, beBytes 1 gen.toNat), (3, beBytes 1 modes.toNat), (4, beBytes 2
      faultAgent.toNat), (8, beBytes 8 journal.toNat), (16, beBytes 5 ring.rh.toNat), (22, beBytes 6 ring.offset.toNat), (28,
      beBytes 4 ringCount.toNat)]
  | .compAgent o cid action flags aid ports =>
    orderOk o 0x11 [(0, beBytes 2 cid.toNat), (2, beBytes 1 action.toNat), (3, beBytes 1 flags.toNat), (4, beBytes 2 aid.toNat),
      (8, beBytes 4 ports.toNat)]
  | .compAdvance o cid modes => orderOk o 0x12 [(0, beBytes 2 cid.toNat), (2, beBytes 1 modes.toNat)]
  | .compRetire o cid => orderOk o 0x13 [(0, beBytes 2 cid.toNat)]
  | .compRelease o cid flags => orderOk o 0x14 [(0, beBytes 2 cid.toNat), (2, beBytes 1 flags.toNat)]
  | .compMeter o cid flags => orderOk o 0x15 [(0, beBytes 2 cid.toNat), (2, beBytes 1 flags.toNat)]
  | .compQuery o cid => orderOk o 0x16 [(0, beBytes 2 cid.toNat)]
  | .agentDead o aid cid => orderOk o 0x20 [(0, beBytes 2 aid.toNat), (2, beBytes 2 cid.toNat)]
  | .orbitDefine o orbit cid period anchor first count =>
    orderOk o 0x30 [(0, beBytes 1 orbit.toNat), (2, beBytes 2 cid.toNat), (4, beBytes 4 period.toNat), (8, beBytes 8
      anchor.toNat), (16, beBytes 4 first.toNat), (20, beBytes 4 count.toNat)]
  | .transitLoad o rh offset first count =>
    orderOk o 0x31 [(0, beBytes 5 rh.toNat), (6, beBytes 6 offset.toNat), (12, beBytes 4 first.toNat), (16, beBytes 4
      count.toNat)]
  | .orbitEnable o orbit enable => orderOk o 0x32 [(0, beBytes 1 orbit.toNat), (8, beBytes 8 enable.toNat)]
  | .orbitDisable o orbit disable => orderOk o 0x33 [(0, beBytes 1 orbit.toNat), (8, beBytes 8 disable.toNat)]
  | .skyRearm o => orderOk o 0x34 []
  | .clusterAssign o mask cid => orderOk o 0x40 [(0, beBytes 8 mask.toNat), (8, beBytes 2 cid.toNat)]
  | .clusterRelease o mask => orderOk o 0x41 [(0, beBytes 8 mask.toNat)]
  | .programLoad o mask program desc =>
    orderOk o 0x42 [(0, beBytes 8 mask.toNat), (8, beBytes 1 program.toNat), (12, beBytes 5 desc.rh.toNat), (18, beBytes 6
      desc.offset.toNat)]
  | .programStart o mask program args =>
    orderOk o 0x43 [(0, beBytes 8 mask.toNat), (8, beBytes 1 program.toNat), (16, args.flatMap fun x => beBytes 8 x.toNat)] &&
      decide (args.length = 5)
  | .programSwitch o mask program => orderOk o 0x44 [(0, beBytes 8 mask.toNat), (8, beBytes 1 program.toNat)]
  | .programUnload o mask program => orderOk o 0x45 [(0, beBytes 8 mask.toNat), (8, beBytes 1 program.toNat)]
  | .rowMigrate o table direction count list =>
    orderOk o 0x50 [(0, beBytes 5 table.rh.toNat), (6, beBytes 6 table.offset.toNat), (12, beBytes 1 direction.toNat), (16,
      beBytes 4 count.toNat), (20, beBytes 5 list.rh.toNat), (26, beBytes 6 list.offset.toNat)]
  | .searchAttach o desc mask program =>
    orderOk o 0x60 [(0, beBytes 5 desc.rh.toNat), (6, beBytes 6 desc.offset.toNat), (12, beBytes 8 mask.toNat), (20, beBytes 1
      program.toNat)]
  | .searchDetach o desc => orderOk o 0x61 [(0, beBytes 5 desc.rh.toNat), (6, beBytes 6 desc.offset.toNat)]
  | .groupDefine o group record =>
    orderOk o 0x70 [(0, beBytes 4 group.toNat), (8, beBytes 5 record.rh.toNat), (14, beBytes 6 record.offset.toNat)]
  | .groupTakeover o group position => orderOk o 0x71 [(0, beBytes 4 group.toNat), (4, beBytes 1 position.toNat)]
  | .groupRebuild o group position spareAid spareRegion =>
    orderOk o 0x72 [(0, beBytes 4 group.toNat), (4, beBytes 1 position.toNat), (6, beBytes 2 spareAid.toNat), (8, beBytes 3
      spareRegion.toNat)]
  | .imageWrite o image length =>
    orderOk o 0x80 [(0, beBytes 5 image.rh.toNat), (6, beBytes 6 image.offset.toNat), (12, beBytes 4 length.toNat)]
  | .reset o scope x y partition mask =>
    orderOk o 0x90 [(0, beBytes 1 scope.toNat), (2, beBytes 1 x.toNat), (3, beBytes 1 y.toNat), (4, beBytes 1 partition.toNat),
      (8, beBytes 8 mask.toNat)]
  | .blockDrain o cls unit => orderOk o 0x91 [(0, beBytes 1 cls.toNat), (2, beBytes 2 unit.toNat)]
  | .blockReturn o cls unit => orderOk o 0x92 [(0, beBytes 1 cls.toNat), (2, beBytes 2 unit.toNat)]
  | .testOrder o cls kind unit margin when testId =>
    orderOk o 0x93 [(0, beBytes 1 cls.toNat), (1, beBytes 1 kind.toNat), (2, beBytes 2 unit.toNat), (4, beBytes 1 margin.toNat),
      (5, beBytes 1 when.toNat), (8, beBytes 4 testId.toNat)]
  | .calibRun o cls kind unit => orderOk o 0x94 [(0, beBytes 1 cls.toNat), (1, beBytes 1 kind.toNat), (2, beBytes 2 unit.toNat)]
  | .deviceReset o target nonce => orderOk o 0x95 [(0, beBytes 2 target.toNat), (8, beBytes 8 nonce.toNat)]
  | .attest o cid nonce report _ =>
    orderOk o 0xa0 [(0, beBytes 2 cid.toNat), (4, beBytes 32 nonce.toNat), (36, beBytes 5 report.rh.toNat), (42, beBytes 6
      report.offset.toNat)]
  | .floorRaise o floor nonce _ => orderOk o 0xa1 [(0, beBytes 1 floor.toNat), (8, beBytes 8 nonce.toNat)]
  | .lcRetire o target nonce _ => orderOk o 0xa2 [(0, beBytes 2 target.toNat), (8, beBytes 8 nonce.toNat)]
  | .macsecCak o target flags ckn wrapped =>
    orderOk o 0xa3 [(0, beBytes 1 target.toNat), (1, beBytes 1 flags.toNat), (2, beBytes 14 ckn.toNat), (16, beBytes 40
      wrapped.toNat)]
  | .portRetrain o port sub => orderOk o 0xb0 [(0, beBytes 1 port.toNat), (1, beBytes 1 sub.toNat)]
  | .cmpRecSel h t value => frameOk h t 0x71 false [(0, beBytes 4 0x400000), (4, beBytes 2 1), (8, beBytes 8 value.toNat)]
  | .swtFwd h t aid value =>
    frameOk h t 0x71 false [(0, beBytes 4 (0x380000 + 8 * aid.toNat)), (4, beBytes 2 1), (8, beBytes 8 value.toNat)]
  | .grdFaultLatch h t core program value =>
    frameOk h t 0x71 false [(0, beBytes 4 (0x810000 + 32 * core + 8 * program)), (4, beBytes 2 1), (8, beBytes 8 value.toNat)] &&
      decide (core < 1024) && decide (program < 4)
  | .hltAlert h t value => frameOk h t 0x71 false [(0, beBytes 4 0x10CF000), (4, beBytes 2 1), (8, beBytes 8 value.toNat)]
  | .pwrPeak h t => frameOk h t 0x70 false [(0, beBytes 4 0x1300008), (4, beBytes 2 1)]
  | .lcManufacture _ _ => true
  | .provision _ _ _ _ => true
  | .jtagToken _ _ _ _ => true
  | .scanTest _ => true
  | .boundaryScan _ _ => true

end Sys2Proof
end

