-- ==== Sys2Proof/Tests/Slice0.lean ====
section
/-! SUPPORT. Tests: ill-formed commands are refused, words of the manual decode, the manual's worked examples come out, and
for every statement with hypotheses a concrete state and operands meet them. -/
open Sys2Proof Sys2Proof.Machine
namespace Sys2Proof.Tests

/-! ### Well-formedness: one ill-formed term for each check -/

/-- A frame on port 0, addressed to AID 5. -/
def hdr (src : Aid) (n pcp : Nat) : Hdr :=
  { now := 2000, port := 0, sub := 0, pcp := pcp, tagged := true, check := .passed, ce := false, dst := 5, src := src, cid := 1, gen := 2
    length := n, received := n, tag := 1, hopSeq := 1, hopAck := 0 }

def issue : Issue := { now := 2000, thread := ⟨0, 0⟩ }

theorem test_wf_core : instrWf (.add { issue with thread := ⟨1024, 0⟩ } ⟨1, 6, 7⟩) = false := by decide
theorem test_wf_context : instrWf (.add { issue with thread := ⟨0, 8192⟩ } ⟨1, 6, 7⟩) = false := by decide
theorem test_wf_issue : instrWf (.add issue ⟨1, 6, 7⟩) = true := by decide
theorem test_wf_shi : instrWf (.shi issue ⟨1, 6, 0x100⟩) = false ∧ instrWf (.shi issue ⟨1, 6, 0xC0⟩) = false := by decide
theorem test_wf_variant : instrWf (.ld issue ⟨1, 2, 3, 3, 3, 0⟩) = false := by decide
theorem test_wf_type : instrWf (.vadd issue { vd := 0, va := 0, vb := 0, msk := 0, ty := 15 }) = false := by decide
theorem test_wf_port : instrWf (.release { hdr 7 8 1 with port := 32 }) = false := by decide
theorem test_wf_sub : instrWf (.release { hdr 7 8 1 with sub := 8 }) = false := by decide
theorem test_wf_pcp : instrWf (.release (hdr 7 8 8)) = false := by decide
theorem test_wf_link : instrWf (.d2dRetryFailure 0 3) = false := by decide
theorem test_wf_entry : instrWf (.promote 0 65536) = false := by decide
theorem test_wf_channel : instrWf (.garbageCollection 0 32 0 true) = false := by decide
theorem test_wf_symbol : instrWf (.patrolScrub 0 1 0 [(80, 1)]) = false ∧ instrWf (.patrolScrub 0 1 0 [(3, 0)]) = false := by decide
theorem test_wf_mover : instrWf (.stagingGrant 0 64) = false := by decide
theorem test_wf_index : instrWf (.mergeStart 0 16) = false := by decide
theorem test_wf_cluster : instrWf (.clusterZeroed 0 64) = false := by decide
theorem test_wf_core_error : instrWf (.coreError 0 1024 .context) = false := by decide
theorem test_wf_latch : instrWf (.grdFaultLatch (hdr 9 56 7) ⟨1, 0, []⟩ 1024 0 0) = false ∧
    instrWf (.grdFaultLatch (hdr 9 56 7) ⟨1, 0, []⟩ 0 4 0) = false := by decide
/-- An ADMIT of AID 5: opcode 0x75, destination 5, source 9, cid 1, generation 2, length 48, tag 1; its payload names AID 5. -/
def admitText : List Byte := beBytes 24 0x207500050009000102000030000000010000000000000000 ++ beBytes 8 0x0005000000000000
theorem test_wf_text : instrWf (.admitDevice (hdr 9 48 7) ⟨1, 0, admitText⟩ 5 []) = true ∧
    instrWf (.admitDevice (hdr 9 48 7) ⟨1, 0, admitText⟩ 6 []) = false ∧
    instrWf (.admitDevice { hdr 9 48 7 with cid := 2 } ⟨1, 0, admitText⟩ 5 []) = false ∧
    instrWf (.admitDevice (hdr 9 48 7) ⟨1, 0, []⟩ 5 []) = false := by decide
theorem test_wf_event_port : instrWf (.egressSelect 0 32 0) = false ∧ instrWf (.egressSelect 0 0 8) = false ∧
    instrWf (.replayTimeout 0 0 0 8) = false := by decide

/-! ### Words of the manual (09, encoding examples) -/

theorem test_decode_add : decodeGrid issue 0x04EE0000 = some (.add issue { sd := 1, sa := 6, sb := 7 }) := by decide
theorem test_decode_bget : decodeGrid issue 0x77B98000 = some (.bget issue { sl := 7, sh := 3, so := 4, sa := 6, var := 0 }) := by decide
theorem test_decode_addi : decodeGrid issue 0x09200040 = some (.addi issue { sd := 2, sa := 2, imm := 0x40 }) := by decide
theorem test_decode_vsld : decodeGrid issue 0x54080000 = some (.vsld issue { vd := 0, sa := 2, imm := 0 }) := by decide
theorem test_decode_xdot : decodeGrid issue 0xC0000050 =
    some (.xdot issue { e := 0, va := 0, vb := 0, msk := 0, ty := 1, sx := 0 }) := by decide
theorem test_decode_blt : decodeGrid issue 0x391FFFFD = some (.blt issue { sa := 2, sb := 1, off := 0xFFFFD }) := by decide
theorem test_decode_sys : decodeGrid issue 0x88000004 = some (.sacq issue ⟨0, 0, 0⟩) ∧
    decodeGrid issue 0x88000005 = some (.srel issue ⟨0, 0, 0⟩) ∧ decodeGrid issue 0x88000000 = some (.halt issue ⟨0, 0, 0⟩) := by decide
theorem test_decode_ld : decodeGrid issue 0x625DC010 =
    some (.ld issue { sd := 4, sh := 5, so := 6, size := 3, var := 2, imm := 0x10 }) := by decide
theorem test_decode_vdotmx : decodeGrid issue 0xAD021F30 =
    some (.vdotmx issue { vd := 8, va := 2, vb := 3, msk := 7, ty := 3 }) := by decide
theorem test_decode_zero : decodeGrid issue 0 = none := by decide
/-- The opcode table of this block gives its rows no bits. -/
theorem test_table_words : decodeTableWord 32 0x04EE0000 = none := by decide

/-! ### Worked examples of the manual -/

/-- Lossless headroom of port P05 (15): 210 KiB over 3 m of copper at an MTU of 4,272 B. -/
theorem test_headroom_copper : headroomKib { mode := 1, mtu := 4272, cable := 3 } = 210 := by decide
theorem test_headroom_split : headroomKib { mode := 4, mtu := 4272, cable := 50 } = 46 := by decide
theorem test_headroom_far : headroomKib { mode := 1, mtu := 4272, cable := 2000 } = 4110 := by decide

/-- The directory set of the line at offset 0xC81A40 of region index 0xB3C (05). -/
theorem test_home_slice : homeSlice 0x32069 0xB3C = 3 := by decide
theorem test_directory_set : dirSetOf 4194304 0x32069 0xB3C = 0x2FD06 := by decide

/-- The terms of port P12 in the worked example of R504 (17): two flaps and one retrain, one of each in the last hour, and
corrected codewords spread evenly. -/
def p12 : List Term :=
  [{ ctr := 3, num := 100 * 4000000000000, den := 40000000000000 },
   { ctr := 5, num := 200, den := 4, factor := 50, ratio := trendRatio 2 1 },
   { ctr := 6, num := 100, den := 4, factor := 50, ratio := trendRatio 1 1 }]

theorem test_magnitude : magnitude p12 = 181 ∧ topCounter p12 = 5 := by decide
/-- 181 is WATCH, and 85 stays there; 10 is GOOD again (R505). -/
theorem test_bands : nextBand 181 0 = 1 ∧ nextBand 85 1 = 1 ∧ nextBand 10 1 = 0 ∧ nextBand 79 1 = 0 ∧ nextBand 80 1 = 1 := by decide

/-- The example of FIPS 197 for AES-256 (R540): its key, its plaintext and its ciphertext. -/
theorem test_aes256 :
    let keys := aesKeys ((List.range 32).map (BitVec.ofNat 8))
    let plain := (List.range 16).map fun j => (BitVec.ofNat 8 (17 * j) : Byte)
    aesEncrypt keys plain = beBytes 16 0x8EA2B7CA516745BFEAFC49904B496089 ∧ aesDecrypt keys (aesEncrypt keys plain) = plain := by
  decide +kernel

/-! ### States that meet the statements' conditions -/

/-- A device in service and admitted, AID 5, with port 0 up, manager 9, and composition 1 of agent 7 with region 1. -/
def ready : State :=
  { now := 1000
    boot :=
      { admitted := true
        cfg :=
          { device :=
              { aid := 5, requestTimeout := 1000000, replayTimeout := 1000, hopHold := 10, handoffDeadline := 10, pcpControl := 7
                pcpEspresso := 6, pcpReplica := 4, pcpBulk := 2 }
            ports := [{ mode := 1, lossless := 0x80, tick := true, headroom := List.replicate 8 200 }]
            managers := [{ aid := 9, ports := 1 }]
            quorum := 1
            mem := { hbmMask := 1, dies := 4, pagesPerBlock := 4, blocksPerDie := 64 }
            carve := { regions := 16, objects := 16, dirBacking := 1048576, sectorCache := 16384, staging := 1048576, journal := 1048576 } }
        installed := [9] }
    switch := { subs := [(0, { link := .up, partner := 9, settled := true })], fwd := [(7, 1), (9, 1)] }
    store :=
      { regions := [(1, { state := .assigned, cid := 1, gen := 2, rights := 7, size := 2097152, chunks := [(0, 0)] })]
        nextFresh := 1
        hbm := [(0, { cap := 64, fresh := 1 })] }
    comps := { entries := [(0, { cid := 1, state := .active, gen := 2, genFloor := 2, agents := [{ aid := 7, ports := 1 }] })] } }

/-- The handle of region 1 of the device itself. -/
def here : Handle := 0x0005000001

/-- A trailer of a manager whose key is zero. -/
def mgr : Trailer := { counter := 1, tag := Config.kmac 0 (beBytes 8 1) mgmtString, text := [] }

theorem mgr_tag {h : Hdr} {s : State} (k : s.managerKey h.src = 0) : tagOk h mgr s = true := by
  simp [tagOk, k, mgr]

theorem mgr_ok {h : Hdr} {s : State} (f : trailerFresh h mgr s = true) (k : s.managerKey h.src = 0) : trailerOk h mgr s = true := by
  simp [trailerOk, f, mgr_tag k]

def order : Order := { hdr := hdr 9 104 7, trailer := mgr, orderId := 1 }

/-- Frames of every fixed length that the data, object and engine opcodes have are taken. -/
theorem witness_frames : ∀ n ∈ [0, 8, 16, 24, 28, 32, 44, 48, 64, 80], FrameTaken false (hdr 7 n 1) n ready := by
  unfold FrameTaken; decide

/-- A request of the device's own to AID 7, with tag 1. -/
def ask (req : OwnReq) (opcode : Byte) : Issued := { id := 1, req := req, opcode := opcode, dst := 7 }

/-- `ready` with that request out. -/
def asked (q : Issued) : State := { ready with reqs := { issued := [q] } }

/-- A response of AID 7 to such a request is taken, whatever the request was for. -/
theorem witness_answers : ∀ op ∈ [0x01, 0x04, 0x14, 0x50, 0x51],
    ∀ q ∈ [.thread 1, .thread 2, .snoop 0 7, .replica 0 0 0, .stripe 0 0, .rebuild 0, .unit, .unitWrite 0 0],
      AnswerTaken (hdr 7 80 1) (ask q op) (asked (ask q op)) := by
  unfold AnswerTaken FrameTaken; decide +kernel

/-- Management frames are taken from manager 9, in hop order on the lossless control class. -/
theorem witness_managed : ManagedTaken (hdr 9 104 7) mgr 64 ready :=
  ⟨by unfold FrameTaken; decide, mgr_ok (by decide) (by decide)⟩

theorem managed_of {h : Hdr} {n : Nat} {s : State} (c : FrameTaken true h (n + 40) s ∧ trailerFresh h mgr (s.afterLink h) = true ∧
    (s.afterLink h).managerKey h.src = 0) : ManagedTaken h mgr n s := ⟨c.1, mgr_ok c.2.1 c.2.2⟩

theorem step_of {h : Hdr} {n : Nat} {s : State} (c : FrameTaken false h (n + 40) s ∧ trailerFresh h mgr (s.afterLink h) = true ∧
    (s.afterLink h).managerKey h.src = 0 ∧ h.zeroed = true) : StepTaken h mgr n s := ⟨c.1, mgr_ok c.2.1 c.2.2.1, c.2.2.2⟩

theorem order_of {h : Hdr} {id : W32} {s : State} (c : FrameTaken true h 104 s ∧ trailerFresh h mgr (s.afterLink h) = true ∧
    (s.afterLink h).managerKey h.src = 0 ∧ h.zeroed = true ∧ s.comps.selfExpelled = false ∧
    s.comps.results.all (fun r => decide (r.manager ≠ h.src) || decide (r.orderId ≠ id)) = true) :
    OrderTaken { hdr := h, trailer := mgr, orderId := id } s := ⟨⟨c.1, mgr_ok c.2.1 c.2.2.1⟩, c.2.2.2⟩

theorem witness_order : OrderTaken order ready := ⟨witness_managed, by decide⟩

/-- A thread of program 0 on core 0 with a vector slot; s1 holds 64. -/
def grid (code : List W32) (pc : Nat) : State :=
  { ready with grid :=
    { clusters :=
        [(0, { state := .assigned, cid := 1, active := some 0
               programs := [(0, { resident := true, code := code, threads := 8, slots := 2, accs := 8, scratchBytes := 8192, queues := 2 })] })]
      cores := [(0, { threads := [(0, { state := .ready, regs := [(1, 64)], pc := pc, slot := some 0 })], held := [0] })] } }

/-- That thread about to issue an instruction. -/
def gridAt (c : Instr) : State := grid [(encodeGrid c).getD 0] 0

def issuesB (i : Issue) (c : Instr) (s : State) : Bool :=
  s.inService && (s.advanceTo i.now).mayIssue i.thread && gridOperandsOk c && (encodeGrid c).isSome &&
    decide (((s.advanceTo i.now).programOf i.thread).code[((s.advanceTo i.now).ctx i.thread).pc]? = encodeGrid c)

theorem issues_of {i : Issue} {c : Instr} {s : State} (h : issuesB i c s = true) : Issues i c s := by
  simp only [issuesB, Bool.and_eq_true, decide_eq_true_eq, Option.isSome_iff_exists] at h
  obtain ⟨⟨⟨⟨sv, mi⟩, ok⟩, w, hw⟩, he⟩ := h
  exact ⟨sv, mi, ok, w, he.trans hw, hw⟩

theorem issues_all {l : List Instr} (h : (l.all fun c => issuesB issue c (gridAt c)) = true) :
    ∀ c ∈ l, Issues issue c (gridAt c) := fun c hc => issues_of (List.all_eq_true.mp h c hc)

/-! ### Witnesses: the grid -/

def fr : FmtR := { sd := 2, sa := 1, sb := 1 }
def fi : FmtI := { sd := 2, sa := 1, imm := 0 }
def fv : FmtV := { vd := 0, va := 1, vb := 0, msk := 0, ty := 0 }
def fx : FmtX := { e := 7, va := 0, vb := 0, msk := 0, ty := 1, sx := 0 }

theorem witness_GridAluResults : ∀ c ∈ [.add issue fr, .sub issue fr, .and issue fr, .or issue fr, .xor issue fr, .sll issue fr,
    .srl issue fr, .sra issue fr, .slt issue fr, .sltu issue fr, .mul issue fr, .mulhu issue fr, .divu issue fr, .remu issue fr,
    .min issue fr, .max issue fr, .sextb issue fr, .sexth issue fr, .sextw issue fr], Issues issue c (gridAt c) :=
  issues_all (by decide)

theorem witness_GridImmediateResults : ∀ c ∈ [.addi issue fi, .andi issue fi, .ori issue fi, .xori issue fi, .slti issue fi,
    .sltiu issue fi, .shi issue { fi with imm := 0xBF }, .lui issue ⟨2, 1⟩], Issues issue c (gridAt c) := issues_all (by decide)

/-- Targets 0, the last index of the code. -/
theorem witness_GridControlTransfers : (∀ c ∈ [.jal issue ⟨2, 0⟩, .jalr issue { fi with sa := 0 }, .beq issue ⟨1, 1, 0⟩,
    .bne issue ⟨1, 1, 0⟩, .blt issue ⟨1, 1, 0⟩, .bge issue ⟨1, 1, 0⟩, .bltu issue ⟨1, 1, 0⟩, .bgeu issue ⟨1, 1, 0⟩],
      Issues issue c (gridAt c)) ∧ ∀ w, ((grid [w] 0).programOf issue.thread).code.length = 1 ∧
    ((grid [w] 0).ctx issue.thread).pc = 0 ∧ ((grid [w] 0).ctx issue.thread).poison = [] :=
  ⟨issues_all (by decide), fun _ => ⟨rfl, rfl, rfl⟩⟩

/-- Targets 1, the first index beyond the code, and -1; an issue at index 1. -/
theorem witness_GridCodeRangeFaults : (∀ c ∈ [.jal issue ⟨2, 1⟩, .jal issue ⟨2, 0x7FFFFF⟩, .jalr issue { fi with imm := 1 },
    .beq issue ⟨1, 1, 1⟩, .bne issue ⟨1, 1, 1⟩, .blt issue ⟨1, 1, 1⟩, .bge issue ⟨1, 1, 1⟩, .bltu issue ⟨1, 1, 1⟩,
    .bgeu issue ⟨1, 1, 0xFFFFF⟩], Issues issue c (gridAt c)) ∧
    (grid [0] 1).inService = true ∧ ((grid [0] 1).advanceTo 2000).mayIssue ⟨0, 0⟩ = true ∧
    (((grid [0] 1).advanceTo 2000).programOf ⟨0, 0⟩).code.length ≤ (((grid [0] 1).advanceTo 2000).ctx ⟨0, 0⟩).pc :=
  ⟨issues_all (by decide), by decide⟩

/-- Address 0, and the last address of the window for each width: the window holds 8,192 bytes, and s1 is 64. -/
theorem witness_GridScratchAccesses : (∀ c ∈ [.sld issue ⟨2, 0, 3, 0⟩, .sst issue ⟨1, 0, 0, 0⟩, .samo issue ⟨2, 1, 1, 1, 9⟩,
    .vsld issue ⟨0, 1, 0⟩, .vsst issue ⟨0, 1, 126⟩], Issues issue c (gridAt c)) ∧
    (64 : Int) + 64 * (126 : BitVec 15).toInt = 8128 ∧ 8128 % 64 = 0 ∧ 8128 + 64 ≤ 8192 := ⟨issues_all (by decide), by decide⟩

/-- Offset 0, s1 = 64 as block length; the last offset of the 48 bits; fewer than 256 requests. -/
theorem witness_GridStoreRequests : (∀ c ∈ [.ld issue ⟨2, 0, 0, 3, 2, 0⟩, .st issue ⟨1, 0, 0, 3, 1, 0⟩, .amo issue ⟨2, 0, 0, 1, 9, 1⟩,
    .vld issue ⟨0, 0, 0, 2, 0⟩, .vst issue ⟨0, 0, 0, 1, 0⟩, .bget issue ⟨1, 0, 0, 0, 0⟩, .bput issue ⟨1, 0, 0, 0, 1⟩],
      Issues issue c (gridAt c)) ∧ (ready.outstanding 0 < 256) ∧ ((grid [] 0).ctx ⟨0, 0⟩).reg 1 = 64 ∧
    (((grid [] 0).core 0).readPoison 0 64).all (fun p => !p) = true := ⟨issues_all (by decide), by decide⟩

/-- A message to queue 0 of core 0, and a RECV of queue 1, the program's last, with a message and without. -/
theorem witness_GridMessages : Issues issue (.send issue ⟨2, 0, 0, 7, 0⟩) (gridAt (.send issue ⟨2, 0, 0, 7, 0⟩)) ∧
    Issues issue (.recv issue ⟨2, 0, 1, 0⟩) (gridAt (.recv issue ⟨2, 0, 1, 0⟩)) ∧
    (let s := gridAt (.recv issue ⟨2, 0, 1, 0⟩)
     let s' := s.setCore 0 { s.core 0 with queues := [(1, [{ data := [1] }])] }
     Issues issue (.recv issue ⟨2, 0, 1, 0⟩) s' ∧ (s'.core 0).queues.get [] 1 = [{ data := [1] }] ∧
       (s.core 0).queues.get [] 1 = []) :=
  ⟨issues_of (by decide), issues_of (by decide), issues_of (by decide), by decide⟩

/-- With a slot, without one while slot 1 is free, and without one while none is. -/
theorem witness_GridSystemResults : (∀ c ∈ [.halt issue fr, .switch issue { fr with sa := 0 }, .twait issue fr, .rdsdc issue fr,
    .sacq issue fr, .srel issue fr, .sysRelease issue fr, .rdinfo issue fr, .rdcyc issue fr], Issues issue c (gridAt c)) ∧
    (let s := gridAt (.sacq issue fr)
     let s' := s.setCtx ⟨0, 0⟩ { s.ctx ⟨0, 0⟩ with slot := none }
     let s'' := s'.setCore 0 { s'.core 0 with held := [0, 1] }
     (Issues issue (.sacq issue fr) s' ∧ Issues issue (.sacq issue fr) s'') ∧ s'.freeSlotOf ⟨0, 0⟩ = some 1 ∧
       s''.freeSlotOf ⟨0, 0⟩ = none ∧ (s.ctx ⟨0, 0⟩).slot = some 0 ∧ (s.program 0 0).resident = true) :=
  ⟨issues_all (by decide), ⟨issues_of (by decide), issues_of (by decide)⟩, by decide⟩

theorem witness_GridVectorArithmetic : (∀ c ∈ [.vadd issue fv, .vsub issue fv, .vmul issue fv, .vmin issue fv, .vmax issue fv,
    .vfma issue fv, .vfms issue fv, .vdiv issue fv, .vsqrt issue fv, .vabs issue fv, .vneg issue fv,
    .vdot issue { fv with ty := 1 }, .vdotmx issue { fv with ty := 3 }], Issues issue c (gridAt c)) ∧
    tyIs 0 arithTypes = true ∧ tyIs 0 floatTypes = true ∧ tyIs 0 [.fp32] = true ∧ tyIs 1 dotTypes = true ∧ tyIs 3 mxTypes = true ∧
    ((grid [] 0).ctx ⟨0, 0⟩).slot.isSome = true ∧ ((grid [] 0).slotOf ⟨0, 0⟩).maskPoison 7 = false :=
  ⟨issues_all (by decide), by decide⟩

theorem witness_GridVectorMoves : (∀ c ∈ [.vand issue fv, .vor issue fv, .vxor issue fv, .vbcast issue fv, .vsel issue fv,
    .vdeq issue fv, .vcmpeq issue fv, .vcmplt issue fv, .vcmple issue fv, .vins issue fv, .vext issue fv, .vmts issue fv,
    .vstm issue fv, .vcvt issue { vd := 0, va := 0, dty := 0, sty := 1, rm := 0, sat := 0, part := 1 }],
      Issues issue c (gridAt c)) ∧ elemWidth (tyOr 0) ≠ 4 ∧ 0 < elemCount (tyOr 0) ∧
    partOk (elemCount (tyOr 0)) (elemCount (tyOr 1)) 1 = true := ⟨issues_all (by decide), by decide⟩

/-- Accumulator 7, the program's last. -/
theorem witness_GridExactSums : (∀ c ∈ [.xclr issue fx, .xadd issue fx, .xdot issue fx, .xdotmx issue { fx with ty := 3 },
    .xread issue fx, .xflag issue fx, .xexp issue fx, .ximp issue fx], Issues issue c (gridAt c)) ∧
    tyIs 1 floatTypes = true ∧ tyIs 1 xdotTypes = true ∧ tyIs 3 mxTypes = true ∧ ((grid [] 0).programOf ⟨0, 0⟩).accs = 8 :=
  ⟨issues_all (by decide), by decide⟩

theorem witness_ReservedWordsAreIllegal : decodeGrid issue 0 = none ∧
    Issues issue (.reservedInstruction issue 0) (gridAt (.reservedInstruction issue 0)) := ⟨by decide, issues_of (by decide)⟩

/-- A load and a store out to another device, and a load whose answer from the home slice is here; a message on its way. -/
theorem witness_GridResponsesComplete :
    (let l : List GridReq := [{ id := 1, thread := ⟨0, 0⟩ }, { id := 2, thread := ⟨0, 0⟩, isWrite := true },
        { id := 3, thread := ⟨0, 0⟩, local_ := true, answer := some (0, [1], 0) },
        { id := 4, thread := ⟨0, 0⟩, isWrite := true, local_ := true, answer := some (0, [], 0) }]
     let s : State := { ready with grid := { reqs := l, transit := [{ msg := { data := [1] } }] } }
     (s.gridReq 1).isSome = true ∧ (s.gridReq 2).isSome = true ∧ (s.gridReq 3).isSome = true ∧ (s.gridReq 4).isSome = true ∧
       s.withdrawn = false ∧ (∀ r ∈ s.grid.reqs, r.heldStore = false) ∧ s.grid.transit[0]?.isSome = true ∧
       ∀ e ∈ [(1, 0x01), (2, 0x04)], AnswerTaken (hdr 7 16 1) { ask (.thread e.1) e.2 with id := 1 }
         { s with reqs := { s.reqs with issued := [ask (.thread e.1) e.2] } }) := by
  unfold AnswerTaken FrameTaken; decide

theorem witness_GridRegisterWrites : Tab.wf {} (grid [] 0).grid.cores = true ∧ Tab.wf {} ((grid [] 0).core 0).threads = true ∧
    Tab.wf 0 ((grid [] 0).ctx ⟨0, 0⟩).regs = true ∧ Tab.wf false ((grid [] 0).ctx ⟨0, 0⟩).poison = true := by decide

/-- A thread without a slot whose program's latch is empty, and one whose latch holds an earlier fault. -/
theorem witness_GridFaultHaltsThread :
    (let s := (grid [] 0).setCtx ⟨0, 0⟩ { (grid [] 0).ctx ⟨0, 0⟩ with slot := none }
     let s' := s.setCore 0 { s.core 0 with latches := [(0, 0x8000000000000001)] }
     Tab.wf {} s.grid.cores = true ∧ Tab.wf {} (s.core 0).threads = true ∧ Tab.wf 0 (s'.core 0).latches = true ∧
       (s.ctx ⟨0, 0⟩).state = .ready ∧ (s.ctx ⟨0, 0⟩).slot = none ∧ (s.ctx ⟨0, 0⟩).wait = .none ∧
       ((s'.core 0).latches.get 0 0).getLsbD 63 = true ∧ ((s.core 0).latches.get 0 0).getLsbD 63 = false) := by decide

/-! ### Witnesses: data, coherence and objects -/

theorem witness_StoreBytesReadBack : Memory.wf ready.store.mem = true ∧ (2 ^ 48 - 1) + [(0xFF : Byte)].length ≤ 2 ^ 48 := by decide +kernel

/-- A member's frame of `n` bytes. -/
theorem member_ready : ∀ n ∈ [8, 16, 24, 32, 44, 48, 64, 80],
    MemberTaken (hdr 7 n 1) n [here] [] ready ∧ MemberTaken (hdr 7 n 1) n [] [] ready ∧ MemberTaken (hdr 7 n 1) n [] [here, here] ready := by
  unfold MemberTaken FrameTaken; decide

/-- `ready` with another region 1. -/
def withRegion (f : Region → Region) : State := ready.modRegion 1 f

def addr (off n : Nat) : Addr := { rh := here, sub := 0, offset := BitVec.ofNat 48 off, count := BitVec.ofNat 32 n }

/-- The access of a frame at the end of region 1, which has 2 MiB. -/
def tail (kind : AccKind) (op : Byte) (n : Nat) : Access :=
  { kind := kind, offset := 2097152 - n, len := n, origin := .frame (hdr 7 16 1) op, src := 7, cid := 1, gen := 2, region := 1 }

/-- Reads, writes and atomics of the least and greatest length at the end of the region are not refused; nor are the
coherence requests of a Coherent-mode region at the coherence PCP. -/
theorem witness_DataRequestsEnterService :
    (∀ n ∈ [1, 4096], ready.refusal (hdr 7 16 1) (tail .read 0x01 n) rightRead = none ∧
      ready.refusal (hdr 7 16 1) (tail .write 0x04 n) rightWrite = none ∧ readValid (addr (2097152 - n) n) = none) ∧
    (∀ n ∈ [4, 8], ready.refusal (hdr 7 48 1) (tail .atomic 0x07 n) rightAtomic = none ∧ atomicSizeOk 9 n = true) ∧ atomicSizeOk 1 16 = true ∧
    (ready.refusal (hdr 7 16 1) (tail .publish 0x08 0) rightWrite = none) ∧
    (let s := withRegion fun r => { r with coherent := true }
     let h := hdr 7 16 (s.coherencePcp 1)
     ∀ k ∈ [.cReadShared, .cReadOwn, .cUpgrade, .cWriteback], s.refusal h (tail k 0x10 64) rightWrite = none) := by decide +kernel

theorem witness_coherence_frames : ∀ n ∈ [16, 80],
    MemberTaken (hdr 7 n 0) n [here] [] (withRegion fun r => { r with coherent := true }) := by
  unfold MemberTaken FrameTaken; decide

/-- Not admitted; a length of 4,097; a stranger's composition; a read beyond the end. -/
theorem witness_RefusedRequestsAreAnswered :
    ¬ ((addr 0 4097).sub = 0 ∧ 1 ≤ (addr 0 4097).count.toNat ∧ (addr 0 4097).count.toNat ≤ 4096) ∧
    compositionCheck (ready.afterLink (hdr 8 16 1)) (hdr 8 16 1) [here] [] = some 4 ∧
    compositionCheck (ready.afterLink (hdr 7 16 1)) (hdr 7 16 1) [here] [] = none ∧
    ready.refusal (hdr 7 16 1) { tail .read 0x01 1 with offset := 2097152 } rightRead = some stBounds := by decide +kernel

/-- The last line of a span, and spans of nobody, of the sender and of another; writes before a request and none; a release and a
give that wait. -/
theorem witness_ReleaseAndOwnershipRequests :
    MemberTaken (hdr 7 8 1) 8 [] [] ready ∧ MemberTaken (hdr 7 16 1) 16 [here] [] ready ∧
    (let a := addr 2097088 0
     let u := ready.afterLink (hdr 7 16 1)
     a.sub = 0 ∧ a.offset.toNat % 64 = 0 ∧ bitsOf a.count.toNat 0 16 = 0 ∧ a.rh = here ∧ (u.localRegion here).getD 0 = 1 ∧
       (u.region 1).coherent = false ∧ u.hasRight (hdr 7 16 1) false 1 rightWrite = true ∧ a.offset.toNat < (u.region 1).size) ∧
    (ready.store.spans.get 0 (spanKey 1 0) = 0 ∧ (ready.setSpan 1 0 7).store.spans.get 0 (spanKey 1 0) = 7 ∧
      (ready.setSpan 1 0 8).store.spans.get 0 (spanKey 1 0) = 8) ∧ ready.reqs.held = [] ∧
    (let s := ready.setHeld [{ tail .write 0x04 8 with id := 0 }]
     s.withdrawn = false ∧ ∀ x ∈ s.reqs.held, x.id < 1 ∧ x.src = 7 ∧ x.kind.isOrderedWrite = true) ∧
    (let w : Waiting := { id := 3, h := hdr 7 8 1 }
     let g : Waiting := { id := 4, h := hdr 7 16 1, give := some (1, 0) }
     let s := (ready.setWaiting [w, g]).setSpan 1 0 7
     s.withdrawn = false ∧ (s.reqs.waiting.find? fun x => decide (x.id = 3) && x.give.isNone) = some w ∧
       (s.reqs.waiting.find? fun x => decide (x.id = 4)) = some g ∧ s.store.spans.get 0 (spanKey 1 0) = g.h.src ∧ s.reqs.held = []) :=
  have h8 := (member_ready 8 (by decide)).2.1
  have h16 := (member_ready 16 (by decide)).1
  ⟨h8, h16, by decide +kernel, by decide +kernel, by decide +kernel, by decide +kernel, by decide +kernel⟩

/-- A transition that awaits data at home, a snoop that is out, and a flagged store that is parked. -/
theorem witness_HeldWorkGoesOn :
    (let k := dirKey (homeSlice 0 1) (dirSetOf 256 0 1) 0
     let t : Transition := { key := k, after := .home, agents := [7], toHome := true }
     let s := (withRegion fun r => { r with coherent := true }).setDir k { state := .exclusive, busy := true, region := dirRegion 1 none, line := 0, cid := 1, ptrs := [7] }
     let s := s.setTransitions [t]
     let u := s.afterLink (hdr 7 80 0)
     (hdr 7 80 0).cid ≠ 0 ∧ cDataCheck u (hdr 7 80 0) here 0 = none ∧ u.findEntry (dirRegion 1 (u.standsFor here)) 0 = some k ∧ u.transition k = some t ∧ t.agents.contains 7 = true ∧
       t.gotData = false ∧ t.after ≠ .discard ∧ u.fencedCid (u.dirEntry k).cid = false) ∧
    FrameTaken false (hdr 7 80 1) 80 ready ∧ AnswerTaken (hdr 7 80 1) (ask (.snoop 0 7) 0x14) (asked (ask (.snoop 0 7) 0x14)) ∧
    (let a := { tail .flagged 0x05 8 with id := 2, parked := true }
     let s := ready.setHeld [a]
     s.withdrawn = false ∧ s.heldAccess 2 = some a ∧ s.earlierWrites 7 1 2 = false) :=
  ⟨by decide +kernel, witness_frames 80 (by decide), witness_answers 0x14 (by decide) (.snoop 0 7) (by decide), by decide +kernel⟩

theorem witness_FramesAcceptedFromNobody : (∀ n ∈ [8, 16, 28], FrameTaken false (hdr 7 n 1) n ready) ∧ ManagedTaken (hdr 9 104 7) mgr 64 ready :=
  ⟨fun n h => witness_frames n (by revert n; decide), witness_managed⟩

def obj (st : Nat) : ObjRec := { state := st, count := 1, ownerAid := 7, ownerCid := 1, regions := [1] }

def withObject (o : ObjRec) : State := ready.setObject 1 o

/-- An OWNED object offered by its owner; a PENDING one for its named receiver 7; one whose notice is still to be sent; one past
its deadline; one accepted whose region has drained. -/
theorem witness_ObjectHandoffs :
    ((withObject (obj 1)).objectIdx (mkHandle 5 1) = some 1 ∧ MemberTaken (hdr 7 16 1) 16 [] [] (withObject (obj 1)) ∧
      MemberTaken (hdr 7 8 1) 8 [] [] (withObject (obj 1))) ∧
    (let s := withObject { obj 2 with recvAid := 7, recvCid := 1 }
     MemberTaken (hdr 7 16 1) 16 [] [] s ∧ (s.object 1).state = 2 ∧ (s.object 1).accepting = false ∧ (s.object 1).noticeSent = false ∧
       s.anchors 1 = true ∧ s.objectWritesDone 1 (s.object 1) = true ∧ (s.object 1).deadline * 1000 ≤ s.now) ∧
    (let s := withObject { obj 2 with recvAid := 7, recvCid := 1, accepting := true, noticeSent := true, regions := [1, 0] }
     let s := s.modRegion 1 fun r => { r with state := .draining }
     let w := s.recallRegion 1
     s.withdrawn = false ∧ s.anchors 1 = true ∧ (s.object 1).accepting = true ∧ (s.object 1).noticeSent = true ∧
       w.inflight 1 = 0 ∧ w.regionEntries 1 = false ∧ w.activeIdx 1 = some 0) := by
  unfold MemberTaken FrameTaken; decide

/-- Sizes of 2 MiB and 256 TiB; a region in each state that an order or event asks for. -/
theorem witness_RegionOrders : OrderTaken order ready ∧
    (let u := ready.orderTaken order
     2097152 % chunkBytes = 0 ∧ 2 ^ 48 % chunkBytes = 0 ∧ u.placementOk 0 = true ∧ shapeOk 0 0 = true ∧ u.memoryDrain = false ∧
       (u.createRegion 2097152 0 0 0 0).isSome = true ∧ u.localRegion here = some 1 ∧ (u.region 1).state = .assigned ∧
       u.activeIdx 1 = some 0 ∧ (u.compAt 0).gen = 2 ∧ (u.allocate 0 1).isSome = true) ∧
    OrderTaken order (withRegion fun r => { r with state := .idle, cid := 0 }) ∧
    (let w := withRegion fun r => { r with state := .draining }
     w.inAcceptedHandoff 1 = false ∧ (w.recallRegion 1).inflight 1 = 0 ∧ (w.recallRegion 1).regionEntries 1 = false) ∧
    (∀ st ∈ [.releasing, .retiering], (withRegion fun r => { r with state := st, order := some order.ref }).region 1 =
      { ready.region 1 with state := st, order := some order.ref }) := by
  refine ⟨witness_order, by decide, order_of (by unfold FrameTaken; decide), by decide, by decide⟩

/-- `ready` whose composition has another generation, and whose floor is retiring. -/
def twoGens : State := ready.modComp 0 fun c => { c with gen := 3, retiring := true }

/-- A cid that is not there; fault rings of 1 and 65,536 entries; agents there and not; G equal to F and not. -/
theorem witness_CompositionOrders : OrderTaken order ready ∧ OrderTaken order twoGens ∧
    (let u := ready.orderTaken order
     u.inServiceSession = false ∧ u.compIdx 2 = none ∧ u.memoryDrain = false ∧ 2097152 % chunkBytes = 0 ∧ u.keptGen 2 1 = false ∧
       u.comps.journalUsed + 1048576 ≤ u.boot.cfg.carve.journal ∧ u.lowestEntry 1024 0 = some 1 ∧ u.activeIdx 1 = some 0 ∧
       u.compIdx 1 = some 0 ∧ (u.compAt 0).agent 8 = none ∧ (u.compAt 0).agents.length = 1 ∧ (u.compAt 0).gen = (u.compAt 0).genFloor) ∧
    (twoGens.activeIdx 1 = some 0 ∧ (twoGens.compAt 0).gen ≠ (twoGens.compAt 0).genFloor ∧ (twoGens.compAt 0).retiring = true ∧
      twoGens.inflightFloor (twoGens.compAt 0) = 0) := by
  refine ⟨witness_order, order_of (by unfold FrameTaken; decide), by decide, by decide⟩

/-- Cluster 0 in a state, of composition 1, program 0 resident on it. -/
def cluster (st : ClusterState) : State :=
  { ready with grid := { clusters := [(0, { state := st, cid := 1, programs := [(0, { resident := true, threads := 1 })] })] } }

def job (load : Bool) : ProgramJob := { order := order.ref, mask := 1, program := 0, code := ⟨here, 0⟩, load := load, checked := true }

theorem witness_ClusterAndProgramOrders :
    (∀ st ∈ [.free, .assigned], OrderTaken order (cluster st)) ∧
    ((cluster .free).orderTaken order).allIn (clustersOf 1) .free = true ∧ clustersOf 1 = [0] ∧
    (let u := (cluster .assigned).orderTaken order
     u.deferredOn 1 = false ∧ u.sharedCid 1 = some 1 ∧ u.searchHeld 1 = false ∧ u.residentOn 1 0 = true ∧ u.programRuns 1 0 = false ∧
       (u.checkLoad 1 { order := order.ref, mask := 1, program := 0, desc := ⟨here, 0⟩, load := true }).2.isSome = true) ∧
    (cluster .releasing).clusterQuiet 0 = true ∧
    (let s := { cluster .assigned with grid := { (cluster .assigned).grid with jobs := [job true, job false] } }
     s.sharedCid 1 = some 1 ∧ s.programQuiet 1 0 = true ∧ s.grid.jobs[0]? = some (job true) ∧ s.grid.jobs[1]? = some (job false) ∧
       (s.unitRead (job true).asker 1 here 0 0).2.waits = false ∧
       (s.unitRead (job true).asker 1 here 0 0).2.status = stOk) := by
  refine ⟨?_, by decide, by decide, by decide +kernel, by decide, by decide +kernel⟩
  intro st h
  simp only [List.mem_cons, List.not_mem_nil, or_false] at h
  rcases h with rfl | rfl <;> exact order_of (by unfold FrameTaken; decide)

/-! ### Witnesses: steps, replicas and movers -/

def withComp (f : Comp → Comp) : State := ready.modComp 0 f

def step (st : StepState) : State := withComp fun c => { c with stepState := st, openStep := 3, committed := 2 }

def stepHdr : Hdr := hdr 9 48 7

theorem step_ready : ∀ st ∈ [.closed, .open_, .unjournalled, .sealed, .fenced], StepTaken stepHdr mgr 8 (step st) := by
  intro st h
  simp only [List.mem_cons, List.not_mem_nil, or_false] at h
  rcases h with rfl | rfl | rfl | rfl | rfl <;> exact step_of (by unfold FrameTaken; decide)

def owed : HeldStep := { h := stepHdr, opcode := 0x41 }

theorem witness_StepsOpenAndCommit :
    (∀ st ∈ [.closed, .open_, .unjournalled, .sealed, .fenced], ((step st).afterTrailer stepHdr mgr).activeIdx 1 = some 0 ∧
      (((step st).afterTrailer stepHdr mgr).compAt 0).stepState = st ∧ (((step st).afterTrailer stepHdr mgr).compAt 0).commits = []) ∧
    (let s := withComp fun c => { c with stepState := .open_, commits := [owed] }
     s.activeIdx 1 = some 0 ∧ (s.compAt 0).commits ≠ [] ∧ s.exclusives 1 = []) := by decide

theorem witness_StepsUndone :
    (let u := (step .open_).afterTrailer stepHdr mgr
     u.threadsRun 1 = false ∧ u.engineBusy 1 = false ∧ ((u.compAt 0).eclipsed 3).isSome = true) ∧
    (let s := withComp fun c => { c with stepState := .eclipsing, rollback := some { owed with opcode := 0x42 } }
     s.withdrawn = false ∧ s.activeIdx 1 = some 0 ∧ (s.compAt 0).rollback.isSome = true ∧ ((s.invalidateAll 1).compAt 0).phase ≠ 5 ∧ (s.invalidateAll 1).liveLines 1 = []) ∧
    (let v := withComp fun c => { c with stepState := .eclipsing, phase := 5 }
     (v.compAt 0).phase = 5 ∧ v.restoring 0 = false) ∧
    (∀ p ∈ [3, 4, 6], let s := withComp fun c => { c with stepState := .eclipsing, phase := p }
      s.activeIdx 1 = some 0 ∧ (s.compAt 0).phase = p ∧ s.eclipseQuiet 1 = true ∧ (s.invalidateAll 1).liveLines 1 = []) := by decide

/-- A mirror group of positions on devices 6 and 5, this device's region 1 being position 1. -/
def mirrored : Group :=
  { kind := 1, k := 1, c := 1, cid := 1, size := 2097152, members := [{ aid := 6, region := 1 }, { aid := 5, region := 1 }] }

def inGroup (g : Group) : State :=
  (withRegion fun r => { r with group := 0, redKind := 1, k := 1, checks := 1 }).setGroup 0 g

theorem witness_ReplicaFramesAndGroups :
    FrameTaken false { hdr 6 32 4 with cid := 1 } 24 (inGroup mirrored) ∧ OrderTaken order (inGroup mirrored) ∧
    (let u := (inGroup mirrored).afterLink (hdr 6 32 4)
     (hdr 6 32 4).zeroed = true ∧ replicaCheck u (hdr 6 32 4) here = none ∧ (u.compAt 0).takesReplica 0 = true ∧
       replicaValid (hdr 6 32 4) { addr 0 8 with sub := 0xFF } (zeros 8) true = none ∧
       replicaValid (hdr 6 32 4) { addr 13 8 with sub := 0xFF } (zeros 8) false = none ∧
       replicaValid (hdr 6 88 4) { addr 1 64 with sub := 0xFE } (zeros 64) true = none ∧
       replicaValid (hdr 6 32 4) (addr 2097144 8) (zeros 8) true = none ∧
       replicaValid (hdr 6 32 4) { addr 2097144 8 with sub := 13 } (zeros 8) false = none) ∧
    (∀ q ∈ [.replica 0 0 0, .stripe 0 0, .rebuild 0, .unit, .unitWrite 0 0], ∀ op ∈ [0x01, 0x50, 0x51],
      AnswerTaken (hdr 7 80 1) (ask q op) (asked (ask q op))) ∧
    (let v := { ready with reqs := { units := [{ id := 1, asker := .mover 0, cid := 1, rh := here, off := 0, len := 64 }] } }
     (v.reqs.units.find? fun y => decide (y.id = 1)).isSome = true) ∧
    (let g := { mirrored with failed := [0], condition := 2, spareAid := 8, spareRegion := 1, sparePosition := 0 }
     let w := inGroup g
     g.hasFailed 0 = true ∧ (w.groupOk g = true) ∧ ((w.defineGroup 0 g).adoptFailed g).adoptedAids.length ≤ 15 ∧
       (w.rebuildSource g).isSome = true ∧ w.copiesOut 0 = false) ∧
    (let s := ready.writeBytes 1 2096960 ([1, 1, 1] ++ zeros 29 ++ [6] ++ zeros 7 ++ [8])
     s.localRegion here = some 1 ∧ 2096960 + 192 ≤ (s.region 1).size ∧ s.groupOk (parseGroup (readBytes s 1 2096960 192)) = true ∧
       groupReserved (readBytes s 1 2096960 192) = true ∧ (s.region 1).state ≠ .free) := by
  refine ⟨by unfold FrameTaken; decide, order_of (by unfold FrameTaken; decide), by decide,
    fun q hq op h => witness_answers op (by revert op; decide) q (by revert q; decide), by decide, by decide, ?_⟩
  decide

def moveReq : MoveReq := { h := hdr 7 16 2, first := ⟨here, 0⟩, count := 1, next := ⟨here, 0⟩ }

/-- A FILL of 64 bytes at the start of region 1. -/
def fill : Desc :=
  { ptr := ⟨here, 0⟩, op := 1, length := 64, dstRef := ⟨here, 0⟩, runs := [{ rh := here, dest := true, writeRight := true, offset := 0, length := 64 }] }

def moving (st : MoverState) (d : Option Desc) : Mover := { state := st, req := some moveReq, desc := d }

def fault0 : WalkFault := {}

def parked0 : Parked := { req := moveReq, desc := fill, fault := fault0 }

theorem witness_MoveRequests : MemberTaken (hdr 7 16 2) 16 [] [here] ready ∧ MemberTaken (hdr 7 32 7) 32 [] [here] ready ∧
    (let u := ready.afterLink (hdr 7 16 2)
     u.fencedCid 1 = false ∧ handleAid here = u.aid ∧ (u.region ((u.localRegion here).getD 0)).cls < clsDeep ∧ u.movers.queue.length < 256) ∧
    256 ≤ (List.replicate 256 moveReq).length ∧
    (let s := ready.setMovers { queue := [moveReq], parked := [parked0] }
     (s.mover 63).req = none ∧ s.movers.queue = [moveReq] ∧
       (s.movers.parked.find? fun p => decide (p.desc.ptr = ⟨here, 0⟩) && decide (p.req.h.cid = 1)) = some parked0 ∧
       (withComp fun c => { c with faultAgent := 7 }).activeIdx 1 = some 0) ∧
    1 + ((2 ^ 64 - 1) : Nat) ≤ 2 ^ 64 := by
  refine ⟨by unfold MemberTaken FrameTaken; decide, by unfold MemberTaken FrameTaken; decide, by decide, (List.length_replicate ..).ge, by decide, by decide⟩

/-- Mover 0 of `ready`. -/
def withMover (m : Mover) : State := ready.setMover 0 m

/-- How a walk came out: with its runs, with a fault, or waiting. -/
def walked : SideRes → Nat
  | .runs _ _ => 0
  | .fault _ => 1
  | .waits => 2

/-- The walk of a descriptor from its start. -/
def walk (s : State) (d : Desc) : SideRes := (walkBoth d 0 64 { st := s.ackAll 0, cid := 1, mover := 0 }).2

/-- A FILL through a translation root whose record is no root: all its bytes are zero. -/
def lost : Desc := { fill with dstVirtual := true, dstRef := ⟨here, 4096⟩ }

theorem witness_MoverProgress : ready.withdrawn = false ∧
    (let s := withMover (moving .translating (some fill))
     (s.mover 0).req = some moveReq ∧ (s.mover 0).desc = some fill ∧ (s.mover 0).state = .translating ∧ (s.mover 0).laid = false ∧
       s.unitBusy 0 = false ∧ s.unitFailure 0 = stOk ∧ walked (walk s fill) = 0 ∧ walked (walk s lost) = 1 ∧
       s.movers.parked.length < 4096) ∧
    (let s := withMover { moving .translating (some fill) with laid := true }
     (s.mover 0).laid = true ∧ (s.mover 0).inval = [] ∧ s.unitBusy 0 = false ∧ s.unitFailure 0 = stOk) ∧
    walked (walk ((withMover (moving .translating (some lost))).setCalib true 0 { busy := some 0 }) lost) = 2 ∧
    (let s := withMover (moving .moving (some fill))
     (((List.range 64).map fun j => (s.movers.lastGrant + 1 + j) % 64).find? fun k => s.wantsBlock k) = some 0 ∧
       s.blocksHeld < s.stagingBlocks) ∧
    (let s := withMover { moving .moving (some fill) with segments := [(0, 64)] }
     let v := s.runSegment 0 moveReq fill 0 64
     (s.mover 0).inval = [] ∧ (s.mover 0).again = [] ∧ s.unitBusy 0 = false ∧ s.unitFailure 0 = stOk ∧ v.2 = some (stOk, false) ∧ v.1.unitBusy 0 = false ∧
       v.1.unitFailure 0 = stOk) ∧
    (let s := withMover (moving .moving (some { fill with bytesDone := 64 }))
     let d := s.markDesc 0 moveReq.h { fill with bytesDone := 64 } dsDone stOk
     (s.mover 0).segments = [] ∧ s.unitBusy 0 = false ∧ d.unitBusy 0 = false ∧ d.unitFailure 0 = stOk) ∧
    ((ready.setMovers { parked := [parked0] }).movers.parked[0]? = some parked0 ∧ parked0.recorded = false ∧
      ∀ c ∈ [none, some 0], ∀ t, c = some t → t + 10000 ≤ 10000) ∧
    (let s := withMover { moving .stalled (some fill) with fault := some fault0 }
     (s.mover 0).fault = some fault0 ∧ s.movers.parked.length < 4096) ∧
    (let v : Inval := { src := 7, h := hdr 7 32 7 }
     ∀ st ∈ [.translating, .moving], let s := withMover { moving st (some fill) with inval := [v] }
       (s.mover 0).inval = [v] ∧ (s.mover 0).wrote = false ∧ s.unitBusy 0 = false ∧ (s.mover 0).laid = false ∧
         (s.mover 0).marked = false ∧ s.unitFailure 0 = stOk ∧
         walked (rewalk fill [v] { st := (s.ackAll 0), cid := 1, mover := 0 }).2.2 = 0) := by
  refine ⟨rfl, by decide +kernel, by decide, by decide +kernel, by decide +kernel, by decide +kernel, by decide +kernel, ?_, by decide +kernel,
    by decide +kernel⟩
  refine ⟨by decide, by decide, fun c hc t h => ?_⟩
  subst h; simp at hc; omega

/-! ### Witnesses: roasters, tables and searches -/

/-- The prologue of a format 1 stream of one byte in 200 bytes, at the start of region 1; its group starts at 128. -/
def stream : State := ready.writeBytes 1 0 (streamHeader 4 1 1 1 200 ++ leBytes 8 128)

def ckpt (restore : Bool) : CkptReq :=
  { h := hdr 7 44 2, id := 1, restore := restore, src := ⟨here, 0⟩, dst := ⟨here, 4096⟩, etype := 4, mode := 1, size := 1, offsets := [128]
    streamLength := 200 }

def roasting (q : CkptReq) : State := ready.setCkpt { service := [q], roasters := [(2, { groups := [(1, 0)] })] }

/-- A request of the least length, and of the greatest destination that the region has; a pass, a write and a restore of the
only group of one byte. -/
theorem witness_CheckpointRequests :
    (compressValid ⟨here, 0⟩ 1 ⟨here, 1⟩ 2097151 4 1 = none ∧
      ((stream.readStream (hdr 7 44 2) false ⟨here, 0⟩ 200 ⟨here, 4096⟩ 1).2.isSome = true ∧
        ((stream.readStream (hdr 7 44 2) false ⟨here, 0⟩ 200 ⟨here, 4096⟩ 1).2.elim false (·.isRight)) = true) ∧
      ((ready.readStream (hdr 7 44 2) false ⟨here, 0⟩ 200 ⟨here, 4096⟩ 1).2.elim false (·.isLeft)) = true) ∧
    MemberTaken (hdr 7 44 2) 44 [] [here, here] ready ∧ MemberTaken (hdr 7 44 2) 44 [] [here, here] stream ∧
    (let q := ckpt false
     let s := roasting q
     let g := (s.unitRead (.ckpt 1 0) 1 here 0 1).2
     s.ckptReq 1 = some q ∧ s.roasterOf 1 0 = some 2 ∧ q.passed 0 = false ∧ s.ckptFailed q = none ∧ g.waits = false ∧ g.status = stOk) ∧
    (let q := { ckpt false with coded := [(0, [1, 2])] }
     let s := roasting q
     q.passed 0 = true ∧ q.written.contains 0 = false ∧ (s.ckptWrite q 4224 [1, 2] []).2 = stOk) ∧
    (let q := ckpt true
     let g := ((roasting q).unitRead (.ckpt 1 0) 1 here 128 72).2
     let rs := decodeGroup q.mode 1 g.data g.poison [1]
     q.groupEnd 0 = 200 ∧ g.waits = false ∧ g.status = stOk ∧
       (((groupBlocks 1 0).zip rs).foldl (fun (x : State × Byte) e =>
          if x.2 ≠ stOk then x else x.1.restoreBlock q 2 e.1 e.2) (roasting q, stOk)).2 = stOk) := by
  unfold MemberTaken FrameTaken
  exact ⟨by decide +kernel, by decide, by decide +kernel, by decide, by decide, by decide +kernel⟩

/-- A table of one row of 16 INT8 elements in region 1, with the row at 4,096, one hot slot at 8,192 and the row's retained
record at 12,288, at the start of the region; the INT8 list of one bag of one entry lies at 256. -/
def tableBytes (rows : Nat) : List Byte :=
  leBytes 4 0 ++ leBytes 4 16 ++ leBytes 8 rows ++ ptrBytesLe ⟨here, 4096⟩ ++ leBytes 4 1 ++ ptrBytesLe ⟨here, 8192⟩ ++ leBytes 4 0 ++
    ptrBytesLe ⟨here, 12288⟩ ++ leBytes 4 0

/-- Who a request of AID 7 with tag 1 is. -/
def asker : Asker := .frame 7 1

def table (rows : Nat) : State := ready.writeBytes 1 0 (tableBytes rows)

/-- The greatest row of a table of one row and of 1,024 rows; the table's own generation; the first and last byte of codes. -/
theorem witness_EmbeddingRequests :
    (∀ n ∈ [24, 48], MemberTaken (hdr 7 n 2) n [] [here, here, here] (table 1024)) ∧
    (∀ b ∈ [true, false],
      let u := (table 1024).afterLink (hdr 7 48 2)
      let q : GatherReq := { h := hdr 7 48 2, table := { primary := ⟨here, 0⟩ }, fmt := 0, index := ⟨here, 0⟩, out := ⟨here, 0⟩, nbags := 1 }
      let g := (u.setEmb { u.emb with ingress := [q] }).unitRead asker 1 here 0 64 (some 2)
      u.emb.ingress = [] ∧ u.emb.queue = [] ∧ u.fencedCid 1 = false ∧ g.2.usable = true ∧
        (((g.1.forget asker).setEmb { g.1.emb with ingress := [] }).takeFromIngress (hdr 7 48 2)).tableOk g.2.data b = true) ∧
    ((table 1024).setEmb { queue := [{ h := hdr 7 48 2, nbags := 1 }] }).emb.service.length < 16 ∧
    (let u := (table 1024).afterLink (hdr 7 24 2)
     let v := u.unitRead asker 1 here 0 64 (some 2)
     let t := parseTable v.2.data
     let p := t.primaryAt 1023
     let x := (v.1.claim asker p).readHeads asker 1 [p]
     let place := t.currentAt 1023 (nth {} x.2.recs 0)
     let c := x.1.unitRead asker 1 place.rh place.off 16
     let targets := rowTargets t 0 1023 (nth {} x.2.recs 0) (parseRow c.2.data) c.2.poison fun r => r
     v.2.usable = true ∧ v.1.tableOk v.2.data true = true ∧ t.replacing = false ∧ (0 : Byte) = t.curGen ∧ 1023 < t.rows ∧
       t.stride - 16 = 16 ∧ v.1.hasRight (hdr 7 24 2) true ((v.1.localRegion p.rh).getD 0) rightWrite = true ∧
       v.1.mayTurn asker p = true ∧ x.2.usable = true ∧ c.2.usable = true ∧ c.1.turnRefusal 1 7 t (targets.map (·.at_)) = none ∧
       (c.1.readHeads asker 1 (targets.map (·.at_))).2.usable = true) ∧
    (∀ f ∈ [0, 0x19], fmtOk f = true) ∧ OrderTaken order (table 1024) ∧
    (let x := (table 1024).orderTaken order
     let v := x.unitRead order.ref.asker 1 here 0 64
     (x.activeIdx 1).isSome = true ∧ x.fencedCid 1 = false ∧ v.2.usable = true ∧ v.1.tableOk v.2.data false = true ∧
       (parseTable v.2.data).hotSlots ≠ 0 ∧ (v.1.unitRead order.ref.asker 1 here 256 16).2.usable = true ∧
       (v.1.unitRead order.ref.asker 1 here 256 65536).2.usable = true) := by
  refine ⟨?_, by decide +kernel, by decide, by decide +kernel, by decide, order_of (by unfold FrameTaken; decide), by decide +kernel⟩
  unfold MemberTaken FrameTaken; decide

/-- A GATHER_POOL of one bag in service; the list's header and entry as they lie at 256. -/
def gather (bag : Bag) : GatherReq :=
  { h := hdr 7 48 2, id := 1, table := parseTable (tableBytes 1), index := ⟨here, 256⟩, out := ⟨here, 16384⟩, nbags := 1
    bags := [(0, { bag with known := true, count := 1, entries := some [(0, 0)], sums := [] })] }

def gathering (bag : Bag) : State := ready.setEmb { service := [gather bag] }

def BagRes.isReady : BagRes → Bool
  | .ready _ => true
  | _ => false

def migrateJob : MigrateJob := { id := 3, order := order.ref, cid := 1, table := parseTable (tableBytes 1), left := 1 }

/-- Row 0 under migration, to the hot area and back. -/
def migrating (toHot : Bool) (copy : Nat) : State :=
  let s := ready.writeBytes 1 4096 (leBytes 5 0 ++ [if toHot then 1 else 3])
  s.setEmb { jobs := [migrateJob], migrations := [{ job := 3, row := 0, slot := 0, toHot := toHot, copy := some (copy, []) }] }

/-- A look-up that ends the entry, one way or the other. -/
def LookRes.ends : LookRes → Bool
  | .waits | .body _ => false
  | _ => true

/-- A bag whose only look-up has failed five times, and one whose row is looked up already. -/
def failing : Bag := { failed := [0, 0, 0, 0, 0] }

/-- A writer turn of row 0 that has begun. -/
def turning : Access := { id := 1, kind := .write, region := 1, offset := 4096, turn := some { row := (parseTable (tableBytes 1)).primaryAt 0 } }

theorem witness_EmbeddingProgress :
    (let s := gathering {}
     s.withdrawn = false ∧ (s.emb.service.find? fun (q : GatherReq) => decide (q.id = 1)) = some (gather {}) ∧
       (s.setGather (gather {})).engineFree (gather {}) 0 0 = true ∧ BagRes.isReady (s.readBag (gather {}) 0).2 = true ∧ ((gather {}).bags.get {} 0).entries = some [(0, 0)] ∧
       ((gather {}).bags.get {} 0).looked = [] ∧ ((gather {}).bags.get {} 0).attempts 0 = 0) ∧
    (let q := gather failing
     let p := q.table.primaryAt 0
     let z := fun (s : State) => s.setEmb { s.emb with locks := s.emb.locks ++ [(p, 1)] }
     (q.bags.get {} 0).attempts 0 = 5 ∧ (gathering failing).engineFree q 0 0 = true ∧ (z (gathering failing)).turnUnderWay p = false ∧
       (z ((gathering failing).setHeld [turning])).turnUnderWay p = true ∧
       LookRes.ends ((z (gathering failing)).lookRow q (.look 1 0 0) 0 none true).2 = true) ∧
    (let q := gather { looked := [0] }
     let x := q.bags.get {} 0
     x.writes = none ∧ x.refused = false ∧ (x.entries.getD []).length = x.looked.length ∧ x.noVersion = false ∧
       ((gathering { looked := [0] }).newReq.2.unitWrite (gathering { looked := [0] }).newReq.1 1 7 0 here 16384 (q.vector x) [] (some 2)).2 = stOk) ∧
    (∀ b ∈ [true, false], ∀ c ∈ [0, 2], let s := migrating b c
      let t := migrateJob.table
      (s.emb.jobs.find? fun (j : MigrateJob) => decide (j.id = 3)) = some migrateJob ∧
        (∀ m ∈ s.emb.migrations, m.flip = none ∧ s.mayTurn (.row 3 0) (t.primaryAt 0) = true ∧
          (let p := if b then t.primaryAt 0 else t.hotAt 0
           (s.unitRead (.row 3 0) 1 p.rh p.off t.stride).2.usable = true) ∧
          (let x := (s.claim (.row 3 0) (t.primaryAt 0)).readHeads (.row 3 0) 1 [t.primaryAt 0, t.hotAt 0]
           let primary := nth {} x.2.recs 0
           let hot := nth {} x.2.recs 1
           x.2.usable = true ∧ primary.rstate = (if b then rsMigrating else rsReturning) ∧ primary.fresh = false ∧ primary.seq = 0 ∧
             hot.seq = 0 ∧ x.1.turnRefusal 1 0 t ((flipTurn t m primary hot).map (·.at_)) = none))) ∧
    (let s := ready.setEmb { jobs := [migrateJob], migrations := [{ job := 3, row := 0, slot := 0, flip := some 9 }] }
     ∀ m ∈ s.emb.migrations, m.flip = some 9 ∧ s.unitBusy 9 = false) := by
  refine ⟨by decide +kernel, by decide +kernel, by decide +kernel, by decide +kernel, by decide⟩

/-- A descriptor of a GRAPH index and of an IVF index of one list, whose parts all lie in region 1. -/
def graphIndex : List Byte :=
  [1, 0, 0, 0] ++ leBytes 2 16 ++ [1, 0] ++ leBytes 4 0 ++ leBytes 4 0 ++ zeros 12 ++ leBytes 4 1 ++ ptrBytesLe ⟨here, 0⟩ ++ [8, 0] ++
    leBytes 2 2048 ++ zeros 32 ++ ptrBytesLe ⟨here, 0⟩ ++ leBytes 4 64 ++ ptrBytesLe ⟨here, 0⟩ ++ leBytes 4 1024 ++ leBytes 8 1 ++ zeros 8

def ivfIndex : List Byte :=
  [0, 0, 8, 0] ++ leBytes 2 16 ++ [1, 0] ++ leBytes 4 1 ++ leBytes 4 0 ++ ptrBytesLe ⟨here, 192⟩ ++ leBytes 4 1 ++ ptrBytesLe ⟨here, 0⟩ ++
    [8, 0] ++ leBytes 2 2048 ++ ptrBytesLe ⟨here, 0⟩ ++ zeros 4 ++ ptrBytesLe ⟨here, 0⟩ ++ zeros 4 ++ ptrBytesLe ⟨here, 0⟩ ++ leBytes 4 64 ++
    ptrBytesLe ⟨here, 0⟩ ++ leBytes 4 1024 ++ leBytes 8 1 ++ zeros 8

def described (l : List Byte) : State := (cluster .assigned).writeBytes 1 0 l

def attached (l : List Byte) (f : Attached → Attached) : State :=
  (described l).setIndex 0 (f { used := true, ptr := ⟨here, 0⟩, desc := parseIndex l, cid := 1, mask := 1, program := 1 })

/-- Attachment of a GRAPH index as program 1; detachment; SEARCHes with the least and greatest counts. -/
theorem witness_SearchRequests :
    (let s := (described graphIndex).orderTaken order
     let g := (s.unitRead order.ref.asker 1 here 0 128).2
     OrderTaken order (described graphIndex) ∧ s.deferredOn 1 = false ∧ s.sharedCid 1 = some 1 ∧
       (∀ c ∈ clustersOf 1, (s.program c 1).used = false) ∧ s.freeAttach = some 0 ∧ g.usable = true ∧ indexFieldsOk g.data = true ∧
       s.partsOk 1 (parseIndex g.data) = true ∧ (parseIndex g.data).ivf = false ∧
       (s.reserveProgram (clustersOf 1) 1 searchProgram).2 = stOk) ∧
    (let s := (attached graphIndex id).orderTaken order
     OrderTaken order (attached graphIndex id) ∧ s.attachedAs 1 ⟨here, 0⟩ = some 0 ∧ (s.indexAt 0).detach = none) ∧
    (let s := attached graphIndex id
     MemberTaken (hdr 7 64 2) 64 [] ([here, here, here] ++ [here]) s ∧ s.within ⟨here, 0⟩ (31 * 64 + 32) = true ∧
       s.within ⟨here, 0⟩ (65536 * 32) = true ∧ resultStride 1 ≤ 64 ∧
       searchOk (parseIndex graphIndex) 1 1 false (some (zeros 192)) = true ∧ searchOk (parseIndex graphIndex) 1024 4096 true none = true ∧
       ((s.afterLink (hdr 7 64 2)).unitRead asker 1 here 256 192 (some 2)).2.usable = true ∧ s.fencedCid 1 = false) := by
  refine ⟨⟨order_of (by unfold FrameTaken; decide), ?_⟩, ⟨order_of (by unfold FrameTaken; decide), ?_⟩, ?_, ?_⟩
  · decide +kernel
  · decide +kernel
  · unfold MemberTaken FrameTaken; decide
  · decide +kernel

def search : SearchReq := { h := hdr 7 64 2, id := 5, query := ⟨here, 0⟩, nq := 1, k := 1, probes := 1, result := ⟨here, 0⟩, arrived := 0 }

def batch (probes : List Nat) : Batch :=
  { reqs := [search], queries := [{ req := 5, vector := zeros 32, probes := probes }] }

/-- The index's device, of the index that an event runs on. -/
def one (l : List Byte) (f : Attached → Attached) : State × Attached := (attached l f, (attached l f).indexAt 0)

theorem witness_SearchProgress :
    (∀ p ∈ [0, 1, 4, 6], (attached graphIndex fun a => { a with mergePhase := p }).indexRuns 0 = true) ∧
    (let s := (attached graphIndex id).modRegion 1 fun r => { r with version := 64 }
     let a := s.indexAt 0
     let v := s.reading (.merge 0) (fun s => s.tailHeader (.merge 0) a) eventReads
     s.withdrawn = false ∧ a.resume = false ∧ a.mergePhase = 0 ∧ a.detach = none ∧ s.unitBusy (engineReq a.mergeReq) = false ∧
       (v.2.toOption.map fun t => decide (a.desc.mergeThreshold ≤ (v.1.forget (.merge 0)).tailVersion a - t.base)) = some true) ∧
    (let x := one graphIndex fun a => { a with mergePhase := 1, mergePoint := 64 }
     x.1.unitBusy (engineReq x.2.mergeReq) = false ∧ x.2.detach = none ∧ x.2.partReady = true ∧
       ((x.1.reading (.merge 0) (fun s => s.planPart (.merge 0) x.2) eventReads).2.toOption.map (·.full)) = some none) ∧
    (let a := (attached graphIndex fun a => { a with waiting := [search] }).indexAt 0
     (∀ b ∈ a.batches, b.begun = true) ∧ a.waiting = [search] ∧ search.arrived + a.desc.window * 1000 ≤ 1000) ∧
    (let x := one ivfIndex fun a => { a with batches := [batch [0]] }
     let v := x.1.reading (.sweep 0) (fun s => s.visited (.sweep 0) x.2 (batch [0]) 0) eventReads
     x.1.indexRuns 0 = true ∧ (batch [0]).nextVisit x.2.desc.lists = some 0 ∧
       (v.2.toOption.map fun e =>
         let y := v.1.mendGranules x.2 e.1 e.2.1 []
         y.2 && (y.1.reading (.sweep 0) (fun s => s.visitList (.sweep 0) x.2 (batch [0]) 0) eventReads).2.toOption.isSome) = some true) ∧
    (let x := one ivfIndex fun a => { a with batches := [batch []] }
     (batch []).nextVisit x.2.desc.lists = none ∧
       (x.1.reading (.sweep 0) (fun s => s.visitTail (.sweep 0) x.2 (batch [])) eventReads).2.toOption.isSome = true) ∧
    (∀ p ∈ [true, false],
      let b := { batch [] with tailDone := true, probed := p }
      let x := one graphIndex fun a => { a with batches := [b] }
      x.2.batches.zipIdx.find? (fun e => e.1.tailDone) = some (b, 0) ∧ b.written = false ∧
        b.reqs.any (fun q => x.1.unitBusy (engineReq q.id)) = false ∧
        ((x.1.reading (.results 0) (fun s => s.rankAll (.results 0) x.2 b b.pairs) eventReads).2.toOption.map fun r =>
          r.1.isEmpty && !r.2.any x.1.probes) = some true) ∧
    (let b := { batch [] with reqs := [{ search with result := ⟨0x0006000001, 0⟩ }], tailDone := true }
     let x := one graphIndex fun a => { a with batches := [b] }
     b.probed = false ∧ ((x.1.reading (.results 0) (fun s => s.rankAll (.results 0) x.2 b b.pairs) eventReads).2.toOption.map fun r =>
       r.1.isEmpty && r.2.any x.1.probes) = some true) := by
  refine ⟨by decide +kernel, by decide +kernel, by decide +kernel, by decide +kernel, by decide +kernel, by decide +kernel,
    by decide +kernel, by decide +kernel⟩

/-! ### Witnesses: the count, the ephemeris and blocks -/

def withSky (k : Sky) : State := ready.setSky k

/-- Orbit 3 of composition 1 with entries 0 to 3, enabled from count 1 on, period 4. -/
def orbit3 : Orbit := { defined := true, cid := 1, period := 4, anchor := 0, first := 0, count := 4, enable := some 1 }

theorem witness_EphemerisOrders :
    (let u := ready.orderTaken order
     OrderTaken order ready ∧ u.orbitEnabled (u.orbit 0) = false ∧ u.touchesEnabled 0 65536 = false ∧ u.touchesEnabled 65535 1 = false ∧
       handleAid here = u.aid ∧ (u.region (handleIndex here)).state ≠ .free ∧ 2097152 - 64 + 32 * 2 ≤ (u.region 1).size ∧
       (let g := (u.orderRead order.ref.asker here (2097152 - 64) 64).2
        g.usable = true ∧ g.poisoned = false)) ∧
    (let s := withSky { lock := .locked, count := 7, orbits := [(3, { orbit3 with enable := none })] }
     let u := s.orderTaken order
     OrderTaken order s ∧ (u.orbit 3).defined = true ∧ u.locked = true ∧ u.sky.count.toNat < 8 ∧
       orbitOk (u.orbit 3) ((u.orbitEntries 3).map (·.2)) = true) :=
  ⟨⟨order_of (by unfold FrameTaken; decide), by decide +kernel⟩, order_of (by unfold FrameTaken; decide), by decide⟩

/-- `ready` with a tick source, step 10 ended, and the ticks so far. -/
def ticking (source : Nat) (k : Sky) : State :=
  (withSky { k with started := some 0 }).modBoot fun b => { b with cfg := { b.cfg with device := { b.cfg.device with tickSource := source, localPeriod := 500 } } }

/-- A locked count whose measured period is 500 ns. -/
def running : Sky := { lock := .locked, established := true, count := 7, intervals := [500, 500], lastTick := some 1000, goodRun := 20 }

theorem witness_TicksOfTheCount :
    (FrameTaken false (hdr 9 16 7) 16 (ticking 1 running) ∧ (ticking 0 running).ticksRun srcFrames = false ∧
      (let u := (ticking 1 running).afterLink (hdr 9 16 7)
       (u.portCfg 0).tick = true ∧ u.ticksRun srcFrames = true ∧ (0 : BitVec 16) = u.boot.cfg.device.skyDomain ∧
         u.sky.isCopy 8 = false)) ∧
    (let s := (ticking 1 { running with taken := [(8, 8)] }).modBoot fun b =>
      { b with cfg := { b.cfg with ports := b.cfg.ports ++ [{ mode := 1, tick := true }] } }
     let u := s.afterLink (hdr 9 16 7)
     FrameTaken false (hdr 9 16 7) 16 s ∧ u.tickPorts.length = 2 ∧ u.sky.isCopy 8 = true) ∧
    (let s := (ticking 2 { running with generated := 7 }).advanceTo 1500
     s.ticksRun srcLocal = true ∧ s.sky.generated ≠ 0 ∧ 1000 + s.boot.cfg.device.localPeriod ≤ s.now) ∧
    (let s := (ticking 0 running).advanceTo 1249
     s.ticksRun srcSky = true ∧ s.sky.intervals ≠ [] ∧ 2 * (s.now - 1000) * s.sky.intervals.length < s.sky.intervalSum) ∧
    ((ticking 0 {}).ticksRun srcSky = true ∧ (ticking 0 {}).sky.lock = .absent ∧ (ticking 0 {}).sky.symbols = none) ∧
    (∀ l ∈ [.locked, .acquiring], let s := (ticking 0 { running with lock := l }).advanceTo 2001
      s.inService = true ∧ 2 * s.sky.intervalSum < (s.now - 1000) * s.sky.intervals.length ∧ s.sky.lock = l) := by
  unfold FrameTaken; decide

/-- A transit of a kind that is the next due at count 7 with its moment come, of orbit 3. -/
def firing (kind : Nat) (operands : List Byte) : State :=
  let s := withSky { running with
    orbits := [(3, orbit3)], due := [{ entry := 2, count := 7, moment := 1000 }]
    transits := [(2, { kind := kind, orbit := 3, tick := 3, cid := 1, length := 2, operands := operands })] }
  s.modComp 0 fun c => { c with stepState := .open_, openStep := 5 }

theorem witness_TransitsFire :
    (∀ k ∈ [kindPromote, kindReserve, kindCommit, kindCalibrate, kindTest], let s := firing k [5]
      s.inService = true ∧ s.locked = true ∧ s.liveDue = [{ entry := 2, count := 7, moment := 1000 }] ∧ (s.transit 2).kind = k ∧
        1000 ≤ s.now) ∧
    (let s := firing kindCommit [5]
     s.activeIdx 1 = some 0 ∧ (s.compAt 0).stepState = .open_ ∧ (s.compAt 0).openStep.toNat = fieldLe (s.transit 2).operands 0 4) ∧
    (let s := firing kindCalibrate [1]
     (s.transit 2).flags.getLsbD 0 = false ∧ fieldLe (s.transit 2).operands 0 1 ≤ 1 ∧ (s.transit 2).unit < 8 ∧
       s.calibRuns 0 0 = false ∧ s.testRuns 0 0 = false) ∧
    (withSky { running with reservations := [{}] }).sky.reservations[0]?.isSome = true ∧
    (let s := (withSky running).setSector 1 0 { hold := .scheduled 7 }
     s.locked = true ∧ s.releaseReached (s.sectorAt 1 0) = true) ∧
    (let s := withSky { running with promotes := [{ due := 7 }] }
     s.locked = true ∧ s.sky.promotes[0]? = some { due := 7 } ∧ s.sky.reached 7 0 s.now = true) := by decide +kernel

def withBlock (c k : Nat) (b : Block) : State := ready.setBlock c k b

def testing (running : Bool) : TestOrder := { kind := 0, running := running }

theorem witness_BlocksOutOfService :
    (∀ e ∈ [(0, 7), (1, 15), (2, 31), (3, 3), (4, 31), (5, 0)], blockExists e.1 e.2 = true) ∧
    (let s := (withBlock 0 0 { drain := 2 }).modSec fun x => { x with fuseManufacture := true }
     OrderTaken order s ∧ (let u := s.orderTaken order
      (u.block 0 0).failed = false ∧ (u.block 0 0).test = none ∧ u.calibRuns 0 0 = false ∧ u.lifecycle = 1 ∧ (u.block 0 0).drain = 2 ∧
        u.testRuns 0 0 = false)) ∧
    ((withBlock 3 0 { drain := 1 }).drained 3 0 = true ∧ ((withBlock 3 0 { drain := 1 }).block 3 0).drain = 1) ∧
    (∀ c ∈ [0, 1, 2, 4, 5], ((withBlock c 0 { test := some (testing true) }).block c 0).test = some (testing true)) ∧
    (∀ i ∈ [0, 1], let s := ready.setCalib true 0 { busy := some i, until_ := 1000 }
      (s.calib true 0).busy = some i ∧ (s.calib true 0).until_ ≤ s.now ∧ (s.calib true 0).byOrder = none ∧ (s.calib true 0).window = none) ∧
    (let s := (ready.modBoot fun b => { b with step := 11 }).advanceTo 1000000001
     10 ≤ s.boot.step ∧ s.unitInUse true 0 = true ∧ (s.calib true 0).lastTrain + 1000000000 * ((s.calib true 0).lapseTrain + 1) < s.now ∧
       (s.calib true 0).lastImp + 128000000 * ((s.calib true 0).lapseImp + 1) < s.now) := by
  exact ⟨by decide +kernel, ⟨order_of (by unfold FrameTaken; decide), by decide +kernel⟩, by decide +kernel, by decide +kernel, by decide +kernel, by decide +kernel⟩

/-- Core, cluster and partition scope; the last core. -/
theorem witness_ResetsAndCoreErrors :
    (∀ e ∈ [(0, 31, 31, 0), (1, 0, 0, 0), (2, 0, 0, 3)], (resetMask e.1 e.2.1 e.2.2.1 e.2.2.2 1).isSome = true) ∧
    (let u := (cluster .assigned).orderTaken order
     OrderTaken order (cluster .assigned) ∧ resetMask 1 0 0 0 1 = some 1 ∧ (∀ c ∈ clustersOf 1, (u.cluster c).state ≠ .unavailable) ∧
       (∀ c ∈ clustersOf 1, u.underTest (partitionOf c) = false)) ∧
    ready.inService = true ∧ 1023 < 1024 :=
  ⟨by decide, ⟨order_of (by unfold FrameTaken; decide), by decide⟩, by decide⟩

/-- A DEEP region 1 whose sector 0 is as given; block 0 of channel 0 is full and all others but one are too. -/
def deep (x : Sector) : State := (withRegion fun r => { r with cls := clsDeep }).setSector 1 0 x

theorem flashSector_there {s : State} {i j : Nat} (k : s.keyLost i = false) (g : (s.granuleLines (s.granule i j)).isSome = true) :
    (s.flashSector i j).isSome = true := by simp [State.flashSector, k, g]

theorem witness_TierEvents :
    (∀ up ∈ [true, false], let s := (deep { state := .filling up }).setMap [(ready.granule 1 0, { valid := true })]
      s.withdrawn = false ∧ (s.sectorAt 1 0).state = .filling up ∧ (s.sectorAt 1 0).writeback = false ∧ s.keyLost 1 = false ∧
        (s.granuleLines (s.granule 1 0)).isSome = true) ∧
    (∀ up ∈ [true, false], ∀ d ∈ [true, false], ((deep { state := .moving up d }).sectorAt 1 0).state = .moving up d) ∧
    (let s := deep { state := .dram true, writeback := true }
     (s.sectorAt 1 0).writeback = true ∧ (s.openBlock (nandChannel (s.granule 1 0))).isSome = true) ∧
    (let s := ready.modBoot fun b => { b with cfg := { b.cfg with mem := { b.cfg.mem with dies := 1, blocksPerDie := 64, pagesPerBlock := 4 } } }
     let s := (List.range 63).foldl (fun s b => s.setNandBlock (s.blockOf 0 b) { used := 16 }) s
     s.inService = true ∧ s.belowShare 0 20 = true ∧ s.collects 0 (s.blockOf 0 0) = true ∧ (s.openBlock 0).isSome = true ∧
       ((s.granulesIn 0 (s.blockOf 0 0)).foldl State.relocate s).granulesIn 0 (s.blockOf 0 0) = [] ∧
       (s.nandBlock (s.blockOf 0 0)).early = false) ∧
    (ready.placeOf 1 0 = .hbm 0 ∧ (ready.region 1).state ≠ .free ∧ 64 * 32767 < (ready.region 1).size ∧ ready.calibrating 1 0 = none ∧
      ready.poisoned 1 0 = false ∧ Memory.wf ready.store.mem = true ∧ Tab.wf false ready.store.poison = true) ∧
    (ready.inService = true ∧ ready.unitInUse (!false) 0 = true) := by
  exact ⟨by decide, by decide, by decide +kernel, by decide +kernel, by decide, by decide⟩

/-! ### Witnesses: links, version 1, supply and start -/

/-- `ready` with another sub-port 0. -/
def withSub (f : SubPort → SubPort) : State := ready.modSub 0 f

theorem witness_LinksTrainAndFail :
    ready.inService = true ∧
    ((withSub fun p => { p with link := .down }).subPort 0).everTrained = false ∧
    (let s := withSub fun p => { p with link := .training, lastAttempt := 0 }
     let w := s.advanceTo 4000000000
     (s.subPort 0).link = .training ∧ speedAllowed (s.portCfg 0).mode 6 = true ∧ s.boot.step ≠ 9 ∧
       (s.subPort 0).holdFrom = none ∧ (s.subPort 0).portDownSent = false ∧
       (w.subPort 0).lastAttempt + (if (w.subPort 0).medium = 2 then 500000000 else 4000000000) ≤ w.now) ∧
    (let s := withSub fun p => { p with ctrl := 0x01040000 }
     let t := withSub fun p => { p with ctrl := BitVec.allOnes 64 }
     s.arrives 0 0 = true ∧ (s.subPort 0).fecDegrade = 1 ∧ t.arrives 0 0 = true ∧ (t.subPort 0).fecDegrade = 65535) ∧
    (let s := withSub fun p => { p with paused := [(7, some (0, 5000000))] }
     let s := s.setSwitch { s.switch with bufferCtl := 0x100000 }
     (s.subPort 0).paused.get none 7 = some (0, 5000000) ∧ bitsOf s.switch.bufferCtl.toNat 20 12 = 1 ∧ 0 + 1 * 1000000 < (s.advanceTo 1000001).now) ∧
    ((ready.orderTaken order).subPort (subKey 0 0)).link = .up ∧
    (let s := withSub fun p => { p with link := .down, holdFrom := some 0 }
     (s.subPort 0).holdFrom = some 0 ∧ (s.subPort 0).link ≠ .up ∧ (s.subPort 0).link ≠ .disabled ∧
       (s.subPort 0).holdExpired = false ∧ 0 + s.boot.cfg.device.hopHold ≤ s.now) := by decide

/-- A fresh side, a resynchronised side, and frames whose replay timer is over; a first and an eighth replay. -/
theorem witness_HopProtocol :
    (let h := { hdr 9 8 7 with src := 9 }
     ready.arrives h.port h.sub = true ∧ h.check = .passed ∧ h.tagged = true ∧ 8 ≤ h.length ∧ h.length ≤ h.received ∧
       h.src = (ready.subPort 0).partner ∧ ready.lossless 0 7 = true ∧ ready.encapOk h = true) ∧
    (∀ r ∈ [true, false], let s := withSub fun p => { p with hops := [(7, { resync := r, fresh := !r, epoch := 4 })] }
      ((s.subPort 0).hop 7).resync = r ∧ ((s.subPort 0).hop 7).fresh = !r ∧ (1 : W32) ≠ ((s.subPort 0).hop 7).partnerEpoch) ∧
    (let r : Replay := { frame := { hopSeq := 1 } }
     let s := (withSub fun p => { p with hops := [(7, { resync := true, replay := [r] })] }).advanceTo 1001
     let q := (s.subPort 0).hop 7
     q.resync = true ∧ (s.subPort 0).paused.get none 7 = none ∧ q.pendingReplay.any (fun f => decide (f.hopSeq = r.frame.hopSeq)) = false ∧ q.replay = [r] ∧
       r.sent + s.boot.cfg.device.replayTimeout < s.now) := by decide

/-- A frame for AID 7, which leaves by port 0. -/
def transit : Transit := { opcode := 0x01, resp := false, notice := false, status := 0, ece := false, payload := zeros 16 }

theorem witness_SwitchAndFlowControl : OrderTaken order ready ∧
    (ready.answersTo 7 = false ∧ FrameTaken false (hdr 9 16 1) (fixedPayload transit.opcode transit.resp) ready ∧
      FrameTaken false (hdr 9 16 1) 0 ready ∧ listedOpcode 0x0F = false ∧ listedOrder 0x06 = false ∧
      (let h := { hdr 9 16 1 with dst := 7 }
       let a := (ready.advanceTo h.now).bump 0 0 0
       ready.encapOk h = true ∧ (a.bufferPlace (subKey 0 0) h.pcp (bufferBytes h.length)).isSome = true)) ∧
    (ready.arrives 0 0 = true ∧ ready.portDrain 0 = false ∧ ready.macClosed 0 0 = false) ∧
    (let s := withSub fun p => { p with egress := [{ opcode := 0x01, pcp := 1 }] }
     (s.choose 0).1.isSome = true) ∧
    (let s := ready.modBoot fun b => { b with cfg := { b.cfg with ports := [{ mode := 1, macsec := true, ipv6 := true }] } }
     let s := s.modSec fun x => { x with caks := [(0, { held := true })] }
     (s.portCfg 0).macsec = true ∧ (s.sec.caks.get {} 0).held = true ∧ (s.portCfg 0).ipv6 = true) ∧
    (let s := withSub fun p => { p with ctrl := BitVec.allOnes 64 }
     (s.subPort 0).ptp = true) ∧
    (let s := withSub fun p => { p with paused := [(7, some (0, 1000))] }
     (s.subPort 0).paused.get none 7 = some (0, 1000)) ∧
    (let s := (withSub fun p => { p with xoff := [(7, some 0)], shared := [(7, 67108864)], speed := 6 }).advanceTo 100000
     s.inService = true ∧ (s.subPort 0).link = .up ∧ (s.subPort 0).xoff.get none 7 = some 0 ∧ s.flowPcp 0 7 = s ∧
       s.chargeFull 0 7 = true ∧ 0 + quantaNs 6 0xFFFF / 2 ≤ s.now) := by
  unfold FrameTaken; exact ⟨witness_order, by decide, by decide, by decide +kernel, by decide, by decide, by decide, by decide +kernel⟩

/-- A device whose port 0 takes version 1, with a composition in that mode; lengths 1, 256 and 257. -/
def v1Ready : State :=
  (withComp fun c => { c with modes := 0x20 }).modBoot fun b => { b with cfg := { b.cfg with ports := [{ mode := 1, v1 := true }] } }

theorem witness_Version1Frames :
    (let h := hdr 7 24 1
     let a := (v1Ready.advanceTo h.now).bump 0 h.port 0
     let v := a.markConsumed h
     let g := { h with gen := v.genOf h.cid }
     v1Ready.answersTo h.dst = true ∧ v1Ready.arrives 0 0 = true ∧ (v1Ready.advanceTo h.now).portDrain 0 = false ∧ h.check = .passed ∧
       (v1Ready.advanceTo h.now).macClosed 0 0 = false ∧ h.tagged = true ∧ v1Ready.encapOk h = true ∧
       (a.bufferPlace (subKey 0 0) h.pcp (bufferBytes h.length)).isSome = true ∧ v.fencedCid 1 = false ∧
       compositionCheck v g [] [here, here] = none ∧
       (v.portCfg 0).v1 = true ∧ v.compIdx h.cid = some 0 ∧ (v.compAt 0).modes.getLsbD 5 = true ∧ v.boot.admitted = true ∧
       v.comps.selfExpelled = false ∧ mkHandle h.dst 1 = here ∧ compositionCheck v g [mkHandle h.dst 1] [] = none ∧
       (compositionCheck v { g with src := 8 } [mkHandle h.dst 1] []).isSome = true) ∧
    (∀ n ∈ [1, 256], v1Valid 0 n .read = true ∧ v1Valid 0 n (.write (zeros n)) = true) ∧ v1Valid 0 257 .read = false ∧
    v1Valid 2097144 8 (.atomic 2 1 0) = true := by decide +kernel

/-- Inputs at 37,000 and 39,999 mV; sensors 0 and 63; a sensor without a fault. -/
theorem witness_WithdrawalAndThrottling : ready.inService = true ∧ ready.boot.inReset = false ∧ ready.sensorUsed 0 = true ∧
    ready.sensorUsed 63 = true := by decide

/-- A whole valid image: 3 managers on port 0, one stack, one channel pair, and every other field at its least. -/
def imageHead : List Byte :=
  imageMagic ++ leBytes 2 1 ++ leBytes 2 7 ++ leBytes 4 0x960 ++ leBytes 4 1 ++ leBytes 8 1 ++ leBytes 4 0 ++ leBytes 4 1984 ++ [1] ++ zeros 3

def entryOf (ty off len : Nat) : List Byte := leBytes 4 ty ++ leBytes 4 off ++ leBytes 4 len ++ zeros 4

def imageBytes : List Byte :=
  imageHead ++ leBytes 4 (crc32c imageHead) ++ zeros 24 ++
    (entryOf 1 192 64 ++ entryOf 2 256 1024 ++ entryOf 3 1280 192 ++ entryOf 4 1472 64 ++ entryOf 6 1536 256 ++ entryOf 8 1792 128 ++
      entryOf 9 1920 64 ++ zeros 16) ++
    (leBytes 2 5 ++ zeros 62) ++
    ([1, 0, 0, 0] ++ leBytes 2 4224 ++ [1] ++ zeros 25 ++ (List.replicate 31 (zeros 6 ++ [1] ++ zeros 25)).flatten) ++
    ([1, 0, 0, 0] ++ leBytes 2 4800 ++ [0, 8] ++ leBytes 2 1600 ++ [1, 1, 1, 0] ++ leBytes 2 0 ++ leBytes 2 18432 ++ leBytes 2 1 ++
      leBytes 4 1 ++ leBytes 4 1 ++ zeros 36 ++ [1, 1, 32] ++ zeros 61 ++ [1, 1, 32] ++ zeros 61) ++
    ([1] ++ zeros 7 ++ [1] ++ zeros 47 ++ leBytes 8 1048576) ++
    ([3, 2] ++ zeros 62 ++ ((List.range 3).flatMap fun k => leBytes 2 (9 + k) ++ zeros 2 ++ [1] ++ zeros 59)) ++ zeros 192

/-- The image with its signature block: a key and a signature of zeros. -/
def signedImage : List Byte := imageBytes ++ zeros 2564

theorem test_image_unwraps (h : ∀ k l, (Config.unwrap k l).isSome = true) : (validate signedImage 1 0).isOk = true := by
  have e : ((parseManagers 0 (getSection signedImage 6)).all fun m => unwraps 0 m.wrapped) = true := by
    rw [List.all_eq_true]
    intro m hm
    have : ∀ m ∈ parseManagers 0 (getSection signedImage 6), allZero (m.wrapped.drop 40) = true := by decide +kernel
    simp [unwraps, managerKey, h, this m hm]
  simp only [validate, e]
  decide +kernel

/-- IMAGE_WRITE has read the image from region 1; slot A is the one that runs. -/
def imageHere : State :=
  let s := (ready.writeBytes 1 0 imageBytes).modSec fun x => { x with fuseManufacture := true }
  s.setUnits [{ id := 1, asker := order.ref.asker, cid := 1, rh := here, off := 0, len := 4548, answer := some { data := signedImage } }]

/-- What IMAGE_WRITE reads. -/
def imageRead : State × Got := (imageHere.orderTaken order).orderRead order.ref.asker here 0 4548

/-- Two lists are the same piece by piece. -/
def samePieces (n : Nat) (a b : List Byte) : Nat → Bool
  | 0 => decide (a = b)
  | k + 1 => decide (a.take n = b.take n) && samePieces n (a.drop n) (b.drop n) k

theorem eq_of_samePieces {n k : Nat} {a b : List Byte} (h : samePieces n a b k = true) : a = b := by
  induction k generalizing a b with
  | zero => simpa [samePieces] using h
  | succ k ih =>
    simp only [samePieces, Bool.and_eq_true, decide_eq_true_eq] at h
    rw [← List.take_append_drop n a, ← List.take_append_drop n b, h.1, ih h.2]

theorem test_image_is_read : imageRead.2.usable = true ∧ imageRead.2.poisoned = false ∧ imageRead.2.data = signedImage :=
  ⟨by decide +kernel, by decide +kernel, eq_of_samePieces (n := 256) (k := 18) (by decide +kernel)⟩

/-- The image fits where AES key unwrap gives keys and the vendor's key of zeros, whose hash the fuses hold, verifies its signature. -/
theorem test_image_fits (h : ∀ k l, (Config.unwrap k l).isSome = true) (r : hash256 (Config.shake512 (zeros 64)) = 0)
    (x : ∀ m l, Config.xmssVerify 1 0 m l = true) : imageRead.1.imageFits { bytes := imageRead.2.data } = true := by
  rw [test_image_is_read.2.2]
  have f : imageRead.1.fusedState = 1 ∧ imageRead.1.wrapKey = 0 ∧ imageRead.1.signerHash = some 0 ∧ imageRead.1.sec.floor = 0 := by decide +kernel
  have c : notCandidate signedImage 0 = 0 ∧ imageRead.1.boot.sequence < imageSequence signedImage ∧ fieldLe signedImage 32 1 = 1 ∧
      (let b := (signedImage.drop (imageLength signedImage)).take 2564
       b.length = 2564 ∧ b.take 64 = zeros 64) ∧ BitVec.ofNat 512 (ofBe (zeros 64)) = 0 := by decide +kernel
  have v : imageRead.1.verifies { bytes := signedImage } = true := by
    simp only [State.verifies, blockVerifies, c.2.2.1, signatureLength, Option.getD_some, c.2.2.2.1.1, c.2.2.2.1.2, f.2.2.1, r, x, c.2.2.2.2,
      Bool.and_true, decide_true]
  simp only [State.imageFits, v, f.1, f.2.1, f.2.2.2, c.1, c.2.1, test_image_unwraps h, decide_true, Bool.and_true]

/-- A start at whose inputs nothing is wrong. -/
def facts : StartFacts :=
  { failedCores := [], routerFault := none, hbmFault := none, nandFault := none, dimms := [], dies := 4, laneRepairs := [], rowRepairs := []
    dimmRepairs := [], trainRetries := [], badBlocks := [], stackTemps := [], dimmTemps := [], elapsed := 0 }

/-- The hypotheses about an image's slot are met as `test_image_fits` says. -/
theorem witness_StartAndWholeReset :
    (State.reset.boot.inReset = true ∧ State.reset.supplyReady facts = true ∧
      State.reset.startStep1.chooseSlot State.reset.startStep1.noCandidate State.reset.startStep1.candidates =
        .error State.reset.startStep1.noCandidate) ∧
    (ready.boot.inReset = false ∧ ready.boot.cfgFault = false ∧ ready.boot.hwFault = false ∧
      (ready.modBoot fun b => { b with cfgFault := true }).boot.cfgFault = true ∧
      (ready.modBoot fun b => { b with hwFault := true }).boot.hwFault = true) ∧
    (let s := ready.modBoot fun b => { b with admitted := false }
     s.inService = true ∧ s.boot.installed ≠ [] ∧ s.boot.lastPresent = 0) ∧
    (OrderTaken order imageHere ∧ (let u := imageHere.orderTaken order
     u.boot.imageJob = none ∧ handleAid here = u.aid ∧ (u.region (handleIndex here)).state ≠ .free ∧ 0 + 4548 ≤ (u.region 1).size ∧
       4548 ≤ 8 * mib)) ∧
    ((ready.modBoot fun b => { b with imageJob := some { order := order.ref } }).boot.imageJob.isSome = true) ∧
    (withBlock 5 0 { test := some (testing true) }).testRuns 5 0 = true ∧
    ({ ready with comps := { ready.comps with resetAt := some 1000 } } : State).comps.resetAt = some 1000 := by
  exact ⟨⟨by decide, by decide, rfl⟩, by decide, by decide, ⟨order_of (by unfold FrameTaken; decide), by decide +kernel⟩, by decide, by decide, by decide⟩

/-- The last register; the last address below the end of the registers; counts of 0 and 65. -/
theorem witness_RegistersByManagement : ManagedTaken (hdr 9 48 7) mgr 8 ready ∧ ManagedTaken (hdr 9 56 7) mgr 16 ready ∧
    (csrEnd - 8) % 8 = 0 ∧ csrEnd < 2 ^ 32 ∧ ready.comps.selfExpelled = false ∧ ready.boot.admitted = true ∧
    (hdr 9 48 7).zeroed = true ∧ (hdr 9 56 7).zeroed = true ∧ 56 ≤ (hdr 9 56 7).length :=
  ⟨managed_of (by unfold FrameTaken; decide), managed_of (by unfold FrameTaken; decide), by decide⟩

/-- A tally of 2 s; a release without regions left, with clusters and without. -/
theorem witness_ReleaseAndQuorum :
    (let x := ready.orderTaken order
     OrderTaken order ready ∧ x.activeIdx 1 = some 0 ∧ (x.compAt 0).stepState = .closed ∧ (5 : Aid) = x.aid ∧ x.lifecycle ≠ 5 ∧
       x.sec.floor ≤ 0 ∧ 0 ≤ x.boot.securityVersion ∧ (∀ l ∈ [[], [(0, 3)]], fusesTake l = true)) ∧
    (∀ l ∈ [true, false], let s := if l then cluster .releasing else ready
      let s := (s.modRegion 1 fun r => { r with state := .free, cid := 0 }).modComp 0 fun c => { c with state := .releasing, ended := true }
      s.withdrawn = false ∧ s.compIdx 1 = some 0 ∧ (s.compAt 0).state = .releasing ∧ s.regionsOf 1 .assigned = [] ∧ s.regionsOf 1 .draining = [] ∧
        s.clustersLeft 1 = l ∧ (s.compAt 0).releaseRegions = false) ∧
    (let s := ready.modBoot fun b => { b with admitted := false }
     ManagedTaken (hdr 9 56 7) mgr 16 s ∧ ManagedTaken (hdr 9 48 7) mgr 8 s ∧
       (let u := s.afterTrailer (hdr 9 48 7) mgr
        u.comps.selfExpelled = false ∧ u.lifecycle ≠ 5 ∧ u.sec.scanUnlocked = false ∧ u.boot.admitted = false ∧ u.boot.cfg.life.rotate = false ∧ u.admitFuses = false)) ∧
    (let s := (ready.setTallies [{ kind := .expel, start := 0 }]).advanceTo 2000000000
     ready.withdrawn = false ∧ s.comps.tallies[0]? = some { kind := .expel, start := 0 } ∧ 0 + 2000000000 ≤ s.now) := by
  exact ⟨⟨witness_order, by decide⟩, by decide, ⟨managed_of (by unfold FrameTaken; decide), managed_of (by unfold FrameTaken; decide),
    by decide⟩, by decide⟩

/-- A report into region 1; the sub-ports of port 0; the fused states. MACSEC_CAK's key is whatever AES key unwrap gives. -/
theorem witness_KeysAttestationAndJtag :
    (let s := (withRegion fun r => { r with state := .idle, cid := 0 }).modSec fun x => { x with keyCertified := true }
     OrderTaken order s ∧ (s.orderTaken order).attestFault { order := order.ref, report := ⟨here, 0⟩ } = none) ∧
    (∀ cak, Config.unwrap (Config.kmac 0 [] wrapCustom) (beBytes 40 0) = some cak →
      (((ready.orderTaken order).managerWrap order.hdr.src).bind fun k => Config.unwrap k (beBytes 40 0)) = some cak) ∧
    0 < subPorts ((ready.orderTaken order).portCfg 0).mode ∧
    ((ready.modSec fun x => { x with nextKeyStarted := true }).inService = true ∧
      (ready.modSec fun x => { x with nextKeyStarted := true }).sec.nextKeyStarted = true ∧ ready.sec.nextKeyReady = false) ∧
    fusesTake [(0, 4)] = false ∧ ready.fusedState = 0 ∧ (ready.modSec fun x => { x with fuseManufacture := true }).fusedState = 1 ∧
    (ready.jtagOpen = true ∧ (ready.modSec fun x => { x with level1 := true, level2 := true }).sec.level1 = true) ∧
    ready.jtagAllows .extest = true := by
  exact ⟨⟨order_of (by unfold FrameTaken; decide), by decide⟩, fun _ h => h, by decide, by decide, by decide, by decide, by decide, by decide,
    by decide⟩

theorem witness_HealthAndTimeouts :
    ((ready.boot.inReset = false) ∧ (ready.health.minutes + 1) * 60000000000 ≤ 60000000000) ∧
    (let s := ready.modBoot fun b => { b with cfg := { b.cfg with mem := { b.cfg.mem with ddr := [{ dimms := 2 }] } } }
     s.inService = true ∧ 1 % 2 < (nth {} s.boot.cfg.mem.ddr (1 / 2)).dimms) ∧
    (∀ q ∈ [.thread 4, .stripe 4 0, .snoop 4 7, .unit, .unitWrite 4 0],
      let s := ({ ready with reqs := { issued := [{ id := 3, req := q }] } } : State).advanceTo 1000000
      s.issuedReq 3 = some { id := 3, req := q } ∧ s.withdrawn = false ∧ 0 + s.boot.cfg.device.requestTimeout ≤ s.now) := by decide

/-- The invariant holds in a state with bytes, and the steps of the statement exist. -/
theorem witness_StepKeepsMemoryCanonical :
    State.Inv (ready.writeBytes 1 0 [1, 2, 3]) ∧ State.steps ready ready := by
  exact ⟨by unfold State.Inv; decide, rfl⟩

/-- Sizes 0, 2 MiB less 1, and 256 TiB and 2 MiB more. -/
theorem witness_CreationRefusesBadSizes : OrderTaken order ready ∧
    (∀ n ∈ [0, 2097151, 2 ^ 48 + 2097152], ¬ (n % 2097152 = 0 ∧ 2097152 ≤ n ∧ n ≤ 281474976710656)) := ⟨witness_order, by decide⟩

/-- `ready` before its admission, with a composition whose fault agent is 7. -/
def unadmitted : State := (withComp fun c => { c with faultAgent := 7 }).modBoot fun b => { b with admitted := false }

theorem witness_UnadmittedRequestsAreAnswered : unadmitted.boot.admitted = false ∧
    (∀ n ∈ [8, 16, 24, 32, 44, 48, 64, 80], FrameTaken false (hdr 7 n 1) n unadmitted) ∧
    (let u := unadmitted.afterLink (hdr 7 16 1)
     u.activeIdx 1 = some 0 ∧ (u.compAt 0).faultAgent = 7) ∧
    ManagedTaken (hdr 9 48 7) mgr 8 unadmitted ∧ StepTaken (hdr 9 48 7) mgr 8 unadmitted ∧
    (let s := (ticking 1 {}).modBoot fun b => { b with admitted := false }
     FrameTaken false (hdr 9 16 7) 16 s ∧ s.boot.admitted = false ∧ (s.portCfg 0).tick = true ∧ s.ticksRun srcFrames = true ∧ (s.afterLink (hdr 9 16 7)).sky.isCopy 8 = false) ∧
    (let s := unadmitted.modSub 0 fun p => { p with hops := [(7, { resync := true })] }
     s.arrives 0 0 = true ∧ s.encapOk (hdr 9 8 7) = true ∧ (s.subPort 0).partner = 9 ∧ s.lossless 0 7 = true ∧ ((s.subPort 0).hop 7).resync = true) := by
  exact ⟨by decide, by unfold FrameTaken; decide, by decide, managed_of (by unfold FrameTaken; decide),
    step_of (by unfold FrameTaken; decide), by unfold FrameTaken; decide, by decide⟩

/-- Sizes 4, 8 and 16 off their alignment, 16 with functions 0, 1 and 2, and the sizes beside them. -/
theorem witness_AtomicsOutOfShape : FrameTaken false (hdr 7 48 1) 48 ready ∧ ready.boot.admitted = true ∧ ready.comps.selfExpelled = false ∧
    (∀ e ∈ [(0, 0, 0), (3, 0, 0), (5, 0, 0), (16, 2, 0), (32, 0, 0), (4, 0, 2), (8, 0, 4), (16, 1, 8)],
      ¬ (e.1 = 4 ∨ e.1 = 8 ∨ (e.1 = 16 ∧ e.2.1 ≤ 1)) ∨ e.2.2 % e.1 ≠ 0) := by
  unfold FrameTaken; decide

/-- The register before the switch block and the one after it; 1 and 64 values. -/
theorem witness_ExpelledDeviceWritesOnlySwitch :
    (let s : State := { ready with comps := { ready.comps with selfExpelled := true } }
     s.comps.selfExpelled = true ∧ (∀ n ∈ [1, 64], ManagedTaken (hdr 9 (48 + 8 * n) 7) mgr (8 + 8 * n) s) ∧ ManagedTaken (hdr 9 48 7) mgr 8 s) ∧
    0x2FFFF8 < 0x300000 ∧ 0x400000 < 0x400000 + 8 * 1 := by
  refine ⟨⟨by decide, fun n h => ?_, managed_of (by unfold FrameTaken; decide)⟩, by decide⟩
  simp only [List.mem_cons, List.not_mem_nil, or_false] at h
  rcases h with rfl | rfl <;> exact managed_of (by unfold FrameTaken; decide)

end Sys2Proof.Tests
end

section
/-! Proofs about the store's bytes (02: R6, R30, R37). -/
namespace Sys2Proof.Machine

/-- A byte outside the written range, or of another region, reads as before. -/
theorem byte_writeBytes_other (s : State) {region off r o : Nat} {l : List Byte} (h : s.Inv) (hl : off + l.length ≤ 2 ^ 48)
    (ho : o < 2 ^ 48) (hne : r ≠ region ∨ o < off ∨ off + l.length ≤ o) :
    (s.writeBytes region off l).byte r o = s.byte r o := by
  have hkey : ∀ j, j < l.length → storeKey r o ≠ storeKey region (off + j) := fun j hj =>
    storeKey_ne ho (by omega) (by omega)
  exact get_writeMem_other region l off (storeKey r o) s.store.mem h hkey

/-- Settles O20: the written bytes by induction over the list, the others because their keys differ. -/
theorem storeBytesReadBack : Obligations.StoreBytesReadBack := by
  intro s region off l h hl
  refine ⟨s.Inv_writeBytes region off l h, readBytes_writeBytes s region off l h, ?_⟩
  intro r o ho hne
  exact byte_writeBytes_other s h hl ho hne

end Sys2Proof.Machine
end

section
/-! Proofs about the registers that management frames reach (03: R96, R97; 21: R598): what an access to one register does,
what each register with an effect of its own is written or read as, and the statement assembled from both. -/
namespace Sys2Proof.Machine

/-! ### Which addresses stop an access -/

theorem accessStop_inside {a : Nat} (hal : a % 8 = 0) (hin : a < csrEnd) : accessStop a = stOk := by
  simp [accessStop, hal, hin]

theorem accessStop_misaligned {a : Nat} (hal : a % 8 ≠ 0) : accessStop a = stAlign := by
  simp [accessStop, hal]

theorem accessStop_outside {a : Nat} (hal : a % 8 = 0) (hout : csrEnd ≤ a) : accessStop a = stInvalid := by
  simp [accessStop, hal, hout]

/-! ### One register -/

theorem State.readRegs_one (s : State) (m : Aid) {a : Nat} (ok : accessStop a = stOk) :
    s.readRegs m a 1 = ((s.takeCsr m a).2, beBytes 8 (s.readCsr m a).toNat, stOk) := by
  simp [State.readRegs, ok, State.takeCsr]

theorem State.readRegs_misaligned (s : State) (m : Aid) {a : Nat} (bad : accessStop a = stAlign) (n : Nat) :
    s.readRegs m a (n + 1) = (s, [], stAlign) := by
  simp [State.readRegs, bad]

theorem State.readRegs_outside (s : State) (m : Aid) {a : Nat} (bad : accessStop a = stInvalid) (n : Nat) :
    s.readRegs m a (n + 1) = (s.countInvalid, [], stInvalid) := by
  simp [State.readRegs, bad]

/-- After admission a write extends no measurement. -/
theorem State.writeRegs_one (s : State) (m : Aid) {a : Nat} (v : W64) (adm : s.boot.admitted = true) (ok : accessStop a = stOk) :
    s.writeRegs m a [v] = (s.writeCsr m a v, stOk) := by
  simp [State.writeRegs, ok, adm]

/-! ### The frames that carry an access -/

/-- A read of 1 to 64 registers that is taken answers what the registers answer. -/
theorem readAccess_taken {h : Hdr} {t : Trailer} {s : State} (ok : ManagedTaken h t 8 s) (hz : h.zeroed = true) (a : Nat) {n : Nat}
    (h1 : n ≠ 0) (h64 : n ≤ 64) :
    readAccess h t a n s =
      (((s.afterTrailer h t).readRegs h.src a n).1).respondAuth h 0x70 ((s.afterTrailer h t).readRegs h.src a n).2.2
        ((s.afterTrailer h t).readRegs h.src a n).2.1 := by
  have hn : ¬ (n = 0 ∨ 64 < n) := by omega
  simp only [readAccess, managed_taken ok, zeroChecked, hz, if_true, if_neg hn]

/-- A count out of range is INVALID (R70). -/
theorem readAccess_badCount {h : Hdr} {t : Trailer} {s : State} (ok : ManagedTaken h t 8 s) (hz : h.zeroed = true) (a : Nat) {n : Nat}
    (bad : n = 0 ∨ 64 < n) : readAccess h t a n s = (s.afterTrailer h t).respondAuth h 0x70 stInvalid [] := by
  simp only [readAccess, managed_taken ok, zeroChecked, hz, if_true, if_pos bad]

theorem readAccess_one {h : Hdr} {t : Trailer} {s : State} (ok : ManagedTaken h t 8 s) (hz : h.zeroed = true) {a : Nat}
    (inside : accessStop a = stOk) :
    readAccess h t a 1 s = ((s.afterTrailer h t).takeCsr h.src a).2.respondAuth h 0x70 stOk
      (beBytes 8 ((s.afterTrailer h t).readCsr h.src a).toNat) := by
  rw [readAccess_taken ok hz a (by decide) (by decide), State.readRegs_one _ _ inside]

/-- A misaligned address is ALIGN, and nothing is counted (R97). -/
theorem readAccess_misaligned {h : Hdr} {t : Trailer} {s : State} (ok : ManagedTaken h t 8 s) (hz : h.zeroed = true) {a : Nat}
    (bad : accessStop a = stAlign) : readAccess h t a 1 s = (s.afterTrailer h t).respondAuth h 0x70 stAlign [] := by
  rw [readAccess_taken ok hz a (by decide) (by decide), State.readRegs_misaligned _ _ bad]

/-- An address past the blocks is INVALID, and counted (R598, R606). -/
theorem readAccess_outside {h : Hdr} {t : Trailer} {s : State} (ok : ManagedTaken h t 8 s) (hz : h.zeroed = true) {a : Nat}
    (bad : accessStop a = stInvalid) :
    readAccess h t a 1 s = (s.afterTrailer h t).countInvalid.respondAuth h 0x70 stInvalid [] := by
  rw [readAccess_taken ok hz a (by decide) (by decide), State.readRegs_outside _ _ bad]

/-- After admission a write of one register of a device that has not expelled itself, in a frame long enough for it. -/
theorem writeAccess_one {h : Hdr} {t : Trailer} {s : State} (ok : ManagedTaken h t 8 s) (hz : h.zeroed = true) (len : 56 ≤ h.length)
    (here : s.comps.selfExpelled = false) (adm : s.boot.admitted = true) {a : Nat} (inside : accessStop a = stOk) (v : W64) :
    writeAccess h t a [v] s = ((s.afterTrailer h t).writeCsr h.src a v).respondAuth h 0x71 stOk [] := by
  have hlen : ¬ h.length < 56 := by omega
  have hregs := State.writeRegs_one (s.afterTrailer h t) h.src (a := a) v (by simp [adm]) inside
  simp [writeAccess, managed_taken ok, zeroChecked, hz, hlen, here, hregs]

/-! ### The registers with an effect of their own -/

/-- PWR_PEAK saturates at 16 bits and is cleared by its read (R8, R615). -/
theorem State.readCsr_pwrPeak (s : State) (m : Aid) : (s.readCsr m pwrPeakAddr).toNat = min 65535 s.power.peak := by
  have hreg : s.readCsr m pwrPeakAddr = BitVec.ofNat 64 (satBits 16 s.power.peak) := rfl
  rw [hreg, BitVec.toNat_ofNat, satBits]
  omega

theorem State.takeCsr_pwrPeak (s : State) (m : Aid) : (s.takeCsr m pwrPeakAddr).2 = s.setPower { s.power with peak := 0 } := by
  simp [State.takeCsr]

theorem State.writeCsr_recSel (s : State) (m : Aid) (v : W64) : s.writeCsr m 0x400000 v = s.selectRecord m v := rfl

/-- SWT_FWD of an AID (R563). -/
theorem State.writeCsr_fwd (s : State) (m aid : Aid) (v : W64) : s.writeCsr m (0x380000 + 8 * aid.toNat) v = s.writeFwd aid.toNat v := by
  have haid := aid.isLt
  have hblock : (0x380000 + 8 * aid.toNat) / 0x100000 = 0x3 := by omega
  have hoff : (0x380000 + 8 * aid.toNat) % 0x100000 = 0x80000 + 8 * aid.toNat := by omega
  have hidx : (0x80000 + 8 * aid.toNat - 0x80000) / 8 = aid.toNat := by omega
  have hin : 0x80000 ≤ 0x80000 + 8 * aid.toNat := Nat.le_add_right _ _
  simp only [State.writeCsr, hblock, hoff, State.writeSwt, if_pos hin, hidx]

/-- GRD_FAULT_LATCH of a core and a program (R312). -/
theorem State.writeCsr_latch (s : State) (m : Aid) {core program : Nat} (hc : core < 1024) (hp : program < 4) (v : W64) :
    s.writeCsr m (0x810000 + 32 * core + 8 * program) v = s.writeLatch core program v := by
  have hblock : (0x810000 + 32 * core + 8 * program) / 0x100000 = 0x8 := by omega
  have hoff : (0x810000 + 32 * core + 8 * program) % 0x100000 = 0x10000 + 32 * core + 8 * program := by omega
  have hin : 0x10000 ≤ 0x10000 + 32 * core + 8 * program ∧ 0x10000 + 32 * core + 8 * program < 0x18000 := by omega
  have hcore : (0x10000 + 32 * core + 8 * program - 0x10000) / 32 = core := by omega
  have hprogram : (0x10000 + 32 * core + 8 * program) % 32 / 8 = program := by omega
  simp only [State.writeCsr, hblock, hoff, if_pos hin, hcore, hprogram]

theorem State.writeCsr_alert (s : State) (m : Aid) (v : W64) : s.writeCsr m 0x10CF000 v = s.writeAlert v := rfl

/-- Settles O52: each register's address lies inside a block, so that the access to it is one register's read or write. -/
theorem registersByManagement : Obligations.RegistersByManagement := by
  intro h t a count aid core program v s
  refine ⟨fun ok hz => ⟨?read, ?misaligned, ?outside, ?badCount, ?peak⟩, fun ok hz len here adm => ?_⟩
  case read =>
    rintro rfl hal hin
    exact congrArg _ (readAccess_one ok hz (accessStop_inside hal hin))
  case misaligned =>
    rintro rfl hal
    exact congrArg _ (readAccess_misaligned ok hz (accessStop_misaligned hal))
  case outside =>
    rintro rfl hal hout
    exact congrArg _ (readAccess_outside ok hz (accessStop_outside hal hout))
  case badCount =>
    intro bad
    have hn : count.toNat = 0 ∨ 64 < count.toNat := bad.imp_left fun h0 => by rw [h0]; rfl
    exact congrArg _ (readAccess_badCount ok hz a.toNat hn)
  case peak =>
    refine congrArg _ ((readAccess_one ok hz (a := pwrPeakAddr) (by decide)).trans ?_)
    rw [State.takeCsr_pwrPeak, State.readCsr_pwrPeak]
  have write : ∀ {b : Nat}, b % 8 = 0 → b < csrEnd →
      writeAccess h t b [v] s = ((s.afterTrailer h t).writeCsr h.src b v).respondAuth h 0x71 stOk [] :=
    fun hal hin => writeAccess_one ok hz len here adm (accessStop_inside hal hin) v
  refine ⟨fun hal hin => congrArg _ (write hal hin), ?recSel, ?fwd, ?latch, ?alert⟩
  case recSel => exact congrArg _ ((write (by decide) (by decide)).trans (by rw [State.writeCsr_recSel]))
  case fwd =>
    have hin : 0x380000 + 8 * aid.toNat < csrEnd := by have := aid.isLt; unfold csrEnd; omega
    refine congrArg _ ((write (by omega) hin).trans ?_)
    rw [State.writeCsr_fwd]
    rfl
  case latch =>
    intro hc hp hv
    have hrange : ¬ (1024 ≤ core ∨ 4 ≤ program) := by omega
    have hin : 0x810000 + 32 * core + 8 * program < csrEnd := by unfold csrEnd; omega
    refine congrArg _ ((if_neg hrange).trans ((write (by omega) hin).trans ?_))
    rw [State.writeCsr_latch _ _ hc hp, State.writeLatch, if_pos hv]
  case alert =>
    intro hv
    refine congrArg _ ((write (by decide) (by decide)).trans ?_)
    rw [State.writeCsr_alert, State.writeAlert, if_pos hv]

end Sys2Proof.Machine
end

section
/-! Proofs about one step of the block (01: R18): a command in front of the queue, and an empty queue. Where the device holds
nothing, each part of its own progress leaves the state as it is. -/
namespace Sys2Proof.Machine

theorem State.pump_idle {s : State} (h : s.reqs.held = []) : s.pump = s := by
  simp [State.pump, h, State.pumpRounds, State.pumpPass]

theorem State.setArrivals_idle {s : State} (h : s.reqs.arrivals = []) : s.setArrivals [] = s := by
  rw [← h]; rfl

theorem State.rerunAll_idle {s : State} (h : s.reqs.arrivals = []) : s.rerunAll = s := by
  rw [State.rerunAll, h, List.foldl_nil, State.setArrivals_idle h]

theorem State.acceptGather_idle {s : State} (h : s.emb.ingress = []) : s.acceptGather = none := by
  simp only [State.acceptGather, h]

theorem State.runGather_idle {s : State} (hi : s.emb.ingress = []) (hq : s.emb.queue = []) : s.runGather = s := by
  simp only [State.runGather, hq, State.refillGather, State.acceptGather_idle hi]

theorem State.runJobs_idle {s : State} (h : s.emb.jobs = []) : s.runJobs = s := by
  rw [State.runJobs, h, List.foldl_nil]

theorem State.settleAll_idle {s : State} (hi : s.emb.ingress = []) (hq : s.emb.queue = []) (hj : s.emb.jobs = [])
    (hg : s.emb.service = []) (hc : s.ckpt.service = []) (hx : s.indexes = []) (hp : s.movers.parked = []) : s.settleAll = s := by
  simp only [State.settleAll, State.runGather_idle hi hq, State.runJobs_idle hj, hg, hc, hx, hp, List.map_nil, List.length_nil,
    List.range_zero, List.foldl_nil]

/-- Nothing is held, so nothing goes on: log entry 92. -/
theorem State.progress_idle {s : State} (h : s.holdsNothing = true) : s.progress = s := by
  simp only [State.holdsNothing, Bool.and_eq_true, List.isEmpty_iff] at h
  obtain ⟨⟨⟨⟨⟨⟨⟨⟨held, arrivals⟩, service⟩, queue⟩, ingress⟩, jobs⟩, ckpt⟩, indexes⟩, parked⟩ := h
  rw [State.progress, State.serving, State.pump_idle held, State.rerunAll_idle arrivals,
    State.settleAll_idle ingress queue jobs service ckpt indexes parked, ite_self]

/-- The device right after reset is one that holds nothing. -/
theorem State.reset_holdsNothing : State.reset.holdsNothing = true := rfl

theorem step_cons (c : Instr) (rest : List Instr) (s : State) :
    step { s with pending := c :: rest } = exec c { s with pending := rest } := rfl

theorem step_nil {s : State} (h : s.pending = []) : step s = .next s.progress := by
  simp only [step, h]

/-- Settles O1: the two cases of the queue, and on an empty one the progress of a device that holds nothing. -/
theorem stepRunsFrontCommand : Obligations.StepRunsFrontCommand :=
  ⟨step_cons, fun s empty => ⟨step_nil empty, fun idle => by rw [step_nil empty, State.progress_idle idle]⟩⟩

end Sys2Proof.Machine
end

section
/-! Proofs about what passes a sub-port besides consumed frames of version 2 (03: R63, R70, R75; 19: R554 to R571). -/
namespace Sys2Proof.Machine

theorem State.inService_of_advanceTo (s : State) (now : Nat) : (s.advanceTo now).inService = s.inService := by
  simp [State.inService]

/-! ### The ingress checks of frames for another AID -/

theorem encapOk_counted {s : State} {h : Hdr} (encap : s.encapOk h = true) :
    ((s.advanceTo h.now).bump 0 h.port 0).encapOk h = true := by
  rw [State.encapOk_of_boot (s := s) (by simp [State.bump]), encap]

/-- Steps 1 to 3 of R72 do not look at the destination: a frame for another AID passes them where one for this device would. -/
theorem linkChecks_readdressed {mgmt : Bool} {h : Hdr} {dst : Aid} {fixed : Nat} {s : State}
    (ok : FrameTaken mgmt { h with dst := dst } fixed s) (k : State → State) : linkChecks mgmt h fixed k s = k (s.afterLink h) := by
  obtain ⟨_, arr, chk, tag, encap, long, whole, drain, mac, room, next⟩ := ok
  dsimp only at arr chk tag long whole drain mac room
  have encap' := encapOk_counted (h := h) encap
  have next' : (hopCheck h ((s.advanceTo h.now).bump 0 h.port 0)).1 = true := next
  have mac' : (!mgmt && (s.advanceTo h.now).macClosed h.port h.sub) = false := by
    rw [← Bool.not_inj_iff, Bool.not_and, Bool.not_not]; exact mac
  have len : (decide (h.received < h.length) || decide (h.length < fixed)) = false := by
    simp [Nat.not_lt.mpr whole, Nat.not_lt.mpr long]
  obtain ⟨_, place⟩ := Option.isSome_iff_exists.mp room
  simp [linkChecks, arr, chk, tag, encap', drain, mac', place, next', len, State.afterLink]

/-- The checks of a frame of version 1, which has no hop check (R114). -/
theorem linkChecksV1_passed {h : Hdr} {s : State} (arr : s.arrives h.port h.sub = true) (drain : (s.advanceTo h.now).portDrain h.port = false)
    (chk : h.check = .passed) (mac : (s.advanceTo h.now).macClosed h.port h.sub = false) (tag : h.tagged = true)
    (encap : s.encapOk h = true)
    (room : (((s.advanceTo h.now).bump 0 h.port 0).bufferPlace (subKey h.port h.sub) h.pcp (bufferBytes h.length)).isSome = true)
    (whole : h.length ≤ h.received) (k : State → State) :
    linkChecksV1 h k s = k (((s.advanceTo h.now).bump 0 h.port 0).markConsumed h) := by
  obtain ⟨_, place⟩ := Option.isSome_iff_exists.mp room
  simp [linkChecksV1, arr, drain, chk, mac, tag, encapOk_counted encap, place, Nat.not_lt.mpr whole]

/-! ### Forwarding (R18, R563) -/

/-- A management opcode, which passes where no secured association is live (R535). -/
theorem mgmtOpcode_false {op : Byte} (h : op.toNat < 0x70 ∨ 0x75 < op.toNat) :
    (decide (0x70 ≤ op.toNat) && decide (op.toNat ≤ 0x75)) = false := by
  rw [Bool.and_eq_false_iff, decide_eq_false_iff_not, decide_eq_false_iff_not]
  omega

theorem execForwardFrame_v1 {h : Hdr} {f : Transit} {s : State} (away : s.answersTo h.dst = false) (v1 : f.v1 = true) :
    execForwardFrame h f s = .next (linkChecksV1 h (fun u => u.forward h f) s) := by
  simp [execForwardFrame, away, v1]

theorem execForwardFrame_taken {h : Hdr} {f : Transit} {s : State} (away : s.answersTo h.dst = false) (v2 : f.v1 = false)
    (ok : FrameTaken false { h with dst := s.aid } (fixedPayload f.opcode f.resp) s) (tick : f.opcode ≠ 0x60) (ack : f.opcode ≠ 0x7E)
    (nak : f.opcode ≠ 0x7F) (mgmt : f.opcode.toNat < 0x70 ∨ 0x75 < f.opcode.toNat) :
    execForwardFrame h f s = .next ((s.afterLink h).forward h f) := by
  have link : ¬ (f.opcode = 0x60 ∨ f.opcode = 0x7E ∨ f.opcode = 0x7F) := by
    rintro (e | e | e)
    exacts [tick e, ack e, nak e]
  simp only [execForwardFrame, away, v2, link, mgmtOpcode_false mgmt, linkChecks_readdressed ok, if_false, Bool.false_eq_true]

/-! ### Frames that are not understood (R63, R70, R75) -/

theorem execUnlistedOpcode_unsupported {h : Hdr} {op : Byte} {s : State} (unlisted : listedOpcode op = false) (ok : FrameTaken false h 0 s) :
    execUnlistedOpcode h op none s = .next ((s.afterLink h).respond h op stUnsupported []) := by
  simp [execUnlistedOpcode, unlisted, consumed_taken ok]

theorem execUnlistedOpcode_order {h : Hdr} {x : UnlistedOrder} {s : State} (unlisted : listedOrder x.code = false)
    (ok : OrderTaken { hdr := h, trailer := x.trailer, orderId := x.orderId } s) :
    execUnlistedOpcode h 0x72 (some x) s = .next
      ((s.orderTaken { hdr := h, trailer := x.trailer, orderId := x.orderId }).finishOrder
        (Order.ref { hdr := h, trailer := x.trailer, orderId := x.orderId }) stInvalid []) := by
  simp [execUnlistedOpcode, unlisted, orderRequest_taken ok]

theorem execOtherFrame_untagged {h : Hdr} {s : State} (arr : s.arrives h.port h.sub = true)
    (drain : (s.advanceTo h.now).portDrain h.port = false) (chk : h.check = .passed)
    (mac : (s.advanceTo h.now).macClosed h.port h.sub = false) :
    execOtherFrame h .untaggedTfp s = .next (((s.advanceTo h.now).bump 0 h.port 0).bump 0 h.port 13) := by
  simp [execOtherFrame, arr, drain, chk, mac]

/-! ### Egress (R568) -/

/-- The frame in transmission has left: it is out of the packet buffer and counted. -/
def State.endTransmission (s : State) (port sub : Nat) : State :=
  match (s.subPort (subKey port sub)).inFlight with
  | some f => ((s.uncharge f).modSub (subKey port sub) fun p => { p with inFlight := none, wire := [] }).bump 0 port 1
  | none => s

theorem execEgressSelect_chosen {now port sub : Nat} {s v : State} {again : Bool} {f : OutFrame} (arr : s.arrives port sub = true)
    (chosen : ((s.advanceTo now).endTransmission port sub).choose (subKey port sub) = (some (again, f), v)) :
    execEgressSelect now port sub s = .next ((v.transmit (subKey port sub) again f).flowControl (subKey port sub / 128)) := by
  have unfolded : execEgressSelect now port sub s = .next (if !s.arrives port sub then s
    else State.flowControl (match ((s.advanceTo now).endTransmission port sub).choose (subKey port sub) with
      | (some (again, f), s) => s.transmit (subKey port sub) again f
      | (none, s) => s) (subKey port sub / 128)) := rfl
  rw [unfolded, arr, chosen]
  rfl

/-! ### Pauses (R558, R560) -/

theorem execPfcFrame_taken {now port sub : Nat} {enable : Byte} {quanta : List Nat} {s : State} (arr : s.arrives port sub = true)
    (drain : (s.advanceTo now).portDrain port = false) :
    execPfcFrame now port sub enable quanta s = .next
      (let named := (List.range 8).filter fun q => enable.getLsbD q
       named.foldl (fun s q => s.pausePcp (subKey port sub) q (nth 0 quanta q))
         (if ∃ q ∈ named, nth 0 quanta q ≠ 0 then (s.advanceTo now).bump 0 port 10 else s.advanceTo now)) := by
  simp only [execPfcFrame, arr, drain, List.any_eq_true, decide_eq_true_eq]
  rfl

theorem execPauseExpiry_ended {now port sub pcp since ends : Nat} {s : State}
    (paused : ((s.advanceTo now).subPort (subKey port sub)).paused.get none pcp = some (since, ends)) (ended : ends ≤ (s.advanceTo now).now) :
    execPauseExpiry now port sub pcp s = .next ((s.advanceTo now).resumePcp (subKey port sub) pcp) := by
  simp only [execPauseExpiry, paused, if_pos ended]

/-- Where the charge still holds after half of the XOFF timer, XOFF is sent again. -/
theorem execXoffRefresh_due {now port sub pcp t : Nat} {s : State} (serves : s.inService = true)
    (drain : (s.advanceTo now).portDrain port = false) (up : ((s.advanceTo now).subPort (subKey port sub)).link = .up)
    (xoff : ((s.advanceTo now).subPort (subKey port sub)).xoff.get none pcp = some t)
    (flow : (s.advanceTo now).flowPcp (subKey port sub) pcp = s.advanceTo now)
    (full : (s.advanceTo now).chargeFull (subKey port sub) pcp = true)
    (due : t + quantaNs ((s.advanceTo now).subPort (subKey port sub)).speed 0xFFFF / 2 ≤ (s.advanceTo now).now) :
    execXoffRefresh now port sub pcp s = .next
      (((s.advanceTo now).modSub (subKey port sub) fun p => { p with xoff := p.xoff.set none pcp (some (s.advanceTo now).now) }).queueAt
        (subKey port sub) (pauseFrame (s.advanceTo now) pcp 0xFFFF)) := by
  simp [execXoffRefresh, xoff, State.inService_of_advanceTo, serves, drain, up, flow, due, full]

/-! ### MACsec, wall time, neighbours (R534, R554, R571) -/

theorem mkaGood_iff (m : MkaMessage) : mkaGood m = true ↔ m.live = true ∧ m.suite = gcmAesXpn256 ∧ m.offset = 0 := by
  simp [mkaGood, and_assoc]

theorem execEapolFrame_taken {now port sub : Nat} {m : MkaMessage} {s : State} (arr : s.arrives port sub = true)
    (drain : (s.advanceTo now).portDrain port = false) (macsec : ((s.advanceTo now).portCfg port).macsec = true)
    (held : ((s.advanceTo now).sec.caks.get {} (subKey port sub)).held = true) :
    execEapolFrame now port sub m s = .next (if m.live = true ∧ m.suite = gcmAesXpn256 ∧ m.offset = 0
      then (s.advanceTo now).secureSub (subKey port sub) m else (s.advanceTo now).closeSub (subKey port sub)) := by
  simp only [execEapolFrame, arr, drain, macsec, held, mkaGood_iff]
  rfl

theorem execPtpMessage_taken {now port sub seconds nanos : Nat} {sync : Bool} {s : State} (arr : s.arrives port sub = true)
    (drain : (s.advanceTo now).portDrain port = false) (mac : (s.advanceTo now).macClosed port sub = false)
    (ptp : ((s.advanceTo now).subPort (subKey port sub)).ptp = true) :
    execPtpMessage now port sub seconds nanos sync s = .next
      (let w := s.advanceTo now
       { w with switch := { w.switch with wallSec := seconds, wallNs := nanos, wallAt := w.now, wallSync := sync } }) := by
  simp only [execPtpMessage, arr, drain, mac, ptp]
  rfl

theorem execNeighborSolicitation_answered {now port sub : Nat} {target ask : BitVec 128} {mac : BitVec 48} {s : State}
    (arr : s.arrives port sub = true) (drain : (s.advanceTo now).portDrain port = false)
    (closed : (s.advanceTo now).macClosed port sub = false) (v6 : ((s.advanceTo now).portCfg port).ipv6 = true)
    (asked : target = ((s.advanceTo now).subPort (subKey port sub)).ipv6) :
    execNeighborSolicitation now port sub target ask mac s = .next ((s.advanceTo now).queueAt (subKey port sub)
      (advertisement ((s.advanceTo now).subPort (subKey port sub)) (s.advanceTo now).pcpControl ask mac)) := by
  simp [execNeighborSolicitation, arr, drain, closed, v6, asked]

/-- Settles O48: each command by the lemma about it, under the checks that its frame passes. -/
theorem switchAndFlowControl : Obligations.SwitchAndFlowControl := by
  intro h f x op enable quanta now port sub pcp seconds nanos sync mka target ask mac s u w k p a o
  refine ⟨?v1, execForwardFrame_taken, execUnlistedOpcode_unsupported, execUnlistedOpcode_order, execOtherFrame_untagged,
    fun arr => ⟨?egress, fun drain => ⟨execPfcFrame_taken arr drain, execEapolFrame_taken arr drain, fun closed =>
      ⟨execPtpMessage_taken arr drain closed, execNeighborSolicitation_answered arr drain closed⟩⟩⟩,
    fun _ _ => execPauseExpiry_ended, fun _ => execXoffRefresh_due⟩
  case v1 =>
    intro away v1 arr drain chk mac tag encap room whole
    exact (execForwardFrame_v1 away v1).trans (congrArg _ (linkChecksV1_passed arr drain chk mac tag encap room whole _))
  case egress =>
    intro v again g v' chosen
    exact execEgressSelect_chosen arr chosen

end Sys2Proof.Machine
end

section
/-! Proofs about withdrawal from service, throttling and the input supply (01: R12, R13; 22: R615 to R637). -/
namespace Sys2Proof.Machine

/-! ### Withdrawal -/

section
variable (s : State)
@[simp] theorem State.withdraw_withdrawn : s.withdraw.withdrawn = true := rfl
@[simp] theorem State.withdraw_serdesIdle : s.withdraw.pins.serdesIdle = true := rfl
@[simp] theorem State.withdraw_ready : s.withdraw.pins.ready = false := rfl
@[simp] theorem State.withdraw_store : s.withdraw.store = s.store := rfl
@[simp] theorem State.withdraw_inService : s.withdraw.inService = false := by simp [State.inService]
end

/-- A device in service withdraws after what the event itself does. -/
theorem withdrawal_inService {s : State} (h : s.inService = true) (now : Nat) (f : State → State) :
    withdrawal s now f = (f (s.advanceTo now)).withdraw := by
  rw [withdrawal, if_pos h]

theorem execD2dRetryFailure_inService {s : State} (h : s.inService = true) (now : Nat) {link : Nat} (hl : link ≤ 2) :
    execD2dRetryFailure now link s = .next (((s.advanceTo now).bumpBy 11 0 7 8).bumpBy 11 0 8 9).withdraw := by
  rw [execD2dRetryFailure, if_neg (Nat.not_lt.mpr hl), withdrawal_inService h]

theorem execRefclkLoss_inService {s : State} (h : s.inService = true) (now : Nat) {clock : Nat} (hc : clock ≤ 2) :
    execRefclkLoss now clock s = .next (s.advanceTo now).withdraw := by
  rw [execRefclkLoss, if_neg (Nat.not_lt.mpr hc), withdrawal_inService h]

theorem execVio18Loss_inService {s : State} (h : s.inService = true) (now : Nat) :
    execVio18Loss now s = .next (s.advanceTo now).withdraw := by
  rw [execVio18Loss, withdrawal_inService h]

/-! ### Sensors -/

theorem execThermalTrip_die {s : State} (h : s.inService = true) (now : Nat) {sensor : Nat} (used : s.sensorUsed sensor = true) :
    execThermalTrip now false sensor s = .next
      (let v := (s.advanceTo now).bumpAlert 7 sensor 4
       (v.setPower { v.power with throttle := 4, tripped := true }).withdraw) := by
  simp only [execThermalTrip, used, withdrawal_inService h, State.bumpAlert_power]
  rfl

theorem execSensorFault_used {s : State} (h : s.boot.inReset = false) (now : Nat) {sensor : Nat} (used : s.sensorUsed sensor = true) :
    execSensorFault now sensor s = .next
      (let v := (s.advanceTo now).bumpAlert 7 sensor 4
       v.setPower { v.power with faulted := v.power.faulted ++ [sensor] }) := by
  simp only [execSensorFault, h, used]
  rfl

/-! ### Throttling -/

/-- The throttle step that R624 asks for after 1 ms, cool for `coolFor` ms in a row: none after a trip, one lower while it is too hot,
one higher after 10 ms. -/
def State.nextThrottle (s : State) (mv ca w10ms w1s coolFor : Nat) : Nat :=
  if s.power.tripped = true then s.power.throttle
  else if s.tooHot mv ca w10ms w1s = true then (if s.power.throttle < 4 then s.power.throttle + 1 else s.power.throttle)
  else if 10 ≤ coolFor then s.power.throttle - 1 else s.power.throttle

/-- The milliseconds in a row for which the readings are cool, this one included. -/
def State.coolMs (s : State) (w10ms w1s : Nat) : Nat := if s.cool w10ms w1s then s.power.coolFor + 1 else 0

/-- Raising stops at the highest step, 0. -/
theorem State.nextThrottle_cool {s : State} {mv ca w10ms w1s coolFor : Nat} (trip : ¬ s.power.tripped = true)
    (hot : ¬ s.tooHot mv ca w10ms w1s = true) (stays : ¬ (10 ≤ coolFor ∧ 0 < s.power.throttle)) :
    s.nextThrottle mv ca w10ms w1s coolFor = s.power.throttle := by
  have h : 10 ≤ coolFor → s.power.throttle - 1 = s.power.throttle := by omega
  simpa [State.nextThrottle, trip, hot] using h

/-- Of the power registers `throttled` changes the throttle step and the count of cool milliseconds alone. -/
theorem State.throttled_power (s : State) (mv ca w10ms w1s : Nat) : ∃ ms : Nat,
    (s.throttled mv ca w10ms w1s).power =
      { s.power with throttle := s.nextThrottle mv ca w10ms w1s (s.coolMs w10ms w1s), coolFor := ms } := by
  have count : (if s.cool w10ms w1s then s.power.coolFor + 1 else 0) = s.coolMs w10ms w1s := rfl
  simp only [State.throttled, count]
  by_cases trip : s.power.tripped = true
  case pos => exact ⟨s.power.coolFor, by rw [if_pos trip, State.nextThrottle, if_pos trip]⟩
  by_cases hot : s.tooHot mv ca w10ms w1s = true
  case pos =>
    refine ⟨s.coolMs w10ms w1s, ?_⟩
    by_cases lower : s.power.throttle < 4 <;> simp [State.nextThrottle, trip, hot, lower]
  by_cases raise : 10 ≤ s.coolMs w10ms w1s ∧ 0 < s.power.throttle
  · exact ⟨0, by simp [State.nextThrottle, trip, hot, raise]⟩
  · exact ⟨s.coolMs w10ms w1s, by simp [State.nextThrottle_cool trip hot raise, trip, hot, raise]⟩

/-- The state that a 1 ms step reaches outside reset: the readings, then the throttle step, then PWR_STATUS. -/
theorem execThrottleStep_running {s : State} (h : s.boot.inReset = false) (now mv ca w1ms w10ms w1s : Nat) (die hbm : List (Nat × Nat)) :
    execThrottleStep now mv ca w1ms w10ms w1s die hbm s = .next
      (let v := (hbm.foldl State.readStack (die.foldl State.readSensor (s.advanceTo now))).throttled mv ca w10ms w1s
       v.setPower { v.power with
         mv := mv, ca := ca, watts := w1ms, junction := v.hottest.2, lowInput := decide (mv < 40000)
         peak := max v.power.peak w10ms }) := by
  simp only [execThrottleStep, h]
  rfl

/-! ### The input supply -/

theorem execLowInput_low {s : State} (h : s.boot.inReset = false) (now : Nat) {mv : Nat} (hl : 37000 ≤ mv) (hu : mv < 40000) :
    execLowInput now mv s = .next ((s.advanceTo now).setPower { (s.advanceTo now).power with mv := mv, lowInput := true }) := by
  have hl' : ¬ mv < 37000 := by omega
  have hu' : ¬ 40000 ≤ mv := by omega
  simp only [execLowInput, h, hl', hu']
  rfl

theorem execInputUndervoltage_low {mv : Nat} (h : mv < 37000) (s : State) :
    execInputUndervoltage mv s = .next (s.enterReset.setPower { s.enterReset.power with vinQualified := false, mv := mv }) := by
  rw [execInputUndervoltage, if_neg (Nat.not_le.mpr h)]

/-- Settles O50: each event by the lemma about its command; the 1 ms step by what `throttled` does with the step and the peak. -/
theorem withdrawalAndThrottling : Obligations.WithdrawalAndThrottling := by
  intro now n mv ca w1 w10 w1s die hbm s w
  refine ⟨fun v => ⟨v.withdraw_withdrawn, v.withdraw_serdesIdle, v.withdraw_ready, v.withdraw_store, v.withdraw_inService⟩,
    fun serves => ⟨fun hn => ⟨?retry, ?clock⟩, ?vio, ?trip⟩, fun runs => ⟨?sensor, ?lowInput, ?throttle⟩, ?undervoltage⟩
  case retry => exact execD2dRetryFailure_inService serves now hn
  case clock => exact execRefclkLoss_inService serves now hn
  case vio => exact execVio18Loss_inService serves now
  case trip => exact execThermalTrip_die serves now
  case sensor => exact execSensorFault_used runs now
  case lowInput => exact execLowInput_low runs now
  case throttle =>
    intro v coolFor
    obtain ⟨ms, power⟩ := v.throttled_power mv ca w10 w1s
    refine ⟨_, execThrottleStep_running runs now mv ca w1 w10 w1s die hbm, rfl, rfl, rfl, rfl, ?_, ?_⟩
    · exact congrArg (fun p => max p.peak w10) power
    · exact congrArg Power.throttle power
  case undervoltage => exact fun low => ⟨_, execInputUndervoltage_low low s, rfl, rfl, rfl⟩

end Sys2Proof.Machine
end

section
/-! Proofs that every step keeps the canonical form of the store's bytes (02: R30, R37). For each function `f` of the model that
gives a state, `State.Inv.f` says that the state has the form if the states that `f` takes have it; a function that gives a pair
is named by the same rule, and one that takes a continuation asks the same of it. A proof follows the function's own body. -/
namespace Sys2Proof.Machine

section
variable {s t : State} {α β : Type}

/-- An update that keeps the bytes keeps their form. -/
theorem State.Inv.update (h : s.Inv) (e : t.store.mem = s.store.mem) : t.Inv := by
  rw [State.Inv, e]
  exact h

/-- A state without listed bytes has them in canonical form. -/
theorem State.Inv.cleared (e : t.store.mem = []) : t.Inv := by
  rw [State.Inv, e]
  rfl

theorem State.Inv.ite {c : Prop} [Decidable c] (h : s.Inv) (h' : t.Inv) : (if c then s else t).Inv := by
  split
  · exact h
  · exact h'

theorem State.Inv.ite_fst {c : Prop} [Decidable c] {p q : State × α} (h : p.1.Inv) (h' : q.1.Inv) : (if c then p else q).1.Inv
    := by
  split
  · exact h
  · exact h'

theorem State.Inv.ite_snd {c : Prop} [Decidable c] {p q : α × State} (h : p.2.Inv) (h' : q.2.Inv) : (if c then p else q).2.Inv
    := by
  split
  · exact h
  · exact h'

theorem State.Inv.of_fst {p : State × α} {x : α} (e : p = (t, x)) (h : p.1.Inv) : t.Inv := by
  rw [e] at h
  exact h

theorem State.Inv.of_snd {p : α × State} {x : α} (e : p = (x, t)) (h : p.2.Inv) : t.Inv := by
  rw [e] at h
  exact h

theorem State.Inv.foldl {g : State → α → State} {l : List α} (hg : ∀ u a, u.Inv → (g u a).Inv) (h : s.Inv) : (l.foldl g s).Inv
    := by
  induction l generalizing s with
  | nil => exact h
  | cons a l ih => exact ih (hg _ a h)

theorem State.Inv.foldl_fst {g : State × β → α → State × β} {l : List α} {p : State × β} (hg : ∀ p a, p.1.Inv → (g p a).1.Inv)
    (h : p.1.Inv) : (l.foldl g p).1.Inv := by
  induction l generalizing p with
  | nil => exact h
  | cons a l ih => exact ih (hg _ a h)

theorem State.Inv.writeBytes {region off : Nat} {l : List Byte} (h : s.Inv) : (s.writeBytes region off l).Inv :=
  s.Inv_writeBytes region off l h
theorem State.Inv.wipeRegion {i : Nat} (h : s.Inv) : (s.wipeRegion i).Inv := s.Inv_wipeRegion i h
theorem State.Inv.dropCopy {region sector : Nat} (h : s.Inv) : (s.dropCopy region sector).Inv := Tab.wf_drop 0 s.store.mem _ _ h
theorem State.Inv.zeroPinned (h : s.Inv) : s.zeroPinned.Inv := s.Inv_zeroPinned h
theorem State.Inv.advanceTo {now : Nat} (h : s.Inv) : (s.advanceTo now).Inv := s.Inv_advanceTo now h
end

/-! ### Machine/Ops -/

theorem State.Inv.serving {s : State} {k : State → State} (hs : s.Inv) (hk : ∀ u, u.Inv → (k u).Inv) : (s.serving k).Inv :=
  .ite hs (hk _ hs)

/-- Canonical bytes in the next state, where there is one. -/
def Out.Inv (o : Out) : Prop := ∀ t, o = .next t → t.Inv

theorem Out.Inv.next {s : State} (h : s.Inv) : Out.Inv (.next s) := by
  intro t e
  cases e
  exact h

/-- An event takes effect at its time, on a device that still serves. -/
theorem Out.Inv.event {s : State} {now : Nat} {k : State → State} (hs : s.Inv) (hk : ∀ u, (u.advanceTo now).Inv → (k u).Inv) :
    Out.Inv (.next (s.serving k)) :=
  .next (.serving hs fun u h => hk u (.advanceTo h))

theorem State.Inv.bumpBy {s : State} {cls unit ctr n : Nat} (hs : s.Inv) : (s.bumpBy cls unit ctr n).Inv :=
  .update hs rfl

theorem State.Inv.bump {s : State} {cls unit ctr : Nat} (hs : s.Inv) : (s.bump cls unit ctr).Inv := .bumpBy hs

theorem State.Inv.setLevel {s : State} {cls unit ctr v : Nat} (hs : s.Inv) : (s.setLevel cls unit ctr v).Inv :=
  .update hs rfl

theorem State.Inv.setComp {s : State} {e : Nat} {c : Comp} (hs : s.Inv) : (s.setComp e c).Inv := .update hs rfl

theorem State.Inv.modComp {s : State} {e : Nat} {f : Comp → Comp} (hs : s.Inv) : (s.modComp e f).Inv := .setComp hs

theorem State.Inv.setRegion {s : State} {i : Nat} {r : Region} (hs : s.Inv) : (s.setRegion i r).Inv := .update hs rfl

theorem State.Inv.modRegion {s : State} {i : Nat} {f : Region → Region} (hs : s.Inv) : (s.modRegion i f).Inv := .setRegion hs

theorem State.Inv.setGroup {s : State} {k : Nat} {g : Group} (hs : s.Inv) : (s.setGroup k g).Inv := .update hs rfl

theorem State.Inv.setPoison {s : State} {region line : Nat} {b : Bool} (hs : s.Inv) : (s.setPoison region line b).Inv :=
  .update hs rfl

theorem State.Inv.writeLinePart {s : State} {region off : Nat} {l : List Byte} (hs : s.Inv)
    : (s.writeLinePart region off l).Inv :=
  .ite (.setPoison (.writeBytes hs)) (.writeBytes hs)

theorem State.Inv.setBlock {s : State} {cls unit : Nat} {b : Block} (hs : s.Inv) : (s.setBlock cls unit b).Inv := .update hs rfl

theorem State.Inv.setSub {s : State} {k : Nat} {p : SubPort} (hs : s.Inv) : (s.setSub k p).Inv := .update hs rfl

theorem State.Inv.modSub {s : State} {k : Nat} {f : SubPort → SubPort} (hs : s.Inv) : (s.modSub k f).Inv := .setSub hs

theorem State.Inv.switchDiscard {s : State} (hs : s.Inv) : s.switchDiscard.Inv := .update hs rfl

theorem State.Inv.linkDiscards {s : State} {k n : Nat} (hs : s.Inv) : (s.linkDiscards k n).Inv := .bumpBy (.modSub hs)

theorem State.Inv.enqueue {s : State} {k : Nat} {f : OutFrame} (hs : s.Inv) : (s.enqueue k f).Inv :=
  .ite (.switchDiscard hs) (.ite (.linkDiscards hs) (.ite (.bump hs) (.modSub hs)))

theorem State.Inv.send {s : State} {f : OutFrame} {arrived : Option Nat} (hs : s.Inv) : (s.send f arrived).Inv := by
  dsimp only [State.send]
  split
  · exact .enqueue hs
  · exact .switchDiscard hs

theorem State.Inv.unmark {s : State} {h : Hdr} (hs : s.Inv) : (s.unmark h).Inv := .update hs rfl

theorem State.Inv.respond {s : State} {h : Hdr} {opcode status : Byte} {payload : List Byte} (hs : s.Inv)
    : (s.respond h opcode status payload).Inv :=
  .send (.unmark hs)

theorem State.Inv.nextCounter {s : State} (hs : s.Inv) : (s.nextCounter).2.Inv := .update hs rfl

theorem State.Inv.respondAuth {s : State} {h : Hdr} {opcode status : Byte} {payload : List Byte} (hs : s.Inv)
    : (s.respondAuth h opcode status payload).Inv :=
  .send (.unmark (.nextCounter hs))

theorem State.Inv.notice {s : State} {code : Nat} {body : List Byte} {cid : Cid} (hs : s.Inv) : (s.notice code body cid).Inv :=
  .foldl (fun _ _ h => .ite (.send (.nextCounter h)) h) (.update hs rfl)

theorem State.Inv.settleAlert {s : State} (hs : s.Inv) : s.settleAlert.Inv := .update hs rfl

theorem State.Inv.latchAlert {s : State} {cls unit ctr : Nat} (hs : s.Inv) : (s.latchAlert cls unit ctr).Inv :=
  .ite hs (.settleAlert (.update hs rfl))

theorem State.Inv.alertNow {s : State} {cls unit ctr : Nat} (hs : s.Inv) : (s.alertNow cls unit ctr).Inv :=
  .ite (.latchAlert hs) (.notice (.update (.latchAlert hs) rfl))

theorem State.Inv.bumpAlert {s : State} {cls unit ctr : Nat} (hs : s.Inv) : (s.bumpAlert cls unit ctr).Inv :=
  .alertNow (.bump hs)

theorem State.Inv.fresh {s : State} (hs : s.Inv) : (s.fresh).2.Inv := .update hs rfl

theorem State.Inv.violation {s : State} {cid : Cid} {src : Aid} {port reason : Nat} (hs : s.Inv)
    : (s.violation cid src port reason).Inv := by
  dsimp only [State.violation]
  split
  · exact .modComp hs
  · exact .bump hs

/-! ### Machine/Directory -/

theorem State.Inv.setDir {s : State} {k : Nat} {e : DirEntry} (hs : s.Inv) : (s.setDir k e).Inv := .update hs rfl

theorem State.Inv.setHand {s : State} {k way : Nat} (hs : s.Inv) : (s.setHand k way).Inv := .update hs rfl

theorem State.Inv.unlink {s : State} {k : Nat} (hs : s.Inv) : (s.unlink k).Inv := by
  dsimp only [State.unlink]
  refine .setDir ?_
  split
  · refine .setDir ?_
    split
    · exact .setDir hs
    · exact .update hs rfl
  · split
    · exact .setDir hs
    · exact .update hs rfl

theorem State.Inv.linkExclusive {s : State} {k : Nat} (hs : s.Inv) : (s.linkExclusive k).Inv := by
  dsimp only [State.linkExclusive]
  split
  · exact hs
  · exact .ite (.setDir (.update hs rfl)) (.setDir (.setDir (.update hs rfl)))

theorem State.Inv.freeEntry {s : State} {k : Nat} (hs : s.Inv) : (s.freeEntry k).Inv := .setDir (.unlink hs)

theorem State.Inv.makeExclusive {s : State} {k : Nat} {a : Aid} (hs : s.Inv) : (s.makeExclusive k a).Inv :=
  .linkExclusive (.setDir (.ite (.unlink hs) hs))

theorem State.Inv.issue {s : State} {req : OwnReq} {f : OutFrame} (hs : s.Inv) : (s.issue req f).Inv := .send (.update hs rfl)

theorem State.Inv.sendSnoop {s : State} {k : Nat} {forward : Bool} {holder target : Aid} (hs : s.Inv)
    : (s.sendSnoop k forward holder target).Inv :=
  .issue hs

theorem State.Inv.setTransitions {s : State} {l : List Transition} (hs : s.Inv) : (s.setTransitions l).Inv := .update hs rfl

theorem State.Inv.modTransition {s : State} {k : Nat} {f : Transition → Transition} (hs : s.Inv) : (s.modTransition k f).Inv :=
  .setTransitions hs

theorem State.Inv.setHeld {s : State} {l : List Access} (hs : s.Inv) : (s.setHeld l).Inv := .update hs rfl

theorem State.Inv.modHeld {s : State} {id : Nat} {f : Access → Access} (hs : s.Inv) : (s.modHeld id f).Inv := .setHeld hs

theorem State.Inv.sendCData {s : State} {a : Access} {v : List Byte} (hs : s.Inv) : (s.sendCData a v).Inv := .send hs

theorem State.Inv.finishTransition {s : State} {k : Nat} (hs : s.Inv) : (s.finishTransition k).Inv := by
  dsimp only [State.finishTransition]
  split
  · exact hs
  · refine .ite hs ?_
    split
    · exact .freeEntry (.setTransitions hs)
    · exact .freeEntry (.setTransitions hs)
    · split
      · exact .freeEntry (.setTransitions hs)
      · exact .modHeld (.makeExclusive (.setTransitions hs))

theorem State.Inv.startTransition {s : State} {k : Nat} {forward : Bool} {agents : List Aid} {target : Aid} {after : After}
    (hs : s.Inv) : (s.startTransition k forward agents target after).Inv :=
  .finishTransition (.foldl (fun _ _ h => .sendSnoop h) (.setTransitions (.setDir hs)))

theorem State.Inv.resolveLost {s : State} {k : Nat} (hs : s.Inv) : (s.resolveLost k).Inv :=
  .ite hs (.ite hs (.freeEntry (.setPoison hs)))

theorem State.Inv.needHome {s : State} {write : Bool} {requester : Aid} {region line : Nat} (hs : s.Inv)
    : (s.needHome write requester region line).1.Inv := by
  dsimp only [State.needHome]
  refine .ite_fst hs ?_
  split
  · exact hs
  · split
    · exact .resolveLost hs
    · exact .resolveLost hs
    · exact .ite_fst (.ite_fst (.startTransition (.resolveLost hs)) (.startTransition (.resolveLost hs))) (.resolveLost hs)
    · exact .ite_fst (.startTransition (.resolveLost hs)) (.startTransition (.resolveLost hs))

theorem State.Inv.allocEntry {s : State} {waiting : Bool} {region line : Nat} {cid : Cid} (hs : s.Inv)
    : (s.allocEntry waiting region line cid).1.Inv := by
  dsimp only [State.allocEntry]
  split
  · exact .setDir hs
  · refine .ite_fst hs ?_
    split
    · exact hs
    · exact .ite_fst (.setDir (.startTransition (.bump (.setHand (.foldl (fun _ _ h2 => .setDir h2) hs))))) (.startTransition
          (.bump (.setHand (.foldl (fun _ _ h1 => .setDir h1) hs))))

theorem State.Inv.cohFromHome {s : State} {a : Access} {k : Nat} (hs : s.Inv) : (s.cohFromHome a k).1.Inv := by
  dsimp only [State.cohFromHome]
  split
  · exact .setDir (.ite (.unlink hs) hs)
  · exact .makeExclusive hs
  · exact .makeExclusive hs

theorem State.Inv.cohRequest {s : State} {a : Access} {line : Nat} (hs : s.Inv) : (s.cohRequest a line).1.Inv := by
  dsimp only [State.cohRequest]
  split
  · refine .ite_fst hs ?_
    split
    · rename_i e
      exact .cohFromHome (.of_fst e (.allocEntry hs))
    · rename_i e
      exact .of_fst e (.allocEntry hs)
  · refine .ite_fst hs ?_
    split
    · exact .resolveLost hs
    · exact .resolveLost hs
    · split
      · exact .setDir (.resolveLost hs)
      · exact .resolveLost hs
      · exact .startTransition (.resolveLost hs)
    · exact .ite_fst (.ite_fst (.resolveLost hs) (.resolveLost hs)) (.ite_fst (.cohFromHome (.resolveLost hs)) (.startTransition
          (.resolveLost hs)))

/-! ### Machine/Tiers -/

theorem State.Inv.setSector {s : State} {region sector : Nat} {x : Sector} (hs : s.Inv) : (s.setSector region sector x).Inv :=
  .update hs rfl

theorem State.Inv.passWay {s : State} (hs : s.Inv) : s.passWay.Inv := .ite (.update hs rfl) (.update hs rfl)

theorem State.Inv.setSectorByKey {s : State} {k : Nat} {x : Sector} (hs : s.Inv) : (s.setSectorByKey k x).Inv := .update hs rfl

theorem State.Inv.allocWay {s : State} {region sector : Nat} (hs : s.Inv) : (s.allocWay region sector).1.Inv := by
  dsimp only [State.allocWay]
  refine .ite_fst hs ?_
  split
  · exact .passWay (.dropCopy (.setSectorByKey hs))
  · split
    · exact .ite_fst hs (.passWay (.setSectorByKey hs))
    · exact hs

theorem State.Inv.setNandBlock {s : State} {k : Nat} {b : NandBlock} (hs : s.Inv) : (s.setNandBlock k b).Inv := .update hs rfl

theorem State.Inv.setNandChan {s : State} {ch : Nat} {c : NandChannel} (hs : s.Inv) : (s.setNandChan ch c).Inv := .update hs rfl

theorem State.Inv.setMap {s : State} {t : Tab FlashEntry} (hs : s.Inv) : (s.setMap t).Inv := .update hs rfl

theorem State.Inv.flashLevels {s : State} {ch : Nat} (hs : s.Inv) : (s.flashLevels ch).Inv :=
  .ite (.bump (.setNandChan (.setLevel hs))) (.setNandChan (.setLevel hs))

theorem State.Inv.vacate {s : State} {g : Nat} (hs : s.Inv) : (s.vacate g).Inv := .ite hs (.setMap (.setNandBlock hs))

theorem State.Inv.setNand {s : State} {t : Tab (List Byte)} (hs : s.Inv) : (s.setNand t).Inv := .update hs rfl

theorem State.Inv.programGranule {s : State} {g : Nat} {lines : List Byte} (hs : s.Inv) : (s.programGranule g lines).Inv := by
  dsimp only [State.programGranule]
  split
  · exact hs
  · exact .flashLevels (.bump (.setNand (.setNandChan (.setMap (.setNandBlock (.vacate hs))))))

theorem State.Inv.programSector {s : State} {region sector : Nat} (hs : s.Inv) : (s.programSector region sector).Inv :=
  .programGranule hs

theorem State.Inv.fillSector {s : State} {region sector : Nat} {l : List Byte × List Bool} (hs : s.Inv)
    : (s.fillSector region sector l).Inv :=
  .foldl (fun _ _ h => .setPoison h) (.writeBytes hs)

theorem State.Inv.suspendPrograms {s : State} {region sector : Nat} (hs : s.Inv) : (s.suspendPrograms region sector).Inv :=
  .foldl (fun _ _ h => .ite (.setSectorByKey h) h) hs

theorem State.Inv.resumePrograms {s : State} {region sector : Nat} (hs : s.Inv) : (s.resumePrograms region sector).Inv :=
  .foldl (fun _ _ h => .setSectorByKey h) hs

theorem State.Inv.startFill {s : State} {region sector : Nat} {x : Sector} {hbm : Bool} (hs : s.Inv)
    : (s.startFill region sector x hbm).Inv :=
  .suspendPrograms (.setSector hs)

theorem State.Inv.retiredLevel {s : State} {die : Nat} (hs : s.Inv) : (s.retiredLevel die).Inv := .setLevel hs

theorem State.Inv.retireBlock {s : State} {k : Nat} (hs : s.Inv) : (s.retireBlock k).Inv :=
  .flashLevels (.retiredLevel (.setNandBlock hs))

theorem State.Inv.wearLevels {s : State} {die : Nat} (hs : s.Inv) : (s.wearLevels die).Inv := .setLevel (.setLevel hs)

theorem State.Inv.demote {s : State} {k : Nat} (hs : s.Inv) : (s.demote k).Inv := by
  dsimp only [State.demote]
  split
  · exact .setSectorByKey (.allocWay hs)
  · exact hs

theorem State.Inv.demandPromote {s : State} {region sector : Nat} (hs : s.Inv) : (s.demandPromote region sector).Inv := by
  dsimp only [State.demandPromote]
  split
  · refine .ite (.setSector hs) ?_
    split
    · exact .ite (.setSector (.demote hs)) (.bump (.setSector hs))
    · exact .bump (.setSector hs)
  · exact hs

theorem State.Inv.touchSector {s : State} {region off : Nat} (hs : s.Inv) : (s.touchSector region off).Inv := by
  dsimp only [State.touchSector]
  refine .ite hs ?_
  split
  · exact .ite (.demandPromote (.setSector hs)) (.setSector hs)
  · split
    · exact .setSector hs
    · exact hs
  · exact hs

theorem State.Inv.countStall {s : State} {held : Bool} {region sector : Nat} (hs : s.Inv)
    : (s.countStall held region sector).Inv :=
  .ite hs (.bump hs)

theorem State.Inv.sectorReady {s : State} {write held : Bool} {region off : Nat} (hs : s.Inv)
    : (s.sectorReady write held region off).1.Inv := by
  dsimp only [State.sectorReady]
  refine .ite_fst hs ?_
  split
  · refine .ite_fst hs ?_
    split
    · rename_i e
      exact .setSector (.of_fst e (.allocWay hs))
    · rename_i e
      exact .countStall (.of_fst e (.allocWay hs))
  · refine .ite_fst hs ?_
    split
    · rename_i e
      exact .startFill (.of_fst e (.allocWay hs))
    · rename_i e
      exact .countStall (.of_fst e (.allocWay hs))
  · exact hs
  · exact hs
  · exact hs
  · exact .ite_fst hs hs

theorem State.Inv.dirtySector {s : State} {region off : Nat} (hs : s.Inv) : (s.dirtySector region off).Inv := by
  dsimp only [State.dirtySector]
  refine .ite hs ?_
  split
  · exact .setSector hs
  · exact .setSector hs
  · exact .setSector hs
  · exact hs

/-! ### Machine/Credit -/

theorem State.Inv.setReservations {s : State} {l : List Reservation} (hs : s.Inv) : (s.setReservations l).Inv := .update hs rfl

theorem State.Inv.takeCredit {s t : State} {cid : Cid} {k : CreditKind} {unit sub bytes : Nat} (hs : s.Inv)
    (e : s.takeCredit cid k unit sub bytes = some t) : t.Inv := by
  obtain ⟨_, _, rfl⟩ := Option.map_eq_some_iff.mp e
  exact .setReservations hs

theorem State.Inv.slotOverrun {s : State} {cid : Cid} (hs : s.Inv) : (s.slotOverrun cid).Inv := by
  dsimp only [State.slotOverrun]
  split
  · exact .bump hs
  · exact hs

theorem State.Inv.slotMiss {s : State} {cid : Cid} (hs : s.Inv) : (s.slotMiss cid).Inv := by
  dsimp only [State.slotMiss]
  split
  · exact .bump hs
  · exact hs

theorem State.Inv.enterEspresso {s : State} {h : Hdr} {reqBytes respBytes : Nat} (hs : s.Inv)
    : (s.enterEspresso h reqBytes respBytes).1.Inv := by
  dsimp only [State.enterEspresso]
  refine .ite_fst hs ?_
  refine .ite_fst hs ?_
  refine .ite_fst hs ?_
  split
  · rename_i e
    exact .takeCredit hs e
  · exact .slotOverrun hs

theorem State.Inv.meetsLine {s : State} {a : Access} {read : Bool} (hs : s.Inv) : (s.meetsLine a read).1.Inv :=
  .ite_fst hs (.ite_fst (.slotMiss hs) hs)

theorem State.Inv.takeStack {s : State} {a : Access} (hs : s.Inv) : (s.takeStack a).1.Inv := by
  dsimp only [State.takeStack]
  refine .ite_fst hs ?_
  split
  · exact .slotMiss hs
  · split
    · rename_i e
      exact .takeCredit hs e
    · exact .slotOverrun hs

/-! ### Machine/Journal -/

theorem State.Inv.journalBlock {s : State} {region block : Nat} (hs : s.Inv) : (s.journalBlock region block).Inv := by
  dsimp only [State.journalBlock]
  split
  · exact hs
  · exact .ite hs (.ite (.bump (.setComp hs)) (.notice (.setComp hs)))

theorem State.Inv.performPart {s : State} {journalled : Bool} {region off : Nat} {l : List Byte} (hs : s.Inv)
    : (s.performPart journalled region off l).Inv :=
  .dirtySector (.writeLinePart (.ite (.journalBlock hs) hs))

theorem State.Inv.sendReplica {s : State} {acc region group : Nat} {t : Target} {mirror : Bool} {sub off : Nat}
    {data : List Byte} (hs : s.Inv) : (s.sendReplica acc region group t mirror sub off data).Inv :=
  .issue hs

theorem State.Inv.sendReplicas {s : State} {acc region : Nat} {stands : Option Nat} {off : Nat} {old new : List Byte}
    (hs : s.Inv) : (s.sendReplicas acc region stands off old new).1.Inv :=
  .foldl_fst (fun _ _ h => .sendReplica h) hs

theorem State.Inv.sendVersions {s : State} {acc region : Nat} {stands : Option Nat} {version : Nat} (hs : s.Inv)
    : (s.sendVersions acc region stands version).1.Inv :=
  .foldl_fst (fun _ _ h => .sendReplica h) hs

/-! ### Machine/Access -/

theorem State.Inv.readStripe {s : State} {a : Access} (hs : s.Inv) : (s.readStripe a).1.Inv := by
  dsimp only [State.readStripe]
  split
  · exact hs
  · dsimp only
    refine .foldl_fst (fun _ _ h => ?_) hs
    split
    · exact .issue h
    · exact h

theorem State.Inv.respondV1 {s : State} {h : Hdr} {opcode : Byte} {ok : Bool} {payload : List Byte} (hs : s.Inv)
    : (s.respondV1 h opcode ok payload).Inv :=
  .send hs

theorem State.Inv.respondAccess {s : State} {a : Access} {h : Hdr} {op : Byte} (hs : s.Inv) : (s.respondAccess a h op).Inv := by
  dsimp only [State.respondAccess]
  refine .ite (.send (.unmark hs)) ?_
  split
  · rename_i e
    exact .send (.takeCredit (.unmark hs) e)
  · exact .send (.slotOverrun (.unmark hs))

theorem State.Inv.setGridReqs {s : State} {l : List GridReq} (hs : s.Inv) : (s.setGridReqs l).Inv := .update hs rfl

theorem State.Inv.setFailures {s : State} {t : Tab Byte} (hs : s.Inv) : (s.setFailures t).Inv := .update hs rfl

theorem State.Inv.setFailedAt {s : State} {t : Tab Nat} (hs : s.Inv) : (s.setFailedAt t).Inv := .update hs rfl

theorem State.Inv.unitFails {s : State} {req : Nat} {status : Byte} {off : Nat} (hs : s.Inv) : (s.unitFails req status off).Inv
    :=
  .ite (.setFailures (.ite (.setFailedAt hs) hs)) (.ite (.setFailedAt hs) hs)

theorem State.Inv.answerUnit {s : State} {id : Nat} {x : UnitAnswer} (hs : s.Inv) : (s.answerUnit id x).Inv := .update hs rfl

theorem State.Inv.settleReply {s : State} {req : Nat} (hs : s.Inv) : (s.settleReply req).Inv := by
  dsimp only [State.settleReply]
  split
  · exact .ite hs (.respond (.update hs rfl))
  · exact hs

theorem State.Inv.completeAccess {s : State} {a : Access} (hs : s.Inv) : (s.completeAccess a).Inv := by
  dsimp only [State.completeAccess]
  split
  · exact .respondAccess (.ite (.setHeld hs) (.bump (.setHeld hs)))
  · exact .respondV1 (.ite (.setHeld hs) (.bump (.setHeld hs)))
  · exact .setGridReqs (.ite (.setHeld hs) (.bump (.setHeld hs)))
  · exact .settleReply (.unitFails (.ite (.setHeld hs) (.bump (.setHeld hs))))
  · exact .finishTransition (.modTransition (.ite (.setHeld hs) (.bump (.setHeld hs))))
  · exact .answerUnit (.ite (.setHeld hs) (.bump (.setHeld hs)))
  · exact .ite (.setHeld hs) (.bump (.setHeld hs))
  · exact .ite (.setHeld hs) (.bump (.setHeld hs))

theorem State.Inv.countHit {s : State} {a : Access} (hs : s.Inv) : (s.countHit a).Inv := .ite hs (.touchSector hs)

theorem State.Inv.readGate {s : State} {a : Access} {write : Bool} (hs : s.Inv) : (s.readGate a write).1.Inv := by
  dsimp only [State.readGate]
  refine .ite_fst hs ?_
  refine .ite_fst hs ?_
  refine .ite_fst hs ?_
  split
  · exact hs
  · split
    · rename_i e
      exact .of_fst e (.ite_fst (.needHome hs) hs)
    · rename_i e
      exact .sectorReady (.of_fst e (.ite_fst (.needHome hs) hs))

theorem State.Inv.readPart {s : State} {a : Access} (hs : s.Inv) : (s.readPart a).1.Inv := by
  unfold State.readPart
  split
  rename_i e
  have h1 : State.Inv _ := .of_fst e (.meetsLine hs)
  extract_lets _ _ _ _ finish
  split
  all_goals
    rename_i e
    have h2 : State.Inv _ := .of_fst e (.readGate h1)
  · exact h2
  have finished : ∀ {t b}, t.Inv → (finish t b).1.Inv := fun h => .countHit (.takeStack h)
  refine .ite_fst ?_ (.ite_fst h2 (finished h2))
  split
  rename_i e
  have h3 : State.Inv _ := .of_fst e (.readStripe h2)
  exact .ite_fst (finished h3) h3

theorem State.Inv.writeGate {s : State} {a : Access} (hs : s.Inv) : (s.writeGate a).1.Inv := by
  dsimp only [State.writeGate]
  refine .ite_fst hs ?_
  refine .ite_fst hs ?_
  refine .ite_fst hs ?_
  refine .ite_fst hs ?_
  refine .ite_fst hs ?_
  refine .ite_fst hs ?_
  split
  · exact hs
  · split
    · rename_i e1
      exact .of_fst e1 (.ite_fst (.needHome hs) hs)
    · rename_i e1
      split
      · rename_i e2
        exact .of_fst e2 (.sectorReady (.of_fst e1 (.ite_fst (.needHome hs) hs)))
      · rename_i e2
        exact .of_fst e2 (.sectorReady (.of_fst e1 (.ite_fst (.needHome hs) hs)))

theorem State.Inv.applyPart {s : State} {a : Access} {old new : List Byte} (hs : s.Inv) : (s.applyPart a old new).Inv :=
  .ite (.setPoison (.performPart hs)) (.performPart hs)

theorem State.Inv.writePart {s : State} {a : Access} (hs : s.Inv) : (s.writePart a).1.Inv := by
  unfold State.writePart
  extract_lets n apply
  have applied : ∀ {t b old new}, t.Inv → (apply t b old new).1.Inv := fun h => .countHit (.applyPart (.takeStack h))
  split
  rename_i e
  have h1 : State.Inv _ := .of_fst e (.meetsLine hs)
  extract_lets
  split
  all_goals
    rename_i e
    have h2 : State.Inv _ := .of_fst e (.writeGate h1)
  · exact h2
  · exact h2
  refine .ite_fst ?_ (.ite_fst h2 ?_)
  · split
    rename_i e
    exact .of_fst e (.readStripe h2)
  split
  refine .ite_fst h2 (.ite_fst (.ite_fst h2 ?_) (.ite_fst h2 (applied h2)))
  split
  rename_i e
  have h3 : State.Inv _ := .of_fst e (.sendReplicas h2)
  exact .ite_fst (applied h3) h3

theorem State.Inv.setVersion {s : State} {a : Access} {v : W64} (hs : s.Inv) : (s.setVersion a v).Inv := by
  dsimp only [State.setVersion]
  split
  · exact .modRegion hs
  · exact .update hs rfl

theorem State.Inv.publishPart {s : State} {a : Access} (hs : s.Inv) : (s.publishPart a).1.Inv :=
  .ite_fst hs (.ite_fst hs (.ite_fst hs (.ite_fst (.ite_fst hs (.setVersion hs)) (.ite_fst hs (.ite_fst hs (.ite_fst hs
      (.ite_fst hs (.ite_fst (.setVersion (.sendVersions hs)) (.sendVersions hs)))))))))

theorem State.Inv.giveGrant {s : State} {a : Access} {g : Nat} {owed : Bool} (hs : s.Inv) : (s.giveGrant a g owed).1.Inv := by
  unfold State.giveGrant
  extract_lets _ inGrant finish
  have done : ∀ {t b}, t.Inv → (finish t b).1.Inv := fun h =>
    have h1 := .ite (.sendCData (.takeStack h)) (.takeStack h)
    .ite (.countHit h1) h1
  refine .ite_fst (done hs) ?_
  split
  rename_i e
  have h1 : State.Inv _ := .of_fst e (.meetsLine hs)
  extract_lets
  split
  · exact h1
  split
  · rename_i e
    exact .of_fst e (.sectorReady h1)
  rename_i e
  have h2 : State.Inv _ := .of_fst e (.sectorReady h1)
  refine .ite_fst ?_ (.ite_fst h2 (done h2))
  split
  rename_i e
  have h3 : State.Inv _ := .of_fst e (.readStripe h2)
  exact .ite_fst (done h3) h3

theorem State.Inv.cohPart {s : State} {a : Access} (hs : s.Inv) : (s.cohPart a).1.Inv := by
  unfold State.cohPart
  refine .ite_fst (.giveGrant hs) (.ite_fst hs (.ite_fst hs (.ite_fst hs (.ite_fst hs (.ite_fst hs ?_)))))
  split
  rename_i e
  have h1 : State.Inv _ := .of_fst e (.meetsLine hs)
  extract_lets
  split
  · exact h1
  split
  all_goals
    rename_i e
    have h2 : State.Inv _ := .of_fst e (.ite_fst h1 (.sectorReady h1))
  · exact h2
  split
  all_goals
    rename_i e
    have h3 : State.Inv _ := .of_fst e (.cohRequest h2)
  · exact .giveGrant h3
  · exact h3
  · split
    · exact h3
    · exact h3
    · exact .giveGrant h3
  split
  · rename_i e
    have h4 : State.Inv _ := .of_fst e (.writePart h3)
    exact .ite (.freeEntry h4) h4
  · exact .writePart h3

theorem State.Inv.copyGate {s : State} {a : Access} (hs : s.Inv) : (s.copyGate a).1.Inv := .readGate hs

theorem State.Inv.copyPart {s : State} {a : Access} (hs : s.Inv) : (s.copyPart a).1.Inv := by
  unfold State.copyPart
  extract_lets g finish
  have finished : ∀ {t v p}, t.Inv → (finish t v p).1.Inv :=
    fun h => .ite_fst (.dirtySector (.setPoison (.writeBytes h))) (.issue h)
  split
  all_goals
    rename_i e
    have h1 : State.Inv _ := .of_fst e (.copyGate hs)
  · exact h1
  refine .ite_fst (.ite_fst ?_ (.ite_fst h1 (finished h1))) ?_
  · refine .foldl_fst (fun _ _ h => ?_) h1
    split
    · exact .issue h
    · exact h
  · refine .ite_fst ?_ (.ite_fst h1 (finished h1))
    exact .readStripe h1

theorem State.Inv.onePart {s : State} {a : Access} (hs : s.Inv) : (s.onePart a).1.Inv := by
  dsimp only [State.onePart]
  split
  · exact .readPart hs
  · exact .readPart hs
  · exact .readPart hs
  · exact .publishPart hs
  · exact .cohPart hs
  · exact .cohPart hs
  · exact .cohPart hs
  · exact .cohPart hs
  · exact .copyPart hs
  · exact .writePart hs

theorem State.Inv.runAccess {s : State} {n : Nat} {a : Access} (hs : s.Inv) : (s.runAccess n a).Inv := by
  induction n generalizing s a with
  | zero => exact .modHeld hs
  | succ n ih =>
    rw [State.runAccess]
    split
    · rename_i e
      exact .ite (.completeAccess (.of_fst e (.onePart hs))) (ih (.modHeld (.of_fst e (.onePart hs))))
    · rename_i e
      exact .modHeld (.of_fst e (.onePart hs))

theorem State.Inv.pumpPass {s : State} {l : List Nat} (hs : s.Inv) : (s.pumpPass l).Inv := by
  induction l generalizing s with
  | nil => exact hs
  | cons id l ih =>
    rw [State.pumpPass]
    split
    · exact ih (.ite hs (.runAccess hs))
    · exact ih hs

theorem State.Inv.pumpRounds {s : State} {n : Nat} (hs : s.Inv) : (s.pumpRounds n).Inv := by
  induction n generalizing s with
  | zero => exact hs
  | succ n ih => exact .ite (ih (.pumpPass hs)) (.pumpPass hs)

theorem State.Inv.pump {s : State} (hs : s.Inv) : s.pump.Inv := .pumpRounds hs

theorem State.Inv.submit {s : State} {a : Access} (hs : s.Inv) : (s.submit a).Inv := .pump (.update hs rfl)

/-! ### Machine/Ingress -/

theorem State.Inv.modHop {s : State} {k pcp : Nat} {f : Hop → Hop} (hs : s.Inv) : (s.modHop k pcp f).Inv := .modSub hs

theorem State.Inv.queueAt {s : State} {k : Nat} {f : OutFrame} (hs : s.Inv) : (s.queueAt k f).Inv := .ite hs (.modSub hs)

theorem State.Inv.hopCheck {h : Hdr} {s : State} (hs : s.Inv) : (hopCheck h s).2.Inv :=
  .ite_snd hs (.ite_snd (.queueAt (.modHop (.modHop hs))) (.ite_snd (.queueAt (.modHop hs)) (.ite_snd (.modHop hs) (.queueAt
      (.modHop (.modHop hs))))))

theorem State.Inv.charge {s : State} {k pcp n : Nat} {head : Bool} (hs : s.Inv) : (s.charge k pcp n head).Inv :=
  .modSub hs

theorem State.Inv.uncharge {s : State} {f : OutFrame} (hs : s.Inv) : (s.uncharge f).Inv := by
  dsimp only [State.uncharge]
  split
  · exact hs
  · exact .modSub hs

theorem State.Inv.flowPcp {s : State} {k pcp : Nat} (hs : s.Inv) : (s.flowPcp k pcp).Inv := by
  dsimp only [State.flowPcp]
  refine .ite hs ?_
  split <;> exact .ite (.queueAt (.modSub hs)) hs

theorem State.Inv.flowControl {s : State} {die : Nat} (hs : s.Inv) : (s.flowControl die).Inv :=
  .foldl (fun _ _ h1 => .foldl (fun _ _ h2 => .flowPcp h2) h1) hs

theorem State.Inv.leaveAtIngress {s : State} {h : Hdr} (hs : s.Inv)
    : (s.leaveAtIngress h).Inv := .flowControl (.charge (.update hs rfl))

theorem State.Inv.takeFromIngress {s : State} {h : Hdr} (hs : s.Inv) : (s.takeFromIngress h).Inv := by
  dsimp only [State.takeFromIngress]
  split
  · exact hs
  · exact .flowControl (.uncharge (.update hs rfl))

theorem State.Inv.markConsumed {s : State} {h : Hdr} (hs : s.Inv) : (s.markConsumed h).Inv := .ite (.bump (.update hs rfl)) hs

theorem State.Inv.bufferDrop {s : State} {k pcp : Nat} (hs : s.Inv) : (s.bufferDrop k pcp).Inv := .modSub hs

theorem State.Inv.linkChecks {mgmt : Bool} {h : Hdr} {fixed : Nat} {k : State → State} {s : State} (hk : ∀ u, u.Inv → (k u).Inv)
    (hs : s.Inv) : (linkChecks mgmt h fixed k s).Inv := by
  unfold Machine.linkChecks
  extract_lets u v
  have hu : u.Inv := .advanceTo hs
  have hv : v.Inv := .bump hu
  refine .ite hs (.ite hu ?_)
  split
  · exact .bump hu
  · exact .bump hu
  refine .ite (.bump hu) (.ite (.bump hv) (.ite (.bump hv) (.ite (.bufferDrop hv) ?_)))
  split
  rename_i e
  have h1 : State.Inv _ := .of_snd e (.hopCheck hv)
  exact .ite h1 (.ite (.bump h1) (hk _ (.markConsumed h1)))

theorem State.Inv.linkChecksV1 {h : Hdr} {k : State → State} {s : State} (hk : ∀ u, u.Inv → (k u).Inv) (hs : s.Inv) :
    (linkChecksV1 h k s).Inv := by
  unfold Machine.linkChecksV1
  extract_lets u v
  have hu : u.Inv := .advanceTo hs
  have hv : v.Inv := .bump hu
  refine .ite hs (.ite hu ?_)
  split
  · exact .bump hu
  · exact .bump hu
  · exact .ite (.bump hu) (.ite (.bump hv) (.ite (.bump hv) (.ite (.bufferDrop hv) (.ite (.bump hv) (hk _ (.markConsumed hv))))))

theorem State.Inv.consumed {h : Hdr} {fixed : Nat} {k : State → State} {s : State} (hk : ∀ u, u.Inv → (k u).Inv) (hs : s.Inv)
    : (consumed h fixed k s).Inv :=
  .ite (.linkChecks (fun _ h2 => hk _ h2) hs) hs

theorem State.Inv.answerTo {h : Hdr} {k : Issued → State → State} {s : State} (hk : ∀ a0 u, u.Inv → (k a0 u).Inv) (hs : s.Inv)
    : (answerTo h k s).Inv := by
  dsimp only [Machine.answerTo]
  refine .consumed (fun _ h1 => ?_) hs
  split
  · exact hk _ _ h1
  · exact h1

theorem State.Inv.senderRejected {h : Hdr} {s : State} (hs : s.Inv) : (senderRejected h s).Inv := .ite (.bump hs) (.violation
    hs)

theorem State.Inv.trailerChecked {h : Hdr} {t : Trailer} {k : State → State} {s : State} (hk : ∀ u, u.Inv → (k u).Inv)
    (hs : s.Inv) : (trailerChecked h t k s).Inv :=
  .ite (hk _ (.update hs rfl)) (.bump hs)

theorem State.Inv.authenticated {h : Hdr} {t : Trailer} {fixed : Nat} {k : State → State} {s : State}
    (hk : ∀ u, u.Inv → (k u).Inv) (hs : s.Inv) : (authenticated h t fixed k s).Inv :=
  .consumed (fun _ h1 => .trailerChecked (fun _ h2 => hk _ h2) h1) hs

theorem State.Inv.managed {h : Hdr} {t : Trailer} {fixed : Nat} {k : State → State} {s : State} (hk : ∀ u, u.Inv → (k u).Inv)
    (hs : s.Inv) : (managed h t fixed k s).Inv :=
  .ite (.linkChecks (fun _ h1 => .trailerChecked (fun _ h2 => hk _ h2) h1) hs) hs

theorem State.Inv.zeroChecked {h : Hdr} {bad k : State → State} {s : State} (hbad : ∀ u, u.Inv → (bad u).Inv)
    (hk : ∀ u, u.Inv → (k u).Inv) (hs : s.Inv) : (zeroChecked h bad k s).Inv :=
  .ite (hk _ hs) (hbad _ hs)

theorem State.Inv.memberChecked {h : Hdr} {opcode : Byte} {valid : Option Byte} {fail zero : List Byte}
    {block pointers : List Handle} {k : State → State} {s : State} (hk : ∀ u, u.Inv → (k u).Inv) (hs : s.Inv)
    : (memberChecked h opcode valid fail zero block pointers k s).Inv := by
  dsimp only [Machine.memberChecked]
  refine .ite (.respond hs) ?_
  split
  · exact .respond hs
  · split
    · exact .ite (.senderRejected hs) (.respond (.violation hs))
    · exact hk _ hs

theorem State.Inv.memberRequest {h : Hdr} {opcode : Byte} {fixed : Nat} {valid : Option Byte} {fail zero : List Byte}
    {block pointers : List Handle} {k : State → State} {s : State} (hk : ∀ u, u.Inv → (k u).Inv) (hs : s.Inv)
    : (memberRequest h opcode fixed valid fail zero block pointers k s).Inv :=
  .consumed (fun _ h1 => .memberChecked (fun _ h2 => hk _ h2) h1) hs

/-! ### Machine/DataFrames -/

theorem State.Inv.admitAccess {h : Hdr} {opcode : Byte} {fail : List Byte} {rh : Handle} {right reqBytes respBytes : Nat}
    {a : Access} {s : State} (hs : s.Inv) : (admitAccess h opcode fail rh right reqBytes respBytes a s).Inv := by
  dsimp only [Machine.admitAccess]
  split
  · exact .respond hs
  · exact .submit (.enterEspresso hs)

theorem State.Inv.readFrame {h : Hdr} {opcode : Byte} {kind : AccKind} {a : Addr} {s : State} (hs : s.Inv)
    : (readFrame h opcode kind a s).Inv :=
  .memberRequest (fun _ h1 => .admitAccess h1) hs

theorem State.Inv.writeFrame {h : Hdr} {opcode : Byte} {kind : AccKind} {a : Addr} {data : List Byte} {s : State} (hs : s.Inv)
    : (writeFrame h opcode kind a data s).Inv :=
  .memberRequest (fun _ h1 => .admitAccess h1) hs

theorem State.Inv.setWaiting {s : State} {l : List Waiting} (hs : s.Inv) : (s.setWaiting l).Inv := .update hs rfl

theorem State.Inv.takeId {s : State} (hs : s.Inv) : (s.takeId).2.Inv := .update hs rfl

theorem Out.Inv.execRelease {h : Hdr} {s : State} (hs : s.Inv) : Out.Inv (execRelease h s) := by
  refine .next ?_
  refine .memberRequest (fun _ h1 => ?_) hs
  split
  rename_i e
  exact .ite (.setWaiting (.of_snd e (.takeId h1))) (.respond (.of_snd e (.takeId h1)))

theorem Out.Inv.execReleaseComplete {now id : Nat} {s : State} (hs : s.Inv) : Out.Inv (execReleaseComplete now id s) := by
  refine .event (now := now) hs fun _ h => ?_
  dsimp only
  split
  · exact .ite h (.respond (.setWaiting h))
  · exact h

theorem State.Inv.unpark {now id : Nat} {kind : AccKind} {s : State} (hs : s.Inv) : (unpark now id kind s).Inv := by
  dsimp only [Machine.unpark]
  refine .serving hs (fun _ h => ?_)
  split
  · exact .ite (.pump (.modHeld (.advanceTo h))) (.advanceTo h)
  · exact .advanceTo h

theorem State.Inv.cohFrame {h : Hdr} {opcode : Byte} {fixed : Nat} {kind : AccKind} {right : Nat} {fail zero : List Byte}
    {a : Addr} {data : List Byte} {s : State} (hs : s.Inv) : (cohFrame h opcode fixed kind right fail zero a data s).Inv :=
  .memberRequest (fun _ h1 => .admitAccess h1) hs

theorem Out.Inv.execCData {h : Hdr} {a : Addr} {data : List Byte} {s : State} (hs : s.Inv) : Out.Inv (execCData h a data s) :=
    by
  refine .next (.consumed (fun _ h1 => ?_) hs)
  dsimp only
  refine .ite (.senderRejected h1) ?_
  split
  · exact .violation h1
  · split
    · exact h1
    · split
      · exact h1
      · exact .ite h1 (.ite (.modTransition h1) (.submit (.modTransition h1)))

theorem State.Inv.snoopAnswered {s : State} {id k : Nat} {agent : Aid} {status : Byte} (hs : s.Inv)
    : (s.snoopAnswered id k agent status).Inv :=
  .pump (.finishTransition (.modTransition (.update hs rfl)))

theorem Out.Inv.execSnoopAnswer {h : Hdr} {s : State} (hs : s.Inv) : Out.Inv (execSnoopAnswer h s) := by
  refine .next ?_
  refine .answerTo (fun _ _ h1 => ?_) hs
  split
  · exact .snoopAnswered h1
  · exact h1

theorem State.Inv.setSpan {s : State} {i chunk : Nat} {a : Aid} (hs : s.Inv) : (s.setSpan i chunk a).Inv := .update hs rfl

theorem State.Inv.ownRequest {h : Hdr} {opcode : Byte} {a : Addr} {k : Nat → State → State} {s : State}
    (hk : ∀ a0 u, u.Inv → (k a0 u).Inv) (hs : s.Inv) : (ownRequest h opcode a k s).Inv :=
  .memberRequest (fun _ h1 => .ite (.respond h1) (.ite (.respond h1) (.ite (.respond h1) (hk _ _ h1)))) hs

theorem Out.Inv.execOwnGive {h : Hdr} {a : Addr} {s : State} (hs : s.Inv) : Out.Inv (execOwnGive h a s) :=
  .next (.ownRequest (fun _ _ h1 => .ite (.respond h1) (.ite (.setWaiting (.takeId h1)) (.respond (.setSpan (.takeId h1))))) hs)

theorem Out.Inv.execOwnGiveComplete {now id : Nat} {s : State} (hs : s.Inv) : Out.Inv (execOwnGiveComplete now id s) := by
  refine .event (now := now) hs fun _ h => ?_
  dsimp only
  split
  · split
    · exact .ite h (.respond (.ite (.setSpan (.setWaiting h)) (.setWaiting h)))
    · exact h
  · exact h

/-! ### Machine/Objects -/

theorem State.Inv.setObject {s : State} {i : Nat} {o : ObjRec} (hs : s.Inv) : (s.setObject i o).Inv := .update hs rfl

theorem State.Inv.recallRegion {s : State} {i : Nat} (hs : s.Inv) : (s.recallRegion i).Inv :=
  .foldl (fun _ _ h => .ite (.ite h (.resolveLost h)) (.startTransition (.ite h (.resolveLost h)))) hs

theorem State.Inv.sendObject {s : State} {key i : Nat} {o : ObjRec} {t : Target} (hs : s.Inv) : (s.sendObject key i o t).Inv :=
  .issue hs

theorem State.Inv.putObject {s : State} {key : Nat} {o : ObjRec} (hs : s.Inv) : (s.putObject key o).Inv := by
  dsimp only [State.putObject]
  refine .ite (.setObject hs) ?_
  split
  · exact .foldl (fun _ _ h => .sendObject h) (.setObject hs)
  · exact .setObject hs

theorem State.Inv.revoke {s : State} {i : Nat} (hs : s.Inv) : (s.revoke i).Inv :=
  .ite (.recallRegion (.setRegion hs)) (.setRegion hs)

theorem State.Inv.assign {s : State} {i : Nat} {cid : Cid} {gen : Gen} {rights : Byte} (hs : s.Inv)
    : (s.assign i cid gen rights).Inv :=
  .update hs rfl

theorem State.Inv.sendDone {s : State} {i : Nat} {o : ObjRec} {dest : Aid} {cid : Cid} (hs : s.Inv)
    : (s.sendDone i o dest cid).Inv :=
  .send hs

theorem State.Inv.revertHandoff {s : State} {i : Nat} (hs : s.Inv) : (s.revertHandoff i).Inv :=
  .sendDone (.sendDone (.putObject (.foldl (fun _ _ h => .modRegion h) hs)))

theorem State.Inv.objectRequest {h : Hdr} {opcode : Byte} {fixed : Nat} {oh : Handle} {sender : ObjRec → Bool}
    {k : Nat → State → State} {s : State} (hk : ∀ a0 u, u.Inv → (k a0 u).Inv) (hs : s.Inv)
    : (objectRequest h opcode fixed oh sender k s).Inv := by
  dsimp only [Machine.objectRequest]
  refine .consumed (fun _ h1 => ?_) hs
  refine .ite (.senderRejected h1) ?_
  refine .memberChecked (fun _ h2 => ?_) h1
  split
  · exact hk _ _ h2
  · exact .respond h2

theorem Out.Inv.execHandoffOffer {h : Hdr} {oh : Handle} {recvAid : Aid} {recvCid : Cid} {s : State} (hs : s.Inv)
    : Out.Inv (execHandoffOffer h oh recvAid recvCid s) :=
  .next (.objectRequest (fun _ _ h1 => .ite (.respond h1) (.ite (.respond h1) (.respond (.putObject (.foldl (fun _ _ h2 =>
      .modRegion h2) h1))))) hs)

theorem State.Inv.takeHandoff {s : State} {key : Nat} (hs : s.Inv) : (s.takeHandoff key).Inv :=
  .ite hs (.foldl (fun _ _ h => .ite (.revoke h) h) hs)

theorem State.Inv.receiverFrame {h : Hdr} {opcode : Byte} {oh : Handle} {seq : W32} {k : Nat → ObjRec → State → State}
    {s : State} (hk : ∀ a0 a1 u, u.Inv → (k a0 a1 u).Inv) (hs : s.Inv) : (receiverFrame h opcode oh seq k s).Inv :=
  .objectRequest (fun _ _ h1 => .ite (.respond h1) (hk _ _ _ h1)) hs

/-! ### Machine/Orders -/

theorem State.Inv.dropIssued {s : State} {p : Issued → Bool} (hs : s.Inv) : (s.dropIssued p).Inv := .update hs rfl

theorem State.Inv.dropCopies {s : State} {groups : List Nat} (hs : s.Inv) : (s.dropCopies groups).Inv := .dropIssued (.setHeld
    hs)

theorem State.Inv.setResults {s : State} {l : List KeptResult} (hs : s.Inv) : (s.setResults l).Inv := .update hs rfl

theorem State.Inv.keepOrder {s : State} {m : Aid} {id : W32} (hs : s.Inv) : (s.keepOrder m id).Inv := .setResults hs

theorem State.Inv.finishOrder {s : State} {o : OrderRef} {status : Byte} {result : List Byte} (hs : s.Inv)
    : (s.finishOrder o status result).Inv :=
  .foldl (fun _ _ h => .respondAuth h) (.respondAuth (.setResults hs))

theorem State.Inv.orderRequest {o : Order} {k : OrderRef → State → State} {s : State} (hk : ∀ a0 u, u.Inv → (k a0 u).Inv)
    (hs : s.Inv) : (orderRequest o k s).Inv := by
  dsimp only [Machine.orderRequest]
  refine .managed (fun _ h1 => ?_) hs
  refine .zeroChecked (fun _ h2 => .respondAuth h2) (fun _ h2 => ?_) h1
  split
  · exact .ite (.respondAuth h2) (.setResults h2)
  · exact .ite (.finishOrder (.keepOrder h2)) (hk _ _ (.keepOrder h2))

/-! ### Machine/Comps -/

theorem State.Inv.setJournalUsed {s : State} {n : Nat} (hs : s.Inv) : (s.setJournalUsed n).Inv := .update hs rfl

theorem Out.Inv.execCompCreate {o : Order} {cid : Cid} {gen : Gen} {modes : Byte} {faultAgent : Aid} {journal : W64}
    {ring : Ptr} {ringCount : W32} {s : State} (hs : s.Inv)
    : Out.Inv (execCompCreate o cid gen modes faultAgent journal ring ringCount s) := by
  refine .next (.orderRequest (fun _ _ h => ?_) hs)
  refine .ite (.finishOrder h) ?_
  refine .ite (.finishOrder h) ?_
  refine .ite (.finishOrder h) ?_
  refine .ite (.finishOrder h) ?_
  split
  · exact .finishOrder h
  · exact .finishOrder (.setComp (.setJournalUsed h))

theorem State.Inv.activeOrder {o : Order} {cid : Cid} {k : OrderRef → Nat → State → State} {s : State}
    (hk : ∀ a0 a1 u, u.Inv → (k a0 a1 u).Inv) (hs : s.Inv) : (activeOrder o cid k s).Inv := by
  dsimp only [Machine.activeOrder]
  refine .orderRequest (fun _ _ h => ?_) hs
  split
  · exact hk _ _ _ h
  · exact .finishOrder h

theorem Out.Inv.execCompAgent {o : Order} {cid : Cid} {action flags : Byte} {aid : Aid} {ports : W32} {s : State} (hs : s.Inv)
    : Out.Inv (execCompAgent o cid action flags aid ports s) :=
  .next (.activeOrder (fun _ _ _ h => .ite (.ite (.finishOrder (.setComp h)) (.ite (.finishOrder h) (.finishOrder (.setComp
      h)))) (.ite (.finishOrder (.setComp h)) (.finishOrder h))) hs)

theorem State.Inv.genRetired {s : State} {cid : Cid} {g : Gen} (hs : s.Inv) : (s.genRetired cid g).Inv := .notice hs

theorem Out.Inv.execGenerationRetired {now : Nat} {cid : Cid} {s : State} (hs : s.Inv)
    : Out.Inv (execGenerationRetired now cid s) := by
  refine .event (now := now) hs fun _ h => ?_
  dsimp only
  split
  · exact h
  · exact .ite h (.genRetired (.setComp h))

theorem Out.Inv.execCompQuery {o : Order} {cid : Cid} {s : State} (hs : s.Inv) : Out.Inv (execCompQuery o cid s) := by
  refine .next (.orderRequest (fun _ _ h => ?_) hs)
  split
  · exact .finishOrder h
  · split
    exact .finishOrder h

theorem State.Inv.makeLost {s : State} {k : Nat} (hs : s.Inv) : (s.makeLost k).Inv :=
  .resolveLost (.setDir (.dropIssued (.setTransitions hs)))

theorem State.Inv.forgetSnoops {s : State} {cid : Cid} {a : Aid} (hs : s.Inv) : (s.forgetSnoops cid a).Inv :=
  .foldl (fun _ _ h => .finishTransition (.modTransition h)) (.dropIssued hs)

theorem State.Inv.agentDies {s : State} {e : Nat} {a : Aid} (hs : s.Inv) : (s.agentDies e a).Inv :=
  .pump (.update (.forgetSnoops (.foldl (fun _ _ h => .makeLost h) (.modComp hs))) rfl)

/-! ### Machine/Operands -/

theorem State.Inv.setCores {s : State} {t : Tab Core} (hs : s.Inv) : (s.setCores t).Inv := .update hs rfl

theorem State.Inv.setCore {s : State} {k : Nat} {c : Core} (hs : s.Inv) : (s.setCore k c).Inv := .setCores hs

theorem State.Inv.setCtx {s : State} {t : Thread} {x : Ctx} (hs : s.Inv) : (s.setCtx t x).Inv := .setCore hs

theorem State.Inv.setCluster {s : State} {c : Nat} {x : Cluster} (hs : s.Inv) : (s.setCluster c x).Inv := .update hs rfl

theorem State.Inv.setProgram {s : State} {c p : Nat} {x : Program} (hs : s.Inv) : (s.setProgram c p x).Inv := .setCluster hs

theorem State.Inv.setSlot {s : State} {t : Thread} {x : Slot} (hs : s.Inv) : (s.setSlot t x).Inv := .setCore hs

/-! ### Machine/GridOps -/

theorem State.Inv.retire {s : State} {t : Thread} {c : Ctx} (hs : s.Inv) : (s.retire t c).Inv := .setCtx hs

theorem State.Inv.resumeThread {s : State} {t : Thread} {c : Ctx} (hs : s.Inv) : (s.resumeThread t c).Inv := .setCtx hs

theorem State.Inv.freeSlot {s : State} {core slot : Nat} (hs : s.Inv) : (s.freeSlot core slot).Inv := by
  dsimp only [State.freeSlot]
  split
  · exact .resumeThread (.setCore hs)
  · exact .setCore hs

theorem State.Inv.setLost {s : State} {l : List LostWrite} (hs : s.Inv) : (s.setLost l).Inv := .update hs rfl

theorem State.Inv.orphanRequests {s : State} {t : Thread} (hs : s.Inv) : (s.orphanRequests t).Inv := .setLost (.setGridReqs hs)

theorem State.Inv.leaveQueues {s : State} {t : Thread} (hs : s.Inv) : (s.leaveQueues t).Inv := by
  dsimp only [State.leaveQueues]
  split
  · exact .setCore (.setCore hs)
  · exact .setCore hs

theorem State.Inv.haltThread {s : State} {t : Thread} {cause : Byte} (hs : s.Inv) : (s.haltThread t cause).Inv := by
  dsimp only [State.haltThread]
  refine .ite hs ?_
  split
  · exact .freeSlot (.setCtx (.orphanRequests (.leaveQueues hs)))
  · exact .setCtx (.orphanRequests (.leaveQueues hs))

theorem State.Inv.dropHeld {s : State} {t : Thread} (hs : s.Inv) : (s.dropHeld t).Inv := .setLost (.setGridReqs hs)

theorem State.Inv.latchFault {s : State} {t : Thread} {cause status : Byte} (hs : s.Inv) : (s.latchFault t cause status).Inv :=
  .setCore hs

theorem State.Inv.fault {s : State} {t : Thread} {cause status : Byte} (hs : s.Inv) : (s.fault t cause status).Inv := by
  dsimp only [State.fault]
  refine .haltThread ?_
  split
  · exact .bump (.latchFault hs)
  · exact .latchFault hs

theorem State.Inv.gridStep {i : Issue} {cmd : Instr} {k : Thread → State → State} {s : State}
    (hk : ∀ a0 u, u.Inv → (k a0 u).Inv) (hs : s.Inv) : (gridStep i cmd k s).Inv :=
  .ite hs (.ite (.advanceTo hs) (.ite (.fault (.advanceTo hs)) (.ite (hk _ _ (.advanceTo hs)) (.advanceTo hs))))

theorem State.Inv.setTransit {s : State} {l : List InTransit} (hs : s.Inv) : (s.setTransit l).Inv := .update hs rfl

theorem State.Inv.postMessage {s : State} {t : Thread} {cid : Cid} {target queue : Nat} {m : Message} (hs : s.Inv)
    : (s.postMessage t cid target queue m).Inv :=
  .setTransit hs

theorem State.Inv.receiveInto {s : State} {t : Thread} {addr : Nat} {sd : BitVec 3} {m : Message} (hs : s.Inv)
    : (s.receiveInto t addr sd m).Inv :=
  .resumeThread (.setCore hs)

theorem State.Inv.wakeSenders {s : State} {core queue n : Nat} (hs : s.Inv) : (s.wakeSenders core queue n).Inv := by
  induction n generalizing s with
  | zero => exact hs
  | succ n ih =>
    rw [State.wakeSenders]
    split
    · exact hs
    · exact .ite hs (ih (.resumeThread (.postMessage (.setCore hs))))

theorem State.Inv.deliverMessage {s : State} {core queue : Nat} {m : Message} (hs : s.Inv)
    : (s.deliverMessage core queue m).Inv := by
  dsimp only [State.deliverMessage]
  split
  · split
    · exact .wakeSenders (.receiveInto (.setCore hs))
    · exact .setCore hs
  · exact .setCore hs

theorem State.Inv.countDiscard {s : State} {m : InTransit} (hs : s.Inv) : (s.countDiscard m).Inv := by
  dsimp only [State.countDiscard]
  refine .ite ?_ (.violation hs)
  split
  · exact .bump hs
  · exact hs

theorem Out.Inv.execMailboxDelivery {now idx : Nat} {s : State} (hs : s.Inv) : Out.Inv (execMailboxDelivery now idx s) := by
  refine .event (now := now) hs fun _ h => ?_
  dsimp only
  split
  · exact h
  · exact .ite h (.ite (.deliverMessage (.setTransit h)) (.wakeSenders (.countDiscard (.setTransit h))))

theorem State.Inv.answerReq {s : State} {id : Nat} {st : Byte} {data : List Byte} (hs : s.Inv) : (s.answerReq id st data).Inv :=
  .setGridReqs hs

theorem State.Inv.launch {s : State} {r : GridReq} (hs : s.Inv) : (s.launch r).Inv := by
  dsimp only [State.launch]
  refine .ite ?_ (.issue hs)
  refine .ite (.answerReq (.violation hs)) ?_
  split
  · exact .answerReq hs
  · exact .submit hs

theorem State.Inv.request {s : State} {t : Thread} {r : GridReq} (hs : s.Inv) : (s.request t r).Inv :=
  .ite (.setGridReqs (.takeId hs)) (.launch (.setGridReqs (.takeId hs)))

theorem State.Inv.settleRelease {s : State} {t : Thread} (hs : s.Inv) : (s.settleRelease t).Inv := by
  dsimp only [State.settleRelease]
  split
  · exact .ite hs (.resumeThread hs)
  · exact hs

theorem State.Inv.letGo {s : State} {r : GridReq} (hs : s.Inv) : (s.letGo r).Inv := .ite hs (.launch (.setGridReqs hs))

theorem State.Inv.writeEnded {s : State} {t : Thread} (hs : s.Inv) : (s.writeEnded t).Inv :=
  .settleRelease (.foldl (fun _ _ h => .letGo h) hs)

theorem State.Inv.dropReq {s : State} {id : Nat} (hs : s.Inv) : (s.dropReq id).Inv := .dropIssued (.setGridReqs hs)

theorem State.Inv.writeDestination {s : State} {r : GridReq} {data : List Byte} {mask : W64} (hs : s.Inv)
    : (s.writeDestination r data mask).Inv := by
  dsimp only [State.writeDestination]
  split
  · exact .resumeThread hs
  · exact .resumeThread hs
  · exact .resumeThread (.setSlot hs)
  · exact .resumeThread (.setCore hs)
  · exact hs

theorem State.Inv.loadAnswered {s : State} {r : GridReq} {status : Byte} {data : List Byte} {mask : W64} (hs : s.Inv)
    : (s.loadAnswered r status data mask).Inv :=
  .ite (.writeEnded (.dropReq hs)) (.ite (.writeEnded (.writeDestination (.dropReq hs))) (.ite (.writeEnded (.writeDestination
      (.dropReq hs))) (.writeEnded (.fault (.dropReq hs)))))

theorem State.Inv.gridAnswer {s : State} {r : GridReq} {via : Option Hdr} {k : Byte → State → State} (hs : s.Inv)
    (hk : ∀ a0 u, u.Inv → (k a0 u).Inv) : (s.gridAnswer r via k).Inv := by
  dsimp only [State.gridAnswer]
  split
  · exact .ite (.serving hs (fun _ h2 => hk _ _ h2)) hs
  · exact .answerTo (fun _ _ h1 => .ite (hk _ _ h1) h1) hs

theorem Out.Inv.execGridResponse {now id : Nat} {via : Option Hdr} {data : List Byte} {poison : W64} {s : State} (hs : s.Inv)
    : Out.Inv (execGridResponse now id via data poison s) := by
  refine .next ?_
  split
  · exact hs
  · refine .ite hs ?_
    refine .gridAnswer (.advanceTo hs) (fun _ _ h => ?_)
    split
    · exact .loadAnswered h
    · exact h
    · exact .loadAnswered h

theorem State.Inv.storeAnswered {s : State} {r : GridReq} {status : Byte} (hs : s.Inv) : (s.storeAnswered r status).Inv :=
  .writeEnded (.ite (.dropReq hs) (.setCtx (.dropReq hs)))

theorem Out.Inv.execStoreCompletion {now id : Nat} {via : Option Hdr} {s : State} (hs : s.Inv)
    : Out.Inv (execStoreCompletion now id via s) := by
  refine .next ?_
  split
  · exact hs
  · refine .ite hs ?_
    refine .gridAnswer (.advanceTo hs) (fun _ _ h => ?_)
    split
    · exact .storeAnswered h
    · exact h
    · exact .storeAnswered h

theorem State.Inv.threadTimeout {s : State} {id : Nat} (hs : s.Inv) : (s.threadTimeout id).Inv := by
  dsimp only [State.threadTimeout]
  split
  · exact hs
  · exact .ite (.writeEnded (.ite (.setLost (.dropReq hs)) (.setCtx (.setLost (.dropReq hs))))) (.loadAnswered (.ite (.setLost
        hs) hs))

/-! ### Machine/GridScalar -/

theorem State.Inv.guarded {s : State} {t : Thread} {checks : List (Bool × Byte)} {go : State} (hs : s.Inv) (hs1 : go.Inv)
    : (s.guarded t checks go).Inv := by
  dsimp only [State.guarded]
  split
  · exact .fault hs
  · exact hs1

theorem State.Inv.writeReg {s : State} {t : Thread} {sd : BitVec 3} {v : W64} {p : Bool} (hs : s.Inv)
    : (s.writeReg t sd v p).Inv :=
  .retire hs

theorem State.Inv.aluOp {op : W64 → W64 → W64} {f : FmtR} {t : Thread} {s : State} (hs : s.Inv) : (aluOp op f t s).Inv :=
  .writeReg hs

theorem State.Inv.aluOne {op : W64 → W64} {f : FmtR} {t : Thread} {s : State} (hs : s.Inv) : (aluOne op f t s).Inv := .writeReg
    hs

theorem State.Inv.immOp {op : W64 → W64} {f : FmtI} {t : Thread} {s : State} (hs : s.Inv) : (immOp op f t s).Inv := .writeReg hs

theorem State.Inv.jump {s : State} {t : Thread} {sd : BitVec 3} {z : ℤ} (hs : s.Inv) : (s.jump t sd z).Inv := .setCtx hs

theorem State.Inv.branchOp {test : W64 → W64 → Bool} {f : FmtB} {t : Thread} {s : State} (hs : s.Inv)
    : (branchOp test f t s).Inv :=
  .guarded hs (.setCtx hs)

theorem State.Inv.putScratch {s : State} {t : Thread} {a : ℤ} {l : List Byte} {p : Bool} (hs : s.Inv)
    : (s.putScratch t a l p).Inv :=
  .setCore hs

theorem State.Inv.await {s : State} {t : Thread} {st : ThreadState} {w : ThreadWait} (hs : s.Inv) : (s.await t st w).Inv :=
  .setCtx hs

theorem Out.Inv.execSend {i : Issue} {f : FmtSend} {s : State} (hs : s.Inv) : Out.Inv (execSend i f s) :=
  .next (.gridStep (fun _ _ h => .guarded h (.ite (.writeReg (.postMessage h)) (.ite (.writeReg h) (.await (.setCore h))))) hs)

theorem Out.Inv.execRecv {i : Issue} {f : FmtRecv} {s : State} (hs : s.Inv) : Out.Inv (execRecv i f s) := by
  refine .next ?_
  refine .gridStep (fun _ _ h => ?_) hs
  dsimp only
  refine .guarded h ?_
  split
  · exact .wakeSenders (.receiveInto (.setCore h))
  · exact .ite (.writeReg h) (.await (.setCore h))

theorem State.Inv.activate {s : State} {c p : Nat} (hs : s.Inv) : (s.activate c p).Inv := .setCluster hs

theorem Out.Inv.execSwitch {i : Issue} {f : FmtR} {s : State} (hs : s.Inv) : Out.Inv (execSwitch i f s) := by
  unfold Machine.execSwitch
  split
  · exact .next (.guarded (.advanceTo hs) (.retire (.advanceTo hs)))
  · exact .next (.gridStep (fun _ _ h => .guarded h (.activate (.retire h))) hs)

theorem Out.Inv.execSacq {i : Issue} {f : FmtR} {s : State} (hs : s.Inv) : Out.Inv (execSacq i f s) := by
  refine .next ?_
  refine .gridStep (fun _ _ h => ?_) hs
  dsimp only
  split
  · exact .retire h
  · split
    · exact .retire (.setCore h)
    · exact .await (.setCore h)

theorem Out.Inv.execSrel {i : Issue} {f : FmtR} {s : State} (hs : s.Inv) : Out.Inv (execSrel i f s) := by
  refine .next ?_
  refine .gridStep (fun _ _ h => ?_) hs
  dsimp only
  split
  · exact .freeSlot (.retire h)
  · exact .retire h

/-! ### Machine/Measure -/

theorem State.Inv.extendM3 {s : State} {e : List Byte} (hs : s.Inv) : (s.extendM3 e).Inv := .update hs rfl

/-! ### Machine/Units -/

theorem State.Inv.setUnits {s : State} {l : List UnitRead} (hs : s.Inv) : (s.setUnits l).Inv := .update hs rfl

theorem State.Inv.readRemote {s : State} {u : Asker} {opcode : Byte} {pcp : Nat} {cid : Cid} {rh : Handle} {c : Nat × Nat}
    (hs : s.Inv) : (s.readRemote u opcode pcp cid rh c).Inv :=
  .issue (.setUnits hs)

theorem State.Inv.readLocal {s : State} {u : Asker} {cid : Cid} {rh : Handle} {off n : Nat} (hs : s.Inv)
    : (s.readLocal u cid rh off n).Inv := by
  dsimp only [State.readLocal]
  refine .ite (.setUnits (.violation (.takeId hs))) ?_
  split
  · exact .setUnits (.takeId hs)
  · exact .submit (.setUnits (.takeId hs))

theorem State.Inv.unitRead {s : State} {u : Asker} {cid : Cid} {rh : Handle} {off n : Nat} {own : Option Nat} {opcode : Byte}
    (hs : s.Inv) : (s.unitRead u cid rh off n own opcode).1.Inv :=
  .foldl (fun _ _ h => .ite h (.ite (.readLocal h) (.readRemote h))) hs

theorem State.Inv.orderRead {s : State} {u : Asker} {rh : Handle} {off n : Nat} (hs : s.Inv) : (s.orderRead u rh off n).1.Inv :=
  .ite hs (.submit (.setUnits (.takeId hs)))

theorem State.Inv.forgetIf {s : State} {p : Asker → Bool} (hs : s.Inv) : (s.forgetIf p).Inv := .setUnits (.setHeld hs)

theorem State.Inv.forget {s : State} {u : Asker} (hs : s.Inv) : (s.forget u).Inv := .forgetIf hs

theorem State.Inv.setArrivals {s : State} {l : List Arrival} (hs : s.Inv) : (s.setArrivals l).Inv := .update hs rfl

theorem State.Inv.holdArrival {s : State} {a : Arrival} (hs : s.Inv) : (s.holdArrival a).Inv := .setArrivals hs

theorem State.Inv.replyWhenDone {s : State} {req : Nat} {h : Hdr} {opcode : Byte} {payload : List Byte} (hs : s.Inv)
    : (s.replyWhenDone req h opcode payload).Inv :=
  .settleReply (.update hs rfl)

theorem State.Inv.unitWrite {s : State} {req : Nat} {cid : Cid} {agent behalf : Aid} {rh : Handle} {off : Nat}
    {data : List Byte} {taint : List Nat} {own : Option Nat} (hs : s.Inv)
    : (s.unitWrite req cid agent behalf rh off data taint own).1.Inv := by
  dsimp only [State.unitWrite]
  refine .ite_fst hs ?_
  refine .ite_fst (.foldl (fun _ _ h => .issue h) hs) ?_
  refine .ite_fst (.violation hs) ?_
  split
  · exact hs
  · exact .submit hs

theorem State.Inv.clearFailure {s : State} {req : Nat} (hs : s.Inv) : (s.clearFailure req).Inv := .setFailedAt (.setFailures hs)

/-! ### Machine/GridOrders -/

theorem State.Inv.onClusters {s : State} {ref : OrderRef} {mask : W64} {k : Cid → State → State} (hs : s.Inv)
    (hk : ∀ a0 u, u.Inv → (k a0 u).Inv) : (s.onClusters ref mask k).Inv := by
  dsimp only [State.onClusters]
  split
  · exact hk _ _ hs
  · exact .finishOrder hs

theorem State.Inv.onProgram {s : State} {ref : OrderRef} {mask : W64} {p : Nat} {k : Cid → State → State} (hs : s.Inv)
    (hk : ∀ a0 u, u.Inv → (k a0 u).Inv) : (s.onProgram ref mask p k).Inv :=
  .onClusters hs (fun _ _ h => .ite (.finishOrder h) (hk _ _ h))

theorem State.Inv.defer {s : State} {d : Deferred} (hs : s.Inv) : (s.defer d).Inv := .update hs rfl

theorem State.Inv.gridOrder {o : Order} {mask : W64} {op : GridOp} {run : OrderRef → State → State} {s : State}
    (hrun : ∀ a0 u, u.Inv → (run a0 u).Inv) (hs : s.Inv) : (gridOrder o mask op run s).Inv :=
  .orderRequest (fun _ _ h => .ite (.defer h) (hrun _ _ h)) hs

theorem State.Inv.doAssign {s : State} {ref : OrderRef} {mask : W64} {cid : Cid} (hs : s.Inv)
    : (s.doAssign ref mask cid).Inv := by
  dsimp only [State.doAssign]
  split
  · exact .finishOrder hs
  · exact .ite (.finishOrder hs) (.ite (.finishOrder hs) (.finishOrder (.foldl (fun _ _ h => .setCluster h) hs)))

theorem State.Inv.haltCore {s : State} {core : Nat} {cause : Byte} (hs : s.Inv) : (s.haltCore core cause).Inv :=
  .foldl (fun _ _ h => .haltThread h) hs

theorem State.Inv.haltCores {s : State} {cores : List Nat} {cause : Byte} (hs : s.Inv) : (s.haltCores cores cause).Inv :=
  .foldl (fun _ _ h => .haltCore h) hs

theorem State.Inv.freeSenders {s : State} {core : Nat} (hs : s.Inv) : (s.freeSenders core).Inv :=
  .foldl (fun _ _ h => .wakeSenders h) hs

theorem State.Inv.abortLoads {s : State} {cs : List Nat} (hs : s.Inv) : (s.abortLoads cs).Inv :=
  .foldl (fun _ _ h1 => .finishOrder (.foldl (fun _ _ h2 => .ite (.setProgram h2) h2) (.forget h1))) (.update hs rfl)

theorem State.Inv.releaseClusters {s : State} {cs : List Nat} (hs : s.Inv) : (s.releaseClusters cs).Inv :=
  .foldl (fun _ _ h1 => .foldl (fun _ _ h2 => .freeSenders h2) h1) (.foldl (fun _ _ h2 => .setCluster h2) (.foldl (fun _ _ h3 =>
      .haltCores h3) (.abortLoads hs)))

theorem State.Inv.doRelease {s : State} {ref : OrderRef} {mask : W64} (hs : s.Inv) : (s.doRelease ref mask).Inv :=
  .onClusters hs (fun _ _ h => .ite (.finishOrder h) (.update (.releaseClusters h) rfl))

theorem State.Inv.zeroCluster {s : State} {c : Nat} (hs : s.Inv) : (s.zeroCluster c).Inv := .foldl (fun _ _ h => .setCore h) hs

theorem State.Inv.settleReleases {s : State} (hs : s.Inv) : s.settleReleases.Inv :=
  .foldl (fun _ _ h => .finishOrder h) (.update hs rfl)

theorem State.Inv.haltComposition {s : State} {cid : Cid} (hs : s.Inv) : (s.haltComposition cid).Inv :=
  .foldl (fun _ _ h => .haltCores h) hs

theorem State.Inv.reserveProgram {s : State} {cs : List Nat} {p : Nat} {x : Program} (hs : s.Inv)
    : (s.reserveProgram cs p x).1.Inv :=
  .ite_fst hs (.ite_fst hs (.foldl (fun _ _ h => .setProgram h) hs))

theorem State.Inv.checkLoad {s : State} {cid : Cid} {j : ProgramJob} (hs : s.Inv) : (s.checkLoad cid j).1.Inv :=
  .ite_fst (.unitRead hs) (.ite_fst (.unitRead hs) (.ite_fst (.unitRead hs) (.reserveProgram (.unitRead hs))))

theorem State.Inv.setJobs {s : State} {l : List ProgramJob} (hs : s.Inv) : (s.setJobs l).Inv := .update hs rfl

theorem State.Inv.doLoad {s : State} {ref : OrderRef} {mask : W64} {program : Nat} {desc : Ptr} (hs : s.Inv)
    : (s.doLoad ref mask program desc).Inv := by
  dsimp only [State.doLoad]
  refine .onProgram hs (fun _ _ h => ?_)
  split
  · rename_i e
    exact .setJobs (.of_fst e (.checkLoad h))
  · rename_i e
    exact .ite (.setJobs (.forget (.of_fst e (.checkLoad h)))) (.finishOrder (.forget (.of_fst e (.checkLoad h))))

theorem State.Inv.clearShare {s : State} {core p : Nat} {x : Program} (hs : s.Inv) : (s.clearShare core p x).Inv :=
  .setCore hs

theorem State.Inv.readImages {s : State} {cid : Cid} {j : ProgramJob} {l : List Nat} (hs : s.Inv)
    : (s.readImages cid j l).1.Inv := by
  induction l generalizing s with
  | nil => exact hs
  | cons k l ih =>
    have hr : ∀ {rh off n}, State.Inv (s.unitRead j.asker cid rh off n).1 := .unitRead hs
    refine .ite_fst hr (.ite_fst hr ?_)
    split
    · rename_i e
      exact .of_fst e (ih hr)
    · rename_i e
      exact .of_fst e (ih hr)

theorem State.Inv.failLoad {s : State} {j : ProgramJob} {st : Byte} (hs : s.Inv) : (s.failLoad j st).Inv :=
  .finishOrder (.forget (.setJobs (.foldl (fun _ _ h => .ite (.setProgram h) h) hs)))

theorem State.Inv.placeProgram {s : State} {j : ProgramJob} {code : List W32} {images : List (Nat × Got)} (hs : s.Inv)
    : (s.placeProgram j code images).Inv :=
  .foldl (fun _ _ h1 => .setCore h1) (.foldl (fun _ _ h2 => .setProgram (.foldl (fun _ _ h3 => .clearShare h3) h2)) hs)

theorem State.Inv.measureLoad {s : State} {cid : Cid} {j : ProgramJob} {code : List Byte} (hs : s.Inv)
    : (s.measureLoad cid j code).Inv := by
  dsimp only [State.measureLoad]
  split
  · exact .modComp hs
  · exact hs

theorem State.Inv.programLoaded {now idx : Nat} {s : State} (hs : s.Inv) : (programLoaded now idx s).Inv := by
  unfold Machine.programLoaded
  extract_lets u
  have hu : u.Inv := .advanceTo hs
  split
  · exact hu
  split
  · exact hu
  refine .ite hu ?_
  split
  all_goals
    rename_i e
    have h1 : State.Inv _ := .of_fst e (.ite_fst hu (.checkLoad hu))
  · exact h1
  extract_lets v
  have hv : v.Inv := .setJobs h1
  refine .ite (.failLoad hv) ?_
  extract_lets
  split
  rename_i e
  have h2 : State.Inv _ := .of_fst e (.unitRead hv)
  refine .ite h2 (.ite (.failLoad h2) ?_)
  split
  all_goals
    rename_i e
    have h3 : State.Inv _ := .of_fst e (.ite_fst h2 (.readImages h2))
  · exact h3
  · exact .ite (.failLoad h3) (.finishOrder (.forget (.setJobs (.measureLoad (.placeProgram h3)))))

theorem State.Inv.startCore {s : State} {core p : Nat} {x : Program} {args : List W64} (hs : s.Inv)
    : (s.startCore core p x args).Inv :=
  .setCore hs

theorem State.Inv.startProgram {s : State} {mask : W64} {p : Nat} {args : List W64} (hs : s.Inv)
    : (s.startProgram mask p args).Inv :=
  .foldl (fun _ _ h1 => .activate (.foldl (fun _ _ h2 => .startCore h2) h1)) hs

theorem State.Inv.doStart {s : State} {ref : OrderRef} {mask : W64} {p : Nat} {args : List W64} (hs : s.Inv)
    : (s.doStart ref mask p args).Inv :=
  .onProgram hs (fun _ _ h => .ite (.finishOrder h) (.ite (.finishOrder h) (.ite (.finishOrder h) (.finishOrder (.startProgram
      h)))))

theorem State.Inv.doSwitch {s : State} {ref : OrderRef} {mask : W64} {p : Nat} (hs : s.Inv) : (s.doSwitch ref mask p).Inv :=
  .onProgram hs (fun _ _ h1 => .ite (.finishOrder h1) (.ite (.finishOrder h1) (.finishOrder (.foldl (fun _ _ h2 => .activate h2)
      h1))))

theorem State.Inv.beginUnload {s : State} {mask : W64} {p : Nat} {ref : OrderRef} (hs : s.Inv) : (s.beginUnload mask p ref).Inv
    :=
  .setJobs (.foldl (fun _ _ h1 => .freeSenders h1) (.foldl (fun _ _ h2 => .setProgram (.setCluster h2)) (.foldl (fun _ _ h3 =>
      .foldl (fun _ _ h4 => .haltThread h4) h3) hs)))

theorem State.Inv.doUnload {s : State} {ref : OrderRef} {mask : W64} {p : Nat} (hs : s.Inv) : (s.doUnload ref mask p).Inv :=
  .onProgram hs (fun _ _ h => .ite (.finishOrder h) (.ite (.finishOrder h) (.beginUnload h)))

theorem State.Inv.programUnloaded {now idx : Nat} {s : State} (hs : s.Inv) : (programUnloaded now idx s).Inv := by
  dsimp only [Machine.programUnloaded]
  split
  · exact .advanceTo hs
  · exact .ite (.advanceTo hs) (.finishOrder (.setJobs (.foldl (fun _ _ h1 => .ite (.setProgram (.foldl (fun _ _ h2 =>
        .clearShare h2) h1)) h1) (.advanceTo hs))))

/-! ### Machine/Movers -/

theorem State.Inv.setMovers {s : State} {x : Movers} (hs : s.Inv) : (s.setMovers x).Inv := .update hs rfl

theorem State.Inv.setMover {s : State} {m : Nat} {x : Mover} (hs : s.Inv) : (s.setMover m x).Inv := .setMovers hs

theorem State.Inv.putHeader {s : State} {req : Nat} {h : Hdr} {p : Ptr} {at_ : Nat} {l : List Byte} (hs : s.Inv)
    : (s.putHeader req h p at_ l).Inv :=
  .unitFails (.unitWrite hs)

theorem State.Inv.markDesc {s : State} {req : Nat} {h : Hdr} {d : Desc} {state : Nat} {status : Byte} (hs : s.Inv)
    : (s.markDesc req h d state status).Inv :=
  .putHeader (.putHeader hs)

theorem State.Inv.newReq {s : State} (hs : s.Inv) : (s.newReq).2.Inv := .takeId hs

theorem State.Inv.invalAck {s : State} {h : Hdr} {id : W32} {engine total : Nat} (hs : s.Inv)
    : (s.invalAck h id engine total).Inv :=
  .send hs

theorem State.Inv.ackAll {s : State} {m : Nat} (hs : s.Inv) : (s.ackAll m).Inv :=
  .ite hs (.foldl (fun _ _ h => .invalAck h) (.forget (.setMover hs)))

theorem State.Inv.detach {s : State} {m : Nat} (hs : s.Inv) : (s.detach m).Inv := .clearFailure (.update (.takeId hs) rfl)

theorem State.Inv.freeMover {s : State} {m : Nat} (hs : s.Inv) : (s.freeMover m).Inv := .setMover (.detach (.forget (.ackAll
    hs)))

theorem State.Inv.refillQueue {s : State} (hs : s.Inv) : s.refillQueue.Inv :=
  .foldl (fun _ _ h => .takeFromIngress h) (.setMovers hs)

theorem State.Inv.answerMove {s : State} {q : MoveReq} {status : Byte} (hs : s.Inv) : (s.answerMove q status).Inv := .respond hs

theorem State.Inv.endMove {s : State} {m : Nat} {status : Byte} (hs : s.Inv) : (s.endMove m status).Inv := by
  dsimp only [State.endMove]
  split
  · exact hs
  · exact .bump (.freeMover (.answerMove (.ackAll hs)))

theorem State.Inv.failDesc {s : State} {m : Nat} {d : Desc} {status : Byte} (hs : s.Inv) : (s.failDesc m d status).Inv := by
  dsimp only [State.failDesc]
  split
  · exact hs
  · exact .endMove (.markDesc hs)

theorem State.Inv.startDesc {s : State} {m : Nat} (hs : s.Inv) : (s.startDesc m).Inv := by
  unfold State.startDesc
  split
  · exact hs
  split
  rename_i e
  have h1 : State.Inv _ := .of_fst e (.unitRead hs)
  extract_lets _ _ t
  have ht : t.Inv := .ite h1 (.forget h1)
  exact .ite ht (.ite (.failDesc ht) (.ite (.failDesc (.setMover ht)) (.setMover (.putHeader (.setMover ht)))))

theorem State.Inv.dispatch {s : State} {m : Nat} (hs : s.Inv) : (s.dispatch m).Inv := by
  dsimp only [State.dispatch]
  split
  · exact .startDesc (.refillQueue (.setMover (.setMovers hs)))
  · exact .ite (.startDesc hs) hs
  · exact hs

theorem State.Inv.engineRequest {h : Hdr} {opcode : Byte} {fixed : Nat} {valid : Option Byte} {fail zero : List Byte}
    {pointers : List Handle} {k : State → State} {s : State} (hk : ∀ u, u.Inv → (k u).Inv) (hs : s.Inv)
    : (engineRequest h opcode fixed valid fail zero pointers k s).Inv :=
  .memberRequest (fun _ h1 => .ite (.respond h1) (hk _ h1)) hs

theorem Out.Inv.execMove {h : Hdr} {desc : Ptr} {count : BitVec 16} {s : State} (hs : s.Inv) : Out.Inv (execMove h desc count s)
    := by
  refine .next ?_
  refine .engineRequest (fun _ h1 => ?_) hs
  dsimp only
  refine .ite (.respond h1) ?_
  refine .ite ?_ (.leaveAtIngress (.setMovers h1))
  split
  · exact .dispatch (.setMovers h1)
  · exact .setMovers h1

/-- The bytes are canonical in the state that a walk has reached. -/
def WalkIO.Inv (w : WalkIO) : Prop := w.st.Inv

theorem WalkIO.Inv.ite_fst {α : Type} {c : Prop} [Decidable c] {p q : WalkIO × α} (h : p.1.Inv) (h' : q.1.Inv) :
    (if c then p else q).1.Inv := by
  split
  · exact h
  · exact h'

theorem WalkIO.Inv.of_fst {α : Type} {p : WalkIO × α} {io : WalkIO} {x : α} (e : p = (io, x)) (h : p.1.Inv) : io.Inv := by
  rw [e] at h
  exact h

theorem WalkIO.Inv.read {w : WalkIO} {rh : Handle} {off n : Nat} (h : w.Inv) : (w.read rh off n).1.Inv :=
  State.Inv.unitRead h

theorem WalkIO.Inv.line {w : WalkIO} {rh : Handle} {n : Nat} (h : w.Inv) : (w.line rh n).1.Inv := .read h

theorem WalkIO.Inv.entry {w : WalkIO} {rh : Handle} {off : Nat} (h : w.Inv) : (w.entry rh off).1.Inv := by
  dsimp only [WalkIO.entry]
  exact .ite_fst (.line h) (.line (.line h))

theorem WalkIO.Inv.walkLevels {root : Root} {va access n i pa shift e : Nat} {w a : Bool} {io : WalkIO} (h : io.Inv) :
    (walkLevels root va access n i pa shift w a e io).1.Inv := by
  induction n generalizing i pa shift w a e io with
  | zero => exact h
  | succ n ih =>
    dsimp only [Machine.walkLevels]
    split
    · exact h
    · refine .ite_fst (.entry h) (.ite_fst (.entry h) (.ite_fst (.entry h) ?_))
      refine .ite_fst (.ite_fst (.entry h) (ih (.entry h))) (.ite_fst (.entry h) ?_)
      split
      · exact .entry h
      · exact .ite_fst (.entry h) (.ite_fst (.entry h) (.entry h))

theorem WalkIO.Inv.walkPage {root : Root} {va access : Nat} {io : WalkIO} (h : io.Inv) : (walkPage root va access io).1.Inv :=
    by
  dsimp only [Machine.walkPage]
  exact .ite_fst h (.walkLevels h)

theorem WalkIO.Inv.walkSide {root : Root} {p : Ptr} {dest : Bool} {access n pos va left : Nat} {acc : List Run}
    {pages : List PageSpan}
    {io : WalkIO} (h : io.Inv) : (walkSide root p dest access n pos va left acc pages io).1.Inv := by
  induction n generalizing pos va left acc pages io with
  | zero => exact h
  | succ n ih =>
    dsimp only [Machine.walkSide]
    refine .ite_fst h ?_
    split
    · rename_i e
      exact .of_fst e (.walkPage h)
    · rename_i e
      exact .of_fst e (.walkPage h)
    · rename_i e
      exact ih (.of_fst e (.walkPage h))

theorem WalkIO.Inv.readRoot {p : Ptr} {io : WalkIO} (h : io.Inv) : (readRoot p io).1.Inv := by
  dsimp only [Machine.readRoot]
  refine .ite_fst (.read h) ?_
  split
  · exact .read h
  · exact .ite_fst (.read h) (.ite_fst (.read (.read h)) (.ite_fst (.read (.read h)) (.read (.read h))))

theorem WalkIO.Inv.walkRange {d : Desc} {dest : Bool} {lo hi : Nat} {io : WalkIO} (h : io.Inv)
    : (walkRange d dest lo hi io).1.Inv := by
  dsimp only [Machine.walkRange]
  refine .ite_fst h ?_
  split
  · rename_i e
    exact .of_fst e (.readRoot h)
  · rename_i e
    exact .of_fst e (.readRoot h)
  · rename_i e
    exact .walkSide (.of_fst e (.readRoot h))

theorem WalkIO.Inv.walkBoth {d : Desc} {lo hi : Nat} {io : WalkIO} (h : io.Inv) : (walkBoth d lo hi io).1.Inv := by
  dsimp only [Machine.walkBoth]
  split
  · rename_i e
    split
    · rename_i e'
      exact .of_fst e' (.walkRange (.of_fst e (.walkRange h)))
    · exact .walkRange (.of_fst e (.walkRange h))
  · exact .walkRange h


theorem WalkIO.Inv.rewalkPart {d : Desc} {dest : Bool} {e : Nat × Nat} {old : List Run} {pages : List PageSpan} {io : WalkIO}
    (h : io.Inv) :
    (rewalkPart d dest e old pages io).1.Inv := by
  dsimp only [Machine.rewalkPart]
  refine .ite_fst h ?_
  split
  · rename_i e
    exact .of_fst e (.walkRange h)
  · exact .walkRange h

theorem WalkIO.Inv.foldl_fst {α β : Type} {g : WalkIO × β → α → WalkIO × β} {l : List α} {p : WalkIO × β}
    (hg : ∀ p a, p.1.Inv → (g p a).1.Inv) (h : p.1.Inv) : (l.foldl g p).1.Inv := by
  induction l generalizing p with
  | nil => exact h
  | cons a l ih => exact ih (hg _ a h)

theorem WalkIO.Inv.rewalkSide {d : Desc} {dest : Bool} {v : Inval} {io : WalkIO} (h : io.Inv)
    : (rewalkSide d dest v io).1.Inv := by
  refine .foldl_fst (fun p e hp => ?_) h
  split
  · exact .rewalkPart hp
  · exact hp

theorem WalkIO.Inv.rewalk {d : Desc} {l : List Inval} {io : WalkIO} (h : io.Inv) : (rewalk d l io).1.Inv := by
  induction l generalizing d io with
  | nil => exact h
  | cons v l ih =>
    dsimp only [Machine.rewalk]
    split
    · rename_i e
      have h1 : WalkIO.Inv _ := .of_fst e (.rewalkSide h)
      split
      · rename_i e'
        exact ih (.of_fst e' (.rewalkSide h1))
      · rename_i e'
        exact .of_fst e' (.rewalkSide h1)
    · rename_i e
      exact .of_fst e (.rewalkSide h)

theorem State.Inv.sourceBytes {s : State} {m : Nat} {cid : Cid} {d : Desc} (hs : s.Inv) : (s.sourceBytes m cid d).1.Inv :=
  .ite_fst hs (.foldl_fst (fun _ _ h => .unitRead h) hs)

theorem State.Inv.settleRuns {s : State} {m : Nat} (hs : s.Inv) : (s.settleRuns m).Inv := by
  dsimp only [State.settleRuns]
  split
  · exact .ite hs (.ite (.failDesc hs) (.ite (.ite_fst (.sourceBytes hs) hs) (.ite (.failDesc (.ite_fst (.sourceBytes hs) hs))
        (.setMover (.putHeader (.forget (.ite_fst (.sourceBytes hs) hs)))))))
  · exact hs

theorem State.Inv.beginMoving {s : State} {m : Nat} {q : MoveReq} {d : Desc} (hs : s.Inv) : (s.beginMoving m q d).Inv :=
  .ite (.failDesc hs) (.settleRuns (.setMover (.forget (.putHeader (.ite hs (.putHeader hs))))))

theorem State.Inv.setParked {s : State} {l : List Parked} (hs : s.Inv) : (s.setParked l).Inv := .setMovers hs

theorem State.Inv.sendFault {s : State} {c : Comp} {p : Parked} (hs : s.Inv) : (s.sendFault c p).Inv := .send hs

theorem State.Inv.settleFault {s : State} {idx : Nat} (hs : s.Inv) : (s.settleFault idx).Inv := by
  dsimp only [State.settleFault]
  split
  · exact hs
  · split
    · exact .ite hs (.sendFault (.clearFailure (.clearFailure (.setParked hs))))
    · exact hs

theorem State.Inv.recordFault {s : State} {idx : Nat} (hs : s.Inv) : (s.recordFault idx).Inv := by
  dsimp only [State.recordFault]
  split
  · exact hs
  · split
    · exact hs
    · exact .ite (.ite (.unitRead hs) (.forget (.unitRead hs))) (.ite (.ite (.setParked (.ite (.unitRead hs) (.forget (.unitRead
          hs)))) (.bump (.setParked (.ite (.unitRead hs) (.forget (.unitRead hs)))))) (.settleFault (.setParked (.unitWrite
          (.takeId (.ite (.unitRead hs) (.forget (.unitRead hs))))))))

theorem State.Inv.park {s : State} {m : Nat} {f : WalkFault} (hs : s.Inv) : (s.park m f).Inv := by
  dsimp only [State.park]
  split
  · refine .recordFault ?_
    refine .bump ?_
    refine .freeMover ?_
    refine .setParked ?_
    refine .ackAll ?_
    split
    · exact .modComp (.markDesc (.newReq hs))
    · exact .markDesc (.newReq hs)
  · exact hs

theorem State.Inv.walkFaults {s : State} {m : Nat} {f : WalkFault} (hs : s.Inv) : (s.walkFaults m f).Inv :=
  .ite (.park (.forget hs)) (.setMover (.forget hs))

theorem Out.Inv.execWalk {now mover : Nat} {s : State} (hs : s.Inv) : Out.Inv (execWalk now mover s) := by
  refine .next (.serving hs fun v h => ?_)
  extract_lets u x
  have hu : u.Inv := .advanceTo h
  split
  · refine .ite hu (.ite (.failDesc hu) (.ite (.settleRuns hu) (.ite hu ?_)))
    have hw : ∀ {d lo hi cid}, (walkBoth d lo hi { st := u.ackAll mover, cid := cid, mover := mover }).1.Inv :=
      .walkBoth (State.Inv.ackAll hu)
    split
    all_goals
      rename_i e
      have h1 : WalkIO.Inv _ := .of_fst e hw
    · exact h1
    · exact .walkFaults (.bump h1)
    · exact .beginMoving (.bump h1)
  · exact hu

theorem Out.Inv.execFaultSlotCheck {now idx : Nat} {s : State} (hs : s.Inv) : Out.Inv (execFaultSlotCheck now idx s) := by
  refine .event (now := now) hs fun _ h => ?_
  dsimp only
  split
  · exact .ite (.settleFault h) (.ite h (.recordFault h))
  · exact h

theorem Out.Inv.execParkedSlotFree {now mover : Nat} {s : State} (hs : s.Inv) : Out.Inv (execParkedSlotFree now mover s) := by
  refine .event (now := now) hs fun _ h => ?_
  dsimp only
  split
  · exact .ite (.park h) h
  · exact h

theorem Out.Inv.execResume {h : Hdr} {desc : Ptr} {action : Byte} {s : State} (hs : s.Inv)
    : Out.Inv (execResume h desc action s) := by
  refine .next (.consumed (fun _ h1 => ?_) hs)
  dsimp only
  refine .ite (.senderRejected h1) ?_
  refine .memberChecked (fun _ h2 => ?_) h1
  refine .ite (.respond h2) ?_
  split
  · exact .respond h2
  · exact .ite (.respond (.setMovers (.setParked h2))) (.respond (.answerMove (.markDesc (.newReq (.setParked h2)))))

theorem Out.Inv.execStagingGrant {now mover : Nat} {s : State} (hs : s.Inv) : Out.Inv (execStagingGrant now mover s) := by
  refine .event (now := now) hs fun _ h => ?_
  dsimp only
  refine .ite h ?_
  split
  · exact .setMovers (.setMover h)
  · exact h

theorem State.Inv.addElements {s : State} {m : Nat} {h : Hdr} {rh : Handle} {off : Nat} {data : List Byte} {taint : List Nat}
    {n : Nat}
    (hs : s.Inv) : (s.addElements m h rh off data taint n).Inv := by
  induction n with
  | zero => exact hs
  | succ n ih => exact .submit ih

theorem State.Inv.chooseLines {s : State} {d : Desc} {pos off : Nat} {g : Got} (hs : s.Inv) : (s.chooseLines d pos off g).1.Inv
    :=
  .ite_fst hs (.update hs rfl)

theorem State.Inv.runSegment {s : State} {m : Nat} {q : MoveReq} {d : Desc} {pos n : Nat} (hs : s.Inv) :
    (s.runSegment m q d pos n).1.Inv := by
  unfold State.runSegment
  split
  · exact hs
  rename_i drh doff _ _
  -- whatever the segment reads, its bytes come with a state whose own are canonical
  have source : ∀ t g, (if d.op = 1 then
        some (s, ({ data := (List.range n).map fun i => nth 0 (leBytes 8 d.pattern.toNat) ((pos + i) % 8)
                    poison := List.replicate n d.tainted } : Got))
      else match d.place false pos with
        | some (rh, off, _) => some (s.unitRead (.mover m) q.h.cid rh off n)
        | none => none) = some (t, g) → t.Inv := by
    intro t g e
    split at e
    · cases e
      exact hs
    · split at e
      · rw [Option.some.injEq] at e
        exact .of_fst e (.unitRead hs)
      · cases e
  dsimp only
  split
  · exact hs
  rename_i t g e
  have ht : t.Inv := source t g e
  have hf : State.Inv (if g.waits then t else t.forget (.mover m)) := .ite ht (.forget ht)
  refine .ite_fst hf (.ite_fst hf ?_)
  have hc : ∀ {c : Prop} [Decidable c] {g'}, State.Inv (if c then State.chooseLines (if g.waits then t else t.forget (.mover m))
      d pos doff g else (if g.waits then t else t.forget (.mover m), g')).1 := .ite_fst (.chooseLines hf) hf
  refine .ite_fst ?_ (.unitWrite hc)
  split
  · exact .ite_fst (.violation hc) hc
  · exact .addElements hc

theorem Out.Inv.execSegmentDone {now mover : Nat} {s : State} (hs : s.Inv) : Out.Inv (execSegmentDone now mover s) := by
  refine .event (now := now) hs fun v h => ?_
  extract_lets u x
  have hu : u.Inv := h
  split
  · extract_lets _ finish
    have finished : ∀ {t}, t.Inv → (finish t).Inv := fun h => .ite h (.ite (.failDesc h) (.setMover (.clearFailure h)))
    refine .ite (finished hu) (.ite hu (.ite (.failDesc hu) ?_))
    split
    all_goals
      rename_i e
      have h1 : State.Inv _ := .of_fst e (.runSegment hu)
    · exact h1
    · exact .ite (.failDesc h1) (finished (.setMover h1))
  · exact hu

theorem Out.Inv.execDescriptorDone {now mover : Nat} {s : State} (hs : s.Inv) : Out.Inv (execDescriptorDone now mover s) := by
  refine .event (now := now) hs fun v h => ?_
  extract_lets u x
  have hu : u.Inv := h
  split
  · rename_i q d _ _
    have hm : State.Inv (if x.marked then u else (u.markDesc mover q.h d dsDone stOk).setMover mover { x with marked := true }) :=
      .ite hu (.setMover (.markDesc hu))
    exact .ite hu (.ite hm (.ite (.failDesc hm) (.ite (.endMove (.setMover (.ackAll hm))) (.startDesc (.setMover (.ackAll hm))))))
  · exact hu

theorem Out.Inv.execInvalRange {h : Hdr} {root : Ptr} {invalId : W32} {start len : W64} {s : State} (hs : s.Inv)
    : Out.Inv (execInvalRange h root invalId start len s) :=
  .next (.memberRequest (fun _ h1 => .ite (.invalAck (.respond h1)) (.foldl (fun _ _ h2 => .setMover h2) (.respond h1))) hs)

theorem Out.Inv.execInvalQuiesce {now mover : Nat} {s : State} (hs : s.Inv) : Out.Inv (execInvalQuiesce now mover s) := by
  refine .next (.serving hs fun v h => ?_)
  extract_lets u x again acked _ cleared
  have hu : u.Inv := .advanceTo h
  split
  · refine .ite hu (.ite (.ackAll hu) (.ite (.failDesc hu) ?_))
    have hw : ∀ {d cid}, (rewalk d again { st := cleared, cid := cid, mover := mover }).1.Inv :=
      .rewalk (State.Inv.setMover (.ackAll hu))
    split
    all_goals
      rename_i e
      have h1 : WalkIO.Inv _ := .of_fst e hw
    · exact h1
    · exact .walkFaults h1
    · exact .beginMoving h1
  · exact hu

theorem State.Inv.abortMoves {s : State} {cid : Cid} {answer : Bool} (hs : s.Inv) : (s.abortMoves cid answer).Inv := by
  dsimp only [State.abortMoves]
  refine .foldl (fun _ _ h1 => ?_) (.refillQueue (.foldl (fun _ _ h2 => .takeFromIngress h2) (.setMovers (.ite (.foldl (fun _ _
      h3 => .answerMove h3) hs) hs))))
  split
  · exact .ite h1 (.ite (.endMove h1) (.freeMover h1))
  · exact h1

/-! ### Machine/Embedding -/

theorem State.Inv.chain {s : State} {after : Option Nat} {l : List Access} (hs : s.Inv) : (s.chain after l).Inv := by
  induction l generalizing s after with
  | nil => exact hs
  | cons a l ih => exact ih (.update hs rfl)

theorem State.Inv.writerTurn {s : State} {req : Nat} {cid : Cid} {onBehalf : Aid} {row : RowAt} {l : List RowChange}
    (hs : s.Inv) : (s.writerTurn req cid onBehalf row l).Inv :=
  .pump (.chain (.foldl (fun _ _ h => .violation h) hs))

theorem State.Inv.claim {s : State} {u : Asker} {row : RowAt} (hs : s.Inv) : (s.claim u row).Inv := .ite hs (.update hs rfl)

theorem State.Inv.closeIf {s : State} {p : Asker → Bool} (hs : s.Inv) : (s.closeIf p).Inv := .update hs rfl

theorem State.Inv.close {s : State} {u : Asker} (hs : s.Inv) : (s.close u).Inv := .closeIf hs

theorem State.Inv.readHeads {s : State} {u : Asker} {cid : Cid} {l : List RowAt} (hs : s.Inv) : (s.readHeads u cid l).1.Inv :=
  .foldl_fst (fun _ _ h => .unitRead h) hs

theorem State.Inv.notePoison {s : State} {req : Nat} {bad : Bool} (hs : s.Inv) : (s.notePoison req bad).Inv :=
  .ite (.setFailures hs) hs

theorem State.Inv.rowWrite {s : State} {h : Hdr} {table : Ptr} {row : BitVec 40} {tableGen : Byte} {scale offset : BitVec 16}
    {codes : List Byte} {hold : Option RowAt → State → State} (hs : s.Inv) (hhold : ∀ a0 u, u.Inv → (hold a0 u).Inv)
    : (s.rowWrite h table row tableGen scale offset codes hold).Inv := by
  have ends : ∀ {u : State} {st}, u.Inv → ((u.close (.frame h.src h.tag)).respond h 0x39 st []).Inv := fun h => .respond (.close h)
  unfold State.rowWrite
  extract_lets
  split
  rename_i e
  have h1 : State.Inv _ := .of_fst e (.unitRead hs)
  refine .ite (hhold _ _ h1) (.ite (ends h1) (.ite (ends h1) (.ite (ends h1) (.ite (hhold _ _ h1) ?_))))
  split
  rename_i e
  have h2 : State.Inv _ := .of_fst e (.readHeads (.claim h1))
  refine .ite (hhold _ _ h2) (.ite (ends h2) ?_)
  extract_lets
  split
  rename_i e
  have h3 : State.Inv _ := .of_fst e (.unitRead h2)
  refine .ite (hhold _ _ h3) (.ite (ends h3) ?_)
  extract_lets
  split
  · exact ends h3
  split
  rename_i e
  have h4 : State.Inv _ := .of_fst e (.readHeads h3)
  refine .ite (hhold _ _ h4) (.ite (ends h4) ?_)
  split
  rename_i e
  exact .replyWhenDone (.writerTurn (.notePoison (.of_snd e (.newReq (.close h4)))))

theorem State.Inv.setEmb {s : State} {e : Emb} (hs : s.Inv) : (s.setEmb e).Inv := .update hs rfl

theorem State.Inv.answerGather {s : State} {q : GatherReq} {status : Byte} (hs : s.Inv) : (s.answerGather q status).Inv :=
  .respond hs

theorem State.Inv.clearGather {s : State} {q : GatherReq} (hs : s.Inv) : (s.clearGather q).Inv := by
  dsimp only [State.clearGather]
  refine .foldl (fun _ _ h => ?_) (.setEmb (.forgetIf hs))
  split
  · exact .clearFailure h
  · exact h

theorem State.Inv.dropGather {s : State} {q : GatherReq} {status : Byte} (hs : s.Inv) : (s.dropGather q status).Inv :=
  .bump (.setEmb (.clearGather (.answerGather hs)))

theorem State.Inv.setGather {s : State} {q : GatherReq} (hs : s.Inv) : (s.setGather q).Inv := .setEmb hs

theorem State.Inv.acceptGather {s t : State} {b : Bool} (hs : s.Inv) (e : s.acceptGather = some (t, b)) : t.Inv := by
  unfold State.acceptGather at e
  split at e
  · cases e
  split at e
  · cases e
  have hr : ∀ {u cid rh off n pcp op}, State.Inv (s.unitRead u cid rh off n pcp op).1 := .unitRead hs
  dsimp only at e
  split at e
  · cases e
    exact hr
  split at e
  · cases e
    exact .respond (.takeFromIngress (.setEmb (.forget hr)))
  split at e
  · cases e
    exact .respond (.takeFromIngress (.setEmb (.forget hr)))
  · cases e
    exact .setEmb (.takeId (.takeFromIngress (.setEmb (.forget hr))))

theorem State.Inv.refillGather {s : State} {n : Nat} (hs : s.Inv) : (s.refillGather n).Inv := by
  induction n generalizing s with
  | zero => exact hs
  | succ n ih =>
    rw [State.refillGather]
    split
    · refine .ite (ih (.ite (.dropGather (.setEmb hs)) (.setEmb hs))) ?_
      split
      · rename_i e
        exact ih (.acceptGather hs e)
      · rename_i e
        exact .acceptGather hs e
      · exact hs
    · split
      · rename_i e
        exact ih (.acceptGather hs e)
      · rename_i e
        exact .acceptGather hs e
      · exact hs

theorem State.Inv.runGather {s : State} (hs : s.Inv) : s.runGather.Inv := .refillGather hs

theorem State.Inv.endGather {s : State} {q : GatherReq} {status : Byte} (hs : s.Inv) : (s.endGather q status).Inv :=
  .runGather (.dropGather hs)

theorem State.Inv.settleGather {s : State} {id : Nat} (hs : s.Inv) : (s.settleGather id).Inv := by
  dsimp only [State.settleGather]
  split
  · exact hs
  · split
    · exact .endGather hs
    · exact hs

theorem State.Inv.chargeGather {s : State} {h : Hdr} (hs : s.Inv) : (s.chargeGather h).Inv := .ite (.leaveAtIngress hs) hs

theorem State.Inv.readHeader {s : State} {q : GatherReq} {b start : Nat} (hs : s.Inv) : (s.readHeader q b start).1.Inv :=
  .ite_fst hs (.ite_fst (.ite (.unitRead hs) (.forget (.unitRead hs))) (.ite_fst (.ite (.unitRead hs) (.forget (.unitRead hs)))
      (.ite_fst (.ite (.unitRead hs) (.forget (.unitRead hs))) (.ite (.unitRead hs) (.forget (.unitRead hs))))))

theorem State.Inv.readHeaders {s : State} {q : GatherReq} {n : Nat} (hs : s.Inv) : (s.readHeaders q n).1.Inv := by
  induction n with
  | zero => exact .readHeader hs
  | succ n ih =>
    rw [State.readHeaders]
    split
    · rename_i e
      exact .readHeader (.of_fst e ih)
    · exact ih

theorem State.Inv.readBag {s : State} {q : GatherReq} {b : Nat} (hs : s.Inv) : (s.readBag q b).1.Inv := by
  unfold State.readBag
  split
  · rename_i e
    have h1 : State.Inv _ := .of_fst e (.readHeaders hs)
    refine .ite_fst h1 ?_
    extract_lets
    split
    rename_i e
    have h2 : State.Inv _ := .of_fst e (.unitRead h1)
    extract_lets t
    have ht : t.Inv := .ite h2 (.forget h2)
    exact .ite_fst ht (.ite_fst ht ht)
  · exact .readHeaders hs

theorem State.Inv.lookBody {s : State} {u : Asker} {cid : Cid} {t : EmbTable} {l : Look} {held : Bool} (hs : s.Inv)
    : (s.lookBody u cid t l held).1.Inv :=
  .ite_fst hs (.ite_fst (.unitRead hs) (.ite_fst (.unitRead hs) (.ite_fst (.unitRead (.unitRead hs)) (.ite_fst (.unitRead
      (.unitRead hs)) (.ite_fst (.unitRead (.unitRead hs)) (.unitRead (.unitRead hs)))))))

theorem State.Inv.lookRow {s : State} {q : GatherReq} {u : Asker} {row : Nat} {at_ : Option Look} {held : Bool} (hs : s.Inv) :
    (s.lookRow q u row at_ held).1.Inv := by
  unfold State.lookRow
  extract_lets
  split
  · exact .lookBody hs
  split
  rename_i e
  have h1 : State.Inv _ := .of_fst e (.unitRead hs)
  refine .ite_fst h1 (.ite_fst h1 (.ite_fst h1 ?_))
  extract_lets
  split
  rename_i e
  have h2 : State.Inv _ := .of_fst e (.ite_fst (.unitRead h1) h1)
  refine .ite_fst h2 (.ite_fst h2 (.ite_fst h2 (.ite_fst (.lookBody (.forget h2)) (.ite_fst h2 ?_))))
  extract_lets
  split
  rename_i e
  have h3 : State.Inv _ := .of_fst e (.unitRead h2)
  exact .ite_fst h3 (.ite_fst h3 (.ite_fst h3 (.ite_fst (.lookBody (.forget h3)) h3)))

theorem State.Inv.lookedUp {s : State} {q : GatherReq} {b e weight : Nat} {res : LookRes} (hs : s.Inv)
    : (s.lookedUp q b e weight res).Inv := by
  dsimp only [State.lookedUp]
  split
  · exact hs
  · exact .setGather hs
  · exact .endGather hs
  · exact .forget (.setGather hs)
  · exact .forget (.setGather hs)
  · exact .forget (.setGather hs)

theorem State.Inv.entryOf {s : State} {req bag entry : Nat} (hs : s.Inv) : (s.entryOf req bag entry).1.Inv := by
  dsimp only [State.entryOf]
  split
  · exact hs
  · refine .ite_fst hs ?_
    split
    · rename_i e
      exact .of_fst e (.readBag hs)
    · rename_i e
      exact .endGather (.of_fst e (.readBag hs))
    · rename_i e
      split <;> exact .setGather (.of_fst e (.readBag hs))

theorem Out.Inv.execLookup {now req bag entry : Nat} {s : State} (hs : s.Inv) : Out.Inv (execLookup now req bag entry s) := by
  refine .event (now := now) hs fun _ h => ?_
  split
  · rename_i e1
    exact .of_fst e1 (.entryOf h)
  · rename_i e1
    refine .ite (.of_fst e1 (.entryOf h)) ?_
    split
    rename_i e2
    exact .lookedUp (.of_fst e2 (.lookRow (.of_fst e1 (.entryOf h))))

theorem State.Inv.unlockRow {s : State} {row : RowAt} {req : Nat} (hs : s.Inv) : (s.unlockRow row req).Inv := .setEmb hs

theorem Out.Inv.execHeldLookup {now req bag entry : Nat} {s : State} (hs : s.Inv) : Out.Inv (execHeldLookup now req bag entry s)
    := by
  refine .event (now := now) hs fun _ h => ?_
  split
  · rename_i e
    exact .of_fst e (.entryOf h)
  · rename_i e
    dsimp only
    refine .ite (.of_fst e (.entryOf h)) ?_
    refine .ite (.ite (.of_fst e (.entryOf h)) (.setEmb (.of_fst e (.entryOf h)))) ?_
    split
    · exact .lookRow (.ite (.of_fst e (.entryOf h)) (.setEmb (.of_fst e (.entryOf h))))
    · exact .lookedUp (.lookRow (.ite (.of_fst e (.entryOf h)) (.setEmb (.of_fst e (.entryOf h)))))
    · exact .unlockRow (.lookedUp (.bump (.lookRow (.ite (.of_fst e (.entryOf h)) (.setEmb (.of_fst e (.entryOf h)))))))

theorem Out.Inv.execBagWrite {now req bag : Nat} {s : State} (hs : s.Inv) : Out.Inv (execBagWrite now req bag s) := by
  refine .event (now := now) hs fun v h => ?_
  extract_lets u
  have hu : u.Inv := h
  split
  · exact hu
  refine .ite hu ?_
  split
  all_goals
    rename_i e
    have h1 : State.Inv _ := .of_fst e (.readBag hu)
  · exact h1
  · exact .endGather h1
  refine .ite (.settleGather (.setGather h1)) (.ite (.setGather h1) (.ite (.settleGather (.setGather (.setGather h1))) ?_))
  extract_lets
  split
  rename_i e
  split
  rename_i e'
  have h2 : State.Inv _ := .of_fst e' (.unitWrite (.of_snd e (.newReq (.setGather h1))))
  exact .ite (.endGather h2) (.settleGather (.setGather h2))

theorem State.Inv.setMigrateJob {s : State} {j : MigrateJob} (hs : s.Inv) : (s.setMigrateJob j).Inv := .setEmb hs

theorem State.Inv.endJob {s : State} {j : MigrateJob} {status : Byte} {result : List Byte} (hs : s.Inv)
    : (s.endJob j status result).Inv :=
  .finishOrder (.clearFailure (.setEmb (.closeIf hs)))

theorem State.Inv.settleMigrate {s : State} {id : Nat} (hs : s.Inv) : (s.settleMigrate id).Inv := by
  dsimp only [State.settleMigrate]
  split
  · exact hs
  · exact .ite hs (.endJob hs)

theorem State.Inv.markTurn {s : State} {j : MigrateJob} {u : Asker} {c : RowChange} (hs : s.Inv) : (s.markTurn j u c).Inv :=
  .writerTurn (.close hs)

theorem State.Inv.migrateEntry {s : State} {j : MigrateJob} {toHot : Bool} {row slot : Nat} {bad : Bool} (hs : s.Inv) :
    (s.migrateEntry j toHot row slot bad).1.Inv := by
  unfold State.migrateEntry
  extract_lets
  refine .ite_fst hs (.ite_fst hs ?_)
  split
  rename_i e
  have h1 : State.Inv _ := .of_fst e (.readHeads (.claim hs))
  refine .ite_fst h1 (.ite_fst h1 (.ite_fst (.ite_fst (.close h1) (.ite_fst (.close h1) ?_)) ?_))
  · split
    rename_i e
    have h2 : State.Inv _ := .of_fst e (.readHeads h1)
    exact .ite_fst h2 (.ite_fst h2 (.ite_fst (.close h2) (.markTurn h2)))
  · exact .ite_fst (.close h1) (.ite_fst (.markTurn h1) (.close h1))

theorem State.Inv.runEntries {s : State} {j : MigrateJob} {toHot : Bool} {l : List (Nat × Nat × Bool)} (hs : s.Inv) :
    (s.runEntries j toHot l).Inv := by
  induction l generalizing s j with
  | nil => exact .settleMigrate (.setMigrateJob hs)
  | cons x l ih =>
    rw [State.runEntries]
    split
    · rename_i e
      exact .setMigrateJob (.of_fst e (.migrateEntry hs))
    · rename_i e
      exact .endJob (.of_fst e (.migrateEntry hs))
    · rename_i e
      exact ih (.of_fst e (.migrateEntry hs))
    · rename_i e
      exact ih (.setEmb (.of_fst e (.migrateEntry hs)))

theorem State.Inv.runJob {s : State} {id : Nat} (hs : s.Inv) : (s.runJob id).Inv := by
  dsimp only [State.runJob]
  split
  · exact hs
  · exact .runEntries hs

theorem State.Inv.rowMigrate {s : State} {ref : OrderRef} {table : Ptr} {direction : Byte} {count : W32} {list : Ptr}
    {hold : State → State} (hs : s.Inv) (hhold : ∀ u, u.Inv → (hold u).Inv)
    : (s.rowMigrate ref table direction count list hold).Inv :=
  .ite (hhold _ (.unitRead hs)) (.ite (.finishOrder (.forget (.unitRead hs))) (.ite (.finishOrder (.forget (.unitRead hs)))
      (.ite (hhold _ (.unitRead (.unitRead hs))) (.ite (.finishOrder (.forget (.unitRead (.unitRead hs)))) (.runJob (.setEmb
      (.takeId (.forget (.unitRead (.unitRead hs))))))))))

theorem Out.Inv.execRowMigrate {o : Order} {table : Ptr} {direction : Byte} {count : W32} {list : Ptr} {s : State} (hs : s.Inv)
    : Out.Inv (execRowMigrate o table direction count list s) :=
  .next (.orderRequest (fun _ _ h1 => .ite (.finishOrder h1) (.ite (.finishOrder h1) (.rowMigrate h1 (fun _ h2 => .holdArrival
      h2)))) hs)

theorem State.Inv.endMigration {s : State} {idx : Nat} {j : MigrateJob} {m : Migration} {ok : Bool} (hs : s.Inv)
    : (s.endMigration idx j m ok).Inv :=
  .settleMigrate (.setMigrateJob (.setEmb (.close hs)))

theorem State.Inv.setMigration {s : State} {idx : Nat} {m : Migration} (hs : s.Inv) : (s.setMigration idx m).Inv := .setEmb hs

theorem State.Inv.readCopy {s : State} {idx : Nat} {j : MigrateJob} {m : Migration} (hs : s.Inv) : (s.readCopy idx j m).Inv :=
  .ite (.unitRead hs) (.ite (.endJob (.unitRead hs)) (.setMigration (.setMigrateJob (.forget (.unitRead hs)))))

theorem State.Inv.copyTurn {s : State} {idx : Nat} {j : MigrateJob} {m : Migration} (hs : s.Inv) : (s.copyTurn idx j m).Inv := by
  unfold State.copyTurn
  extract_lets
  refine .ite hs ?_
  split
  rename_i e
  have h1 : State.Inv _ := .of_fst e (.readHeads (.claim hs))
  refine .ite h1 (.ite (.endJob h1) (.ite (.endMigration h1) (.ite (.setMigration (.close h1)) (.ite (.endMigration h1) ?_))))
  split
  rename_i e
  exact .setMigration (.writerTurn (.setMigrateJob (.of_snd e (.newReq (.close h1)))))

theorem Out.Inv.execMigrationCopyTurn {now idx : Nat} {s : State} (hs : s.Inv) : Out.Inv (execMigrationCopyTurn now idx s) := by
  refine .event (now := now) hs fun _ h1 => ?_
  dsimp only
  split
  · exact .foldl (fun _ _ h2 => .settleMigrate h2) h1
  · split
    · exact h1
    · split
      · exact .ite h1 (.endMigration (.clearFailure h1))
      · exact .ite (.readCopy h1) (.copyTurn h1)

theorem State.Inv.abortRow {s : State} {a : Arrival} (hs : s.Inv) : (s.abortRow a).Inv := by
  dsimp only [State.abortRow]
  refine .ite hs ?_
  split
  · exact .finishOrder (.close hs)
  · exact .respond (.close hs)

theorem State.Inv.abortEmb {s : State} {cid : Cid} (hs : s.Inv) : (s.abortEmb cid).Inv := by
  unfold State.abortEmb
  extract_lets _ gone held jobs replies emptied _ _ dropped requests rows ended
  have hd : dropped.Inv := .update hs rfl
  have hr : requests.Inv := .foldl (fun _ _ h => .forget (.takeFromIngress (.clearGather (.answerGather h)))) hd
  have hj : ended.Inv := .foldl (fun _ _ h => .finishOrder (.clearFailure (.closeIf h))) (.foldl (fun _ _ h => .abortRow h) hr)
  exact .runGather (.foldl (fun _ _ h => .respond h) hj)

/-! ### Machine/RegionOrders -/

theorem State.Inv.setPools {s : State} {cls : Nat} {t : Tab Pool} (hs : s.Inv) : (s.setPools cls t).Inv := by
  refine .update hs ?_
  unfold State.setPools
  split
  · rfl
  · split <;> rfl

theorem State.Inv.allocate {s t : State} {cls n : Nat} {l : List (Nat × Nat)} (hs : s.Inv) (e : s.allocate cls n = some (l, t))
    :
    t.Inv := by
  unfold State.allocate at e
  dsimp only at e
  split at e
  · cases e
  · cases e
    exact .setPools hs

theorem State.Inv.giveBack {s : State} {cls : Nat} {l : List (Nat × Nat)} (hs : s.Inv) : (s.giveBack cls l).Inv := .setPools hs

theorem State.Inv.setKey {s : State} {slot : Nat} {key : KeySlot} (hs : s.Inv) : (s.setKey slot key).Inv := .update hs rfl

theorem State.Inv.drawKey {s t : State} {k : W32} (hs : s.Inv) (e : s.drawKey = some (k, t)) : t.Inv := by
  unfold State.drawKey at e
  split at e
  · cases e
  · cases e
    exact .setKey (.fresh hs)

theorem State.Inv.destroyKey {s : State} {i : Nat} (hs : s.Inv) : (s.destroyKey i).Inv := .ite hs (.setKey (.modRegion hs))

theorem State.Inv.dropMap {s : State} {chunks : List (Nat × Nat)} (hs : s.Inv) : (s.dropMap chunks).Inv :=
  .foldl (fun _ _ h => .vacate h) hs

theorem State.Inv.freeIndex {s t : State} {i : Nat} (hs : s.Inv) (e : s.freeIndex = some (i, t)) : t.Inv := by
  unfold State.freeIndex at e
  split at e
  · cases e
    exact .update hs rfl
  · split at e
    · cases e
    · cases e
      exact .update hs rfl

theorem State.Inv.takeChunkList {s : State} {n : Nat} (hs : s.Inv) : (s.takeChunkList n).2.Inv := .update hs rfl

theorem State.Inv.forgetVersion {s : State} {i : Nat} (hs : s.Inv) : (s.forgetVersion i).Inv := .update hs rfl

theorem State.Inv.createRegion {s t : State} {size : Nat} {placement redundancy shape : Byte} {group : W32} {i : Nat} (hs :
    s.Inv)
    (e : s.createRegion size placement redundancy shape group = some (i, t)) : t.Inv := by
  obtain ⟨⟨_, u⟩, eu, e⟩ := Option.bind_eq_some_iff.mp e
  obtain ⟨⟨_, v⟩, ev, e⟩ := Option.bind_eq_some_iff.mp e
  have hv : v.Inv := .allocate (.freeIndex hs eu) ev
  dsimp only at e
  split at e
  · obtain ⟨⟨_, w⟩, ew, e⟩ := Option.bind_eq_some_iff.mp e
    cases e
    exact .forgetVersion (.setRegion (.takeChunkList (.drawKey hv ew)))
  · cases e
    exact .forgetVersion (.setRegion (.takeChunkList hv))

theorem Out.Inv.execRegionCreate {o : Order} {size : W64} {placement redundancy shape : Byte} {group : W32} {s : State}
    (hs : s.Inv) : Out.Inv (execRegionCreate o size placement redundancy shape group s) := by
  refine .next (.orderRequest (fun _ _ h => ?_) hs)
  refine .ite (.finishOrder h) ?_
  refine .ite (.finishOrder h) ?_
  refine .ite (.finishOrder h) ?_
  split
  · rename_i e
    exact .finishOrder (.createRegion h e)
  · exact .finishOrder h

theorem State.Inv.namedRegion {ref : OrderRef} {rh : Handle} {k : Nat → State → State} {s : State}
    (hk : ∀ a0 u, u.Inv → (k a0 u).Inv) (hs : s.Inv) : (namedRegion ref rh k s).Inv := by
  dsimp only [Machine.namedRegion]
  split
  · exact .ite (.finishOrder hs) (hk _ _ hs)
  · exact .finishOrder hs

theorem Out.Inv.execRegionAssign {o : Order} {rh : Handle} {rights : Byte} {cid : Cid} {gen : Gen} {s : State} (hs : s.Inv)
    : Out.Inv (execRegionAssign o rh rights cid gen s) := by
  refine .next (.orderRequest (fun _ _ h1 => ?_) hs)
  refine .namedRegion (fun _ _ h2 => ?_) h1
  refine .ite (.finishOrder h2) ?_
  split
  · exact .ite (.finishOrder (.assign h2)) (.finishOrder h2)
  · exact .finishOrder h2

theorem State.Inv.drainNotice {s : State} {i : Nat} (hs : s.Inv) : (s.drainNotice i).Inv := .notice hs

theorem Out.Inv.execRegionRevoke {o : Order} {rh : Handle} {s : State} (hs : s.Inv) : Out.Inv (execRegionRevoke o rh s) := by
  refine .next (.orderRequest (fun _ _ h1 => ?_) hs)
  refine .namedRegion (fun _ _ h2 => ?_) h1
  split
  · exact .finishOrder (.modRegion (.revoke h2))
  · exact .finishOrder h2
  · exact .drainNotice (.finishOrder h2)
  · exact .finishOrder h2

theorem State.Inv.endDrain {s : State} {i : Nat} (hs : s.Inv) : (s.endDrain i).Inv := .drainNotice (.modRegion hs)

theorem Out.Inv.execHandoffTransferDone {now obj : Nat} {s : State} (hs : s.Inv) : Out.Inv (execHandoffTransferDone now obj s)
    := by
  refine .event (now := now) hs fun _ h1 => ?_
  dsimp only
  refine .ite h1 ?_
  refine .ite (.foldl (fun _ _ h2 => .ite (.recallRegion h2) h2) h1) ?_
  split
  · exact .foldl (fun _ _ h3 => .ite (.recallRegion h3) h3) h1
  · exact .sendDone (.sendDone (.putObject (.foldl (fun _ _ h4 => .ite (.assign h4) h4) (.foldl (fun _ _ h5 => .ite (.endDrain
        h5) h5) (.foldl (fun _ _ h6 => .ite (.recallRegion h6) h6) h1)))))

theorem State.Inv.stopRebuild {s : State} {i : Nat} (hs : s.Inv) : (s.stopRebuild i).Inv :=
  .ite hs (.ite hs (.setGroup (.dropCopies hs)))

theorem State.Inv.startRelease {s : State} {i : Nat} {ref : Option OrderRef} (hs : s.Inv) : (s.startRelease i ref).Inv :=
  .modRegion (.stopRebuild (.wipeRegion (.ite (.dropMap (.destroyKey hs)) (.destroyKey hs))))

theorem Out.Inv.execRegionRelease {o : Order} {rh : Handle} {s : State} (hs : s.Inv) : Out.Inv (execRegionRelease o rh s) :=
  .next (.orderRequest (fun _ _ h1 => .namedRegion (fun _ _ h2 => .ite (.finishOrder h2) (.startRelease h2)) h1) hs)

theorem Out.Inv.execReleaseZeroingDone {now region : Nat} {s : State} (hs : s.Inv)
    : Out.Inv (execReleaseZeroingDone now region s) := by
  refine .event (now := now) hs fun _ h => ?_
  dsimp only
  refine .ite h ?_
  split
  · exact .finishOrder (.update (.giveBack h) rfl)
  · exact .update (.giveBack h) rfl

theorem Out.Inv.execRegionRetier {o : Order} {rh : Handle} {placement : Byte} {s : State} (hs : s.Inv) :
    Out.Inv (execRegionRetier o rh placement s) := by
  refine .next (.orderRequest (fun _ _ h1 => .namedRegion (fun _ _ h2 => ?_) h1) hs)
  refine .ite (.finishOrder h2) (.ite (.finishOrder h2) ?_)
  split
  · exact .finishOrder h2
  · rename_i e
    have h3 : State.Inv _ := .allocate h2 e
    split
    · exact .finishOrder h2
    · rename_i e
      refine .modRegion ?_
      split at e
      · exact .drawKey h3 e
      · cases e
        exact h3

theorem State.Inv.loseLine {s : State} {i line : Nat} (hs : s.Inv) : (s.loseLine i line).Inv :=
  .setPoison (.writeBytes (.fresh hs))

theorem State.Inv.liftSectors {s : State} {i : Nat} (hs : s.Inv) : (s.liftSectors i).Inv := by
  dsimp only [State.liftSectors]
  refine .foldl (fun _ _ h1 => ?_) hs
  split
  · exact .fillSector h1
  · exact .foldl (fun _ _ h2 => .loseLine h2) h1

theorem Out.Inv.execRetierCopyDone {now region : Nat} {s : State} (hs : s.Inv) : Out.Inv (execRetierCopyDone now region s) := by
  refine .next (.serving hs fun v h => ?_)
  extract_lets u r lifted unmapped given
  have hu : u.Inv := .advanceTo h
  have h1 : lifted.Inv := .destroyKey (.ite (.liftSectors hu) hu)
  have h2 : unmapped.Inv := .ite (.dropMap h1) h1
  refine .ite hu ?_
  split
  rename_i first taken e
  extract_lets _ unlisted moved written
  have h3 : unlisted.Inv := .update (.of_snd e (.takeChunkList (.giveBack h2))) rfl
  have h4 : written.Inv := .ite (.foldl (fun _ _ h5 => .dropCopy (.programSector (.setSector h5))) (.modRegion h3)) (.modRegion
      h3)
  split
  · exact .finishOrder h4
  · exact h4

/-! ### Machine/Rebuild -/

theorem State.Inv.memberLine {s : State} {g : Group} {u : Asker} {p line : Nat} (hs : s.Inv)
    : (s.memberLine g u p line).1.Inv := by
  dsimp only [State.memberLine]
  split
  · exact .unitRead hs
  · exact hs

theorem State.Inv.memberLines {s : State} {g : Group} {u : Asker} {line : Nat} {ps : List Nat} (hs : s.Inv)
    : (s.memberLines g u line ps).1.Inv :=
  .foldl_fst (fun _ _ h => .memberLine h) hs

theorem State.Inv.rebuiltLine {s : State} {region line : Nat} (hs : s.Inv) : (s.rebuiltLine region line).1.Inv := by
  dsimp only [State.rebuiltLine]
  refine .ite_fst hs ?_
  split
  · exact hs
  · exact .memberLines hs

theorem State.Inv.mendLine {s : State} {region line : Nat} {v : Option (List Byte)} {received : List Byte} {bit : Bool}
    (hs : s.Inv) : (s.mendLine region line v received bit).Inv := by
  dsimp only [State.mendLine]
  split <;> exact .setPoison (.writeBytes (.forget hs))

theorem State.Inv.rebuiltLines {s : State} {region : Nat} {l : List Nat} (hs : s.Inv) : (s.rebuiltLines region l).1.Inv := by
  induction l generalizing s with
  | nil => exact hs
  | cons line l ih => exact ih (.rebuiltLine hs)

theorem State.Inv.mendSector {s : State} {region sector : Nat} (hs : s.Inv) : (s.mendSector region sector).1.Inv := by
  dsimp only [State.mendSector]
  split
  · rename_i e
    exact .of_fst e (.rebuiltLines hs)
  · rename_i e
    exact .foldl (fun _ _ h => .mendLine (.fresh h)) (.of_fst e (.rebuiltLines hs))

theorem State.Inv.countFlashRead {s : State} {region sector retries : Nat} {soft bad : Bool} (hs : s.Inv)
    : (s.countFlashRead region sector retries soft bad).Inv :=
  .ite (.setNandBlock (.ite (.bump (.bumpBy hs)) (.bumpBy hs))) (.ite (.bump (.bumpBy hs)) (.bumpBy hs))

/-! ### Machine/SearchIndex -/

theorem State.Inv.setIndex {s : State} {i : Nat} {a : Attached} (hs : s.Inv) : (s.setIndex i a).Inv := .update hs rfl

theorem State.Inv.kick {s : State} {u : Asker} {x : Stop} (hs : s.Inv) : (s.kick u x).1.Inv := by
  unfold State.kick
  split
  · exact .unitRead hs
  · dsimp only
    refine .foldl (fun _ _ h => ?_) hs
    exact .needHome h
  · exact hs
  · exact hs

theorem State.Inv.reading {α : Type} {s : State} {u : Asker} {body : State → Except Stop α} {n : Nat} (hs : s.Inv) :
    (s.reading u body n).1.Inv := by
  induction n generalizing s with
  | zero => exact hs
  | succ n ih =>
    rw [State.reading]
    split
    · split
      · rename_i e
        exact ih (.of_fst e (.kick hs))
      · rename_i e
        exact .of_fst e (.kick hs)
    · exact hs

/-! ### Machine/Search -/

theorem State.Inv.modIndex {s : State} {i : Nat} {f : Attached → Attached} (hs : s.Inv) : (s.modIndex i f).Inv := .setIndex hs

theorem State.Inv.placeSearch {s : State} {cs : List Nat} {p : Nat} (hs : s.Inv) : (s.placeSearch cs p).Inv :=
  .foldl (fun _ _ h1 => .setCluster (.activate (.setProgram (.foldl (fun _ _ h2 => .clearShare h2) h1)))) hs

theorem State.Inv.wakeMerge {s : State} {i : Nat} (hs : s.Inv) : (s.wakeMerge i).Inv := by
  dsimp only [State.wakeMerge]
  refine .ite hs ?_
  split
  · rename_i e
    exact .modIndex (.forget (.of_fst e (.reading hs)))
  · rename_i e
    exact .of_fst e (.reading hs)

theorem State.Inv.resumeMerge {s : State} {i : Nat} (hs : s.Inv) : (s.resumeMerge i).Inv :=
  .ite (.wakeMerge (.modIndex (.forget hs))) hs

theorem State.Inv.resumeMerges {s : State} {cid : Cid} (hs : s.Inv) : (s.resumeMerges cid).Inv :=
  .foldl (fun _ _ h => .ite (.resumeMerge h) h) hs

theorem State.Inv.doAttach {s : State} {ref : OrderRef} {mask : W64} {frameCid : Cid} {desc : Ptr} {p : Nat} (hs : s.Inv) :
    (s.doAttach ref mask frameCid desc p).Inv := by
  unfold State.doAttach
  extract_lets hold ends
  have ended : ∀ {t st}, t.Inv → (ends t st).Inv := fun h => .finishOrder (.forget h)
  refine .onProgram hs (fun cid u h => .ite (ended h) ?_)
  split
  · exact ended h
  split
  rename_i e
  have h1 : State.Inv _ := .of_fst e (.unitRead h)
  refine .ite (.holdArrival h1) (.ite (ended h1) (.ite (ended h1) ?_))
  extract_lets
  split
  rename_i e
  have h2 : State.Inv _ := .of_fst e (.ite_fst (.unitRead h1) h1)
  refine .ite (.holdArrival h2) (.ite (ended h2) (.ite (ended h2) ?_))
  split
  rename_i e
  have h3 : State.Inv _ := .of_fst e (.reserveProgram h2)
  exact .ite (ended h3) (.finishOrder (.resumeMerge (.setIndex (.placeSearch (.forget h3)))))

theorem State.Inv.restartSearch {s : State} {i : Nat} (hs : s.Inv) : (s.restartSearch i).Inv := .ite (.startProgram hs) hs

theorem State.Inv.unserve {s : State} {i : Nat} (hs : s.Inv) : (s.unserve i).Inv :=
  .foldl (fun _ _ h => .ite h (.setCluster h)) hs

theorem State.Inv.answerSearch {s : State} {q : SearchReq} {status : Byte} {snap done : Nat} (hs : s.Inv)
    : (s.answerSearch q status snap done).Inv :=
  .respond hs

theorem State.Inv.forgetIndex {s : State} {i : Nat} (hs : s.Inv) : (s.forgetIndex i).Inv := .forgetIf hs

theorem State.Inv.settleDetach {s : State} {i : Nat} (hs : s.Inv) : (s.settleDetach i).Inv := by
  dsimp only [State.settleDetach]
  split
  · exact hs
  · exact .ite hs (.beginUnload (.setIndex (.forgetIndex (.unserve (.foldl (fun _ _ h => .takeFromIngress (.answerSearch h))
        hs)))))

theorem Out.Inv.execSearchDetach {o : Order} {desc : Ptr} {s : State} (hs : s.Inv) : Out.Inv (execSearchDetach o desc s) := by
  refine .next (.orderRequest (fun _ _ h => ?_) hs)
  split
  · exact .finishOrder h
  · exact .ite (.finishOrder h) (.settleDetach (.modIndex h))

theorem State.Inv.detachAll {s : State} {p : Attached → Bool} (hs : s.Inv) : (s.detachAll p).Inv := by
  dsimp only [State.detachAll]
  refine .foldl (fun _ _ h => ?_) hs
  refine .ite ?_ h
  refine .setIndex ?_
  refine .forgetIndex ?_
  refine .unserve ?_
  split
  · exact .finishOrder h
  · exact h

theorem State.Inv.abortHeldSearches {s : State} {i : Nat} (hs : s.Inv) : (s.abortHeldSearches i).Inv :=
  .foldl (fun _ _ h => .respond (.forget h)) (.setArrivals hs)

theorem State.Inv.abortSearches {s : State} {all : Bool} {p : Attached → Bool} (hs : s.Inv) : (s.abortSearches all p).Inv := by
  refine .foldl (fun u i h => ?_) hs
  extract_lets a forgotten emptied batches searches
  have he : emptied.Inv := .setIndex (.forgetIndex (.ite (.abortHeldSearches h) h))
  have hb : batches.Inv := .foldl (fun _ _ h => .foldl (fun _ _ h => .answerSearch h) h) he
  exact .ite (.settleDetach (.foldl (fun _ _ h => .takeFromIngress (.answerSearch h)) hb)) h

theorem State.Inv.indexListFull {s : State} {a : Attached} {x : TailRec} (hs : s.Inv) : (s.indexListFull a x).Inv := .notice hs

theorem State.Inv.mergePart {s : State} {i : Nat} (hs : s.Inv) : (s.mergePart i).Inv := by
  dsimp only [State.mergePart]
  refine .ite hs ?_
  split
  · rename_i e
    exact .of_fst e (.reading hs)
  · rename_i e
    split
    · exact .indexListFull (.setIndex (.foldl (fun _ _ h2 => .unitWrite h2) (.clearFailure (.takeId (.forget (.of_fst e
          (.reading hs)))))))
    · exact .setIndex (.foldl (fun _ _ h1 => .unitWrite h1) (.clearFailure (.takeId (.forget (.of_fst e (.reading hs))))))

theorem State.Inv.mergeParts {s : State} {i lo hi n : Nat} (hs : s.Inv) : (s.mergeParts i lo hi n).Inv := by
  induction n generalizing s with
  | zero => exact hs
  | succ n ih => exact .ite (ih (.mergePart hs)) hs

theorem State.Inv.mergeDue {s : State} {i : Nat} (hs : s.Inv) : (s.mergeDue i).Inv := by
  dsimp only [State.mergeDue]
  refine .ite hs ?_
  split
  · rename_i e
    exact .ite (.modIndex (.forget (.of_fst e (.reading hs)))) (.forget (.of_fst e (.reading hs)))
  · rename_i e
    exact .of_fst e (.reading hs)

theorem State.Inv.refillIndex {s : State} {i : Nat} (hs : s.Inv) : (s.refillIndex i).Inv :=
  .foldl (fun _ _ h => .takeFromIngress h) (.setIndex hs)

theorem State.Inv.search {s : State} {h : Hdr} {index query : Ptr} {nq : W32} {k probes : BitVec 16} {pred result : Ptr}
    {flags : Byte} {hold : State → State} (hs : s.Inv) (hhold : ∀ u, u.Inv → (hold u).Inv) :
    (s.search h index query nq k probes pred result flags hold).Inv := by
  unfold State.search
  extract_lets
  split
  · exact .respond (.forget hs)
  extract_lets
  split
  rename_i e
  have h1 : State.Inv _ := .of_fst e (.ite_fst hs (.unitRead hs))
  extract_lets _ t
  have h2 : t.Inv := .ite h1 (.forget h1)
  refine .ite (hhold _ h2) (.ite (.respond h2) (.ite (.respond h2) (.ite (.respond h2) ?_)))
  split
  rename_i e
  have h3 : State.Inv _ := .of_snd e (.takeId (.restartSearch h2))
  exact .ite (.leaveAtIngress (.modIndex h3)) (.modIndex h3)

theorem State.Inv.failBatch {s : State} {l : List SearchReq} {st : Byte} (hs : s.Inv) : (s.failBatch l st).Inv :=
  .foldl (fun _ _ h => .answerSearch h) hs

theorem State.Inv.failRequests {s : State} {i k : Nat} {b : Batch} {bad : List (Nat × Byte)} (hs : s.Inv)
    : (s.failRequests i k b bad).Inv :=
  .modIndex (.foldl (fun _ _ h => .answerSearch h) hs)

theorem State.Inv.startBatch {s : State} {i : Nat} {sel rest : List SearchReq} (hs : s.Inv) : (s.startBatch i sel rest).Inv :=
    by
  dsimp only [State.startBatch]
  split
  · rename_i e
    exact .settleDetach (.refillIndex (.modIndex (.forget (.failBatch (.of_fst e (.reading (.restartSearch hs)))))))
  · rename_i e
    exact .of_fst e (.reading (.restartSearch hs))
  · rename_i e
    exact .ite (.modIndex (.refillIndex (.modIndex (.forget (.of_fst e (.reading (.restartSearch hs))))))) (.settleDetach
        (.failRequests (.modIndex (.refillIndex (.modIndex (.forget (.of_fst e (.reading (.restartSearch hs)))))))))

theorem Out.Inv.execSearchBatch {now index : Nat} {s : State} (hs : s.Inv) : Out.Inv (execSearchBatch now index s) := by
  refine .event (now := now) hs fun _ h => ?_
  dsimp only
  refine .ite h ?_
  split
  · exact h
  · exact .ite (.startBatch h) h

theorem State.Inv.countVisit {s : State} {e : DirList} {granules : List Bool} (hs : s.Inv) : (s.countVisit e granules).Inv :=
  .foldl (fun _ _ h1 => .ite (.bump h1) h1) (.foldl (fun _ _ h2 => .bump h2) hs)

theorem State.Inv.mendGranules {s : State} {a : Attached} {e : DirList} {n : Nat} {bad : List Nat} (hs : s.Inv)
    : (s.mendGranules a e n bad).1.Inv := by
  dsimp only [State.mendGranules]
  refine .ite_fst hs ?_
  refine .foldl_fst (fun _ _ h => ?_) hs
  refine .ite_fst ?_ h
  split
  · rename_i e4
    exact .dropCopy (.programSector (.bumpAlert (.of_fst e4 (.mendSector h))))
  · rename_i e4
    exact .of_fst e4 (.mendSector h)

theorem Out.Inv.execLensVisit {now index : Nat} {bad : List Nat} {s : State} (hs : s.Inv)
    : Out.Inv (execLensVisit now index bad s) := by
  refine .event (now := now) hs fun v h => ?_
  extract_lets u a w
  have hu : u.Inv := h
  refine .ite hu ?_
  split
  · exact hu
  rename_i b k _
  have ends : ∀ {t : State} {l}, t.Inv → (((t.forget w).failRequests index k b l).settleDetach index).Inv :=
    fun h => .settleDetach (.failRequests (.forget h))
  extract_lets
  split
  · extract_lets
    split
    all_goals
      rename_i e
      have h1 : State.Inv _ := .of_fst e (.reading hu)
    · exact ends h1
    · exact h1
    split
    all_goals
      rename_i e
      have h2 : State.Inv _ := .of_fst e (.mendGranules h1)
    · exact h2
    split
    all_goals
      rename_i e
      have h3 : State.Inv _ := .of_fst e (.reading h2)
    · exact .setIndex (.countVisit (.forget h3))
    · exact ends h3
    · exact h3
  · split
    all_goals
      rename_i e
      have h1 : State.Inv _ := .of_fst e (.reading hu)
    · exact .setIndex (.forget h1)
    · exact ends h1
    · exact h1

theorem State.Inv.putResult {s : State} {a : Attached} {e : Ranked} {off : Nat} {l : List Byte} {taint : List Nat} (hs : s.Inv)
    : (s.putResult a e off l taint).1.Inv :=
  .unitWrite hs

theorem State.Inv.probeResults {s : State} {a : Attached} {l : List Ranked} (hs : s.Inv) : (s.probeResults a l).Inv :=
  .foldl (fun _ _ h => .ite h (.putResult h)) hs

theorem State.Inv.writeResults {s : State} {a : Attached} {l : List Ranked} {reqs : List SearchReq} (hs : s.Inv)
    : (s.writeResults a l reqs).1.Inv :=
  .foldl_fst (fun _ _ h => .ite_fst h (.putResult h)) hs

theorem State.Inv.settleBatch {s : State} {i k : Nat} (hs : s.Inv) : (s.settleBatch i k).Inv := by
  dsimp only [State.settleBatch]
  split
  · exact hs
  · exact .ite hs (.settleDetach (.modIndex (.foldl (fun _ _ h => .clearFailure (.answerSearch h)) hs)))

theorem Out.Inv.execSearchResults {now index : Nat} {s : State} (hs : s.Inv) : Out.Inv (execSearchResults now index s) := by
  refine .event (now := now) hs fun _ h => ?_
  dsimp only
  refine .ite h ?_
  split
  · exact h
  · refine .ite (.settleBatch h) ?_
    refine .ite h ?_
    split
    · rename_i e
      exact .of_fst e (.reading h)
    · rename_i e
      exact .settleDetach (.failRequests (.forget (.of_fst e (.reading h))))
    · rename_i e
      exact .ite (.modIndex (.probeResults (.of_fst e (.reading h)))) (.settleBatch (.modIndex (.writeResults (.forget (.of_fst
          e (.reading h))))))

/-! ### Machine/Resets -/

theorem State.Inv.resetThread {s : State} {core p k : Nat} (hs : s.Inv) : (s.resetThread core p k).Inv :=
  .setCtx (.haltThread (.dropHeld hs))

theorem State.Inv.resetCore {s : State} {core : Nat} (hs : s.Inv) : (s.resetCore core).Inv :=
  .foldl (fun _ _ h => .resetThread h) hs

theorem State.Inv.resetDone {s : State} {op : GridOp} {cause : Nat} {mask : W64} {halted : Nat} {cids : List Cid} (hs : s.Inv)
    : (s.resetDone op cause mask halted cids).Inv := by
  dsimp only [State.resetDone]
  split
  · exact .notice hs
  · exact hs

theorem State.Inv.applyReset {s : State} {d : Deferred} (hs : s.Inv) : (s.applyReset d).Inv := by
  dsimp only [State.applyReset]
  refine .resetDone ?_
  split
  · refine .finishOrder ?_
    refine .foldl (fun _ _ h2 => .ite (.resumeMerge h2) h2) ?_
    refine .abortSearches ?_
    split
    · exact .bump (.foldl (fun _ _ h5 => .resetCore h5) hs)
    · exact .foldl (fun _ _ h4 => .resetCore h4) hs
  · refine .foldl (fun _ _ h1 => .ite (.resumeMerge h1) h1) ?_
    refine .abortSearches ?_
    split
    · exact .bump (.foldl (fun _ _ h4 => .resetCore h4) hs)
    · exact .foldl (fun _ _ h3 => .resetCore h3) hs

theorem State.Inv.runDeferred {s : State} {d : Deferred} (hs : s.Inv) : (s.runDeferred d).Inv := by
  dsimp only [State.runDeferred]
  split
  · exact .applyReset hs
  · exact .doAssign hs
  · exact .doRelease hs
  · exact .doLoad hs
  · exact .doStart hs
  · exact .doSwitch hs
  · exact .doUnload hs
  · exact .doAttach hs
  · exact hs

theorem State.Inv.go {s : State} {n : Nat} (hs : s.Inv) : (State.settleDeferred.go n s).Inv := by
  induction n generalizing s with
  | zero => exact hs
  | succ n ih =>
    rw [State.settleDeferred.go]
    split
    · exact hs
    · exact ih (.runDeferred (.update hs rfl))

theorem State.Inv.settleDeferred {s : State} (hs : s.Inv) : s.settleDeferred.Inv := .go hs

theorem Out.Inv.execReset {o : Order} {scope x y partition : Byte} {mask : W64} {s : State} (hs : s.Inv)
    : Out.Inv (execReset o scope x y partition mask s) := by
  refine .next (.orderRequest (fun _ _ h => ?_) hs)
  split
  · exact .finishOrder h
  · exact .ite (.finishOrder h) (.ite (.finishOrder h) (.settleDeferred (.defer h)))

theorem Out.Inv.execCoreError {now core : Nat} {place : CoreErrorWhere} {s : State} (hs : s.Inv)
    : Out.Inv (execCoreError now core place s) := by
  refine .next ?_
  dsimp only
  refine .ite (.advanceTo hs) ?_
  split
  · exact .settleDeferred (.defer (.bumpAlert (.advanceTo hs)))
  · exact .settleDeferred (.defer (.bumpAlert (.advanceTo hs)))
  · exact .settleDeferred (.defer (.bumpAlert (.advanceTo hs)))
  · exact .setCore (.bumpAlert (.advanceTo hs))
  · exact .setCore (.bumpAlert (.advanceTo hs))
  · exact .setCore (.bumpAlert (.advanceTo hs))
  · exact .setCore (.bumpAlert (.advanceTo hs))

/-! ### Machine/Checkpoint -/

theorem State.Inv.setCkpt {s : State} {c : Ckpt} (hs : s.Inv) : (s.setCkpt c).Inv := .update hs rfl

theorem State.Inv.setCkptReq {s : State} {q : CkptReq} (hs : s.Inv) : (s.setCkptReq q).Inv := .setCkpt hs

theorem State.Inv.handOut {s : State} {n : Nat} (hs : s.Inv) : (s.handOut n).Inv := by
  induction n generalizing s with
  | zero => exact hs
  | succ n ih =>
    rw [State.handOut]
    split
    · exact hs
    · split
      · exact ih (.setCkpt (.setCkptReq hs))
      · split
        · exact ih (.setCkpt hs)
        · exact hs

theorem State.Inv.refillCkpt {s : State} (hs : s.Inv) : s.refillCkpt.Inv :=
  .foldl (fun _ _ h => .takeFromIngress h) (.setCkpt hs)

theorem State.Inv.runRoasters {s : State} (hs : s.Inv) : s.runRoasters.Inv := .handOut (.refillCkpt (.handOut hs))

theorem State.Inv.answerCkpt {s : State} {q : CkptReq} {st : Byte} {n : Nat} (hs : s.Inv) : (s.answerCkpt q st n).Inv :=
  .ite (.respondV1 hs) (.respond hs)

theorem State.Inv.forgetCkpt {s : State} {id : Nat} (hs : s.Inv) : (s.forgetCkpt id).Inv := .forgetIf hs

theorem State.Inv.endCkpt {s : State} {q : CkptReq} {st : Byte} {n : Nat} (hs : s.Inv) : (s.endCkpt q st n).Inv :=
  .runRoasters (.setCkpt (.forgetCkpt (.clearFailure (.answerCkpt hs))))

theorem State.Inv.acceptCkpt {s : State} {q : CkptReq} (hs : s.Inv) : (s.acceptCkpt q).Inv :=
  .ite (.runRoasters (.setCkpt (.takeId hs))) (.runRoasters (.leaveAtIngress (.setCkpt (.takeId hs))))

theorem State.Inv.readStream {s : State} {h : Hdr} {v1 : Bool} {src : Ptr} {srcLen : Nat} {dst : Ptr} {dstCap : Nat}
    (hs : s.Inv) : (s.readStream h v1 src srcLen dst dstCap).1.Inv :=
  .ite_fst (.unitRead hs) (.ite_fst (.unitRead hs) (.ite_fst (.unitRead hs) (.ite_fst (.unitRead hs) (.unitRead (.unitRead
      hs)))))

theorem State.Inv.restore {s : State} {h : Hdr} {v1 : Bool} {src : Ptr} {srcLen : Nat} {dst : Ptr} {dstCap : Nat} (hs : s.Inv)
    : (s.restore h v1 src srcLen dst dstCap).Inv := by
  dsimp only [State.restore]
  split
  · rename_i e
    exact .holdArrival (.of_fst e (.readStream hs))
  · rename_i e
    exact .answerCkpt (.forget (.of_fst e (.readStream hs)))
  · rename_i e
    exact .acceptCkpt (.forget (.of_fst e (.readStream hs)))

theorem State.Inv.freeGroup {s : State} {id g : Nat} (hs : s.Inv) : (s.freeGroup id g).Inv := .setCkpt hs

theorem State.Inv.ckptWrite {s : State} {q : CkptReq} {off : Nat} {data : List Byte} {taint : List Nat} (hs : s.Inv)
    : (s.ckptWrite q off data taint).1.Inv :=
  .unitWrite hs

theorem State.Inv.settleCkpt {s : State} {id : Nat} (hs : s.Inv) : (s.settleCkpt id).Inv := by
  dsimp only [State.settleCkpt]
  split
  · exact hs
  · split
    · exact .endCkpt hs
    · refine .ite hs ?_
      refine .ite (.endCkpt hs) ?_
      refine .ite (.endCkpt hs) ?_
      refine .ite (.endCkpt (.ckptWrite hs)) ?_
      refine .ite (.setCkptReq (.ckptWrite hs)) ?_
      split <;> exact .endCkpt (.ckptWrite hs)

theorem Out.Inv.execCuppingPassEnd {now req group : Nat} {s : State} (hs : s.Inv) : Out.Inv (execCuppingPassEnd now req group s)
    := by
  refine .next (.serving hs fun v h => ?_)
  extract_lets u
  have hu : u.Inv := .advanceTo h
  split
  · refine .ite hu (.ite (.settleCkpt hu) ?_)
    extract_lets n
    split
    rename_i e
    have h1 : State.Inv _ := .of_fst e (.unitRead hu)
    refine .ite h1 (.ite (.endCkpt h1) ?_)
    extract_lets blocks
    split
    extract_lets q'
    split
    extract_lets t w
    have hw : w.1.Inv := .foldl_fst (fun _ _ h2 => .ite_fst h2 (.ckptWrite h2)) (.setCkptReq (.forget h1))
    exact .ite (.endCkpt hw) (.settleCkpt (.runRoasters hw))
  · exact hu

theorem Out.Inv.execGroupWriteDone {now req group : Nat} {s : State} (hs : s.Inv) : Out.Inv (execGroupWriteDone now req group s)
    := by
  refine .event (now := now) hs fun _ h => ?_
  dsimp only
  split
  · exact h
  · exact .ite (.settleCkpt h) (.ite (.endCkpt (.ckptWrite h)) (.settleCkpt (.runRoasters (.bump (.freeGroup (.setCkptReq
        (.ckptWrite h)))))))

theorem State.Inv.restoreBlock {s : State} {q : CkptReq} {k b : Nat} {x : Restored} (hs : s.Inv)
    : (s.restoreBlock q k b x).1.Inv := by
  dsimp only [State.restoreBlock]
  split
  · exact .ckptWrite hs
  · exact .ckptWrite hs
  · exact .ckptWrite (.bump hs)

theorem Out.Inv.execRestoreGroup {now req group : Nat} {s : State} (hs : s.Inv) : Out.Inv (execRestoreGroup now req group s) := by
  refine .event (now := now) hs fun v h => ?_
  extract_lets u
  have hu : u.Inv := h
  split
  · exact hu
  split
  · exact .settleCkpt hu
  refine .ite hu (.ite (.settleCkpt hu) ?_)
  extract_lets
  split
  rename_i e
  have h1 : State.Inv _ := .of_fst e (.unitRead hu)
  refine .ite h1 (.ite (.endCkpt h1) ?_)
  extract_lets _ w
  have hw : w.1.Inv := .foldl_fst (fun _ _ h => .ite_fst h (.restoreBlock h)) (.forget h1)
  exact .ite (.endCkpt hw) (.settleCkpt (.runRoasters (.bump (.freeGroup (.setCkptReq hw)))))

theorem State.Inv.abortCkpt {s : State} {cid : Cid} (hs : s.Inv) : (s.abortCkpt cid).Inv :=
  .runRoasters (.foldl (fun _ _ h1 => .takeFromIngress (.forgetCkpt (.clearFailure (.answerCkpt h1)))) (.foldl (fun _ _ h2 =>
      .answerCkpt (.forget h2)) (.update hs rfl)))

/-! ### Machine/Sidereal -/

theorem State.Inv.setSky {s : State} {k : Sky} (hs : s.Inv) : (s.setSky k).Inv := .update hs rfl

theorem State.Inv.loseLock {s : State} {cause : Nat} (hs : s.Inv) : (s.loseLock cause).Inv := .bumpAlert (.setSky (.notice hs))

theorem State.Inv.tickLinks {s : State} (hs : s.Inv) : s.tickLinks.Inv := .ite (.loseLock hs) hs

theorem State.Inv.setOrbit {s : State} {o : Nat} {x : Orbit} (hs : s.Inv) : (s.setOrbit o x).Inv := .setSky hs

theorem State.Inv.countLate {s : State} {orbit : Nat} {cid : Cid} (hs : s.Inv) : (s.countLate orbit cid).Inv := by
  dsimp only [State.countLate]
  split
  · exact .bump (.setOrbit hs)
  · exact .setOrbit hs

theorem State.Inv.countSkipped {s : State} {cid : Cid} (hs : s.Inv) : (s.countSkipped cid).Inv := by
  dsimp only [State.countSkipped]
  split
  · exact .bump hs
  · exact hs

theorem State.Inv.dropOrbits {s : State} {cid : Cid} (hs : s.Inv) : (s.dropOrbits cid).Inv := .setSky hs

/-! ### Machine/Links -/

theorem Out.Inv.execXoffRefresh {now port sub pcp : Nat} {s : State} (hs : s.Inv) : Out.Inv (execXoffRefresh now port sub pcp s)
    := by
  refine .next ?_
  dsimp only
  split
  · exact .advanceTo hs
  · exact .ite (.advanceTo hs) (.ite (.queueAt (.modSub (.flowPcp (.advanceTo hs)))) (.flowPcp (.advanceTo hs)))

theorem State.Inv.resumePcp {s : State} {k pcp : Nat} (hs : s.Inv) : (s.resumePcp k pcp).Inv := by
  dsimp only [State.resumePcp]
  split
  · exact hs
  · exact .bumpBy (.modHop (.modSub hs))

theorem State.Inv.pausePcp {s : State} {k pcp quanta : Nat} (hs : s.Inv) : (s.pausePcp k pcp quanta).Inv :=
  .ite (.resumePcp hs) (.modSub hs)

theorem Out.Inv.execPfcFrame {now port sub : Nat} {enable : Byte} {quanta : List Nat} {s : State} (hs : s.Inv)
    : Out.Inv (execPfcFrame now port sub enable quanta s) :=
  .next (.ite hs (.ite (.advanceTo hs) (.foldl (fun _ _ h => .pausePcp h) (.ite (.bump (.advanceTo hs)) (.advanceTo hs)))))

theorem Out.Inv.execPauseExpiry {now port sub pcp : Nat} {s : State} (hs : s.Inv) : Out.Inv (execPauseExpiry now port sub pcp s)
    := by
  refine .next ?_
  dsimp only
  split
  · exact .ite (.resumePcp (.advanceTo hs)) (.advanceTo hs)
  · exact .advanceTo hs

theorem State.Inv.newEpoch {s : State} (hs : s.Inv) : (s.newEpoch).2.Inv := .update hs rfl

theorem State.Inv.quietSub {s : State} {k : Nat} (hs : s.Inv) : (s.quietSub k).Inv :=
  .linkDiscards (.modSub (.foldl (fun _ _ h1 => .uncharge h1) (.foldl (fun _ _ h2 => .resumePcp h2) hs)))

theorem State.Inv.retrain {s : State} {k cause : Nat} (hs : s.Inv) : (s.retrain k cause).Inv :=
  .ite hs (.tickLinks (.bump (.modSub (.quietSub (.modSub hs)))))

theorem State.Inv.installManagers {s : State} {port sub : Nat} (hs : s.Inv) : (s.installManagers port sub).Inv :=
  .foldl (fun _ _ h => .ite h (.update h rfl)) hs

theorem State.Inv.countCalibs {s : State} (hs : s.Inv) : s.countCalibs.Inv := .update hs rfl

theorem State.Inv.endStep10 {s : State} (hs : s.Inv) : s.endStep10.Inv :=
  .ite hs (.foldl (fun _ _ h => .ite (.installManagers h) h) (.countCalibs (.update hs rfl)))

theorem State.Inv.portUpNotice {s : State} {k : Nat} (hs : s.Inv) : (s.portUpNotice k).Inv := .notice hs

theorem State.Inv.resyncFrames {s : State} {k : Nat} (hs : s.Inv) : (s.resyncFrames k).Inv :=
  .ite hs (.foldl (fun _ _ h => .modSub (.ite (.modHop (.newEpoch h)) h)) hs)

theorem Out.Inv.execLinkUp {now port sub : Nat} {speed : Byte} {partner : Aid} {s : State} (hs : s.Inv) :
    Out.Inv (execLinkUp now port sub speed partner s) := by
  unfold Machine.execLinkUp
  extract_lets u k p counted up resynced settled
  have hu : u.Inv := .advanceTo hs
  have h1 : resynced.Inv := .resyncFrames (.setSub (.ite (.bump hu) hu))
  have h2 : settled.Inv := .ite (.endStep10 h1) (.installManagers h1)
  exact .next (.ite hu (.ite (.portUpNotice h2) h2))

theorem Out.Inv.execPfcWatchdog {now port sub pcp : Nat} {s : State} (hs : s.Inv) : Out.Inv (execPfcWatchdog now port sub pcp s)
    := by
  refine .next ?_
  dsimp only
  split
  · exact .ite (.retrain (.advanceTo hs)) (.advanceTo hs)
  · exact .advanceTo hs

theorem State.Inv.failOver {s : State} {k : Nat} (hs : s.Inv) : (s.failOver k).Inv := .update hs rfl

theorem State.Inv.dropHops {s : State} {k : Nat} (hs : s.Inv) : (s.dropHops k).Inv :=
  .flowControl (.linkDiscards (.modSub (.foldl (fun _ _ h => .uncharge h) hs)))

theorem Out.Inv.execHopHoldExpiry {now port sub : Nat} {s : State} (hs : s.Inv) : Out.Inv (execHopHoldExpiry now port sub s) :=
    by
  refine .next ?_
  dsimp only
  split
  · exact .advanceTo hs
  · exact .ite (.advanceTo hs) (.notice (.bumpAlert (.failOver (.modSub (.dropHops (.advanceTo hs))))))

theorem State.Inv.replayUntil {s : State} {k pcp : Nat} {last : Option (BitVec 16)} {l : List Replay} (hs : s.Inv)
    : (s.replayUntil k pcp last l).Inv :=
  .ite hs (.ite (.retrain (.bump hs)) (.modHop hs))

theorem State.Inv.replayFrames {s : State} {k pcp : Nat} {l : List Replay} (hs : s.Inv) : (s.replayFrames k pcp l).Inv :=
  .replayUntil hs

theorem State.Inv.linkArrival {h : Hdr} {fixed : Nat} {k : State → State} {s : State} (hk : ∀ u, u.Inv → (k u).Inv) (hs : s.Inv)
    : (linkArrival h fixed k s).Inv := by
  dsimp only [Machine.linkArrival]
  refine .ite hs ?_
  split
  · exact .bump (.advanceTo hs)
  · exact .bump (.advanceTo hs)
  · exact .ite (.bump (.bump (.advanceTo hs))) (.ite (.bump (.bump (.advanceTo hs))) (.ite (.senderRejected (.bump (.advanceTo
        hs))) (hk _ (.bump (.advanceTo hs)))))

theorem State.Inv.restartHop {s : State} {k pcp : Nat} (hs : s.Inv) : (s.restartHop k pcp).Inv := .linkDiscards (.modHop hs)

theorem Out.Inv.execHopAck {h : Hdr} {pcp flags : Byte} {ack : BitVec 16} {epoch : W32} {s : State} (hs : s.Inv)
    : Out.Inv (execHopAck h pcp flags ack epoch s) :=
  .next (.linkArrival (fun _ h1 => .ite h1 (.ite (.modHop h1) (.ite (.ite (.modHop (.restartHop h1)) (.queueAt (.modHop
      (.restartHop h1)))) (.replayUntil (.modHop h1))))) hs)

theorem Out.Inv.execReplayTimeout {now port sub pcp : Nat} {s : State} (hs : s.Inv)
    : Out.Inv (execReplayTimeout now port sub pcp s) := by
  refine .next ?_
  dsimp only
  split
  · exact .advanceTo hs
  · exact .ite (.advanceTo hs) (.ite (.advanceTo hs) (.replayFrames (.advanceTo hs)))

theorem State.Inv.choose {s : State} {k : Nat} (hs : s.Inv) : (s.choose k).2.Inv := by
  dsimp only [State.choose]
  split
  · exact hs
  · split
    · exact hs
    · exact hs
    · exact hs
    · split
      · exact hs
      · exact hs
      · exact hs
      · exact .ite_snd (.setSub hs) (.setSub hs)

theorem State.Inv.drawSak {s : State} {k : Nat} (hs : s.Inv) : (s.drawSak k).Inv := .modSub (.fresh hs)

theorem State.Inv.takePn {s : State} {k : Nat} {f : OutFrame} (hs : s.Inv) : (s.takePn k f).Inv :=
  .ite hs (.ite (.drawSak hs) (.modSub hs))

theorem State.Inv.onWire {s : State} {k : Nat} {f : OutFrame} (hs : s.Inv) : (s.onWire k f).Inv := .modSub (.takePn hs)

theorem State.Inv.transmit {s : State} {k : Nat} {again : Bool} {f : OutFrame} (hs : s.Inv) : (s.transmit k again f).Inv :=
  .ite (.bump (.onWire (.modHop (.ite (.bump hs) hs)))) (.ite (.onWire (.modHop (.modSub (.ite (.bump hs) hs)))) (.onWire
      (.modSub (.ite (.bump hs) hs))))

theorem Out.Inv.execEgressSelect {now port sub : Nat} {s : State} (hs : s.Inv) : Out.Inv (execEgressSelect now port sub s) := by
  refine .next ?_
  refine .ite hs ?_
  dsimp only
  refine .flowControl ?_
  split
  · rename_i e
    refine .transmit ?_
    refine .of_snd e ?_
    refine .choose ?_
    split
    · exact .bump (.modSub (.uncharge (.advanceTo hs)))
    · exact .advanceTo hs
  · rename_i e
    refine .of_snd e ?_
    refine .choose ?_
    split
    · exact .bump (.modSub (.uncharge (.advanceTo hs)))
    · exact .advanceTo hs

theorem State.Inv.forward {s : State} {h : Hdr} {x : Transit} (hs : s.Inv) : (s.forward h x).Inv := by
  dsimp only [State.forward]
  split
  · exact .switchDiscard hs
  · exact .ite hs (.ite (.enqueue (.ite (.bump hs) hs)) (.flowControl (.charge (.enqueue (.ite (.bump hs) hs)))))

theorem Out.Inv.execForwardFrame {h : Hdr} {f : Transit} {s : State} (hs : s.Inv) : Out.Inv (execForwardFrame h f s) :=
  .next (.ite hs (.ite (.linkChecksV1 (fun _ h1 => .forward h1) hs) (.ite hs (.linkChecks (fun _ h2 => .forward h2) hs))))

theorem Out.Inv.execOtherFrame {h : Hdr} {kind : OtherKind} {s : State} (hs : s.Inv) : Out.Inv (execOtherFrame h kind s) := by
  refine .next (.ite hs ?_)
  extract_lets u counted
  have hu : u.Inv := .advanceTo hs
  have hc : counted.Inv := .bump hu
  have short : State.Inv (if (counted.bufferPlace (subKey h.port h.sub) h.pcp (bufferBytes h.length)).isNone then
      counted.bufferDrop (subKey h.port h.sub) h.pcp
    else match hopCheck h counted with
      | (goes, s) => if goes then s.bump 0 h.port 14 else s) := by
    refine .ite (.bufferDrop hc) ?_
    split
    rename_i e
    have h1 : State.Inv _ := .of_snd e (.hopCheck hc)
    exact .ite (.bump h1) h1
  refine .ite hu ?_
  split
  · exact .bump hu
  · exact .bump hu
  refine .ite (.bump hu) ?_
  split
  · exact .bump hc
  · exact short
  · exact short
  · exact .bump hc

theorem Out.Inv.execUnlistedOpcode {h : Hdr} {opcode : Byte} {order : Option UnlistedOrder} {s : State} (hs : s.Inv)
    : Out.Inv (execUnlistedOpcode h opcode order s) := by
  refine .next ?_
  split
  · exact .ite hs (.consumed (fun _ h3 => .respond h3) hs)
  · exact .ite hs (.orderRequest (fun _ _ h3 => .finishOrder h3) hs)

theorem State.Inv.closeSub {s : State} {k : Nat} (hs : s.Inv) : (s.closeSub k).Inv :=
  .bumpBy (.modSub (.foldl (fun _ _ h => .uncharge h) hs))

theorem State.Inv.secureSub {s : State} {k : Nat} {m : MkaMessage} (hs : s.Inv) : (s.secureSub k m).Inv :=
  .ite (.ite (.drawSak (.modSub hs)) (.modSub hs)) (.ite (.modSub (.modSub hs)) (.modSub hs))

theorem Out.Inv.execPtpMessage {now port sub seconds nanos : Nat} {sync : Bool} {s : State} (hs : s.Inv)
    : Out.Inv (execPtpMessage now port sub seconds nanos sync s) :=
  .next (.ite hs (.ite (.advanceTo hs) (.ite (.bump (.advanceTo hs)) (.ite (.bump (.advanceTo hs)) (.update (.advanceTo hs)
      rfl)))))

theorem Out.Inv.execNeighborSolicitation {now port sub : Nat} {target ask : BitVec 128} {mac : BitVec 48} {s : State}
    (hs : s.Inv) : Out.Inv (execNeighborSolicitation now port sub target ask mac s) :=
  .next (.ite hs (.ite (.advanceTo hs) (.ite (.bump (.advanceTo hs)) (.ite (.queueAt (.advanceTo hs)) (.bump (.advanceTo
      hs))))))

/-! ### Machine/WholeReset -/

theorem State.Inv.enterReset {s : State} (_hs : s.Inv) : s.enterReset.Inv := .cleared rfl

theorem State.Inv.mapFailures {s : State} {failed : List (Nat × Nat)} (hs : s.Inv) : (s.mapFailures failed).Inv :=
  .foldl (fun _ _ h => .ite (.setCluster h) h) (.update hs rfl)

/-! ### Machine/SelfTest -/

theorem State.Inv.isolate {s : State} {cls unit : Nat} {on : Bool} {margin : Nat} (hs : s.Inv)
    : (s.isolate cls unit on margin).Inv :=
  .foldl (fun _ _ h1 => .update (.foldl (fun _ _ h2 => .setCluster h2) h1) rfl) hs

/-! ### Machine/Blocks -/

theorem State.Inv.setCalib {s : State} {hbm : Bool} {unit : Nat} {c : Calib} (hs : s.Inv)
    : (s.setCalib hbm unit c).Inv := .update hs rfl

theorem State.Inv.lateCalibrate {s : State} {hbm : Bool} {unit : Nat} (hs : s.Inv) : (s.lateCalibrate hbm unit).Inv :=
  .ite (.bump hs) (.bump hs)

theorem State.Inv.startCalib {s : State} {hbm : Bool} {unit kind : Nat} {order : Option OrderRef} {w : Option TransitWindow}
    (hs : s.Inv) : (s.startCalib hbm unit kind order w).Inv :=
  .setCalib hs

theorem Out.Inv.execCalibrationDone {now cls unit : Nat} {s : State} (hs : s.Inv) : Out.Inv (execCalibrationDone now cls unit s)
    := by
  refine .event (now := now) hs fun _ h => ?_
  dsimp only
  split
  · exact h
  · refine .ite h ?_
    refine .pump ?_
    split
    · refine .finishOrder ?_
      split
      · exact .ite (.countLate (.lateCalibrate (.setCalib h))) (.setCalib h)
      · exact .setCalib h
    · split
      · exact .ite (.countLate (.lateCalibrate (.setCalib h))) (.setCalib h)
      · exact .setCalib h

theorem Out.Inv.execCalibrationLapse {now cls unit kind : Nat} {s : State} (hs : s.Inv)
    : Out.Inv (execCalibrationLapse now cls unit kind s) :=
  .event (now := now) hs fun _ h => .ite h (.ite (.ite (.lateCalibrate (.setCalib h)) h) (.ite (.lateCalibrate (.setCalib h))
      h))

theorem State.Inv.disablePort {s : State} {port : Nat} (hs : s.Inv) : (s.disablePort port).Inv :=
  .foldl (fun _ _ h => .ite h (.tickLinks (.modSub (.dropHops (.quietSub h))))) hs

theorem State.Inv.drainedNotice {s : State} {cls unit : Nat} (hs : s.Inv) : (s.drainedNotice cls unit).Inv := .notice hs

theorem State.Inv.startTest {s : State} {cls unit : Nat} {w : Option TransitWindow} (hs : s.Inv)
    : (s.startTest cls unit w).Inv := by
  dsimp only [State.startTest]
  split
  · exact hs
  · exact .ite hs (.setBlock (.isolate hs))

theorem Out.Inv.execBlockDrainDone {now cls unit : Nat} {s : State} (hs : s.Inv) : Out.Inv (execBlockDrainDone now cls unit s)
    :=
  .event (now := now) hs fun _ h => .ite (.startTest (.drainedNotice (.setBlock (.ite (.disablePort h) h)))) (.ite (.startTest
      h) h)

theorem State.Inv.testDone {s : State} {cls unit : Nat} {id : W32} {outcome failed : Nat} {first : W64} {mismatches : Nat}
    (hs : s.Inv) : (s.testDone cls unit id outcome failed first mismatches).Inv :=
  .notice hs

theorem Out.Inv.execBlockReturn {o : Order} {cls : Byte} {unit : BitVec 16} {s : State} (hs : s.Inv)
    : Out.Inv (execBlockReturn o cls unit s) := by
  refine .next (.orderRequest (fun _ _ h1 => ?_) hs)
  dsimp only
  refine .ite (.finishOrder h1) ?_
  refine .ite (.finishOrder h1) ?_
  refine .finishOrder ?_
  refine .ite ?_ ?_
  · refine .foldl (fun _ _ h2 => .modSub h2) ?_
    split
    · exact .testDone (.setBlock h1)
    · exact .setBlock h1
  · split
    · exact .testDone (.setBlock h1)
    · exact .setBlock h1

theorem Out.Inv.execTestOrder {o : Order} {cls kind : Byte} {unit : BitVec 16} {margin at_ : Byte} {testId : W32} {s : State}
    (hs : s.Inv) : Out.Inv (execTestOrder o cls kind unit margin at_ testId s) :=
  .next (.orderRequest (fun _ _ h => .ite (.finishOrder h) (.ite (.finishOrder h) (.ite (.finishOrder h) (.ite (.finishOrder h)
      (.ite (.finishOrder h) (.ite (.finishOrder h) (.startTest (.finishOrder (.setBlock h))))))))) hs)

theorem State.Inv.testBlock {s : State} {unit : Nat} {e : Nat × Nat} (hs : s.Inv) : (s.testBlock unit e).Inv :=
  .wearLevels (.bumpBy (.setNandBlock hs))

theorem State.Inv.reinit {s : State} {cls unit : Nat} {t : TestOrder} {r : TestResult} (hs : s.Inv)
    : (s.reinit cls unit t r).Inv := by
  dsimp only [State.reinit]
  split
  · exact .mapFailures (.foldl (fun _ _ h2 => .zeroCluster h2) hs)
  · exact .setLevel (.setLevel hs)
  · exact .foldl (fun _ _ h1 => .setLevel h1) hs
  · exact .foldl (fun _ _ h1 => .retireBlock h1) (.ite (.foldl (fun _ _ h3 => .testBlock h3) hs) hs)
  · exact hs

theorem State.Inv.countMismatches {s : State} {cls unit : Nat} {r : TestResult} (hs : s.Inv)
    : (s.countMismatches cls unit r).Inv :=
  .foldl (fun _ _ h => .ite h (.alertNow (.bumpBy h))) hs

theorem Out.Inv.execTestEnd {now cls unit : Nat} {result : TestResult} {s : State} (hs : s.Inv)
    : Out.Inv (execTestEnd now cls unit result s) := by
  refine .event (now := now) hs fun _ h => ?_
  extract_lets u b
  have hu : u.Inv := h
  split
  · exact hu
  refine .ite hu ?_
  extract_lets out restored ended late counted told
  have h1 : ended.Inv := .setBlock (.reinit (.isolate hu))
  have h2 : late.Inv := by
    dsimp only [late]
    split
    · exact .ite (.countLate h1) h1
    · exact h1
  have h3 : told.Inv := .testDone (.countMismatches h2)
  exact .ite (.enterReset h3) h3

theorem Out.Inv.execCalibRun {o : Order} {cls kind : Byte} {unit : BitVec 16} {s : State} (hs : s.Inv)
    : Out.Inv (execCalibRun o cls kind unit s) :=
  .next (.orderRequest (fun _ _ h => .ite (.finishOrder h) (.ite (.finishOrder h) (.ite (.finishOrder h) (.startCalib h)))) hs)

/-! ### Machine/Redundancy -/

theorem State.Inv.takeVersion {s : State} {i : Nat} {mirror : Bool} {j : Nat} {v : W64} (hs : s.Inv)
    : (s.takeVersion i mirror j v).Inv :=
  .ite (.modRegion hs) (.setGroup hs)

theorem State.Inv.replicaFrame {h : Hdr} {opcode : Byte} {mirror : Bool} {a : Addr} {step : W32} {data : List Byte} {s : State}
    (hs : s.Inv) : (replicaFrame h opcode mirror a step data s).Inv := by
  dsimp only [Machine.replicaFrame]
  refine .consumed (fun _ h1 => ?_) hs
  refine .ite (.respond h1) ?_
  split
  · exact .respond h1
  · split
    · exact .respond (.violation h1)
    · exact .ite (.respond h1) (.ite (.respond (.takeVersion h1)) (.ite (.respond (.setObject h1)) (.ite (.respond h1) (.submit
          (.ite (.setGroup h1) h1)))))

theorem State.Inv.unitAnswered {s : State} {id : Nat} {status : Byte} {data : List Byte} {poison : W64} (hs : s.Inv)
    : (s.unitAnswered id status data poison).Inv := by
  dsimp only [State.unitAnswered]
  split
  · exact hs
  · exact .answerUnit hs

theorem Out.Inv.execReplicaAnswer {h : Hdr} {data : List Byte} {poison : W64} {s : State} (hs : s.Inv)
    : Out.Inv (execReplicaAnswer h data poison s) := by
  refine .next ?_
  refine .answerTo (fun _ _ h1 => ?_) hs
  dsimp only
  split
  · exact .pump (.modHeld (.dropIssued h1))
  · exact .pump (.modHeld (.dropIssued h1))
  · exact .unitAnswered (.dropIssued h1)
  · exact .settleReply (.unitFails (.dropIssued h1))
  · exact .dropIssued h1
  · exact .dropIssued h1
  · exact h1

theorem State.Inv.unresponsive {s : State} {r : Issued} (hs : s.Inv) : (s.unresponsive r).Inv := .notice hs

theorem State.Inv.defineGroup {s : State} {k : Nat} {g : Group} (hs : s.Inv) : (s.defineGroup k g).Inv := .update hs rfl

theorem Out.Inv.execGroupDefine {o : Order} {group : W32} {record : Ptr} {s : State} (hs : s.Inv)
    : Out.Inv (execGroupDefine o group record s) := by
  refine .next (.orderRequest (fun _ _ h => ?_) hs)
  split
  · exact .finishOrder h
  · exact .ite (.finishOrder h) (.ite (.finishOrder (.defineGroup h)) (.finishOrder h))

theorem State.Inv.adoptFailed {s : State} {g : Group} (hs : s.Inv) : (s.adoptFailed g).Inv := by
  dsimp only [State.adoptFailed]
  split
  · exact hs
  · refine .foldl (fun _ _ h => ?_) hs
    split
    · exact h
    · exact .ite h (.update h rfl)

theorem State.Inv.forgetPosition {s : State} {group p : Nat} (hs : s.Inv) : (s.forgetPosition group p).Inv := by
  dsimp only [State.forgetPosition]
  refine .foldl (fun _ _ h => ?_) (.dropIssued hs)
  split
  · exact .modHeld h
  · exact h

theorem State.Inv.revertTaken {s : State} {before : List Nat} (hs : s.Inv) : (s.revertTaken before).Inv :=
  .foldl (fun _ _ h => .ite (.revertHandoff h) h) hs

theorem Out.Inv.execGroupTakeover {o : Order} {group : W32} {position : Byte} {s : State} (hs : s.Inv)
    : Out.Inv (execGroupTakeover o group position s) :=
  .next (.orderRequest (fun _ _ h => .ite (.finishOrder h) (.ite (.finishOrder h) (.finishOrder (.revertTaken (.pump
      (.forgetPosition (.adoptFailed (.defineGroup (.dropCopies h))))))))) hs)

theorem State.Inv.sendSpareVersions {s : State} {k : Nat} {g : Group} (hs : s.Inv) : (s.sendSpareVersions k g).Inv := by
  dsimp only [State.sendSpareVersions]
  refine .ite ?_ ?_
  · split
    · exact .issue hs
    · exact hs
  · refine .foldl (fun _ _ h => ?_) hs
    refine .ite ?_ ?_
    · split
      · exact .issue h
      · exact h
    · split
      · exact .ite (.issue h) h
      · exact h

theorem State.Inv.sendSpareObjects {s : State} {k : Nat} {g : Group} (hs : s.Inv) : (s.sendSpareObjects k g).Inv := by
  dsimp only [State.sendSpareObjects]
  refine .foldl (fun _ _ h => ?_) hs
  split
  · exact .ite (.sendObject h) h
  · exact h

theorem Out.Inv.execGroupRebuild {o : Order} {group : W32} {position : Byte} {spareAid : Aid} {spareRegion : BitVec 24}
    {s : State} (hs : s.Inv) : Out.Inv (execGroupRebuild o group position spareAid spareRegion s) :=
  .next (.orderRequest (fun _ _ h => .ite (.finishOrder h) (.finishOrder (.sendSpareObjects (.sendSpareVersions (.defineGroup
      (.dropCopies h)))))) hs)

theorem State.Inv.startCopy {s : State} {k i : Nat} {g : Group} (hs : s.Inv) : (s.startCopy k i g).Inv :=
  .foldl (fun _ _ h => .submit h) (.setGroup hs)

theorem State.Inv.rebuildDone {s : State} {k : Nat} {g : Group} (hs : s.Inv) : (s.rebuildDone k g).Inv := by
  unfold State.rebuildDone
  extract_lets p old failed standing g' s1 s2 _ s3
  have h1 : s1.Inv := .defineGroup hs
  have h2 : s2.Inv := .notice h1
  have h3 : s3.Inv := .ite (.ite (.update h2 rfl) h2) h1
  exact .ite (.update h3 rfl) h3

theorem Out.Inv.execRebuildChunk {now group : Nat} {s : State} (hs : s.Inv) : Out.Inv (execRebuildChunk now group s) := by
  refine .event (now := now) hs fun _ h => ?_
  dsimp only
  refine .ite h ?_
  split
  · exact .ite (.startCopy h) (.ite h (.ite (.setGroup h) (.rebuildDone h)))
  · exact .ite (.setGroup h) (.rebuildDone h)

theorem State.Inv.resetCursors {s : State} {cid : Cid} (hs : s.Inv) : (s.resetCursors cid).Inv :=
  .foldl (fun _ _ h => .setGroup h) (.dropCopies hs)

theorem State.Inv.openCursors {s : State} {cid : Cid} (hs : s.Inv) : (s.openCursors cid).Inv := .update hs rfl

/-! ### Machine/Steps -/

theorem State.Inv.answerStep {s : State} {h : Hdr} {opcode status : Byte} {c : Comp} {flag : Bool} (hs : s.Inv)
    : (s.answerStep h opcode status c flag).Inv :=
  .respondAuth hs

theorem State.Inv.stepFrame {h : Hdr} {t : Trailer} {opcode : Byte} {step : W32} {k : Nat → Comp → State → State} {s : State}
    (hk : ∀ a0 a1 u, u.Inv → (k a0 a1 u).Inv) (hs : s.Inv) : (stepFrame h t opcode step k s).Inv := by
  dsimp only [Machine.stepFrame]
  refine .authenticated (fun _ h1 => ?_) hs
  split
  · exact .respondAuth h1
  · exact .zeroChecked (fun _ h2 => .answerStep h2) (fun _ h2 => hk _ _ _ h2) h1

theorem State.Inv.mismatch {s : State} {h : Hdr} {opcode : Byte} {c : Comp} {step : W32} (hs : s.Inv)
    : (s.mismatch h opcode c step).Inv :=
  .answerStep hs

theorem State.Inv.openStepOf {s : State} {e : Nat} {step : W32} (hs : s.Inv) : (s.openStepOf e step).Inv :=
  .openCursors (.setComp hs)

theorem State.Inv.recallExclusives {s : State} {cid : Cid} (hs : s.Inv) : (s.recallExclusives cid).Inv :=
  .foldl (fun _ _ h => .ite h (.startTransition h)) hs

theorem State.Inv.endCommit {s : State} {e : Nat} (hs : s.Inv) : (s.endCommit e).Inv :=
  .ite hs (.pump (.foldl (fun _ _ h1 => .answerStep h1) (.foldl (fun _ _ h2 => .resolveLost h2) (.setComp hs))))

theorem Out.Inv.execStepCommit {h : Hdr} {t : Trailer} {step : W32} {s : State} (hs : s.Inv)
    : Out.Inv (execStepCommit h t step s) := by
  refine .next ?_
  refine .stepFrame (fun _ _ _ h1 => ?_) hs
  split
  · exact .ite (.mismatch h1) (.ite (.endCommit (.recallExclusives (.setComp h1))) (.setComp h1))
  · exact .ite (.mismatch h1) (.ite (.endCommit (.recallExclusives (.setComp h1))) (.setComp h1))
  · exact .ite (.answerStep h1) (.mismatch h1)
  · exact .mismatch h1

theorem Out.Inv.execCommitSequenceEnd {now : Nat} {cid : Cid} {s : State} (hs : s.Inv)
    : Out.Inv (execCommitSequenceEnd now cid s) := by
  refine .event (now := now) hs fun _ h => ?_
  dsimp only
  split
  · exact h
  · exact .ite h (.endCommit (.recallExclusives h))

theorem State.Inv.invalidateAll {s : State} {cid : Cid} (hs : s.Inv) : (s.invalidateAll cid).Inv :=
  .foldl (fun _ _ h => .ite h (.startTransition h)) hs

theorem State.Inv.restoreRecord {s : State} {e : Nat} {r : JRec} (hs : s.Inv) : (s.restoreRecord e r).Inv := .submit hs

theorem State.Inv.restoreVersions {s : State} {c : Comp} (hs : s.Inv) : (s.restoreVersions c).Inv := .ite hs (.update hs rfl)

theorem State.Inv.freeLost {s : State} {cid : Cid} {journalled : Bool} (hs : s.Inv) : (s.freeLost cid journalled).Inv :=
  .foldl (fun _ _ h => .freeEntry (.setPoison h)) hs

theorem State.Inv.undoStep {s : State} {e : Nat} (hs : s.Inv) : (s.undoStep e).Inv :=
  .restoreVersions (.ite (.modComp hs) (.foldl (fun _ _ h => .restoreRecord h) (.modComp hs)))

theorem State.Inv.endRestore {s : State} {e : Nat} (hs : s.Inv)
    : (s.endRestore e).Inv := .ite hs (.pump (.modComp (.freeLost hs)))

theorem State.Inv.finishUndo {s : State} {e : Nat} (hs : s.Inv) : (s.finishUndo e).Inv := by
  dsimp only [State.finishUndo]
  refine .pump ?_
  refine .resumeMerges ?_
  refine .foldl (fun _ _ h => .answerStep h) ?_
  split
  · exact .answerStep (.setComp (.freeLost hs))
  · exact .setComp (.freeLost hs)

theorem State.Inv.fence {s : State} {e : Nat} {c : Comp} {step committed : W32} (hs : s.Inv) : (s.fence e c step committed).Inv
    :=
  .resetCursors (.setComp hs)

theorem Out.Inv.execRollback {h : Hdr} {t : Trailer} {step : W32} {s : State} (hs : s.Inv) : Out.Inv (execRollback h t step s)
    := by
  refine .next ?_
  refine .stepFrame (fun _ _ _ h1 => ?_) hs
  dsimp only
  split
  · exact .answerStep h1
  · exact .ite (.mismatch h1) (.ite (.answerStep h1) (.ite (.answerStep h1) (.pump (.invalidateAll (.fence h1)))))
  · exact .ite (.ite (.answerStep h1) (.pump (.invalidateAll (.fence h1)))) (.mismatch h1)
  · exact .mismatch h1

theorem Out.Inv.execRollbackComplete {now : Nat} {cid : Cid} {s : State} (hs : s.Inv) : Out.Inv (execRollbackComplete now cid s) := by
  refine .event (now := now) hs fun v h => ?_
  extract_lets u invalid
  have hu : u.Inv := h
  have hi : invalid.Inv := .invalidateAll hu
  split
  · exact hu
  · have hr : ∀ {e}, State.Inv ((if (invalid.compAt e).phase = 5 then invalid else invalid.undoStep e).endRestore e) :=
      .endRestore (.ite hi (.undoStep hi))
    exact .ite hu (.ite hi (.ite (.finishUndo hr) hr))

theorem State.Inv.dropHeldOf {s : State} {cid : Cid} (hs : s.Inv) : (s.dropHeldOf cid).Inv := .setLost (.setGridReqs hs)

theorem State.Inv.startEclipse {s : State} {e : Nat} {c : Comp} {step committed : W32} (hs : s.Inv)
    : (s.startEclipse e c step committed).Inv :=
  .pump (.abortCkpt (.abortSearches (.abortEmb (.abortMoves (.dropHeldOf (.haltComposition (.fence hs)))))))

theorem Out.Inv.execEclipse {h : Hdr} {t : Trailer} {step : W32} {_origin : Aid} {cause : Byte} {s : State} (hs : s.Inv)
    : Out.Inv (execEclipse h t step _origin cause s) := by
  refine .next ?_
  refine .stepFrame (fun _ _ _ h1 => ?_) hs
  dsimp only
  refine .ite (.answerStep h1) ?_
  refine .ite (.ite (.setComp h1) (.mismatch h1)) ?_
  split
  · exact .mismatch h1
  · exact .startEclipse (.foldl (fun _ _ h2 => .answerStep h2) h1)

theorem Out.Inv.execEclipseQuiesced {now : Nat} {cid : Cid} {s : State} (hs : s.Inv) : Out.Inv (execEclipseQuiesced now cid s)
    := by
  refine .event (now := now) hs fun _ h => ?_
  dsimp only
  split
  · exact h
  · exact .ite (.pump (.invalidateAll (.setComp h))) h

theorem Out.Inv.execEclipseRestore {now : Nat} {cid : Cid} {s : State} (hs : s.Inv) : Out.Inv (execEclipseRestore now cid s) :=
    by
  refine .event (now := now) hs fun _ h => ?_
  dsimp only
  split
  · exact h
  · exact .ite (.endRestore h) (.ite (.endRestore (.undoStep (.invalidateAll h))) (.invalidateAll h))

theorem Out.Inv.execEclipseComplete {now : Nat} {cid : Cid} {s : State} (hs : s.Inv) : Out.Inv (execEclipseComplete now cid s)
    := by
  refine .event (now := now) hs fun _ h => ?_
  dsimp only
  split
  · exact h
  · exact .ite (.finishUndo (.endRestore h)) (.endRestore h)

/-! ### Machine/Expulsion -/

theorem Out.Inv.execCompRelease {o : Order} {cid : Cid} {flags : Byte} {s : State} (hs : s.Inv)
    : Out.Inv (execCompRelease o cid flags s) := by
  refine .next ?_
  refine .activeOrder (fun _ _ _ h1 => ?_) hs
  split
  · exact .finishOrder h1
  · exact .finishOrder h1
  · exact .finishOrder h1
  · exact .foldl (fun _ _ h2 => .revoke h2) (.modComp (.finishOrder h1))

theorem State.Inv.dropParked {s : State} {cid : Cid} (hs : s.Inv) : (s.dropParked cid).Inv := by
  dsimp only [State.dropParked]
  refine .foldl (fun _ _ h1 => ?_) (.foldl (fun _ _ h2 => .answerMove h2) (.setMovers hs))
  split
  · exact .ite (.endMove h1) h1
  · exact h1

theorem State.Inv.releaseObjects {s : State} {cid : Cid} (hs : s.Inv) : (s.releaseObjects cid).Inv :=
  .foldl (fun _ _ h => .ite h (.ite (.putObject h) (.ite (.revertHandoff h) h))) hs

theorem State.Inv.endRelease {s : State} {e : Nat} (hs : s.Inv) : (s.endRelease e).Inv := by
  unfold State.endRelease
  extract_lets c cid detached released freed ended
  have h1 : released.Inv := .settleDeferred (.releaseClusters (.detachAll (.abortSearches hs)))
  have h2 : ended.Inv := .modComp (.setJournalUsed (.releaseObjects (.dropParked (.dropOrbits h1))))
  exact .ite (.foldl (fun _ _ h => .ite (.startRelease h) h) h2) h2

theorem State.Inv.freeComp {s : State} {e : Nat} (hs : s.Inv) : (s.freeComp e).Inv := .update (.notice hs) rfl

theorem Out.Inv.execCompReleaseDone {now : Nat} {cid : Cid} {s : State} (hs : s.Inv) : Out.Inv (execCompReleaseDone now cid s)
    := by
  refine .event (now := now) hs fun _ h => ?_
  dsimp only
  split
  · exact h
  · exact .ite h (.ite (.ite h (.endRelease h)) (.freeComp (.ite h (.endRelease h))))

theorem State.Inv.setTallies {s : State} {l : List Tally} (hs : s.Inv) : (s.setTallies l).Inv := .update hs rfl

theorem State.Inv.countTally {s : State} {kind : TallyKind} {target : Nat} {nonce : W64} {manager : Aid} (hs : s.Inv)
    : (s.countTally kind target nonce manager).1.Inv :=
  .ite_fst (.setTallies hs) (.setTallies hs)

theorem Out.Inv.execTallyExpiry {now idx : Nat} {s : State} (hs : s.Inv) : Out.Inv (execTallyExpiry now idx s) := by
  refine .event (now := now) hs fun _ h => ?_
  dsimp only
  split
  · exact .ite (.setTallies h) h
  · exact h

theorem State.Inv.refuseHeld {s : State} (hs : s.Inv) : s.refuseHeld.Inv := by
  dsimp only [State.refuseHeld]
  refine .foldl (fun _ _ h => ?_) hs
  split
  · exact .completeAccess h
  · exact .completeAccess h
  · exact .setHeld h
  · exact .setHeld h
  · exact .setHeld h
  · exact .completeAccess h

theorem State.Inv.refuseWaiting {s : State} (hs : s.Inv) : s.refuseWaiting.Inv := by
  dsimp only [State.refuseWaiting]
  refine .foldl (fun _ _ h1 => ?_) (.setArrivals (.foldl (fun _ _ h2 => .finishOrder h2) (.update (.foldl (fun _ _ h3 =>
      .respond h3) (.setWaiting hs)) rfl)))
  split
  · exact .finishOrder (.forget h1)
  · exact .forget h1

theorem State.Inv.destroyKeys {s : State} (hs : s.Inv) : s.destroyKeys.Inv := .update hs rfl

theorem State.Inv.scrub {s : State} : s.scrub.Inv := by
  refine .update (s := List.foldl _ _ _) ?_ rfl
  exact .foldl (fun _ _ h => .zeroCluster h) (.cleared rfl)

theorem State.Inv.abortEngines {s : State} (hs : s.Inv) : s.abortEngines.Inv :=
  .foldl (fun _ _ h => .abortCkpt (.abortSearches (.abortEmb (.abortMoves h)))) hs

theorem State.Inv.expelSelf {s : State} {nonce : W64} : (s.expelSelf nonce).Inv := by
  unfold State.expelSelf
  extract_lets _ _ _ _ _ _ u
  have hu : u.Inv := .scrub
  clear_value u
  exact .notice (.settleAlert (.update hu rfl))

theorem State.Inv.expelOther {s : State} {target : Aid} {nonce : W64} (hs : s.Inv) : (s.expelOther target nonce).Inv :=
  .notice (.foldl (fun _ _ h => .ite (.agentDies h) h) (.update hs rfl))

theorem Out.Inv.execExpel {h : Hdr} {t : Trailer} {target : Aid} {nonce : W64} {s : State} (hs : s.Inv) :
    Out.Inv (execExpel h t target nonce s) := by
  refine .next (.managed (fun _ h1 => .zeroChecked (fun _ h2 => .respondAuth h2) (fun _ h2 => ?_) h1) hs)
  refine .ite (.respondAuth h2) ?_
  split
  rename_i e
  have h3 : State.Inv _ := .of_fst e (.countTally h2)
  exact .ite (.respondAuth h3) (.ite .expelSelf (.expelOther (.respondAuth h3)))

theorem State.Inv.setOwners {s : State} {l : List OwnerSlot} (hs : s.Inv) : (s.setOwners l).Inv := .update hs rfl

theorem State.Inv.rotateOwner {s t : State} (hs : s.Inv) (e : s.rotateOwner = some t) : t.Inv := by
  unfold State.rotateOwner at e
  split at e
  · cases e
    split <;> exact .setOwners hs
  · cases e

theorem State.Inv.setFloor {s : State} {v : Nat} (hs : s.Inv) : (s.setFloor v).Inv := .update hs rfl

theorem State.Inv.admitSelf {s : State} (hs : s.Inv) : s.admitSelf.Inv := by
  unfold State.admitSelf
  extract_lets _ _ s1 s2
  have h1 : s1.Inv := .ite (.update hs rfl) hs
  have h2 : s2.Inv := .ite (.setFloor h1) h1
  exact .update h2 rfl

theorem Out.Inv.execAdmitDevice {h : Hdr} {t : Trailer} {target : Aid} {fuses : FuseRun} {s : State} (hs : s.Inv) :
    Out.Inv (execAdmitDevice h t target fuses s) := by
  refine .next (.managed (fun _ h1 => .zeroChecked (fun _ h2 => .respondAuth h2) (fun u h2 => ?_) h1) hs)
  refine .ite (.respondAuth h2) (.ite (.respondAuth h2) (.ite (.respondAuth (.update h2 rfl)) (.ite (.respondAuth h2) ?_)))
  refine .ite (.respondAuth h2) ?_
  split
  · rename_i v e
    refine .respondAuth (.admitSelf ?_)
    split at e
    · exact .rotateOwner h2 e
    · cases e
      exact h2
  · exact .respondAuth h2

theorem Out.Inv.execDeviceReset {o : Order} {target : Aid} {nonce : W64} {s : State} (hs : s.Inv)
    : Out.Inv (execDeviceReset o target nonce s) := by
  refine .next (.orderRequest (fun _ _ h => ?_) hs)
  refine .ite (.finishOrder h) ?_
  split
  rename_i e
  exact .ite (.update (.finishOrder (.of_fst e (.countTally h))) rfl) (.finishOrder (.of_fst e (.countTally h)))

theorem Out.Inv.execDeviceResetEntry {now : Nat} {s : State} (hs : s.Inv) : Out.Inv (execDeviceResetEntry now s) := by
  refine .next ?_
  dsimp only
  split
  · exact .ite (.enterReset (.advanceTo hs)) (.advanceTo hs)
  · exact .advanceTo hs

theorem Out.Inv.execFloorRaise {o : Order} {floor : Byte} {nonce : W64} {fuses : FuseRun} {s : State} (hs : s.Inv)
    : Out.Inv (execFloorRaise o floor nonce fuses s) := by
  refine .next (.orderRequest (fun _ _ h => ?_) hs)
  refine .ite (.finishOrder h) ?_
  split
  rename_i e
  exact .ite (.finishOrder (.of_fst e (.countTally h))) (.ite (.setFloor (.finishOrder (.extendM3 (.of_fst e (.countTally h)))))
      (.finishOrder (.extendM3 (.of_fst e (.countTally h)))))

theorem State.Inv.retireDevice {s : State} (hs : s.Inv) : s.retireDevice.Inv := .enterReset (.update hs rfl)

theorem Out.Inv.execLcRetire {o : Order} {target : Aid} {nonce : W64} {fuses : FuseRun} {s : State} (hs : s.Inv)
    : Out.Inv (execLcRetire o target nonce fuses s) := by
  refine .next (.orderRequest (fun _ _ h => ?_) hs)
  refine .ite (.finishOrder h) ?_
  split
  rename_i e
  exact .ite (.finishOrder (.of_fst e (.countTally h))) (.ite (.retireDevice (.finishOrder (.of_fst e (.countTally h))))
      (.finishOrder (.of_fst e (.countTally h))))

theorem Out.Inv.execRequestTimeout {now id : Nat} {s : State} (hs : s.Inv) : Out.Inv (execRequestTimeout now id s) := by
  refine .event (now := now) hs fun _ h => ?_
  dsimp only
  split
  · exact h
  · refine .ite h ?_
    split
    · exact .threadTimeout (.unresponsive h)
    · exact .unitAnswered (.dropIssued (.unresponsive h))
    · exact .settleReply (.unitFails (.dropIssued (.unresponsive h)))
    · exact .pump (.modHeld (.dropIssued (.unresponsive h)))
    · exact .update (.unresponsive h) rfl

/-! ### Machine/Power -/

theorem State.Inv.withdraw {s : State} (hs : s.Inv) : s.withdraw.Inv := .settleAlert (.update hs rfl)

theorem State.Inv.withdrawal {s : State} {now : Nat} {f : State → State} (hs : s.Inv) (hf : ∀ u, u.Inv → (f u).Inv)
    : (withdrawal s now f).Inv :=
  .ite (.withdraw (hf _ (.advanceTo hs))) hs

theorem State.Inv.setPower {s : State} {p : Power} (hs : s.Inv) : (s.setPower p).Inv := .update hs rfl

theorem Out.Inv.execThermalTrip {now : Nat} {hbm : Bool} {sensor : Nat} {s : State} (hs : s.Inv)
    : Out.Inv (execThermalTrip now hbm sensor s) :=
  .next (.ite (.ite hs (.withdrawal hs (fun _ h => .setPower (.alertNow h)))) (.ite hs (.withdrawal hs (fun _ h => .setPower
      (.bumpAlert h)))))

theorem State.Inv.readSensor {s : State} {e : Nat × Nat} (hs : s.Inv) : (s.readSensor e).Inv :=
  .ite hs (.setLevel (.setLevel (.setLevel hs)))

theorem State.Inv.readStack {s : State} {e : Nat × Nat} (hs : s.Inv) : (s.readStack e).Inv := .ite hs (.setCalib (.setLevel hs))

theorem State.Inv.throttled {s : State} {mv ca w10ms w1s : Nat} (hs : s.Inv) : (s.throttled mv ca w10ms w1s).Inv :=
  .ite hs (.ite (.ite (.setPower (.bump hs)) (.setPower hs)) (.ite (.setPower hs) (.setPower hs)))

theorem Out.Inv.execThrottleStep {now mv ca w1ms w10ms w1s : Nat} {dieTemps hbmTemps : List (Nat × Nat)} {s : State}
    (hs : s.Inv) : Out.Inv (execThrottleStep now mv ca w1ms w10ms w1s dieTemps hbmTemps s) :=
  .next (.ite hs (.setPower (.throttled (.foldl (fun _ _ h1 => .readStack h1) (.foldl (fun _ _ h2 => .readSensor h2) (.advanceTo
      hs))))))

theorem Out.Inv.execWholeDeviceReset {trigger : ResetTrigger} {s : State} (hs : s.Inv)
    : Out.Inv (execWholeDeviceReset trigger s) := by
  refine .next ?_
  split
  · exact .cleared rfl
  · exact .ite (.enterReset hs) hs

/-! ### Machine/Transits -/

theorem Out.Inv.execOrbitDefine {o : Order} {orbit : Byte} {cid : Cid} {period : W32} {anchor : W64} {first count : W32}
    {s : State} (hs : s.Inv) : Out.Inv (execOrbitDefine o orbit cid period anchor first count s) :=
  .next (.orderRequest (fun _ _ h => .ite (.finishOrder h) (.ite (.finishOrder h) (.finishOrder (.setOrbit h)))) hs)

theorem State.Inv.setTransits {s : State} {t : Tab Entry} (hs : s.Inv) : (s.setTransits t).Inv := .setSky hs

theorem State.Inv.loadTransits {s : State} {ref : OrderRef} {rh : Handle} {offset : BitVec 48} {first n : Nat} (hs : s.Inv)
    : (s.loadTransits ref rh offset first n).Inv :=
  .ite (.finishOrder (.forget hs)) (.ite (.finishOrder (.forget hs)) (.ite (.finishOrder (.forget hs)) (.ite (.holdArrival
      (.orderRead hs)) (.ite (.finishOrder (.forget (.orderRead hs))) (.ite (.finishOrder (.forget (.orderRead hs)))
      (.finishOrder (.forget (.setTransits (.orderRead hs)))))))))

theorem State.Inv.takePlace {s t : State} {stack : Nat} (hs : s.Inv) (e : s.takePlace stack = some t) : t.Inv := by
  unfold State.takePlace at e
  split at e
  · cases e
    exact hs
  · obtain ⟨_, _, rfl⟩ := Option.map_eq_some_iff.mp e
    exact .demote hs

theorem State.Inv.promoteSector {s : State} {region sector stack : Nat} {release : W64} {cid : Cid} (hs : s.Inv)
    : (s.promoteSector region sector stack release cid).1.Inv := by
  dsimp only [State.promoteSector]
  split
  · exact hs
  · exact .setSector hs
  · refine .ite_fst (.setSector hs) ?_
    split
    · exact hs
    · rename_i e
      split
      · exact .startFill (.takePlace hs e)
      · exact .setSector (.takePlace hs e)
      · exact .setSector (.takePlace hs e)

theorem State.Inv.firePromote {s : State} {e : Entry} {c : Nat} (hs : s.Inv) : (s.firePromote e c).Inv :=
  .ite (.countSkipped hs) (.setSky (.ite (.foldl_fst (fun _ _ h1 => .promoteSector h1) hs) (.bump (.foldl_fst (fun _ _ h2 =>
      .promoteSector h2) hs))))

theorem State.Inv.fireReserve {s : State} {idx : Nat} {e : Entry} {c : Nat} (hs : s.Inv) : (s.fireReserve idx e c).Inv :=
  .ite (.countSkipped hs) (.setReservations hs)

theorem State.Inv.reopen {s : State} {c : Nat} {x : Orbit} {idx : Nat} {e : Entry} (hs : s.Inv) : (s.reopen c x idx e).Inv :=
  .foldl (fun _ _ h => .ite h (.fireReserve h)) hs

theorem State.Inv.latePromote {s : State} {c : Nat} {since : Option Nat} {x : Orbit} {e : Entry} (hs : s.Inv)
    : (s.latePromote c since x e).Inv :=
  .foldl (fun _ _ h => .firePromote (.countLate h)) hs

theorem State.Inv.returnToLock {s : State} {c : Nat} {since : Option Nat} (hs : s.Inv) : (s.returnToLock c since).Inv :=
  .foldl (fun _ _ h1 => .foldl (fun _ _ h2 => .ite (.reopen h2) (.ite (.latePromote h2) h2)) h1) (.foldl (fun _ _ h2 => .demote
      h2) (.setReservations hs))

theorem State.Inv.wakeTicks {s : State} (hs : s.Inv) : s.wakeTicks.Inv := by
  dsimp only [State.wakeTicks]
  refine .foldl (fun _ _ h1 => ?_) hs
  refine .foldl (fun _ _ h2 => ?_) h1
  split
  · exact .ite (.resumeThread h2) h2
  · exact h2

theorem State.Inv.pulse {s : State} (hs : s.Inv) : s.pulse.Inv := .ite (.setSky hs) hs

theorem State.Inv.repeatEdge {s : State} {high : Nat} (hs : s.Inv) : (s.repeatEdge high).Inv := .ite (.setSky hs) hs

theorem State.Inv.beginTick {s : State} (hs : s.Inv) : s.beginTick.Inv := .pulse (.wakeTicks (.setSky hs))

theorem State.Inv.lock {s : State} (hs : s.Inv) : s.lock.Inv := .beginTick (.returnToLock (.notice (.setSky hs)))

theorem State.Inv.tryLock {s : State} (hs : s.Inv) : s.tryLock.Inv := by
  dsimp only [State.tryLock]
  refine .ite hs ?_
  split
  · exact .lock hs
  · exact .ite (.lock hs) (.notice (.setSky hs))

theorem State.Inv.badTick {s : State} (hs : s.Inv) : s.badTick.Inv := .bump hs

theorem State.Inv.takeTick {s : State} {det : Nat} {carried : Option W64} {symOk wrong : Bool} (hs : s.Inv)
    : (s.takeTick det carried symOk wrong).Inv := by
  dsimp only [State.takeTick]
  split
  · exact .ite (.setSky hs) (.badTick (.setSky hs))
  · exact .ite (.setSky hs) (.badTick (.setSky hs))
  · exact .ite (.setSky hs) (.badTick (.setSky hs))
  · exact .ite (.ite (.setSky hs) (.badTick (.setSky hs))) (.ite (.tryLock (.setSky hs)) (.badTick (.setSky hs)))
  · exact .ite (.loseLock (.setSky (.ite hs (.badTick hs)))) (.ite (.beginTick (.setSky hs)) (.ite (.loseLock (.badTick (.setSky
        hs))) (.beginTick (.setSky (.badTick (.setSky hs))))))

theorem State.Inv.countedTick {s : State} {det : Nat} {count : W64} (hs : s.Inv) : (s.countedTick det count).Inv := .takeTick hs

theorem Out.Inv.execSkyEdge {now highNs : Nat} {s : State} (hs : s.Inv) : Out.Inv (execSkyEdge now highNs s) := by
  refine .next ?_
  refine .ite hs ?_
  dsimp only
  refine .ite (.bump (.repeatEdge (.advanceTo hs))) ?_
  refine .ite (.takeTick (.setSky (.ite (.bump (.repeatEdge (.advanceTo hs))) (.repeatEdge (.advanceTo hs))))) ?_
  split <;> exact .takeTick (.setSky (.ite (.bump (.repeatEdge (.advanceTo hs))) (.repeatEdge (.advanceTo hs))))

theorem Out.Inv.execTickAbsence {now : Nat} {s : State} (hs : s.Inv) : Out.Inv (execTickAbsence now s) := by
  refine .next ?_
  refine .ite hs ?_
  dsimp only
  split
  · exact .advanceTo hs
  · refine .ite (.advanceTo hs) ?_
    split
    · exact .loseLock (.advanceTo hs)
    · exact .setSky (.advanceTo hs)
    · exact .advanceTo hs

theorem State.Inv.fireTransit {now idx kind : Nat} {k : Entry → DueTransit → State → State} {s : State}
    (hk : ∀ a0 a1 u, u.Inv → (k a0 a1 u).Inv) (hs : s.Inv) : (fireTransit now idx kind k s).Inv := by
  dsimp only [Machine.fireTransit]
  refine .ite hs ?_
  split
  · exact .advanceTo hs
  · exact .ite (.advanceTo hs) (hk _ _ _ (.ite (.countLate (.setSky (.advanceTo hs))) (.setSky (.advanceTo hs))))

theorem Out.Inv.execCommit {now entry : Nat} {s : State} (hs : s.Inv) : Out.Inv (execCommit now entry s) := by
  refine .next ?_
  refine .fireTransit (fun _ _ _ h => ?_) hs
  split
  · exact .countSkipped h
  · exact .ite (.recallExclusives (.setComp h)) (.countSkipped h)

theorem Out.Inv.execCalibrate {now entry : Nat} {s : State} (hs : s.Inv) : Out.Inv (execCalibrate now entry s) :=
  .next (.fireTransit (fun _ _ _ h => .ite (.countSkipped h) (.ite (.ite (.lateCalibrate h) (.countLate (.lateCalibrate h)))
      (.startCalib h))) hs)

theorem Out.Inv.execReservationEnd {now idx : Nat} {s : State} (hs : s.Inv) : Out.Inv (execReservationEnd now idx s) := by
  refine .event (now := now) hs fun _ h => ?_
  dsimp only
  split
  · exact h
  · exact .ite (.setReservations h) h

theorem Out.Inv.execPromoteDue {now idx : Nat} {s : State} (hs : s.Inv) : Out.Inv (execPromoteDue now idx s) := by
  refine .event (now := now) hs fun _ h => ?_
  dsimp only
  split
  · exact h
  · exact .ite h (.ite (.setSky h) (.countLate (.bump (.setSky h))))

/-! ### Machine/Records -/

theorem State.Inv.selectRecord {s : State} {m : Aid} {v : W64} (hs : s.Inv) : (s.selectRecord m v).Inv := .update hs rfl

/-! ### Machine/Registers -/

theorem State.Inv.takeCsr {s : State} {m : Aid} {a : Nat} (hs : s.Inv) : (s.takeCsr m a).2.Inv := .ite (.setPower hs) hs

theorem State.Inv.setSwitch {s : State} {x : Switch} (hs : s.Inv) : (s.setSwitch x).Inv := .update hs rfl

theorem State.Inv.countRwl {s : State} {changes : Bool} (hs : s.Inv) : (s.countRwl changes).Inv := .ite (.update hs rfl) hs

theorem State.Inv.writeSubCtrl {s : State} {k : Nat} {v : W64} (hs : s.Inv) : (s.writeSubCtrl k v).Inv :=
  .ite (.countRwl (.modSub hs)) (.modSub hs)

theorem State.Inv.writeLane {s : State} {k : Nat} {v : W64} (hs : s.Inv) : (s.writeLane k v).Inv :=
  .ite (.countRwl hs) (.setSwitch hs)

theorem State.Inv.writeEth {s : State} {o : Nat} {v : W64} (hs : s.Inv) : (s.writeEth o v).Inv := by
  dsimp only [State.writeEth]
  refine .ite hs ?_
  refine .ite ?_ (.ite (.writeLane hs) hs)
  split
  · exact .writeSubCtrl hs
  · exact .modSub hs
  · exact .modSub hs
  · exact .modSub hs
  · exact hs

theorem State.Inv.writeFwd {s : State} {a : Nat} {v : W64} (hs : s.Inv) : (s.writeFwd a v).Inv := .setSwitch hs

theorem State.Inv.writeSwt {s : State} {o : Nat} {v : W64} (hs : s.Inv) : (s.writeSwt o v).Inv :=
  .ite (.writeFwd hs) (.ite hs (.ite (.setSwitch hs) (.ite (.setSwitch hs) (.ite (.setSwitch hs) hs))))

theorem State.Inv.writeLatch {s : State} {core program : Nat} {v : W64} (hs : s.Inv) : (s.writeLatch core program v).Inv :=
  .ite (.setCore hs) hs

theorem State.Inv.writeAlert {s : State} {v : W64} (hs : s.Inv) : (s.writeAlert v).Inv := .ite (.settleAlert (.update hs rfl))
    hs

theorem State.Inv.writeCsr {s : State} {m : Aid} {a : Nat} {v : W64} (hs : s.Inv) : (s.writeCsr m a v).Inv := by
  dsimp only [State.writeCsr]
  split
  · exact .writeEth hs
  · exact .writeSwt hs
  · exact .ite (.selectRecord hs) hs
  · exact .ite (.writeLatch hs) hs
  · exact .ite (.writeAlert hs) hs
  · exact hs

/-! ### Machine/Start -/

theorem State.Inv.modBoot {s : State} {f : Boot → Boot} (hs : s.Inv) : (s.modBoot f).Inv := .update hs rfl

theorem State.Inv.modSec {s : State} {f : Security → Security} (hs : s.Inv) : (s.modSec f).Inv := .update hs rfl

theorem State.Inv.logStart {s : State} {x : LogRec} (hs : s.Inv) : (s.logStart x).Inv := .modBoot hs

theorem State.Inv.configFault {s : State} {x : LogRec} (hs : s.Inv)
    : (s.configFault x).Inv := .settleAlert (.modBoot (.update hs rfl))

theorem State.Inv.hardwareFault {s : State} {x : LogRec} (hs : s.Inv) : (s.hardwareFault x).Inv :=
  .settleAlert (.modBoot (.update hs rfl))

theorem State.Inv.eraseKeys {s : State} (hs : s.Inv) : s.eraseKeys.Inv := .modSec hs

theorem State.Inv.startStep1 {s : State} (hs : s.Inv) : s.startStep1.Inv :=
  .modSec (.fresh (.ite (.eraseKeys (.modBoot (.update hs rfl))) (.modBoot (.update hs rfl))))

theorem State.Inv.addIndex {s : State} {block next key : Nat} (hs : s.Inv) : (s.addIndex block next key).Inv :=
  .modBoot hs

theorem State.Inv.mendNodes {s : State} (hs : s.Inv) : s.mendNodes.Inv := .modBoot hs

theorem State.Inv.certifyKey {s : State} (hs : s.Inv) : s.certifyKey.Inv := .modSec (.addIndex (.mendNodes hs))

theorem State.Inv.reserveBlock {s : State} {b : Nat} (hs : s.Inv) : (s.reserveBlock b).Inv := .addIndex (.modSec hs)

theorem State.Inv.setEpoch {s : State} {b : Nat} (hs : s.Inv) : (s.setEpoch b).Inv := .modSec hs

theorem State.Inv.startStep4 {s : State} {fuses : FuseRun} (hs : s.Inv) : (s.startStep4 fuses).Inv := by
  dsimp only [State.startStep4]
  refine .ite (.setEpoch hs) ?_
  split
  · exact .modSec (.setEpoch hs)
  · exact .ite (.setEpoch (.reserveBlock hs)) (.certifyKey (.setEpoch (.reserveBlock hs)))

theorem State.Inv.startStep5 {s : State} {b : StartFacts} (hs : s.Inv) : (s.startStep5 b).Inv := by
  unfold State.startStep5
  extract_lets free
  clear_value free
  exact .mapFailures (.update hs rfl)

theorem State.Inv.setLevels {s : State} {cls ctr : Nat} {l : List (Nat × Nat)} (hs : s.Inv) : (setLevels s cls ctr l).Inv :=
  .foldl (fun _ _ h => .setLevel h) hs

theorem State.Inv.addRepairs {s : State} {cls : Nat} {rows : List (Nat × Nat)} (hs : s.Inv) : (s.addRepairs cls rows).Inv :=
  .foldl (fun _ _ h => .setLevel h) hs

theorem State.Inv.countRepairs {s : State} {b : StartFacts} (hs : s.Inv) : (s.countRepairs b).Inv :=
  .setLevels (.setLevels (.foldl (fun _ _ h => .bumpBy h) (.addRepairs (.addRepairs (.setLevels (.setLevels (.setLevels
      hs)))))))

theorem State.Inv.startCalibs {s : State} (hs : s.Inv) : s.startCalibs.Inv :=
  .foldl (fun _ _ h1 => .setCalib h1) (.foldl (fun _ _ h2 => .setCalib h2) hs)

theorem State.Inv.startStores {s : State} {b : StartFacts} : (s.startStores b).Inv := by
  unfold State.startStores
  extract_lets m c s1 s2 s3 dies s4
  have h1 : s1.Inv := .cleared rfl
  have h2 : s2.Inv := .foldl (fun _ _ h => .retireBlock h) h1
  have h3 : s3.Inv := .foldl (fun _ _ h => .flashLevels h) h2
  have h4 : s4.Inv := .foldl (fun _ _ h => .wearLevels (.retiredLevel h)) h3
  exact .startCalibs (.countRepairs h4)

theorem State.Inv.applyCsr {s : State} (hs : s.Inv) : s.applyCsr.Inv := .foldl (fun _ _ h => .ite h (.writeCsr h)) hs

theorem State.Inv.startPorts {s : State} (hs : s.Inv) : s.startPorts.Inv := .foldl (fun _ _ h => .ite (.modSub h) h) hs

theorem State.Inv.startOrbits {s : State} (hs : s.Inv) : s.startOrbits.Inv := .setSky hs

theorem State.Inv.startStep10 {s : State} {b : StartFacts} (hs : s.Inv) : (s.startStep10 b).Inv := by
  unfold State.startStep10
  extract_lets s1 s2 s3 s4
  have h1 : s2.Inv := .foldl (fun _ _ h => .modSub h) (.advanceTo hs)
  have h2 : s3.Inv := .startPorts (.applyCsr (.startOrbits h1))
  clear_value s3
  exact .endStep10 (.modBoot (.settleAlert (.update h2 rfl)))

theorem State.Inv.startImage {s : State} {slot : Nat} {image : ImageSlot} {cfg : Cfg} {b : StartFacts} (hs : s.Inv) :
    (s.startImage slot image cfg b).Inv := by
  unfold State.startImage
  extract_lets l _ log s1 s2 u
  have hu : u.Inv := .startStep5 (.startStep4 (.modSec (.modBoot hs)))
  clear_value u
  split
  · exact .ite (.configFault (.modBoot hu)) (.hardwareFault (.modBoot hu))
  · exact .startStep10 (.logStart .startStores)

theorem State.Inv.startStep2 {s : State} {b : StartFacts} (hs : s.Inv) : (s.startStep2 b).Inv := by
  dsimp only [State.startStep2]
  split
  · exact .startImage hs
  · exact .configFault (.modBoot hs)

theorem State.Inv.writeImage {s : State} {ref : OrderRef} {image : Ptr} {n : Nat} (hs : s.Inv) : (s.writeImage ref image n).Inv
    :=
  .ite (.finishOrder (.forget hs)) (.ite (.finishOrder (.forget hs)) (.ite (.holdArrival (.orderRead hs)) (.ite (.finishOrder
      (.forget (.orderRead hs))) (.modBoot (.forget (.orderRead hs))))))

theorem Out.Inv.execImageProgrammed {now : Nat} {readBackOk : Bool} {s : State} (hs : s.Inv)
    : Out.Inv (execImageProgrammed now readBackOk s) := by
  refine .next ?_
  dsimp only
  split
  · exact .advanceTo hs
  · exact .ite (.advanceTo hs) (.ite (.finishOrder (.extendM3 (.modBoot (.advanceTo hs)))) (.finishOrder (.modBoot (.advanceTo
        hs))))

/-! ### Machine/Arrivals -/

theorem State.Inv.rerun {s : State} {a : Arrival} (hs : s.Inv) : (s.rerun a).Inv := by
  dsimp only [State.rerun]
  split
  · exact .rowWrite hs (fun _ _ h => .holdArrival h)
  · exact .rowMigrate hs (fun _ h => .holdArrival h)
  · exact .doAttach hs
  · exact .search hs (fun _ h => .holdArrival h)
  · exact .restore hs
  · exact .loadTransits hs
  · exact .writeImage hs
  · exact hs
  · exact hs
  · exact hs
  · exact hs

theorem State.Inv.rerunAll {s : State} (hs : s.Inv) : s.rerunAll.Inv := .foldl (fun _ _ h => .rerun h) (.setArrivals hs)

theorem State.Inv.runJobs {s : State} (hs : s.Inv) : s.runJobs.Inv := .foldl (fun _ _ h => .runJob h) hs

theorem State.Inv.settleAll {s : State} (hs : s.Inv) : s.settleAll.Inv :=
  .foldl (fun _ _ h1 => .settleFault h1) (.foldl (fun _ _ h2 => .ite (.settleDetach h2) h2) (.foldl (fun _ _ h3 => .settleCkpt
      h3) (.foldl (fun _ _ h4 => .settleGather h4) (.runJobs (.runGather hs)))))

theorem State.Inv.progress {s : State} (hs : s.Inv)
    : s.progress.Inv := .serving hs (fun _ h => .settleAll (.rerunAll (.pump h)))

/-! ### Machine/Attest -/

theorem State.Inv.renewKey {s : State} {fuses : FuseRun} (hs : s.Inv) : (s.renewKey fuses).Inv := by
  dsimp only [State.renewKey]
  refine .ite (.certifyKey (.modSec hs)) ?_
  split
  · exact .modSec (.modSec hs)
  · exact .certifyKey (.reserveBlock (.modSec hs))

theorem State.Inv.settleKey {s : State} {fuses : FuseRun} (hs : s.Inv) : (s.settleKey fuses).Inv := .ite (.renewKey hs) hs

theorem State.Inv.useKey {s : State} {fuses : FuseRun} (hs : s.Inv) : (s.useKey fuses).Inv := .settleKey (.modSec hs)

theorem State.Inv.depositBytes {s : State} {req region off : Nat} {l : List Byte} (hs : s.Inv)
    : (s.depositBytes req region off l).Inv :=
  .submit hs

theorem State.Inv.writeReport {s : State} {j : AttestJob} (hs : s.Inv) : (s.writeReport j).1.Inv :=
  .ite_fst (.unitWrite (.takeId hs)) (.depositBytes (.takeId hs))

theorem State.Inv.serveAttest {s : State} {fuses : FuseRun} {j : AttestJob} (hs : s.Inv) : (s.serveAttest fuses j).Inv := by
  dsimp only [State.serveAttest]
  split
  · exact .finishOrder hs
  · exact .finishOrder (.useKey (.writeReport hs))

theorem State.Inv.runAttests {fuses : FuseRun} {s : State} {n : Nat} (hs : s.Inv) : (State.runAttests fuses n s).Inv := by
  induction n generalizing s with
  | zero => exact hs
  | succ n ih =>
    rw [State.runAttests]
    split
    · exact hs
    · exact .ite hs (ih (.serveAttest (.modSec hs)))

theorem Out.Inv.execAttest {o : Order} {cid : Cid} {nonce : BitVec 256} {report : Ptr} {fuses : FuseRun} {s : State}
    (hs : s.Inv) : Out.Inv (execAttest o cid nonce report fuses s) := by
  refine .next (.orderRequest (fun _ _ h => ?_) hs)
  dsimp only
  split
  · exact .finishOrder h
  · exact .runAttests (.modSec h)

theorem Out.Inv.execMacsecCak {o : Order} {target flags : Byte} {ckn : BitVec 112} {wrapped : BitVec 320} {s : State}
    (hs : s.Inv) : Out.Inv (execMacsecCak o target flags ckn wrapped s) := by
  refine .next (.orderRequest (fun _ _ h => ?_) hs)
  dsimp only
  split
  · exact .finishOrder h
  · exact .ite (.finishOrder h) (.finishOrder (.extendM3 (.modSec h)))

theorem State.Inv.jtagTime {s : State} {now : Nat} (hs : s.Inv) : (s.jtagTime now).Inv := .ite hs (.advanceTo hs)

theorem State.Inv.shiftOut {s : State} {x : JtagOut} (hs : s.Inv) : (s.shiftOut x).Inv := .modSec hs

theorem Out.Inv.execLcManufacture {now : Nat} {fuses : FuseRun} {s : State} (hs : s.Inv)
    : Out.Inv (execLcManufacture now fuses s) := by
  refine .next ?_
  refine .ite hs ?_
  refine .ite (.shiftOut (.jtagTime hs)) ?_
  split
  rename_i e1
  split
  rename_i e2
  exact .shiftOut (.modBoot (.modSec (.of_snd e2 (.fresh (.of_snd e1 (.fresh (.jtagTime hs)))))))

theorem Out.Inv.execJtagToken {now level : Nat} {challenge : BitVec 512} {token : List Byte} {s : State} (hs : s.Inv)
    : Out.Inv (execJtagToken now level challenge token s) := by
  refine .next ?_
  split
  rename_i e
  exact .modSec (.shiftOut (.of_snd e (.fresh (.jtagTime hs))))

theorem State.Inv.eraseForScan {s : State} (hs : s.Inv) : s.eraseForScan.Inv := by
  unfold State.eraseForScan
  extract_lets s1 s2
  have h2 : s2.Inv := .zeroPinned (.foldl (fun _ _ h => .setCore h) (.modSec hs))
  exact .update h2 rfl

/-! ### Machine/Flash -/

theorem State.Inv.settleHold {s : State} {k : Nat} (hs : s.Inv) : (s.settleHold k).Inv := by
  dsimp only [State.settleHold]
  split
  · exact .ite (.setSectorByKey hs) (.setSectorByKey hs)
  · exact .setSectorByKey hs
  · exact hs

theorem Out.Inv.execSectorFillDone {now region sector retries : Nat} {soft uncorrectable : Bool} {s : State} (hs : s.Inv)
    : Out.Inv (execSectorFillDone now region sector retries soft uncorrectable s) := by
  refine .event (now := now) hs fun _ h => ?_
  extract_lets u x copy
  clear_value copy
  have hu : u.Inv := h
  split
  · refine .ite hu ?_
    split
    rename_i filled there e
    have h1 : filled.Inv := by
      split at e
      · exact .of_fst e (.fillSector hu)
      · exact .of_fst e (.mendSector hu)
    extract_lets counted alerted settled
    have h2 : counted.Inv := .resumePrograms (.countFlashRead h1)
    exact .ite h1 (.pump (.settleHold (.setSector (.ite (.bumpAlert h2) h2))))
  · exact hu

theorem Out.Inv.execSectorMoveDone {now region sector : Nat} {s : State} (hs : s.Inv)
    : Out.Inv (execSectorMoveDone now region sector s) := by
  refine .event (now := now) hs fun _ h => ?_
  dsimp only
  split
  · exact .pump (.settleHold (.setSector h))
  · exact h

theorem Out.Inv.execFlashProgramDone {now region sector : Nat} {ok : Bool} {s : State} (hs : s.Inv)
    : Out.Inv (execFlashProgramDone now region sector ok s) := by
  refine .event (now := now) hs fun _ h => ?_
  dsimp only
  refine .ite h ?_
  split
  · exact h
  · exact .ite (.pump (.setSector (.dropCopy (.programSector h)))) (.retireBlock (.bump h))

theorem State.Inv.relocate {s : State} {g : Nat} (hs : s.Inv) : (s.relocate g).Inv := by
  dsimp only [State.relocate]
  split
  · exact .programGranule hs
  · exact hs

theorem State.Inv.eraseCodewords {s : State} {k : Nat} (hs : s.Inv) : (s.eraseCodewords k).Inv := .setNand hs

theorem Out.Inv.execGarbageCollection {now channel block : Nat} {eraseOk : Bool} {s : State} (hs : s.Inv) :
    Out.Inv (execGarbageCollection now channel block eraseOk s) := by
  unfold Machine.execGarbageCollection
  extract_lets u k moved counted b freed retired
  have hm : moved.Inv := .foldl (fun _ _ h => .relocate h) (.advanceTo hs)
  have hf : freed.Inv := .ite (.wearLevels (.setNandBlock (.eraseCodewords (.bump hm)))) (.retireBlock (.bump (.bump hm)))
  have hr : retired.Inv := .ite (.retireBlock hf) hf
  exact .next (.ite (.advanceTo hs) (.ite hm (.pump (.flashLevels hr))))

theorem State.Inv.dimmOf {s : State} {c : Nat} (hs : s.Inv) : (s.dimmOf c).2.Inv := .fresh hs

theorem State.Inv.countBad {s : State} {p : Place} (hs : s.Inv) : (s.countBad p).Inv := by
  dsimp only [State.countBad]
  split
  · exact .bumpAlert hs
  · exact .bumpAlert (.bumpAlert (.dimmOf hs))
  · exact hs

theorem State.Inv.countGood {s : State} {p : Place} {symbols : Nat} (hs : s.Inv) : (s.countGood p symbols).Inv := by
  dsimp only [State.countGood]
  refine .ite hs ?_
  split
  · exact .bumpBy hs
  · exact .ite (.bump (.bumpBy (.bumpBy (.dimmOf hs)))) (.bumpBy (.bumpBy (.dimmOf hs)))
  · exact hs

theorem Out.Inv.execPatrolScrub {now region line : Nat} {errors : List (Nat × Byte)} {s : State} (hs : s.Inv)
    : Out.Inv (execPatrolScrub now region line errors s) := by
  refine .next ?_
  dsimp only
  refine .ite (.advanceTo hs) ?_
  split
  · split
    · rename_i e
      exact .of_fst e (.rebuiltLine (.advanceTo hs))
    · rename_i e
      exact .mendLine (.countBad (.update (.of_fst e (.rebuiltLine (.advanceTo hs))) rfl))
  · exact .setPoison (.writeBytes (.countGood (.update (.advanceTo hs) rfl)))

/-! ### Machine/GridVector -/

theorem State.Inv.writeVec {s : State} {t : Thread} {vd : Nat} {v : Vec} {p : Bool} (hs : s.Inv) : (s.writeVec t vd v p).Inv :=
  .retire (.setSlot hs)

theorem State.Inv.writeMask {s : State} {t : Thread} {m : Nat} {v : W64} {p : Bool} (hs : s.Inv) : (s.writeMask t m v p).Inv :=
  .retire (.setSlot hs)

theorem State.Inv.elementwise {s : State} {t : Thread} {ty : ElemTy} {ok : Bool} {f : FmtV} {poison : Bool} {g : Nat → Nat}
    (hs : s.Inv) : (s.elementwise t ty ok f poison g).Inv :=
  .guarded hs (.writeVec hs)

theorem State.Inv.varith2 {types : List ElemTy} {op : Num → Num → Num} {f : FmtV} {t : Thread} {s : State} (hs : s.Inv)
    : (varith2 types op f t s).Inv :=
  .elementwise hs

theorem State.Inv.varith1 {types : List ElemTy} {op : Num → Num} {f : FmtV} {t : Thread} {s : State} (hs : s.Inv)
    : (varith1 types op f t s).Inv :=
  .elementwise hs

theorem State.Inv.varith3 {op : Num → Num → Num → Num} {f : FmtV} {t : Thread} {s : State} (hs : s.Inv)
    : (varith3 op f t s).Inv :=
  .elementwise hs

theorem State.Inv.vlogic {op : Nat → Nat → Nat} {f : FmtV} {t : Thread} {s : State} (hs : s.Inv) : (vlogic op f t s).Inv :=
  .elementwise hs

theorem State.Inv.vcompare {test : ℤ → Bool} {f : FmtV} {t : Thread} {s : State} (hs : s.Inv) : (vcompare test f t s).Inv :=
  .guarded hs (.writeMask hs)

/-! ### Machine/GridExact -/

theorem State.Inv.setAcc {s : State} {t : Thread} {e : BitVec 3} {a : AccReg} (hs : s.Inv) : (s.setAcc t e a).Inv := .setCore hs

theorem State.Inv.writeAcc {s : State} {t : Thread} {e : BitVec 3} {a : AccReg} (hs : s.Inv) : (s.writeAcc t e a).Inv :=
  .retire (.setAcc hs)

/-! ### Machine/GridMemory -/

theorem State.Inv.issueStore {s : State} {t : Thread} {r : GridReq} (hs : s.Inv) : (s.issueStore t r).Inv := .request (.retire
    hs)

theorem State.Inv.issueLoad {s : State} {t : Thread} {r : GridReq} {w : ThreadWait} (hs : s.Inv) : (s.issueLoad t r w).Inv :=
  .request (.await hs)

theorem State.Inv.memory {s : State} {t : Thread} {checks : List (Bool × Byte)} {go : State} (hs : s.Inv) (hs1 : go.Inv)
    : (s.memory t checks go).Inv :=
  .guarded hs (.ite hs hs1)

/-! ### Machine/Magnitude -/

theorem State.Inv.alertAmong {s : State} {cls unit : Nat} {ctrs : List Nat} (hs : s.Inv) : (s.alertAmong cls unit ctrs).Inv :=
    by
  dsimp only [State.alertAmong]
  split
  · exact hs
  · exact .alertNow hs

theorem State.Inv.countHardware {s : State} {l : List (Nat × Nat × Nat × Nat)} (hs : s.Inv) : (s.countHardware l).Inv :=
  .foldl (fun _ _ h1 => .alertAmong h1) (.foldl (fun _ _ h2 => .ite (.setLevel h2) (.bumpBy h2)) hs)

theorem State.Inv.sensorMinute {s : State} {u : Nat} (hs : s.Inv) : (s.sensorMinute u).Inv :=
  .setLevel (.setLevel (.ite (.bump hs) hs))

theorem State.Inv.setHealth {s : State} {x : Health} (hs : s.Inv) : (s.setHealth x).Inv := .update hs rfl

theorem State.Inv.bandNotice {s : State} {old : Tab Score} {e : Nat × Nat} (hs : s.Inv) : (s.bandNotice old e).Inv :=
  .ite hs (.notice hs)

theorem State.Inv.endMinute {s : State} (hs : s.Inv) : s.endMinute.Inv :=
  .settleAlert (.foldl (fun _ _ h1 => .bandNotice h1) (.setHealth (.foldl (fun _ _ h2 => .sensorMinute h2) hs)))

/-! ### Machine/Management -/

theorem State.Inv.countInvalid {s : State} (hs : s.Inv) : s.countInvalid.Inv := .update hs rfl

theorem State.Inv.readRegs {s : State} {m : Aid} {a n : Nat} (hs : s.Inv) : (s.readRegs m a n).1.Inv := by
  induction n generalizing s a with
  | zero => exact hs
  | succ n ih => exact .ite_fst hs (.ite_fst (.countInvalid hs) (ih (.takeCsr hs)))

theorem State.Inv.writeRegs {s : State} {m : Aid} {a : Nat} {l : List W64} (hs : s.Inv) : (s.writeRegs m a l).1.Inv := by
  induction l generalizing s a with
  | nil => exact hs
  | cons v l ih => exact .ite_fst hs (.ite_fst (.countInvalid hs) (ih (.writeCsr (.ite hs (.extendM3 hs)))))

theorem State.Inv.readAccess {h : Hdr} {t : Trailer} {addr count : Nat} {s : State} (hs : s.Inv)
    : (readAccess h t addr count s).Inv :=
  .managed (fun _ h1 => .zeroChecked (fun _ h2 => .respondAuth h2) (fun _ h2 => .ite (.respondAuth h2) (.respondAuth (.readRegs
      h2))) h1) hs

theorem State.Inv.writeAccess {h : Hdr} {t : Trailer} {addr : Nat} {values : List W64} {s : State} (hs : s.Inv)
    : (writeAccess h t addr values s).Inv :=
  .managed (fun _ h1 => .zeroChecked (fun _ h2 => .respondAuth h2) (fun _ h2 => .ite (.respondAuth h2) (.ite (.respondAuth h2)
      (.respondAuth (.writeRegs h2)))) h1) hs

/-! ### Machine/Version1 -/

theorem State.Inv.v1Frame {h : Hdr} {k : State → State} {s : State} (hk : ∀ u, u.Inv → (k u).Inv) (hs : s.Inv)
    : (v1Frame h k s).Inv :=
  .ite hs (.linkChecksV1 (fun _ h2 => .ite (hk _ h2) (.bump h2)) hs)

theorem State.Inv.v1Access {s : State} {h : Hdr} {opcode : Byte} {rh : Handle} {right : Nat} {a : Access} (hs : s.Inv)
    : (s.v1Access h opcode rh right a).Inv := by
  dsimp only [State.v1Access]
  split
  · exact .respondV1 hs
  · exact .submit hs

theorem Out.Inv.execV1Frame {h : Hdr} {region : BitVec 24} {offset : BitVec 40} {len : BitVec 16} {op : V1Op} {s : State}
    (hs : s.Inv) : Out.Inv (execV1Frame h region offset len op s) := by
  refine .next ?_
  refine .v1Frame (fun _ h1 => ?_) hs
  dsimp only
  refine .ite (.respondV1 h1) ?_
  split
  · exact .respondV1 (.violation h1)
  · split
    · exact .v1Access h1
    · exact .v1Access h1
    · exact .v1Access h1
    · exact .ite (.respondV1 h1) (.restore h1)
    · exact .respondV1 h1

/-- Every command keeps the bytes canonical. -/
theorem Out.Inv.exec {c : Instr} {s : State} (hs : s.Inv) : Out.Inv (exec c s) := by
  cases c with
  | add => exact .next (.gridStep (fun _ _ h => .aluOp h) hs)
  | sub => exact .next (.gridStep (fun _ _ h => .aluOp h) hs)
  | and => exact .next (.gridStep (fun _ _ h => .aluOp h) hs)
  | or => exact .next (.gridStep (fun _ _ h => .aluOp h) hs)
  | xor => exact .next (.gridStep (fun _ _ h => .aluOp h) hs)
  | sll => exact .next (.gridStep (fun _ _ h => .aluOp h) hs)
  | srl => exact .next (.gridStep (fun _ _ h => .aluOp h) hs)
  | sra => exact .next (.gridStep (fun _ _ h => .aluOp h) hs)
  | slt => exact .next (.gridStep (fun _ _ h => .aluOp h) hs)
  | sltu => exact .next (.gridStep (fun _ _ h => .aluOp h) hs)
  | mul => exact .next (.gridStep (fun _ _ h => .aluOp h) hs)
  | mulhu => exact .next (.gridStep (fun _ _ h => .aluOp h) hs)
  | divu => exact .next (.gridStep (fun _ _ h => .aluOp h) hs)
  | remu => exact .next (.gridStep (fun _ _ h => .aluOp h) hs)
  | min => exact .next (.gridStep (fun _ _ h => .aluOp h) hs)
  | max => exact .next (.gridStep (fun _ _ h => .aluOp h) hs)
  | sextb => exact .next (.gridStep (fun _ _ h => .aluOne h) hs)
  | sexth => exact .next (.gridStep (fun _ _ h => .aluOne h) hs)
  | sextw => exact .next (.gridStep (fun _ _ h => .aluOne h) hs)
  | addi => exact .next (.gridStep (fun _ _ h => .immOp h) hs)
  | andi => exact .next (.gridStep (fun _ _ h => .immOp h) hs)
  | ori => exact .next (.gridStep (fun _ _ h => .immOp h) hs)
  | xori => exact .next (.gridStep (fun _ _ h => .immOp h) hs)
  | slti => exact .next (.gridStep (fun _ _ h => .immOp h) hs)
  | sltiu => exact .next (.gridStep (fun _ _ h => .immOp h) hs)
  | shi => exact .next (.gridStep (fun _ _ h => .immOp h) hs)
  | lui => exact .next (.gridStep (fun _ _ h => .writeReg h) hs)
  | jal => exact .next (.gridStep (fun _ _ h => .guarded h (.jump h)) hs)
  | jalr => exact .next (.gridStep (fun _ _ h => .guarded h (.jump h)) hs)
  | beq => exact .next (.gridStep (fun _ _ h => .branchOp h) hs)
  | bne => exact .next (.gridStep (fun _ _ h => .branchOp h) hs)
  | blt => exact .next (.gridStep (fun _ _ h => .branchOp h) hs)
  | bge => exact .next (.gridStep (fun _ _ h => .branchOp h) hs)
  | bltu => exact .next (.gridStep (fun _ _ h => .branchOp h) hs)
  | bgeu => exact .next (.gridStep (fun _ _ h => .branchOp h) hs)
  | sld => exact .next (.gridStep (fun _ _ h => .guarded h (.writeReg h)) hs)
  | sst => exact .next (.gridStep (fun _ _ h => .guarded h (.retire (.putScratch h))) hs)
  | samo => exact .next (.gridStep (fun _ _ h => .guarded h (.writeReg (.putScratch h))) hs)
  | vsld => exact .next (.gridStep (fun _ _ h => .guarded h (.writeVec h)) hs)
  | vsst => exact .next (.gridStep (fun _ _ h => .guarded h (.retire (.putScratch h))) hs)
  | ld => exact .next (.gridStep (fun _ _ h => .memory h (.issueLoad h)) hs)
  | st => exact .next (.gridStep (fun _ _ h => .memory h (.issueStore h)) hs)
  | amo => exact .next (.gridStep (fun _ _ h => .memory h (.issueLoad h)) hs)
  | vld => exact .next (.gridStep (fun _ _ h => .memory h (.issueLoad h)) hs)
  | vst => exact .next (.gridStep (fun _ _ h => .memory h (.issueStore h)) hs)
  | bget => exact .next (.gridStep (fun _ _ h => .memory h (.issueLoad h)) hs)
  | bput => exact .next (.gridStep (fun _ _ h => .memory h (.issueStore h)) hs)
  | send => exact .execSend hs
  | recv => exact .execRecv hs
  | halt => exact .next (.gridStep (fun _ _ h => .haltThread (.retire h)) hs)
  | switch => exact .execSwitch hs
  | twait => exact .next (.gridStep (fun _ _ h => .guarded h (.ite (.retire h) (.await h))) hs)
  | rdsdc => exact .next (.gridStep (fun _ _ h => .writeReg h) hs)
  | sacq => exact .execSacq hs
  | srel => exact .execSrel hs
  | sysRelease => exact .next (.gridStep (fun _ _ h => .settleRelease (.await h)) hs)
  | rdinfo => exact .next (.gridStep (fun _ _ h => .writeReg h) hs)
  | rdcyc => exact .next (.gridStep (fun _ _ h => .writeReg h) hs)
  | vadd => exact .next (.gridStep (fun _ _ h => .varith2 h) hs)
  | vsub => exact .next (.gridStep (fun _ _ h => .varith2 h) hs)
  | vmul => exact .next (.gridStep (fun _ _ h => .varith2 h) hs)
  | vfma => exact .next (.gridStep (fun _ _ h => .varith3 h) hs)
  | vfms => exact .next (.gridStep (fun _ _ h => .varith3 h) hs)
  | vmin => exact .next (.gridStep (fun _ _ h => .varith2 h) hs)
  | vmax => exact .next (.gridStep (fun _ _ h => .varith2 h) hs)
  | vabs => exact .next (.gridStep (fun _ _ h => .varith1 h) hs)
  | vneg => exact .next (.gridStep (fun _ _ h => .varith1 h) hs)
  | vdiv => exact .next (.gridStep (fun _ _ h => .varith2 h) hs)
  | vsqrt => exact .next (.gridStep (fun _ _ h => .varith1 h) hs)
  | vdot => exact .next (.gridStep (fun _ _ h => .elementwise h) hs)
  | vdotmx => exact .next (.gridStep (fun _ _ h => .guarded h (.writeVec h)) hs)
  | vcvt => exact .next (.gridStep (fun _ _ h => .guarded h (.writeVec h)) hs)
  | vand => exact .next (.gridStep (fun _ _ h => .vlogic h) hs)
  | vor => exact .next (.gridStep (fun _ _ h => .vlogic h) hs)
  | vxor => exact .next (.gridStep (fun _ _ h => .vlogic h) hs)
  | vsel => exact .next (.gridStep (fun _ _ h => .guarded h (.writeVec h)) hs)
  | vcmpeq => exact .next (.gridStep (fun _ _ h => .vcompare h) hs)
  | vcmplt => exact .next (.gridStep (fun _ _ h => .vcompare h) hs)
  | vcmple => exact .next (.gridStep (fun _ _ h => .vcompare h) hs)
  | vbcast => exact .next (.gridStep (fun _ _ h => .elementwise h) hs)
  | vext => exact .next (.gridStep (fun _ _ h => .guarded h (.writeReg h)) hs)
  | vins => exact .next (.gridStep (fun _ _ h => .guarded h (.writeVec h)) hs)
  | vmts => exact .next (.gridStep (fun _ _ h => .guarded h (.writeReg h)) hs)
  | vstm => exact .next (.gridStep (fun _ _ h => .guarded h (.writeMask h)) hs)
  | vdeq => exact .next (.gridStep (fun _ _ h => .elementwise h) hs)
  | xclr => exact .next (.gridStep (fun _ _ h => .guarded h (.writeAcc h)) hs)
  | xadd => exact .next (.gridStep (fun _ _ h => .guarded h (.writeAcc h)) hs)
  | xdot => exact .next (.gridStep (fun _ _ h => .guarded h (.writeAcc h)) hs)
  | xdotmx => exact .next (.gridStep (fun _ _ h => .guarded h (.writeAcc h)) hs)
  | xread => exact .next (.gridStep (fun _ _ h => .guarded h (.ite (.writeReg h) (.writeReg h))) hs)
  | xexp => exact .next (.gridStep (fun _ _ h => .guarded h (.retire (.putScratch h))) hs)
  | ximp => exact .next (.gridStep (fun _ _ h => .guarded h (.writeAcc h)) hs)
  | xflag => exact .next (.gridStep (fun _ _ h => .guarded h (.writeReg h)) hs)
  | reservedInstruction => exact .next (.gridStep (fun _ _ h => .ite (.fault h) h) hs)
  | storeCompletion => exact .execStoreCompletion hs
  | rollbackComplete => exact .execRollbackComplete hs
  | refresh => exact .next (.ite hs (.update (.advanceTo hs) rfl))
  | read => exact .next (.readFrame hs)
  | readAcquire => exact .next (.readFrame hs)
  | readVolatile => exact .next (.readFrame hs)
  | write => exact .next (.writeFrame hs)
  | writeFlagged => exact .next (.writeFrame hs)
  | release => exact .execRelease hs
  | atomic h _ _ _ => exact .next (.memberRequest (fun _ h => .admitAccess h) hs)
  | publish h _ _ => exact .next (.memberRequest (fun _ h => .admitAccess h) hs)
  | cReadShared => exact .next (.cohFrame hs)
  | cReadOwn => exact .next (.cohFrame hs)
  | cUpgrade => exact .next (.cohFrame hs)
  | cWriteback => exact .next (.cohFrame hs)
  | cSnoopInv h _ => exact .next (.consumed (fun _ h => .senderRejected h) hs)
  | cSnoopFwd h _ => exact .next (.consumed (fun _ h => .senderRejected h) hs)
  | cData => exact .execCData hs
  | ownTake h _ => exact .next (.ownRequest (fun _ _ h => .ite (.respond (.setSpan h)) (.ite (.respond h) (.respond h))) hs)
  | ownGive => exact .execOwnGive hs
  | ownGiveComplete => exact .execOwnGiveComplete hs
  | handoffOffer => exact .execHandoffOffer hs
  | objectWritesDrained now _ => exact .event (now := now) hs fun _ h => .ite (.takeHandoff (.send (.setObject h))) h
  | handoffAccept h _ _ => exact .next (.receiverFrame (fun _ _ _ h => .respond (.takeHandoff (.setObject h))) hs)
  | handoffTransferDone => exact .execHandoffTransferDone hs
  | handoffDecline h _ _ => exact .next (.receiverFrame (fun _ _ _ h => .respond (.revertHandoff h)) hs)
  | handoffDeadline now _ => exact .event (now := now) hs fun _ h => .ite (.revertHandoff h) h
  | handoffNotice h _ _ => exact .next (.consumed (fun _ h => .senderRejected h) hs)
  | handoffDone h _ _ _ _ => exact .next (.consumed (fun _ h => .senderRejected h) hs)
  | objectQuery h _ => exact .next (.objectRequest (fun _ _ h => .respond h) hs)
  | move => exact .execMove hs
  | fault h _ _ _ _ _ _ => exact .next (.consumed (fun _ h => .senderRejected h) hs)
  | resume => exact .execResume hs
  | invalRange => exact .execInvalRange hs
  | invalAck h _ _ _ => exact .next (.consumed (fun _ h => .senderRejected h) hs)
  | gatherPool h _ _ _ _ _ _ => exact .next (.engineRequest (fun _ h => .chargeGather (.runGather (.setEmb h))) hs)
  | rowWrite => exact .next (.engineRequest (fun _ h1 => .rowWrite h1 (fun _ _ h2 => .holdArrival h2)) hs)
  | search => exact .next (.engineRequest (fun _ h1 => .search h1 (fun _ h2 => .holdArrival h2)) hs)
  | ckptCompress h _ _ _ _ _ _ => exact .next (.engineRequest (fun _ h => .acceptCkpt h) hs)
  | ckptRestore h _ _ _ _ => exact .next (.engineRequest (fun _ h => .restore h) hs)
  | stepOpen h _ _ => exact .next (.stepFrame (fun _ _ _ h => .ite (.mismatch h) (.answerStep (.openStepOf h))) hs)
  | stepCommit => exact .execStepCommit hs
  | commitSequenceEnd => exact .execCommitSequenceEnd hs
  | rollback => exact .execRollback hs
  | eclipse _ _ _ origin _ => exact .execEclipse (_origin := origin) hs
  | eclipseQuiesced => exact .execEclipseQuiesced hs
  | eclipseRestore => exact .execEclipseRestore hs
  | eclipseComplete => exact .execEclipseComplete hs
  | mirrorWrite => exact .next (.replicaFrame hs)
  | parityDelta => exact .next (.replicaFrame hs)
  | replicaAnswer => exact .execReplicaAnswer hs
  | tick h _ _ => exact .next (.linkChecks (fun _ h => .ite (.bump h) (.ite (.bump h) (.countedTick (.setSky h)))) hs)
  | mgmtRead => exact .next (.readAccess hs)
  | mgmtWrite => exact .next (.writeAccess hs)
  | mgmtNotice h _ _ _ _ => exact .next (.managed (fun _ h => .senderRejected h) hs)
  | expel => exact .execExpel hs
  | admitDevice => exact .execAdmitDevice hs
  | hopAck => exact .execHopAck hs
  | hopNak h _ _ => exact .next (.linkArrival (fun _ h => .ite h (.replayFrames (.modHop h))) hs)
  | unlistedOpcode => exact .execUnlistedOpcode hs
  | v1Frame => exact .execV1Frame hs
  | forwardFrame => exact .execForwardFrame hs
  | otherFrame => exact .execOtherFrame hs
  | pfcFrame => exact .execPfcFrame hs
  | pauseExpiry => exact .execPauseExpiry hs
  | xoffRefresh => exact .execXoffRefresh hs
  | egressSelect => exact .execEgressSelect hs
  | eapolFrame => exact .next (.ite hs (.ite (.advanceTo hs) (.ite (.secureSub (.advanceTo hs)) (.closeSub (.advanceTo hs)))))
  | ptpMessage => exact .execPtpMessage hs
  | neighborSolicitation => exact .execNeighborSolicitation hs
  | replayTimeout => exact .execReplayTimeout hs
  | hopHoldExpiry => exact .execHopHoldExpiry hs
  | linkTrainingStart => exact .next (.ite (.advanceTo hs) (.modSub (.ite (.bump (.advanceTo hs)) (.advanceTo hs))))
  | linkUp => exact .execLinkUp hs
  | trainingTimeout => exact .next (.ite (.advanceTo hs) (.endStep10 (.setSub (.advanceTo hs))))
  | linkLoss => exact .next (.retrain (.advanceTo hs))
  | fecDegrade => exact .next (.ite hs (.ite (.retrain (.bumpBy (.advanceTo hs))) (.bumpBy (.advanceTo hs))))
  | pfcWatchdog => exact .execPfcWatchdog hs
  | d2dRetryFailure => exact .next (.ite hs (.withdrawal hs (fun _ h2 => .bumpBy (.bumpBy h2))))
  | refclkLoss => exact .next (.ite hs (.withdrawal hs (fun _ h2 => h2)))
  | vio18Loss => exact .next (.withdrawal hs (fun _ h => h))
  | thermalTrip => exact .execThermalTrip hs
  | sensorFault => exact .next (.ite hs (.setPower (.bumpAlert (.advanceTo hs))))
  | throttleStep => exact .execThrottleStep hs
  | lowInput => exact .next (.ite hs (.setPower (.advanceTo hs)))
  | wholeDeviceReset => exact .execWholeDeviceReset hs
  | inputUndervoltage => exact .next (.ite hs (.setPower (.enterReset hs)))
  | startSequence => exact .next (.ite (.startStep2 (.startStep1 hs)) hs)
  | reloadN =>
    exact .next (.ite hs (.ite (.startStep2 (.settleAlert (.update (.advanceTo hs) rfl))) (.modBoot (.advanceTo hs))))
  | presentTimer => exact .next (.ite (.advanceTo hs) (.notice (.modBoot (.advanceTo hs))))
  | requestTimeout => exact .execRequestTimeout hs
  | tallyExpiry => exact .execTallyExpiry hs
  | deviceResetEntry => exact .execDeviceResetEntry hs
  | skyEdge => exact .execSkyEdge hs
  | localTick => exact .next (.ite hs (.ite (.advanceTo hs) (.countedTick (.setSky (.advanceTo hs)))))
  | tickAbsence => exact .execTickAbsence hs
  | promote => exact .next (.fireTransit (fun _ _ _ h => .firePromote h) hs)
  | reserve => exact .next (.fireTransit (fun _ _ _ h => .fireReserve h) hs)
  | commit => exact .execCommit hs
  | calibrate => exact .execCalibrate hs
  | testWindow => exact .next (.fireTransit (fun _ _ _ h => .startTest h) hs)
  | reservationEnd => exact .execReservationEnd hs
  | scheduledRelease now _ _ => exact .event (now := now) hs fun _ h => .ite (.pump (.demote h)) h
  | promoteDue => exact .execPromoteDue hs
  | calibrationDone => exact .execCalibrationDone hs
  | calibrationLapse => exact .execCalibrationLapse hs
  | sectorFillDone => exact .execSectorFillDone hs
  | sectorMoveDone => exact .execSectorMoveDone hs
  | flashProgramDone => exact .execFlashProgramDone hs
  | garbageCollection => exact .execGarbageCollection hs
  | patrolScrub => exact .execPatrolScrub hs
  | regionDrained now _ => exact .event (now := now) hs fun _ h => .ite h (.ite (.recallRegion h) (.endDrain (.recallRegion h)))
  | retierCopyDone => exact .execRetierCopyDone hs
  | releaseZeroingDone => exact .execReleaseZeroingDone hs
  | snoopAnswer => exact .execSnoopAnswer hs
  | flaggedStorePerform => exact .next (.unpark hs)
  | releaseComplete => exact .execReleaseComplete hs
  | publishPerform => exact .next (.unpark hs)
  | moverDispatch now _ => exact .event (now := now) hs fun _ h => .ite h (.dispatch h)
  | walk => exact .execWalk hs
  | stagingGrant => exact .execStagingGrant hs
  | segmentDone => exact .execSegmentDone hs
  | descriptorDone => exact .execDescriptorDone hs
  | faultSlotCheck => exact .execFaultSlotCheck hs
  | parkedSlotFree => exact .execParkedSlotFree hs
  | invalQuiesce => exact .execInvalQuiesce hs
  | lookup => exact .execLookup hs
  | heldLookup => exact .execHeldLookup hs
  | bagWrite => exact .execBagWrite hs
  | migrationCopyTurn => exact .execMigrationCopyTurn hs
  | mergeStart now _ => exact .event (now := now) hs fun _ h => .ite (.settleDetach (.mergeParts (.mergeDue (.wakeMerge h)))) h
  | mergeTombstones now _ => exact .event (now := now) hs fun _ h => .ite (.settleDetach (.mergeParts (.wakeMerge h))) h
  | mergeRepair now _ => exact .event (now := now) hs fun _ h => .ite (.settleDetach (.mergeParts (.wakeMerge h))) h
  | searchBatch => exact .execSearchBatch hs
  | lensVisit => exact .execLensVisit hs
  | searchResults => exact .execSearchResults hs
  | cuppingPassEnd => exact .execCuppingPassEnd hs
  | groupWriteDone => exact .execGroupWriteDone hs
  | restoreGroup => exact .execRestoreGroup hs
  | rebuildChunk => exact .execRebuildChunk hs
  | generationRetired => exact .execGenerationRetired hs
  | compReleaseDone => exact .execCompReleaseDone hs
  | clusterQuiesced now _ => exact .event (now := now) hs fun _ h => .ite (.setCluster h) h
  | clusterZeroed now _ =>
    exact .event (now := now) hs fun _ h => .ite (.settleDeferred (.settleReleases (.setCluster (.zeroCluster h)))) h
  | programLoaded => exact .next (.serving hs (fun _ h => .settleDeferred (.programLoaded h)))
  | programUnloaded => exact .next (.serving hs (fun _ h => .settleDeferred (.programUnloaded h)))
  | blockDrainDone => exact .execBlockDrainDone hs
  | testEnd => exact .execTestEnd hs
  | imageProgrammed => exact .execImageProgrammed hs
  | attestKeyReady => exact .next (.ite hs (.runAttests (.settleKey (.modSec (.advanceTo hs)))))
  | magnitudeUpdate => exact .next (.ite hs (.endMinute (.countHardware (.advanceTo hs))))
  | dimmTemperaturePoll =>
    exact .next (.ite hs (.foldl (fun _ _ h3 => .setCalib h3) (.foldl (fun _ _ h4 => .setLevel h4) (.advanceTo hs))))
  | coreError => exact .execCoreError hs
  | mailboxDelivery => exact .execMailboxDelivery hs
  | gridResponse => exact .execGridResponse hs
  | regionCreate => exact .execRegionCreate hs
  | regionAssign => exact .execRegionAssign hs
  | regionRevoke => exact .execRegionRevoke hs
  | regionRelease => exact .execRegionRelease hs
  | regionRetier => exact .execRegionRetier hs
  | compCreate => exact .execCompCreate hs
  | compAgent => exact .execCompAgent hs
  | compAdvance => exact .next (.activeOrder (fun _ _ _ h => .ite (.finishOrder h) (.finishOrder (.setComp h))) hs)
  | compRetire => exact .next (.activeOrder (fun _ _ _ h => .ite (.genRetired (.finishOrder h)) (.finishOrder (.setComp h))) hs)
  | compRelease => exact .execCompRelease hs
  | compMeter => exact .next (.activeOrder (fun _ _ _ h => .finishOrder (.ite (.modComp h) h)) hs)
  | compQuery => exact .execCompQuery hs
  | agentDead => exact .next (.activeOrder (fun _ _ _ h => .finishOrder (.agentDies h)) hs)
  | orbitDefine => exact .execOrbitDefine hs
  | transitLoad => exact .next (.orderRequest (fun _ _ h => .loadTransits h) hs)
  | orbitEnable => exact .next (.orderRequest (fun _ _ h => .ite (.finishOrder h) (.finishOrder (.setOrbit h))) hs)
  | orbitDisable => exact .next (.orderRequest (fun _ _ h => .ite (.finishOrder h) (.finishOrder (.setOrbit h))) hs)
  | skyRearm => exact .next (.orderRequest (fun _ _ h => .finishOrder (.setSky h)) hs)
  | clusterAssign => exact .next (.gridOrder (fun _ _ h => .doAssign h) hs)
  | clusterRelease => exact .next (.gridOrder (fun _ _ h => .settleDeferred (.doRelease h)) hs)
  | programLoad => exact .next (.gridOrder (fun _ _ h => .doLoad h) hs)
  | programStart => exact .next (.gridOrder (fun _ _ h => .doStart h) hs)
  | programSwitch => exact .next (.gridOrder (fun _ _ h => .doSwitch h) hs)
  | programUnload => exact .next (.gridOrder (fun _ _ h => .doUnload h) hs)
  | rowMigrate => exact .execRowMigrate hs
  | searchAttach => exact .next (.gridOrder (fun _ _ h => .doAttach h) hs)
  | searchDetach => exact .execSearchDetach hs
  | groupDefine => exact .execGroupDefine hs
  | groupTakeover => exact .execGroupTakeover hs
  | groupRebuild => exact .execGroupRebuild hs
  | imageWrite => exact .next (.orderRequest (fun _ _ h => .writeImage h) hs)
  | reset => exact .execReset hs
  | blockDrain => exact .next (.orderRequest (fun _ _ h => .ite (.finishOrder h) (.finishOrder (.ite (.setBlock h) h))) hs)
  | blockReturn => exact .execBlockReturn hs
  | testOrder => exact .execTestOrder hs
  | calibRun => exact .execCalibRun hs
  | deviceReset => exact .execDeviceReset hs
  | attest => exact .execAttest hs
  | floorRaise => exact .execFloorRaise hs
  | lcRetire => exact .execLcRetire hs
  | macsecCak => exact .execMacsecCak hs
  | portRetrain => exact .next (.orderRequest (fun _ _ h => .ite (.retrain (.finishOrder h)) (.finishOrder h)) hs)
  | cmpRecSel => exact .next (.writeAccess hs)
  | swtFwd => exact .next (.writeAccess hs)
  | grdFaultLatch => exact .next (.ite hs (.writeAccess hs))
  | hltAlert => exact .next (.writeAccess hs)
  | pwrPeak => exact .next (.readAccess hs)
  | lcManufacture => exact .execLcManufacture hs
  | provision => exact .next (.ite hs (.ite (.shiftOut (.jtagTime hs)) (.modSec (.setOwners (.jtagTime hs)))))
  | jtagToken => exact .execJtagToken hs
  | scanTest => exact .next (.ite (.eraseForScan (.jtagTime hs)) hs)
  | boundaryScan => exact .next (.ite (.modSec (.jtagTime hs)) hs)

/-- Settles O56: each function of the model that gives a state keeps the canonical form, from the state's own up to the commands. -/
theorem stepKeepsMemoryCanonical : Obligations.StepKeepsMemoryCanonical := by
  intro s t hs e
  have hs : s.Inv := hs
  unfold State.steps Machine.step at e
  split at e
  · exact Out.Inv.next (.progress hs) t e
  · rename_i c rest _
    have hr : State.Inv { s with pending := rest } := .update hs rfl
    exact Out.Inv.exec hr t e

end Sys2Proof.Machine
end

section
/-! Proofs about the creation of regions (02: R28): what a REGION_CREATE of any other size answers, and that the sizes it makes
are multiples of 2 MiB. -/
namespace Sys2Proof.Machine

/-! ### Tables -/

/-- A set of a value that is not the default reads back, and changes no other key: on any table, canonical or not. -/
theorem Tab.get_set_of_ne {α : Type} [DecidableEq α] {d v : α} (hv : v ≠ d) (t : Tab α) (k i : Nat) :
    Tab.get d (Tab.set d t k v) i = if i = k then v else Tab.get d t i := by
  induction t with
  | nil => grind [Tab.get, Tab.set]
  | cons e t ih => grind [Tab.get, Tab.set]

/-! ### What the checks before an order leave alone -/

@[simp] theorem hopCheck_store (h : Hdr) (s : State) : (hopCheck h s).2.store = s.store := by
  obtain ⟨_, e⟩ := hopCheck_shape h s
  rw [e]

@[simp] theorem State.modSub_store (s : State) (k : Nat) (f : SubPort → SubPort) : (s.modSub k f).store = s.store := rfl

@[simp] theorem State.bump_store (s : State) (cls unit ctr : Nat) : (s.bump cls unit ctr).store = s.store := rfl

@[simp] theorem State.bufferDrop_store (s : State) (k pcp : Nat) : (s.bufferDrop k pcp).store = s.store := by
  unfold State.bufferDrop
  split <;> rfl

/-- Before a frame's own handling the link checks leave the store alone. -/
theorem linkChecks_cases (mgmt : Bool) (h : Hdr) (fixed : Nat) (k : State → State) (s : State) :
    (linkChecks mgmt h fixed k s).store = s.store ∨ ∃ u, u.store = s.store ∧ linkChecks mgmt h fixed k s = k u := by
  unfold linkChecks
  extract_lets t u
  have ht : t.store = s.store := State.advanceTo_store s h.now
  have hu : u.store = s.store := ht
  split
  · exact .inl rfl
  split
  · exact .inl ht
  split
  · exact .inl ht
  · exact .inl ht
  split
  · exact .inl ht
  split
  · exact .inl hu
  split
  · exact .inl hu
  split
  · exact .inl ((u.bufferDrop_store _ _).trans hu)
  split
  rename_i goes v e
  have hv : v.store = s.store := by
    have := hopCheck_store h u
    rw [e] at this
    exact this.trans hu
  split
  · exact .inl hv
  split
  · exact .inl hv
  · exact .inr ⟨_, (State.markConsumed_store ..).trans hv, rfl⟩

/-- Nor do the checks of a management frame's trailer. -/
theorem managed_cases (h : Hdr) (t : Trailer) (fixed : Nat) (k : State → State) (s : State) :
    (managed h t fixed k s).store = s.store ∨ ∃ u, u.store = s.store ∧ managed h t fixed k s = k u := by
  unfold managed
  split
  · obtain e | ⟨u, hu, e⟩ := linkChecks_cases true h (fixed + 40) (trailerChecked h t k) s
    · exact .inl e
    · rw [e, trailerChecked]
      split
      · refine .inr ⟨_, ?_, rfl⟩
        exact hu
      · exact .inl hu
  · exact .inl rfl

/-- Before an order's own handling the order checks leave the store alone. -/
theorem orderRequest_cases (o : Order) (k : OrderRef → State → State) (s : State) :
    (orderRequest o k s).store = s.store ∨ ∃ ref u, u.store = s.store ∧ orderRequest o k s = k ref u := by
  unfold orderRequest
  generalize hk : zeroChecked o.hdr _ _ = body
  obtain e | ⟨u, hu, e⟩ := managed_cases o.hdr o.trailer 64 body s
  · exact .inl e
  · rw [e, ← hk, zeroChecked]
    split
    · split
      · refine .inl ?_
        split
        · exact (State.respondAuth_store ..).trans hu
        · exact hu
      · dsimp only
        split
        · exact .inl ((State.finishOrder_store ..).trans hu)
        · refine .inr ⟨_, _, ?_, rfl⟩
          exact hu
    · exact .inl ((State.respondAuth_store ..).trans hu)

/-! ### Creation -/

theorem State.freeIndex_regions {s t : State} {i : Nat} (e : s.freeIndex = some (i, t)) : t.store.regions = s.store.regions := by
  unfold State.freeIndex at e
  split at e
  · cases e
    rfl
  · split at e
    · cases e
    · cases e
      rfl

theorem State.setPools_regions (s : State) (cls : Nat) (t : Tab Pool) : (s.setPools cls t).store.regions = s.store.regions := by
  unfold State.setPools
  dsimp only
  split
  · rfl
  · split <;> rfl

theorem State.allocate_regions {s t : State} {cls n : Nat} {l : List (Nat × Nat)} (e : s.allocate cls n = some (l, t)) :
    t.store.regions = s.store.regions := by
  unfold State.allocate at e
  dsimp only at e
  split at e
  · cases e
  · cases e
    exact State.setPools_regions ..

theorem State.drawKey_regions {s t : State} {k : W32} (e : s.drawKey = some (k, t)) : t.store.regions = s.store.regions := by
  unfold State.drawKey at e
  split at e
  · cases e
  · cases e
    rfl

theorem State.region_congr {s t : State} (e : t.store.regions = s.store.regions) {j : Nat} : t.region j = s.region j := by
  rw [State.region, e]
  rfl

theorem State.region_setRegion_of_idle {s : State} {r : Region} (idle : r.state = .idle) (k j : Nat) :
    (s.setRegion k r).region j = if j = k then r else s.region j := by
  refine Tab.get_set_of_ne (fun e => ?_) s.store.regions k j
  rw [e] at idle
  cases idle

/-- A creation changes one region, to one of the size that it was given. -/
theorem State.createRegion_region {s t : State} {size i : Nat} {placement redundancy shape : Byte} {group : W32}
    (e : s.createRegion size placement redundancy shape group = some (i, t)) (j : Nat) :
    t.region j = s.region j ∨ (t.region j).size = size := by
  obtain ⟨⟨k, u⟩, eu, e⟩ := Option.bind_eq_some_iff.mp e
  obtain ⟨⟨l, v⟩, ev, e⟩ := Option.bind_eq_some_iff.mp e
  have hv : v.store.regions = s.store.regions := (State.allocate_regions ev).trans (State.freeIndex_regions eu)
  have made : ∀ (w : State) (r : Region), w.store.regions = s.store.regions → r.state = .idle → r.size = size →
      ((w.setRegion k r).forgetVersion k).region j = s.region j ∨ (((w.setRegion k r).forgetVersion k).region j).size = size := by
    intro w r hw idle hr
    have he : ((w.setRegion k r).forgetVersion k).region j = if j = k then r else s.region j := by
      rw [State.region_congr hw.symm]
      exact State.region_setRegion_of_idle idle k j
    rw [he]
    split
    · exact .inr hr
    · exact .inl rfl
  dsimp only at e
  split at e
  · obtain ⟨⟨key, w⟩, ew, e⟩ := Option.bind_eq_some_iff.mp e
    cases e
    exact made _ _ ((State.drawKey_regions ew).trans hv) rfl rfl
  · cases e
    exact made _ _ hv rfl rfl

/-- The sizes that R28 gives a region, as the creation tests them. -/
theorem legalSize_iff (n : Nat) :
    (n % 2097152 = 0 ∧ 2097152 ≤ n ∧ n ≤ 281474976710656) ↔ ¬ (n % chunkBytes ≠ 0 ∨ n < chunkBytes ∨ 2 ^ 48 < n) := by
  unfold chunkBytes
  omega

theorem execRegionCreate_badSize {o : Order} {s : State} (ok : OrderTaken o s) {size : W64}
    (bad : size.toNat % chunkBytes ≠ 0 ∨ size.toNat < chunkBytes ∨ 2 ^ 48 < size.toNat) (placement redundancy shape : Byte) (group : W32) :
    execRegionCreate o size placement redundancy shape group s = .next ((s.orderTaken o).finishOrder o.ref stInvalid []) := by
  rw [execRegionCreate, orderRequest_taken ok, if_pos bad]

/-- Whatever a creation order does, a region that it changes has a size of R28. -/
theorem execRegionCreate_size {o : Order} {s t : State} {size : W64} {placement redundancy shape : Byte} {group : W32}
    (e : execRegionCreate o size placement redundancy shape group s = .next t) (i : Nat) :
    t.region i = s.region i ∨ ¬ ((t.region i).size % chunkBytes ≠ 0 ∨ (t.region i).size < chunkBytes ∨ 2 ^ 48 < (t.region i).size) := by
  unfold execRegionCreate at e
  generalize hk : (fun ref s => _) = k at e
  have same : ∀ {u : State}, u.store = s.store → u.region i = s.region i := fun h => by rw [State.region, h]; rfl
  obtain e' | ⟨ref, u, hu, e'⟩ := orderRequest_cases o k s
  · cases e
    exact .inl (same e')
  · rw [e', ← hk] at e
    cases e
    dsimp only
    have refused : ∀ st, ((u.finishOrder ref st []).region i) = s.region i := fun st => same ((State.finishOrder_store ..).trans hu)
    split
    · exact .inl (refused _)
    rename_i good
    split
    · exact .inl (refused _)
    split
    · exact .inl (refused _)
    split
    · rename_i j v ev
      have hv : ∀ st l, (v.finishOrder ref st l).region i = v.region i := fun st l => by
        rw [State.region, State.finishOrder_store]
        rfl
      rw [hv]
      obtain h | h := State.createRegion_region ev i
      · exact .inl (h.trans (same hu))
      · rw [h]
        exact .inr good
    · exact .inl (refused _)

/-- Settles O57: the size is the first thing that a creation tests, and a creation changes no region but the one it makes. -/
theorem creationRefusesBadSizes : Obligations.CreationRefusesBadSizes := by
  intro o size placement redundancy shape group s u legal
  refine ⟨fun ok bad => ⟨?refused, ?kept⟩, fun t i e changed => ?made⟩
  case refused =>
    exact execRegionCreate_badSize ok (not_not.mp (mt (legalSize_iff _).mpr bad)) placement redundancy shape group
  case kept => rw [State.finishOrder_store, State.orderTaken_store]
  case made => exact (legalSize_iff _).mpr ((execRegionCreate_size e i).resolve_left changed)

end Sys2Proof.Machine
end

section
/-! Proofs about transits that fire and what they began (09: R187 to R201; 02: R42). -/
namespace Sys2Proof.Machine

/-- A device that has not withdrawn serves its events (R13). -/
theorem State.serving_of_not_withdrawn {s : State} (h : s.withdrawn = false) (k : State → State) : s.serving k = k s := by
  rw [State.serving, h]
  rfl

/-! ### The next due transit -/

/-- The state in which a due transit fires: it is off the list of those due, and a late one has been counted. -/
def State.firing (s : State) (d : DueTransit) (rest : List DueTransit) : State :=
  let s' := s.setSky { s.sky with due := rest }
  if d.late then s'.countLate (s.transit d.entry).orbit (s.transit d.entry).cid else s'

section
variable {now : Nat} {s : State} {d : DueTransit} {rest : List DueTransit} (serves : s.inService = true)
  (locked : (s.advanceTo now).locked = true) (due : (s.advanceTo now).liveDue = d :: rest)
  (moment : d.moment ≤ (s.advanceTo now).now)
include serves locked due moment

/-- The next due transit takes effect at its moment, by its kind. -/
theorem fireTransit_due {kind : Nat} (is : ((s.advanceTo now).transit d.entry).kind = kind) (k : Entry → DueTransit → State → State) :
    fireTransit now d.entry kind k s = k ((s.advanceTo now).transit d.entry) d ((s.advanceTo now).firing d rest) := by
  simp [fireTransit, serves, locked, due, is, moment, State.firing]

theorem execPromote_due (is : ((s.advanceTo now).transit d.entry).kind = kindPromote) :
    execPromote now d.entry s =
      .next (((s.advanceTo now).firing d rest).firePromote ((s.advanceTo now).transit d.entry) d.count) := by
  rw [execPromote, fireTransit_due serves locked due moment is]

theorem execReserve_due (is : ((s.advanceTo now).transit d.entry).kind = kindReserve) :
    execReserve now d.entry s =
      .next (((s.advanceTo now).firing d rest).fireReserve d.entry ((s.advanceTo now).transit d.entry) d.count) := by
  rw [execReserve, fireTransit_due serves locked due moment is]

/-- A COMMIT that names the open step seals its journal and recalls the lines. -/
theorem execCommit_due {e : Entry} {v : State} {k : Nat} (he : (s.advanceTo now).transit d.entry = e)
    (hv : (s.advanceTo now).firing d rest = v) (is : e.kind = kindCommit) (active : v.activeIdx e.cid = some k)
    (step : (v.compAt k).stepState = .open_ ∨ (v.compAt k).stepState = .unjournalled)
    (names : (v.compAt k).openStep.toNat = fieldLe e.operands 0 4) :
    execCommit now d.entry s = .next ((v.setComp k { v.compAt k with sealing := true }).recallExclusives e.cid) := by
  rw [execCommit, fireTransit_due serves locked due moment (he ▸ is), he, hv, active]
  simp [step, names]

/-- A CALIBRATE of an HBM unit that neither calibrates nor is under test starts there. -/
theorem execCalibrate_due {e : Entry} {v : State} (he : (s.advanceTo now).transit d.entry = e)
    (hv : (s.advanceTo now).firing d rest = v) (is : e.kind = kindCalibrate) (hbm : e.flags.getLsbD 0 = false)
    (kind : fieldLe e.operands 0 1 ≤ 1) (unit : e.unit < 8) (calib : v.calibRuns 0 e.unit = false)
    (test : v.testRuns 0 e.unit = false) :
    execCalibrate now d.entry s = .next (v.startCalib true e.unit (fieldLe e.operands 0 1) none (some (e.window d))) := by
  rw [execCalibrate, fireTransit_due serves locked due moment (he ▸ is), he, hv]
  have range : ¬ (8 ≤ e.unit ∨ 1 < fieldLe e.operands 0 1) := by omega
  simp only [hbm, Bool.not_false, if_true, range, if_false, calib, test, Bool.or_self, Bool.false_eq_true]

theorem execTestWindow_due (is : ((s.advanceTo now).transit d.entry).kind = kindTest) :
    execTestWindow now d.entry s = .next (((s.advanceTo now).firing d rest).startTest
      (fieldLe ((s.advanceTo now).transit d.entry).operands 0 1) ((s.advanceTo now).transit d.entry).unit
      (some (((s.advanceTo now).transit d.entry).window d))) := by
  rw [execTestWindow, fireTransit_due serves locked due moment is]

end

/-! ### What transits began -/

section
variable {now i : Nat} {s : State} (stays : s.withdrawn = false)
include stays

theorem execReservationEnd_held {r : Reservation} (held : (s.advanceTo now).sky.reservations[i]? = some r) :
    execReservationEnd now i s = .next
      (if (s.advanceTo now).locked = true ∧ (s.advanceTo now).sky.reached r.endCount r.phase (s.advanceTo now).now = true then
        (s.advanceTo now).setReservations ((s.advanceTo now).sky.reservations.eraseIdx i)
       else s.advanceTo now) := by
  rw [execReservationEnd, State.serving_of_not_withdrawn stays]
  dsimp only
  rw [held]
  simp only [Bool.and_eq_true]

theorem execScheduledRelease_reached {j : Nat} (locked : (s.advanceTo now).locked = true)
    (reached : (s.advanceTo now).releaseReached ((s.advanceTo now).sectorAt i j) = true) :
    execScheduledRelease now i j s = .next (((s.advanceTo now).demote (sectorKey i j)).pump) := by
  rw [execScheduledRelease, State.serving_of_not_withdrawn stays]
  simp [locked, reached]

theorem execPromoteDue_reached {p : DueEntry} {v : State} (held : (s.advanceTo now).sky.promotes[i]? = some p)
    (locked : (s.advanceTo now).locked = true) (reached : (s.advanceTo now).sky.reached p.due 0 (s.advanceTo now).now = true)
    (hv : (s.advanceTo now).setSky { (s.advanceTo now).sky with promotes := (s.advanceTo now).sky.promotes.eraseIdx i } = v) :
    execPromoteDue now i s = .next
      (if ∀ m, m < p.count → (v.sectorAt p.region (p.first + m)).promoted = true then v
       else (v.bump 2 p.stack 5).countLate p.orbit p.cid) := by
  rw [execPromoteDue, State.serving_of_not_withdrawn stays]
  dsimp only
  rw [held]
  dsimp only
  rw [locked, reached, hv]
  simp only [Bool.not_true, Bool.or_self, Bool.false_eq_true, if_false, List.all_eq_true, List.mem_range]

end

/-- Settles O42: each transit by the rule for the next one that is due, each end by its event. -/
theorem transitsFire : Obligations.TransitsFire := by
  intro now i j s w
  refine ⟨?fires, ?reservation, ?release, ?promote⟩
  case fires =>
    rintro d rest serves locked due rfl moment e v v'
    have hv : w.firing d rest = v' := rfl
    refine ⟨fun is => ?_, fun is => ?_, fun is k active step names => ?_, fun is hbm kind unit calib test => ?_, fun is => ?_⟩
    · exact execPromote_due serves locked due moment is
    · exact execReserve_due serves locked due moment is
    · exact execCommit_due serves locked due moment rfl hv is active step names
    · exact execCalibrate_due serves locked due moment rfl hv is hbm kind unit calib test
    · exact execTestWindow_due serves locked due moment is
  case reservation => exact fun r stays held => execReservationEnd_held stays held
  case release => exact fun stays locked reached => execScheduledRelease_reached stays locked reached
  case promote => exact fun p stays held locked reached => execPromoteDue_reached stays held locked reached rfl

end Sys2Proof.Machine
end

section
/-! Proofs about the events of the tiers: fills, moves, write-backs, collections, the patrol scrub and refresh (02: R38 to R51;
20: R574, R575). -/
namespace Sys2Proof.Machine

/-! ### Bytes written back as they were read -/

/-- On a canonical table an entry set to its own value changes nothing. -/
theorem Tab.set_get_self {α : Type} [DecidableEq α] (d : α) (t : Tab α) (lo k : Nat) (h : Tab.wfFrom d lo t = true) :
    Tab.set d t k (Tab.get d t k) = t := by
  induction t generalizing lo with
  | nil => exact if_pos rfl
  | cons e t ih =>
    obtain ⟨j, u⟩ := e
    simp only [Tab.wfFrom, Bool.and_eq_true, decide_eq_true_eq] at h
    obtain ⟨⟨_, hu⟩, ht⟩ := h
    obtain hj | rfl | hj := Nat.lt_trichotomy j k
    · simp [Tab.get, Tab.set, hj, hj.ne, ih _ ht]
    · simp [Tab.get, Tab.set, hu]
    · simp [Tab.get, Tab.set, hj.ne', hj.not_gt]

theorem writeMem_readBytes {s : State} (h : s.Inv) (region off n : Nat) :
    writeMem region off (readBytes s region off n) s.store.mem = s.store.mem := by
  induction n generalizing off with
  | zero => rfl
  | succ n ih =>
    rw [readBytes, writeMem, State.byte, Tab.set_get_self 0 s.store.mem 0 _ h]
    exact ih (off + 1)

/-- A line written back as it was read changes nothing. -/
theorem State.writeBytes_readBytes {s : State} (h : s.Inv) (region off n : Nat) :
    s.writeBytes region off (readBytes s region off n) = s := by
  rw [State.writeBytes, writeMem_readBytes h]

/-! ### A codeword without errors -/

/-- A pattern without errors is corrected by nothing. -/
theorem lineDecode_nil : lineDecode [] = some [] := rfl

theorem addErrors_nil (data : List Byte) : addErrors data [] = data := by
  simp [addErrors, errorAt]

/-! ### Sectors -/

section
variable {now i j : Nat} {s w : State} (stays : s.withdrawn = false) (hw : s.advanceTo now = w)
include stays hw

/-- A fill that could be corrected puts the granule's bytes into its tier, clean. -/
theorem execSectorFillDone_corrected {retries : Nat} {soft up : Bool} {l : List Byte × List Bool} (filling : (w.sectorAt i j).state = .filling up)
    (idle : (w.sectorAt i j).writeback = false) (copy : w.flashSector i j = some l) :
    execSectorFillDone now i j retries soft false s = .next
      ((((((w.fillSector i j l).countFlashRead i j retries soft false).resumePrograms i j)).setSector i j
        { w.sectorAt i j with state := if up then .hbm false else .dram false }).settleHold (sectorKey i j)).pump := by
  rw [execSectorFillDone, State.serving_of_not_withdrawn stays, hw]
  simp [filling, idle, copy]

/-- A move puts the sector where it moved, dirty as before. -/
theorem execSectorMoveDone_moving {up d : Bool} (moving : (w.sectorAt i j).state = .moving up d) :
    execSectorMoveDone now i j s = .next
      (((w.setSector i j { w.sectorAt i j with state := if up then .hbm d else .dram d }).settleHold (sectorKey i j)).pump) := by
  rw [execSectorMoveDone, State.serving_of_not_withdrawn stays, hw]
  simp [moving]

/-- A write-back's program frees the way where it is confirmed; a failed one retires the block and is counted. -/
theorem execFlashProgramDone_writeback {k : Nat} (writes : (w.sectorAt i j).writeback = true)
    (opened : w.openBlock (nandChannel (w.granule i j)) = some k) (ok : Bool) :
    execFlashProgramDone now i j ok s = .next (if ok then
        (((w.programSector i j).dropCopy i j).setSector i j { w.sectorAt i j with writeback := false, suspended := 0 }).pump
      else (w.bump 6 (dieOfBlock k) 2).retireBlock k) := by
  rw [execFlashProgramDone, State.serving_of_not_withdrawn stays, hw]
  simp [writes, opened]

end

/-! ### Collection, scrub and refresh -/

/-- The state after a line has been scrubbed, besides the line. -/
def State.scrubbedLine (s : State) : State := { s with store := { s.store with scrubbed := s.store.scrubbed + 1 } }

section
variable {now : Nat} {s w : State} (serves : s.inService = true) (hw : s.advanceTo now = w)
include serves hw

/-- A collection whose granules have all been relocated erases its block, or retires the one whose erase fails. -/
theorem execGarbageCollection_relocated {ch b k : Nat} {v : State} (below : w.belowShare ch 20 = true) (hk : w.blockOf ch b = k)
    (collects : w.collects ch k = true) (opened : (w.openBlock ch).isSome = true)
    (hv : (w.granulesIn ch k).foldl State.relocate w = v) (relocated : v.granulesIn ch k = []) (late : (v.nandBlock k).early = false)
    (erased : Bool) :
    let y := v.bump 5 ch 1
    execGarbageCollection now ch b erased s = .next
      (((if erased then ((y.eraseCodewords k).setNandBlock k
          { y.nandBlock k with valid := 0, used := 0, early := false, erases := (y.nandBlock k).erases + 1 }).wearLevels (dieOfBlock k)
        else (y.bump 6 (dieOfBlock k) 3).retireBlock k).flashLevels ch).pump) := by
  have late' : ((v.bump 5 ch 1).nandBlock k).early = false := late
  have running : w.inService = true := by rw [← hw, State.inService_of_advanceTo, serves]
  have some : (w.openBlock ch).isNone = false := by
    rw [← Option.not_isSome, opened]
    rfl
  rw [execGarbageCollection, hw]
  simp [running, below, hk, collects, some, hv, relocated, late']

/-- A line of a stack without errors is written back as it was read, and its poison flag stays off. -/
theorem execPatrolScrub_clean {i j n : Nat} (place : w.placeOf i (64 * j) = .hbm n) (used : (w.region i).state ≠ .free)
    (inside : 64 * j < (w.region i).size) (idle : w.calibrating i (64 * j) = none) (clean : w.poisoned i j = false)
    (canonical : w.Inv) : execPatrolScrub now i j [] s = .next (w.scrubbedLine.setPoison i j false) := by
  have running : w.inService = true := by rw [← hw, State.inService_of_advanceTo, serves]
  have written : (w.scrubbedLine.countGood (.hbm n) 0).writeBytes i (64 * j) (readBytes w i (64 * j) 64) = w.scrubbedLine :=
    State.writeBytes_readBytes (s := w.scrubbedLine) canonical i (64 * j) 64
  have poison : (w.scrubbedLine.poisoned i j).xor ((errorAt [] 0).getLsbD 0) = false := by
    rw [show w.scrubbedLine.poisoned i j = false from clean]
    rfl
  rw [execPatrolScrub, hw]
  simp only [running, place, used, inside.not_ge, idle, State.decodeLine, lineDecode_nil, List.append_nil, addErrors_nil]
  exact congrArg Host.Outcome.next (congrArg₂ (fun t b => t.setPoison i j b) written poison)

theorem execRefresh_used {ddr : Bool} {i bank : Nat} (used : s.unitInUse (!ddr) i = true) (management : Bool) :
    execRefresh now ddr i bank management s = .next { w with store := { w.store with
      refreshed := w.store.refreshed.set 0 ((calibKey (!ddr) i) * 2 ^ 16 + bank) w.now } } := by
  rw [execRefresh, hw]
  simp [serves, used]

end

/-- Settles O45: one lemma for each event; a scrub without errors writes back what it read. -/
theorem tierEvents : Obligations.TierEvents := by
  intro now i j retries ch b bank soft up d ddr management errors s w x
  refine ⟨?fill, ?move, ?program, ?collect, ?scrub, ?refresh⟩
  case fill => exact fun stays filling idle l copy => execSectorFillDone_corrected stays rfl filling idle copy
  case move => exact fun stays moving => execSectorMoveDone_moving stays rfl moving
  case program =>
    intro stays k writes opened
    have h := execFlashProgramDone_writeback stays rfl writes opened
    exact ⟨h true, h false⟩
  case collect =>
    intro serves below collects opened k v relocated late
    have h := execGarbageCollection_relocated serves rfl below rfl collects opened rfl relocated late
    exact ⟨h true, h false⟩
  case scrub =>
    rintro serves n place used inside idle rfl clean canonical flags _
    refine ⟨_, execPatrolScrub_clean serves rfl place used inside idle clean canonical, rfl, rfl, ?_, fun o _ => rfl⟩
    exact (Tab.get_set false w.store.poison (lineKey i j) (lineKey i j) false flags).trans (if_pos rfl)
  case refresh => exact fun serves used => execRefresh_used serves rfl used management

end Sys2Proof.Machine
end

section
/-! Proofs about request-state objects and their handoff (02: R54 to R60). -/
namespace Sys2Proof.Machine

/-! ### Frames about an object -/

section
variable {h : Hdr} {oh : Handle} {i : Nat} {s u : State} (hu : s.afterLink h = u) (idx : u.objectIdx oh = some i)
include hu idx

/-- A member's frame about an object goes on where its row of the opcode map names the sender. -/
theorem objectRequest_taken {fixed : Nat} (ok : MemberTaken h fixed [] [] s) {sender : ObjRec → Bool}
    (sends : sender (u.object i) = true) (opcode : Byte) (k : Nat → State → State) :
    objectRequest h opcode fixed oh sender k s = k i u := by
  obtain ⟨ok, hz, ha, hx, hc⟩ := ok
  have member : u.boot.admitted = true ∧ u.comps.selfExpelled = false := by
    rw [← hu, State.afterLink_boot, State.afterLink_comps_selfExpelled]
    exact ⟨ha, hx⟩
  rw [hu] at hc
  rw [objectRequest, consumed_taken ok, hu]
  simp [memberChecked, member, hz, hc, idx, sends]

/-- The receiver's answer to a pending offer is taken once. -/
theorem receiverFrame_taken {seq : W32} (ok : MemberTaken h 16 [] [] s) (pending : (u.object i).state = 2)
    (undecided : (u.object i).accepting = false) (fits : (u.object i).seq = seq) (aid : (u.object i).recvAid = h.src)
    (cid : (u.object i).recvCid = h.cid) (opcode : Byte) (k : Nat → ObjRec → State → State) :
    receiverFrame h opcode oh seq k s = k i (u.object i) u := by
  rw [receiverFrame, objectRequest_taken hu idx ok (by simp [aid, cid])]
  simp [pending, undecided, fits]

theorem execHandoffAccept_pending {seq : W32} (ok : MemberTaken h 16 [] [] s) (pending : (u.object i).state = 2)
    (undecided : (u.object i).accepting = false) (fits : (u.object i).seq = seq) (aid : (u.object i).recvAid = h.src)
    (cid : (u.object i).recvCid = h.cid) :
    execHandoffAccept h oh seq s = .next
      (((u.setObject i { u.object i with accepting := true }).takeHandoff i).respond h 0x22 stOk (seqPayload seq)) := by
  subst fits
  rw [execHandoffAccept, receiverFrame_taken hu idx ok pending undecided rfl aid cid]

theorem execHandoffDecline_pending {seq : W32} (ok : MemberTaken h 16 [] [] s) (pending : (u.object i).state = 2)
    (undecided : (u.object i).accepting = false) (fits : (u.object i).seq = seq) (aid : (u.object i).recvAid = h.src)
    (cid : (u.object i).recvCid = h.cid) :
    execHandoffDecline h oh seq s = .next ((u.revertHandoff i).respond h 0x23 stOk (seqPayload seq)) := by
  rw [execHandoffDecline, receiverFrame_taken hu idx ok pending undecided fits aid cid, fits]

/-- The owner's offer of an object that no handoff holds makes it pending and holds back the sender's write and atomic rights. -/
theorem execHandoffOffer_owned {o : ObjRec} (ho : u.object i = o) (ok : MemberTaken h 16 [] [] s) (aid : o.ownerAid = h.src)
    (cid : o.ownerCid = h.cid) (exists_ : o.state ≠ 0) (free : o.state ≠ 2) (ra : Aid) (rc : Cid) :
    execHandoffOffer h oh ra rc s = .next
      ((((u.objectRegions i o).foldl (fun s j =>
          s.modRegion j fun r => { r with rights := r.rights &&& 1, heldRights := r.rights &&& 6 }) u).putObject i { o with
        state := 2, recvAid := ra, recvCid := rc, seq := o.seq + 1, noticeSent := false, accepting := false
        deadline := u.now / 1000 + u.boot.cfg.device.handoffDeadline }).respond h 0x20 stOk (seqPayload (o.seq + 1))) := by
  rw [execHandoffOffer, objectRequest_taken hu idx ok rfl, ho]
  simp [aid, cid, exists_, free]

/-- A party may query the object. -/
theorem execObjectQuery_party {o : ObjRec} (ho : u.object i = o) (ok : MemberTaken h 8 [] [] s) (exists_ : o.state ≠ 0)
    (party : h.cid = o.ownerCid ∨ (o.state = 2 ∧ h.cid = o.recvCid)) :
    execObjectQuery h oh s = .next
      (u.respond h 0x25 stOk (beBytes 1 o.state ++ zeros 1 ++ beBytes 2 o.ownerAid.toNat ++ beBytes 4 o.seq.toNat)) := by
  rw [execObjectQuery, objectRequest_taken hu idx ok (by rw [ho]; simpa [exists_] using party), ho]

end

/-- Once it is accepted and its receiver notified, a handoff revokes the sender's regions. -/
theorem State.takeHandoff_agreed {t : State} {i : Nat} (accepting : (t.object i).accepting = true)
    (noticed : (t.object i).noticeSent = true) :
    t.takeHandoff i = (t.objectRegions i (t.object i)).foldl (fun s j =>
      if (s.region j).state = .assigned ∧ (s.region j).cid = (t.object i).ownerCid then s.revoke j else s) t := by
  simp [State.takeHandoff, accepting, noticed]

/-! ### Events of a handoff -/

section
variable {now i : Nat} {s v : State} {p : ObjRec} (stays : s.withdrawn = false) (hv : s.advanceTo now = v) (hp : v.object i = p)
  (pending : p.state = 2) (anchored : v.anchors i = true)
include stays hv hp pending anchored

/-- The receiver is notified once the sender's writes have landed. -/
theorem execObjectWritesDrained_landed (unsent : p.noticeSent = false) (landed : v.objectWritesDone i p = true) :
    execObjectWritesDrained now i s = .next
      (((v.setObject i { p with noticeSent := true }).send
        { opcode := 0x21, notice := true, dst := p.recvAid, src := v.aid, cid := p.recvCid, gen := v.genOf p.recvCid
          pcp := v.pcpControl
          payload := beBytes 5 (v.objectHandle i).toNat ++ zeros 3 ++ beBytes 4 p.seq.toNat ++ zeros 4 }).takeHandoff i) := by
  rw [execObjectWritesDrained, State.serving_of_not_withdrawn stays, hv]
  simp [hp, pending, anchored, unsent, landed]

/-- An offer that nobody accepted returns to its owner at the deadline. -/
theorem execHandoffDeadline_passed (undecided : p.accepting = false) (passed : p.deadline * 1000 ≤ v.now) :
    execHandoffDeadline now i s = .next (v.revertHandoff i) := by
  rw [execHandoffDeadline, State.serving_of_not_withdrawn stays, hv]
  simp [hp, pending, anchored, undecided, passed]

/-- An accepted handoff whose regions have drained gives them to the receiver, and the object with them. -/
theorem execHandoffTransferDone_drained {w : State} {e : Nat} (accepting : p.accepting = true) (noticed : p.noticeSent = true)
    (hw : (v.objectRegions i p).foldl (fun s j => if (s.region j).state = .draining then s.recallRegion j else s) v = w)
    (drained : ((v.objectRegions i p).any fun j =>
      decide ((w.region j).state = .draining) && (decide (w.inflight j ≠ 0) || w.regionEntries j)) = false)
    (active : w.activeIdx p.recvCid = some e) :
    let idle := (v.objectRegions i p).foldl (fun s j => if (s.region j).state = .draining then s.endDrain j else s) w
    let given := (v.objectRegions i p).foldl (fun s j =>
      if (s.region j).state = .idle then s.assign j p.recvCid (w.compAt e).gen 7 else s) idle
    let q := { p with state := 1, ownerAid := p.recvAid, ownerCid := p.recvCid, recvAid := 0, recvCid := 0, deadline := 0
                      accepting := false, noticeSent := false }
    execHandoffTransferDone now i s = .next
      (((given.putObject i q).sendDone i q p.ownerAid p.ownerCid).sendDone i q p.recvAid p.recvCid) := by
  intro idle given q
  rw [execHandoffTransferDone, State.serving_of_not_withdrawn stays, hv]
  dsimp only
  rw [hp, if_neg (by simp [pending, anchored, accepting, noticed]), hw, drained, active]
  rfl

end

/-- Settles O26: the frames of a handoff by what its record says, the events by what has happened to the regions. -/
theorem objectHandoffs : Obligations.ObjectHandoffs := by
  intro h oh seq ra rc now i s u v o p sent
  refine ⟨?offer, ?answer, ?revoke, ?query, ?notice, ?deadline, ?transfer⟩
  case offer => exact fun ok idx aid cid exists_ free => execHandoffOffer_owned rfl idx rfl ok aid cid exists_ free ra rc
  case answer =>
    exact fun ok idx pending undecided fits aid cid =>
      ⟨execHandoffAccept_pending rfl idx ok pending undecided fits aid cid,
        execHandoffDecline_pending rfl idx ok pending undecided fits aid cid⟩
  case revoke => exact fun t accepting noticed => State.takeHandoff_agreed accepting noticed
  case query => exact fun ok idx exists_ party => execObjectQuery_party rfl idx rfl ok exists_ party
  case notice =>
    exact fun stays pending unsent anchored landed => execObjectWritesDrained_landed stays rfl rfl pending anchored unsent landed
  case deadline =>
    exact fun stays pending undecided anchored passed => execHandoffDeadline_passed stays rfl rfl pending anchored undecided passed
  case transfer =>
    exact fun stays pending accepting noticed anchored drained e active =>
      execHandoffTransferDone_drained stays rfl rfl pending anchored accepting noticed rfl drained active

end Sys2Proof.Machine
end

section
/-! Proofs about region orders and the events that complete them (02: R28 to R36; 04: R140, R141; 14: R426, R436, R438). -/
namespace Sys2Proof.Machine

/-! ### What leaves the regions' records alone -/

section
variable {s : State}

theorem State.foldl_regions {α : Type} {f : State → α → State} (hf : ∀ u a, (f u a).store.regions = u.store.regions) (l : List α) :
    (l.foldl f s).store.regions = s.store.regions := by
  induction l generalizing s with
  | nil => rfl
  | cons a l ih => exact ih.trans (hf s a)

theorem State.fillSector_regions {region sector : Nat} {l : List Byte × List Bool} :
    (s.fillSector region sector l).store.regions = s.store.regions := by
  rw [State.fillSector, State.foldl_regions fun _ _ => State.setPoison_store_regions .., State.writeBytes_store_regions]

theorem State.loseLine_regions {i line : Nat} : (s.loseLine i line).store.regions = s.store.regions := by
  simp only [State.loseLine, State.fresh, State.setPoison_store_regions, State.writeBytes_store_regions]

theorem State.liftSectors_regions {i : Nat} : (s.liftSectors i).store.regions = s.store.regions := by
  refine State.foldl_regions (fun u k => ?_) _
  split
  · exact State.fillSector_regions
  · exact State.foldl_regions (fun _ _ => State.loseLine_regions) _

theorem State.setNand_regions {t : Tab (List Byte)} : (s.setNand t).store.regions = s.store.regions := rfl

theorem State.setNandChan_regions {ch : Nat} {c : NandChannel} : (s.setNandChan ch c).store.regions = s.store.regions := rfl

theorem State.setNandBlock_regions {k : Nat} {b : NandBlock} : (s.setNandBlock k b).store.regions = s.store.regions := rfl

theorem State.setMap_regions {t : Tab FlashEntry} : (s.setMap t).store.regions = s.store.regions := rfl

theorem State.vacate_regions {g : Nat} : (s.vacate g).store.regions = s.store.regions := by
  rw [State.vacate]
  split <;> rfl

theorem State.dropMap_regions {chunks : List (Nat × Nat)} : (s.dropMap chunks).store.regions = s.store.regions :=
  State.foldl_regions (fun _ _ => State.vacate_regions) _

theorem State.flashLevels_regions {ch : Nat} : (s.flashLevels ch).store.regions = s.store.regions := by
  unfold State.flashLevels
  dsimp only
  split <;> rfl

theorem State.programGranule_regions {g : Nat} {lines : List Byte} : (s.programGranule g lines).store.regions = s.store.regions := by
  unfold State.programGranule
  dsimp only
  split
  · rfl
  · rw [State.flashLevels_regions, State.bump_store, State.setNand_regions, State.setNandChan_regions, State.setMap_regions,
      State.setNandBlock_regions, State.vacate_regions]

theorem State.dropCopy_regions {i j : Nat} : (s.dropCopy i j).store.regions = s.store.regions := rfl

theorem State.setPools_released {cls : Nat} {t : Tab Pool} : (s.setPools cls t).store.released = s.store.released := by
  unfold State.setPools
  dsimp only
  split
  · rfl
  · split <;> rfl

theorem State.giveBack_released {cls : Nat} {l : List (Nat × Nat)} : (s.giveBack cls l).store.released = s.store.released :=
  State.setPools_released

/-- A destroyed key changes nothing in its region's record but the slot. -/
theorem State.destroyKey_region {i : Nat} (used : (s.region i).state ≠ .free) :
    ∃ k, (s.destroyKey i).region i = { s.region i with keySlot := k } := by
  unfold State.destroyKey
  dsimp only
  split
  · exact ⟨_, rfl⟩
  · refine ⟨0xFFFFFFFF, (Tab.get_set_of_ne (fun e => used ?_) s.store.regions i i).trans (if_pos rfl)⟩
    exact congrArg Region.state e

end

/-! ### Creation -/

/-- The region that a creation makes. -/
theorem State.createRegion_made {s t : State} {size i : Nat} {placement redundancy shape : Byte} {group : W32}
    (e : s.createRegion size placement redundancy shape group = some (i, t)) :
    (t.region i).state = .idle ∧ (t.region i).size = size ∧ (t.region i).cls = bitsOf placement.toNat 0 2 := by
  obtain ⟨⟨k, u⟩, _, e⟩ := Option.bind_eq_some_iff.mp e
  obtain ⟨⟨l, v⟩, _, e⟩ := Option.bind_eq_some_iff.mp e
  have made : ∀ (w : State) (r : Region), r.state = .idle → ((w.setRegion k r).forgetVersion k).region k = r := fun w r idle =>
    (State.region_setRegion_of_idle idle k k).trans (if_pos rfl)
  dsimp only at e
  split at e
  · obtain ⟨⟨key, w⟩, _, e⟩ := Option.bind_eq_some_iff.mp e
    cases e
    rw [made _ _ rfl]
    exact ⟨rfl, rfl, rfl⟩
  · cases e
    rw [made _ _ rfl]
    exact ⟨rfl, rfl, rfl⟩

theorem execRegionCreate_made {o : Order} {size : W64} {placement redundancy shape : Byte} {group : W32} {s v : State} {j : Nat}
    (ok : OrderTaken o s) (whole : size.toNat % chunkBytes = 0) (least : chunkBytes ≤ size.toNat) (most : size.toNat ≤ 2 ^ 48)
    (placed : (s.orderTaken o).placementOk placement = true) (shaped : shapeOk redundancy shape = true)
    (stays : (s.orderTaken o).memoryDrain = false)
    (made : (s.orderTaken o).createRegion size.toNat placement redundancy shape group = some (j, v)) :
    execRegionCreate o size placement redundancy shape group s =
      .next (v.finishOrder o.ref stOk (beBytes 5 (v.regionHandle j).toNat)) := by
  have fits : ¬ (size.toNat % chunkBytes ≠ 0 ∨ size.toNat < chunkBytes ∨ 2 ^ 48 < size.toNat) := by omega
  rw [execRegionCreate, orderRequest_taken ok, if_neg fits]
  simp [placed, shaped, stays, made]

/-! ### Orders on a region that is there -/

section
variable {o : Order} {rh : Handle} {i : Nat} {s u : State} (ok : OrderTaken o s) (hu : s.orderTaken o = u)
  (named : u.localRegion rh = some i)
include ok hu named

/-- A taken order on a named region that is there goes on with it. -/
theorem regionOrder_taken {r : RState} (is : (u.region i).state = r) (used : r ≠ .free) (k : OrderRef → Nat → State → State) :
    orderRequest o (fun ref => namedRegion ref rh (k ref)) s = k o.ref i u := by
  rw [orderRequest_taken ok, hu, namedRegion, named]
  exact if_neg (is ▸ used)

theorem execRegionAssign_idle (idle : (u.region i).state = .idle) {cid : Cid} {gen : Gen} {e : Nat} (active : u.activeIdx cid = some e)
    (current : (u.compAt e).gen = gen) (rights : Byte) :
    execRegionAssign o rh rights cid gen s = .next ((u.assign i cid gen rights).finishOrder o.ref stOk []) := by
  rw [execRegionAssign, regionOrder_taken ok hu named idle (by decide), active]
  simp [idle, current]

theorem execRegionRelease_idle (idle : (u.region i).state = .idle) :
    execRegionRelease o rh s = .next (u.startRelease i (some o.ref)) := by
  rw [execRegionRelease, regionOrder_taken ok hu named idle (by decide)]
  simp [idle]

theorem execRegionRetier_idle (idle : (u.region i).state = .idle) {placement : Byte} {l : List (Nat × Nat)} {t t' : State} {key : W32}
    (placed : u.placementOk placement = true)
    (room : u.allocate (bitsOf placement.toNat 0 2) (u.region i).chunks.length = some (l, t))
    (keyed : (if bitsOf placement.toNat 0 2 = clsDeep then t.drawKey else some (0xFFFFFFFF, t)) = some (key, t')) :
    execRegionRetier o rh placement s = .next (t'.modRegion i fun r => { r with
      state := .retiering, newCls := bitsOf placement.toNat 0 2, newDemand := placement.getLsbD 2
      newCoherent := placement.getLsbD 3, newChunks := l, newKeySlot := key, order := some o.ref }) := by
  rw [execRegionRetier, regionOrder_taken ok hu named idle (by decide)]
  dsimp only
  rw [if_neg (not_not.mpr idle), placed, room]
  dsimp only
  rw [keyed]
  rfl

theorem execRegionRevoke_assigned (assigned : (u.region i).state = .assigned) :
    execRegionRevoke o rh s = .next
      (((u.revoke i).modRegion i fun r => { r with drainRh := rh }).finishOrder o.ref stOk (beBytes 4 (u.inflight i))) := by
  rw [execRegionRevoke, regionOrder_taken ok hu named assigned (by decide), assigned]

end

/-! ### The ends of drain, release and retier -/

/-- The record of a region whose retier has ended, with its first chunk number. -/
def Region.retiered (r : Region) (first : W64) : Region := { r with
  state := .idle, cls := r.newCls, demand := r.newDemand, coherent := r.newCoherent, chunks := r.newChunks, chunkList := first
  keySlot := r.newKeySlot, newKeySlot := 0xFFFFFFFF, newCls := 0, newDemand := false, newCoherent := false, newChunks := []
  order := none }

section
variable {now i : Nat} {s w : State} (stays : s.withdrawn = false) (hw : s.advanceTo now = w)
include stays hw

theorem execRegionDrained_empty (draining : (w.region i).state = .draining) (alone : w.inAcceptedHandoff i = false)
    (performed : (w.recallRegion i).inflight i = 0) (recalled : (w.recallRegion i).regionEntries i = false) :
    execRegionDrained now i s = .next
      (((w.recallRegion i).modRegion i fun r => { r with state := .idle, cid := 0 }).drainNotice i) := by
  rw [execRegionDrained, State.serving_of_not_withdrawn stays, hw]
  simp [draining, alone, performed, recalled, State.endDrain]

/-- The chunks are back in their pool once the region's bytes have been zeroed, and its index may be given again. -/
theorem execReleaseZeroingDone_order {ref : OrderRef} (releasing : (w.region i).state = .releasing)
    (order : (w.region i).order = some ref) :
    ∃ t : State, execReleaseZeroingDone now i s = .next (t.finishOrder ref stOk []) ∧
      t.store.released = w.store.released ++ [i] ∧
      t.pools (w.region i).cls = (w.giveBack (w.region i).cls (w.region i).chunks).pools (w.region i).cls := by
  rw [execReleaseZeroingDone, State.serving_of_not_withdrawn stays, hw]
  dsimp only
  rw [if_neg (not_not.mpr releasing), order]
  refine ⟨_, rfl, ?_, rfl⟩
  exact congrArg (· ++ [i]) State.giveBack_released

/-- The retier ends with the region in its new class, mode and chunks, under its new key. -/
theorem execRetierCopyDone_order {ref : OrderRef} (retiering : (w.region i).state = .retiering) (order : (w.region i).order = some ref) :
    ∃ (t : State) (first : W64) (k : W32), execRetierCopyDone now i s = .next (t.finishOrder ref stOk []) ∧
      t.region i = Region.retiered { w.region i with keySlot := k } first := by
  subst hw
  rw [execRetierCopyDone, State.serving_of_not_withdrawn stays]
  extract_lets u r lifted unmapped given
  have used : ∀ v : State, v.store.regions = u.store.regions → (v.region i).state ≠ .free := fun v e => by
    rw [State.region_congr e, retiering]
    decide
  have hl : (if r.cls = clsDeep then u.liftSectors i else u : State).store.regions = u.store.regions := by
    split
    · exact State.liftSectors_regions
    · rfl
  obtain ⟨k, hk⟩ := State.destroyKey_region (used _ hl)
  have hg : given.region i = { r with keySlot := k } := by
    rw [State.region_congr (s := lifted), hk, State.region_congr hl]
    exact (State.setPools_regions ..).trans (by unfold unmapped; split; exact State.dropMap_regions; rfl)
  rw [if_neg (not_not.mpr retiering)]
  split
  rename_i first taken e
  extract_lets _ unlisted moved written
  have ht : unlisted.region i = given.region i := by cases e; rfl
  have hm : moved.region i = Region.retiered { r with keySlot := k } first := by
    rw [← hg, ← ht]
    exact (State.region_setRegion_of_idle rfl i i).trans (if_pos rfl)
  have hw : written.store.regions = moved.store.regions := by
    unfold written
    split
    · refine State.foldl_regions (fun v j => ?_) _
      rw [State.dropCopy_regions, State.programSector, State.programGranule_regions, State.setSector_store_regions]
    · rfl
  have ho : r.order = some ref := order
  rw [ho]
  exact ⟨written, first, k, rfl, (State.region_congr hw).trans hm⟩

end

/-- Settles O27: the orders by the state of the region that they name, the events by what they find done. -/
theorem regionOrders : Obligations.RegionOrders := by
  intro o rh size placement redundancy shape rights group cid gen now i s u w q cls
  refine ⟨?create, ?idle, ?revoke, ?drained, ?zeroed, ?copied⟩
  case create =>
    exact fun ok whole least most placed shaped stays j v made =>
      ⟨execRegionCreate_made ok whole least most placed shaped stays made, State.createRegion_made made⟩
  case idle =>
    exact fun ok named idle =>
      ⟨fun e active current => execRegionAssign_idle ok rfl named idle active current rights,
        execRegionRelease_idle ok rfl named idle,
        fun l t key t' placed room keyed => execRegionRetier_idle ok rfl named idle placed room keyed⟩
  case revoke => exact fun ok named assigned => execRegionRevoke_assigned ok rfl named assigned
  case drained =>
    exact fun stays draining alone performed recalled => execRegionDrained_empty stays rfl draining alone performed recalled
  case zeroed => exact fun ref stays releasing order => execReleaseZeroingDone_order stays rfl releasing order
  case copied =>
    intro ref stays retiering order
    obtain ⟨t, first, k, e, ht⟩ := execRetierCopyDone_order stays rfl retiering order
    refine ⟨t, e, ?_⟩
    rw [ht]
    exact ⟨rfl, rfl, rfl, rfl, rfl⟩

end Sys2Proof.Machine
end

section
/-! Proofs about replica frames, their answers, and redundancy groups (05: R61, R92; 13: R397 to R415, R428). -/
namespace Sys2Proof.Machine

/-! ### Replica frames -/

/-- What a replica frame that passed its checks does on the region that it names: a version or an object record is stored, anything
else is an access, counted in its group where it carries a rebuild's copy. -/
def State.replicaService (s : State) (h : Hdr) (opcode : Byte) (mirror : Bool) (a : Addr) (data : List Byte) (i : Nat) (copied : Bool) :
    State :=
  if a.sub = 0xFF then (s.takeVersion i mirror a.offset.toNat (BitVec.ofNat 64 (ofBe data))).respond h opcode stOk []
  else if mirror ∧ a.sub.toNat = objectSub then
    (s.setObject (objectKey s.aid (BitVec.ofNat 40 a.offset.toNat)) (parseObject data)).respond h opcode stOk []
  else if (s.region i).size < a.offset.toNat + data.length then s.respond h opcode stBounds []
  else
    (if copied then s.setGroup (s.region i).group.toNat { s.groupOf i with copied := (s.groupOf i).copied + 1 } else s).submit
      { kind := if mirror then .mirror else .parity, origin := .frame h opcode, src := h.src, owner := h.src
        cid := h.cid, gen := h.gen, region := i, offset := a.offset.toNat, len := data.length, data := data
        sub := a.sub.toNat, copied := copied }

section
variable {h : Hdr} {a : Addr} {step : W32} {data : List Byte} {mirror copied : Bool} {i : Nat} {s u : State}

/-- A replica frame that passes R72, R70 and R428 is served where its composition's step takes it (R397) or a rebuild copies it. -/
theorem replicaFrame_taken (hu : s.afterLink h = u) (hi : (u.localRegion a.rh).getD 0 = i)
    (hc : (mirror && decide (a.sub = 0) && u.isCopy i a.offset.toNat data.length) = copied)
    (ok : FrameTaken false h 24 s) (zeroed : h.zeroed = true) (admitted : s.boot.admitted = true)
    (here : s.comps.selfExpelled = false) (checked : replicaCheck u h a.rh = none) (valid : replicaValid h a data mirror = none)
    (goes : (∃ e, u.activeIdx h.cid = some e ∧ (u.compAt e).takesReplica step = true) ∨ copied = true) (opcode : Byte) :
    replicaFrame h opcode mirror a step data s = u.replicaService h opcode mirror a data i copied := by
  have admitted' : u.boot.admitted = true := by rw [← hu, State.afterLink_boot, admitted]
  have here' : u.comps.selfExpelled = false := by rw [← hu, State.afterLink_comps_selfExpelled, here]
  rw [replicaFrame, consumed_taken ok, hu]
  dsimp only
  rw [admitted', here', zeroed, if_pos rfl, valid]
  dsimp only
  rw [checked]
  dsimp only
  rw [hi, hc]
  obtain ⟨e, active, takes⟩ | rfl := goes
  · rw [active]
    simp [takes, State.replicaService]
  · simp [State.replicaService]

theorem State.replicaService_version (sub : a.sub = 0xFF) (opcode : Byte) : u.replicaService h opcode mirror a data i copied =
    (u.takeVersion i mirror a.offset.toNat (BitVec.ofNat 64 (ofBe data))).respond h opcode stOk [] :=
  if_pos sub

theorem State.replicaService_object (sub : a.sub = 0xFE) (opcode : Byte) : u.replicaService h opcode true a data i copied =
    (u.setObject (objectKey u.aid (BitVec.ofNat 40 a.offset.toNat)) (parseObject data)).respond h opcode stOk [] := by
  rw [State.replicaService, if_neg (by rw [sub]; decide), if_pos ⟨rfl, by rw [sub]; rfl⟩]

theorem State.replicaService_access (noVersion : a.sub ≠ 0xFF) (noObject : a.sub ≠ 0xFE)
    (inside : a.offset.toNat + data.length ≤ (u.region i).size) (opcode : Byte) : u.replicaService h opcode mirror a data i copied =
    (if copied then u.setGroup (u.region i).group.toNat { u.groupOf i with copied := (u.groupOf i).copied + 1 } else u).submit
      { kind := if mirror then .mirror else .parity, origin := .frame h opcode, src := h.src, owner := h.src
        cid := h.cid, gen := h.gen, region := i, offset := a.offset.toNat, len := data.length, data := data
        sub := a.sub.toNat, copied := copied } := by
  have noObject' : ¬ (mirror = true ∧ a.sub.toNat = objectSub) := fun e => noObject (BitVec.eq_of_toNat_eq e.2)
  rw [State.replicaService, if_neg noVersion, if_neg noObject', if_neg inside.not_gt]

end

/-! ### Answers -/

section
variable {h : Hdr} {q : Issued} {data : List Byte} {mask : W64} {s v : State} (ok : AnswerTaken h q s)
  (hv : (s.afterLink h).dropIssued (fun y => decide (y.id = q.id)) = v)
include ok hv

theorem execReplicaAnswer_replica {acc k p : Nat} (req : q.req = .replica acc k p) :
    execReplicaAnswer h data mask s = .next ((v.modHeld acc fun b => b.replicaAnswered q.id h.status).pump) := by
  rw [execReplicaAnswer, answerTo_taken ok, hv, req]

theorem execReplicaAnswer_stripe {acc p : Nat} (req : q.req = .stripe acc p) :
    execReplicaAnswer h data mask s = .next ((v.modHeld acc fun b =>
      b.stripeAnswered q.id p (if h.status = stOk ∧ mask = 0 then sliceBytes data 0 64 else [])).pump) := by
  rw [execReplicaAnswer, answerTo_taken ok, hv, req]

theorem execReplicaAnswer_unit {y : UnitRead} (req : q.req = .unit)
    (reads : (v.reqs.units.find? fun y => decide (y.id = q.id)) = some y) :
    execReplicaAnswer h data mask s = .next (v.answerUnit q.id
      { status := if h.status = stPoison then stOk else h.status, data := sliceBytes data 0 y.len
        poison := maskLines mask y.off y.len }) := by
  rw [execReplicaAnswer, answerTo_taken ok, hv, req]
  dsimp only
  rw [State.unitAnswered, reads]

theorem execReplicaAnswer_unitWrite {m off : Nat} (req : q.req = .unitWrite m off) :
    execReplicaAnswer h data mask s = .next ((v.unitFails m h.status off).settleReply m) := by
  rw [execReplicaAnswer, answerTo_taken ok, hv, req]

theorem execReplicaAnswer_rebuild {k : Nat} (req : q.req = .rebuild k) : execReplicaAnswer h data mask s = .next v := by
  rw [execReplicaAnswer, answerTo_taken ok, hv, req]

end

/-! ### Redundancy groups -/

section
variable {o : Order} {group : W32} {s x : State} (ok : OrderTaken o s) (hx : s.orderTaken o = x)
include ok hx

theorem execGroupDefine_good {record : Ptr} {l : Nat} (local_ : x.localRegion record.rh = some l) (used : (x.region l).state ≠ .free)
    (inside : record.offset.toNat + 192 ≤ (x.region l).size) {raw : List Byte} (hr : readBytes x l record.offset.toNat 192 = raw)
    (reserved : groupReserved raw = true) (good : x.groupOk (parseGroup raw) = true) :
    execGroupDefine o group record s = .next
      ((x.defineGroup group.toNat { parseGroup raw with
        versions := (x.comps.groups.get {} group.toNat).versions }).finishOrder o.ref stOk []) := by
  have here : ¬ ((x.region l).state = .free ∨ (x.region l).size < record.offset.toNat + 192) := not_or.mpr ⟨used, inside.not_gt⟩
  rw [execGroupDefine, orderRequest_taken ok, hx, local_]
  dsimp only
  rw [if_neg here, hr, reserved, good]
  rfl

theorem execGroupTakeover_taken {gx g : Group} {pos : Byte} {v : State} (hg : x.comps.groups.get {} group.toNat = gx)
    (defined : gx.kind ≠ 0) (position : pos.toNat < gx.k + gx.c)
    (he : { gx with condition := 1, failed := if gx.failed.contains pos.toNat then gx.failed else gx.failed ++ [pos.toNat]
                    spareAid := 0, spareRegion := 0, sparePosition := 0, copying := false } = g)
    (hv : ((x.dropCopies [group.toNat]).defineGroup group.toNat g).adoptFailed g = v) (room : v.adoptedAids.length ≤ 15) :
    execGroupTakeover o group pos s = .next
      ((((v.forgetPosition group.toNat pos.toNat).pump).revertTaken x.anchored).finishOrder o.ref stOk []) := by
  have there : ¬ (gx.kind = 0 ∨ gx.k + gx.c ≤ pos.toNat) := not_or.mpr ⟨defined, position.not_ge⟩
  rw [execGroupTakeover, orderRequest_taken ok, hx]
  dsimp only
  rw [hg, if_neg there, he, hv, if_neg room.not_gt]

theorem execGroupRebuild_failed {gx g : Group} {pos : Byte} {sa : Aid} {sr : BitVec 24} (hg : x.comps.groups.get {} group.toNat = gx)
    (defined : gx.kind ≠ 0) (failed : gx.hasFailed pos.toNat = true)
    (he : { gx with condition := 2, spareAid := sa, spareRegion := sr.toNat, sparePosition := pos.toNat, cursor := 0
                    cursorOpen := 0, copying := false, copied := 0 } = g) :
    execGroupRebuild o group pos sa sr s = .next
      (((((x.dropCopies [group.toNat]).defineGroup group.toNat g).sendSpareVersions group.toNat g).sendSpareObjects group.toNat
        g).finishOrder o.ref stOk []) := by
  rw [execGroupRebuild, orderRequest_taken ok, hx]
  dsimp only
  rw [hg, if_neg (by simp [defined, failed]), he]

end

section
variable {now i k : Nat} {s w : State} {g : Group} (stays : s.withdrawn = false) (hw : s.advanceTo now = w)
  (hg : w.comps.groups.get {} i = g) (rebuilds : g.condition = 2) (here : w.comps.selfExpelled = false)
  (source : w.rebuildSource g = some k)
include stays hw hg rebuilds here source

theorem execRebuildChunk_next (idle : g.copying = false) : execRebuildChunk now i s = .next (w.startCopy i k g) := by
  rw [execRebuildChunk, State.serving_of_not_withdrawn stays, hw]
  dsimp only
  rw [hg, if_neg (by simp [rebuilds, here]), source, idle]
  exact congrArg _ (if_pos rfl)

/-- Past a copied chunk the cursor advances, and after the last chunk the spare takes the position. -/
theorem execRebuildChunk_copied (copies : g.copying = true) (done : w.copiesOut i = false) : execRebuildChunk now i s = .next
    (if (g.cursor + 1) * chunkBytes < g.size then w.setGroup i { g with cursor := g.cursor + 1, copying := false }
     else w.rebuildDone i g) := by
  rw [execRebuildChunk, State.serving_of_not_withdrawn stays, hw]
  dsimp only
  rw [hg, if_neg (by simp [rebuilds, here]), source, copies, done]
  exact congrArg _ ((if_neg Bool.noConfusion).trans (if_neg Bool.noConfusion))

end

/-- Settles O32: both replica frames by one rule, an answer by the request that it answers, a group's orders by its record. -/
theorem replicaFramesAndGroups : Obligations.ReplicaFramesAndGroups := by
  intro h o a step group data mask record pos sa sr now i s u x w j k gx gw
  refine ⟨?frames, ?answers, ?groups, ?chunk⟩
  case frames =>
    intro ok zeroed admitted here checked y hy takes copied z valid goes
    have served : exec y.1 s = .next (u.replicaService h y.2.1 y.2.2.1 a data j copied) ∧
        y.2.2.2 = (if y.2.2.1 then .mirror else .parity) := by
      simp only [List.mem_cons, List.not_mem_nil, or_false] at hy
      obtain rfl | rfl := hy
      · exact ⟨congrArg _ (replicaFrame_taken rfl rfl rfl ok zeroed admitted here checked valid goes 0x50), rfl⟩
      · exact ⟨congrArg _ (replicaFrame_taken rfl rfl rfl ok zeroed admitted here checked valid goes 0x51), rfl⟩
    obtain ⟨served, kind⟩ := served
    refine ⟨fun sub => ?_, fun sub mirror => ?_, fun noVersion noObject inside => ?_⟩
    · rw [served, State.replicaService_version sub]
    · rw [served, mirror, State.replicaService_object sub]
    · rw [served, kind, State.replicaService_access noVersion noObject inside]
  case answers =>
    intro r ok v
    exact
      ⟨fun acc k p req => execReplicaAnswer_replica ok rfl req, fun acc p req => execReplicaAnswer_stripe ok rfl req,
        fun y req reads => execReplicaAnswer_unit ok rfl req reads, fun m off req => execReplicaAnswer_unitWrite ok rfl req,
        fun k req => execReplicaAnswer_rebuild ok rfl req⟩
  case groups =>
    intro ok
    refine ⟨?define, ?takeover, ?rebuild⟩
    case define =>
      intro l local_ used inside raw g reserved good
      exact execGroupDefine_good ok rfl local_ used inside rfl reserved good
    case takeover =>
      intro defined position g v room
      exact execGroupTakeover_taken ok rfl rfl defined position rfl rfl room
    case rebuild =>
      intro defined failed g
      exact execGroupRebuild_failed ok rfl rfl defined failed rfl
  case chunk =>
    exact fun stays rebuilds here k source =>
      ⟨execRebuildChunk_next stays rfl rfl rebuilds here source, execRebuildChunk_copied stays rfl rfl rebuilds here source⟩

end Sys2Proof.Machine
end

section
/-! What a fold over the state leaves alone, and how a request that passed the composition check is admitted or refused (03: R642). -/
namespace Sys2Proof.Machine

/-- What every step of a fold leaves alone, the fold does. -/
theorem State.foldl_keeps {α β : Type} {g : State → β} {f : State → α → State} (hf : ∀ v a, g (f v a) = g v)
    (l : List α) (s : State) : g (l.foldl f s) = g s := by
  induction l generalizing s with
  | nil => rfl
  | cons a l ih => exact (ih _).trans (hf s a)

/-- An access as its frame asks for it, of the frame's sender and composition and in the region that the frame names. -/
def State.asked (s : State) (h : Hdr) (opcode : Byte) (rh : Handle) (a : Access) : Access :=
  { a with origin := .frame h opcode, src := h.src, cid := h.cid, gen := h.gen
           region := (s.localRegion rh).getD 0, position := s.standsFor rh }

/-- An access that passed every check enters service as espresso class where the credit allows it (R53, R205). -/
def State.enter (s : State) (h : Hdr) (reqBytes respBytes : Nat) (x : Access) : State :=
  (s.enterEspresso h reqBytes respBytes).1.submit { x with espresso := (s.enterEspresso h reqBytes respBytes).2 }

section
variable {h : Hdr} {opcode : Byte} {rh : Handle} {right : Nat} {a x : Access} {s : State} (hx : s.asked h opcode rh a = x)
include hx

/-- An admitted request that R642 refuses is answered with that status alone. -/
theorem admitAccess_refused {st : Byte} (refused : s.refusal h x right = some st) (fail : List Byte) (reqBytes respBytes : Nat) :
    admitAccess h opcode fail rh right reqBytes respBytes a s = s.respond h opcode st fail := by
  rw [← hx, State.asked] at refused
  rw [admitAccess]
  dsimp only
  rw [refused]

/-- A request that R642 does not refuse enters service. -/
theorem admitAccess_admitted (free : s.refusal h x right = none) (fail : List Byte) (reqBytes respBytes : Nat) :
    admitAccess h opcode fail rh right reqBytes respBytes a s = s.enter h reqBytes respBytes x := by
  subst hx
  rw [State.asked] at free
  rw [admitAccess]
  dsimp only
  rw [free]
  rfl

end

end Sys2Proof.Machine
end

section
/-! Proofs about what answers a request that goes no further (03: R70 to R74, R84, R102, R431): frames accepted from nobody, requests
before admission, fields out of range, violations and refusals. -/
namespace Sys2Proof.Machine

/-! ### Frames accepted from nobody -/

/-- Settles O25: a frame that R73 accepts from nobody passes its own checks and is then counted, whatever it carries. -/
theorem framesAcceptedFromNobody : Obligations.FramesAcceptedFromNobody := by
  intro h t a oh seq aid cid code body p mover access reason engine total index id va s counted
  refine ⟨fun ok e he => ?sixteen, fun ok => ?fault, fun ok => ?acknowledgement, fun ok => ?notice⟩
  case sixteen =>
    have counts : Host.Outcome.next (consumed h 16 (senderRejected h) s) = (.next (counted (s.afterLink h)) : Out) :=
      congrArg _ (consumed_taken ok _)
    simp only [List.mem_cons, List.not_mem_nil, or_false] at he
    obtain rfl | rfl | rfl | rfl := he
    all_goals exact counts
  case fault => exact congrArg _ (consumed_taken ok (senderRejected h))
  case acknowledgement => exact congrArg _ (consumed_taken ok (senderRejected h))
  case notice => exact congrArg _ (managed_taken ok (senderRejected h))

/-! ### Fields out of range (R70) -/

/-- A member's request of an admitted device is INVALID where a zero field is not zero or another field is out of range. -/
theorem memberRequest_badFields {h : Hdr} {fixed : Nat} {s : State} (ok : FrameTaken false h fixed s) (ha : s.boot.admitted = true)
    (hx : s.comps.selfExpelled = false) {valid : Option Byte} (bad : h.zeroed = true → valid = some stInvalid) (opcode : Byte)
    (fail zero : List Byte) (block pointers : List Handle) (k : State → State) :
    memberRequest h opcode fixed valid fail zero block pointers k s = (s.afterLink h).respond h opcode stInvalid fail := by
  cases hz : h.zeroed
  · simp [memberRequest, consumed_taken ok, memberChecked, hz, ha, hx]
  · rw [bad hz]
    exact memberRequest_invalid ok hz ha hx opcode stInvalid fail zero block pointers k

/-- The sizes of R84, as an atomic's fields are tested. -/
theorem atomicSizeOk_iff {op size : Nat} (listed : op ≤ 9) :
    atomicSizeOk op size = true ↔ size = 4 ∨ size = 8 ∨ (size = 16 ∧ op ≤ 1) := by
  simp [atomicSizeOk, listed, or_assoc]

theorem atomicValid_outOfShape {a : Addr} (bad : atomicSizeOk a.sub.toNat a.count.toNat = false ∨ a.offset.toNat % a.count.toNat ≠ 0) :
    atomicValid a = some stInvalid := by
  rw [atomicValid, if_pos (by simpa using bad)]

theorem atomicValid_inShape {a : Addr} (size : atomicSizeOk a.sub.toNat a.count.toNat = true) (aligned : a.offset.toNat % a.count.toNat = 0) :
    atomicValid a = none := by
  rw [atomicValid, if_neg (by simp [size, aligned])]

/-- Settles O59: the shape of R84 is what an atomic's fields are tested for, before anything else of an admitted request. -/
theorem atomicsOutOfShape : Obligations.AtomicsOutOfShape := by
  intro h a opA opB s ok admitted here listed n bad
  have bad' : atomicSizeOk a.sub.toNat n = false ∨ a.offset.toNat % n ≠ 0 :=
    bad.imp_left fun size => by rwa [← Bool.not_eq_true, atomicSizeOk_iff listed]
  refine ⟨congrArg _ (memberRequest_badFields ok admitted here (fun _ => atomicValid_outOfShape bad') ..), ?store⟩
  case store => rw [State.respond_store, State.afterLink_store]

/-! ### The answers to a READ -/

theorem readValid_inRange {a : Addr} (sub : a.sub = 0) (least : 1 ≤ a.count.toNat) (most : a.count.toNat ≤ 4096) :
    readValid a = none := by
  have fits : ¬ (a.sub ≠ 0 ∨ a.count.toNat < 1 ∨ 4096 < a.count.toNat) := by
    rintro (e | e | e)
    exacts [e sub, Nat.not_lt.mpr least e, Nat.not_lt.mpr most e]
  rw [readValid, if_neg fits]

theorem readValid_outOfRange {a : Addr} (bad : ¬ (a.sub = 0 ∧ 1 ≤ a.count.toNat ∧ a.count.toNat ≤ 4096)) :
    readValid a = some stInvalid := by
  have leaves : a.sub ≠ 0 ∨ a.count.toNat < 1 ∨ 4096 < a.count.toNat := by
    by_contra fits
    push Not at fits
    exact bad fits
  rw [readValid, if_pos leaves]

/-- Settles O22: a READ is answered by the first check of R72 and R642 that it fails. -/
theorem refusedRequestsAreAnswered : Obligations.RefusedRequestsAreAnswered := by
  intro h a s ok u x valid admitted
  refine ⟨fun out => ?unadmitted, fun ⟨adm, here⟩ bad => ?invalid,
    fun ⟨adm, here⟩ ⟨hz, hv⟩ member reason check => ?violation,
    fun ⟨adm, here⟩ ⟨hz, hv⟩ check st refused => ?refused, fun t op st l reason => ⟨t.respond_store .., t.violation_store ..⟩,
    s.afterLink_store h⟩
  case unadmitted =>
    refine congrArg _ (memberRequest_unadmitted ok ?_ ..)
    rwa [← Bool.not_eq_true, ← Bool.not_eq_false (s.comps.selfExpelled), ← not_and_or]
  case invalid => exact congrArg _ (memberRequest_badFields ok adm here (fun hz => readValid_outOfRange fun hv => bad ⟨hz, hv⟩) ..)
  all_goals
    obtain ⟨sub, least, most⟩ := hv
    simp only [exec, execRead, readFrame]
    rw [readValid_inRange sub least most]
  case violation => exact congrArg _ (memberRequest_violation ok hz member adm here check ..)
  case refused =>
    rw [memberRequest_taken ⟨ok, hz, adm, here, check⟩]
    exact congrArg _ (admitAccess_refused rfl refused ..)

end Sys2Proof.Machine
end

section
/-! Proofs about data and coherence requests that enter service (04: R115 to R138, R148, R168; 03: R642). -/
namespace Sys2Proof.Machine

/-! ### Fields in range -/

theorem writeValid_inRange {h : Hdr} {a : Addr} {data : List Byte} (sub : a.sub = 0) (high : bitsOf a.count.toNat 13 3 = 0)
    (count : data.length = bitsOf a.count.toNat 0 13) (len : h.length = 16 + data.length) (least : 1 ≤ data.length)
    (most : data.length ≤ 4096) : writeValid h a data = none := by
  rw [writeValid, ← count, if_neg]
  simp only [sub, high, len, ne_eq, not_true_eq_false, false_or, not_or, not_lt]
  exact ⟨least, most⟩

theorem cohValid_inRange {a : Addr} (sub : a.sub = 0) (aligned : a.offset.toNat % 64 = 0) (low : bitsOf a.count.toNat 0 16 = 0) :
    cohValid a = none := by
  rw [cohValid, if_neg (by simp [sub, aligned, low])]

/-! ### Admission -/

section
variable {h : Hdr} {a : Addr} {s u : State} (hu : s.afterLink h = u)
include hu

theorem readFrame_admitted {opcode : Byte} {kind : AccKind} {x : Access} (ok : MemberTaken h 16 [a.rh] [] s) (sub : a.sub = 0)
    (least : 1 ≤ a.count.toNat) (most : a.count.toNat ≤ 4096)
    (hx : u.asked h opcode a.rh { kind := kind, offset := a.offset.toNat, len := a.count.toNat } = x)
    (free : u.refusal h x rightRead = none) : readFrame h opcode kind a s = u.enter h 16 (8 + a.count.toNat) x := by
  rw [readFrame, readValid_inRange sub least most, memberRequest_taken ok, hu, admitAccess_admitted hx free]

theorem writeFrame_admitted {opcode : Byte} {kind : AccKind} {data : List Byte} {x : Access} (ok : MemberTaken h 16 [a.rh] [] s)
    (valid : writeValid h a data = none)
    (hx : u.asked h opcode a.rh { kind := kind, offset := a.offset.toNat, len := data.length, data := data
                                  owner := u.ownerOf h (BitVec.ofNat 16 (bitsOf a.count.toNat 16 16)) } = x)
    (free : u.refusal h x rightWrite = none) : writeFrame h opcode kind a data s = u.enter h (16 + data.length) 0 x := by
  rw [writeFrame, valid, memberRequest_taken ok, hu, admitAccess_admitted hx free]

theorem execAtomic_admitted {opA opB : BitVec 128} {x : Access} (ok : MemberTaken h 48 [a.rh] [] s) (valid : atomicValid a = none)
    (hx : u.asked h 0x07 a.rh { kind := .atomic, owner := h.src, offset := a.offset.toNat, len := a.count.toNat
                                atomicOp := a.sub.toNat, opA := opA.toNat, opB := opB.toNat } = x)
    (free : u.refusal h x rightAtomic = none) : execAtomic h a opA opB s = .next (u.enter h 48 16 x) := by
  rw [execAtomic, valid, memberRequest_taken ok, hu, admitAccess_admitted hx free]

theorem execPublish_admitted {rh : Handle} {expected : W64} {x : Access} (ok : MemberTaken h 16 [rh] [] s)
    (hx : u.asked h 0x08 rh { kind := .publish, owner := h.src, expected := expected } = x)
    (free : u.refusal h x (if expected = BitVec.allOnes 64 then rightRead else rightWrite) = none) :
    execPublish h rh expected s = .next (u.enter h 16 8 x) := by
  rw [execPublish, memberRequest_taken ok, hu, admitAccess_admitted hx free]

theorem cohFrame_admitted {opcode : Byte} {fixed : Nat} {kind : AccKind} {right : Nat} {data : List Byte} {x : Access}
    (ok : MemberTaken h fixed [a.rh] [] s) (valid : cohValid a = none)
    (hx : u.asked h opcode a.rh { kind := kind, owner := h.src, offset := a.offset.toNat, len := 64, data := data } = x)
    (free : u.refusal h x right = none) (fail zero : List Byte) :
    cohFrame h opcode fixed kind right fail zero a data s = u.enter h fixed zero.length x := by
  rw [cohFrame, valid, memberRequest_taken ok, hu, admitAccess_admitted hx free]

end

/-- Settles O21: a request that passes every check is admitted as the access that it asks for. -/
theorem dataRequestsEnterService : Obligations.DataRequestsEnterService := by
  intro h a rh data opA opB expected s u n from_ enter
  refine ⟨fun ok sub least most e he free => ?reads, fun ok sub high count len least most e he free => ?writes,
    fun ok size aligned free => ?atomic, fun ok free => ?publish, fun sub aligned low e he ok free => ?coherence⟩
  case reads =>
    have read := fun opcode kind => readFrame_admitted (opcode := opcode) (kind := kind) rfl ok sub least most rfl
    simp only [List.mem_cons, List.not_mem_nil, or_false] at he
    obtain rfl | rfl | rfl := he
    · exact congrArg _ (read 0x01 .read free)
    · exact congrArg _ (read 0x02 .readAcquire free)
    · exact congrArg _ (read 0x03 .readVolatile free)
  case writes =>
    have write := fun opcode kind => writeFrame_admitted (opcode := opcode) (kind := kind) rfl ok
      (writeValid_inRange sub high count len least most) rfl
    simp only [List.mem_cons, List.not_mem_nil, or_false] at he
    obtain rfl | rfl := he
    · exact congrArg _ (write 0x04 .write free)
    · exact congrArg _ (write 0x05 .flagged free)
  case atomic => exact execAtomic_admitted rfl ok (atomicValid_inShape size aligned) rfl free
  case publish => exact execPublish_admitted rfl ok rfl free
  case coherence =>
    have coherent := fun {fixed right} opcode kind data (ok : MemberTaken h fixed [a.rh] [] s) =>
      cohFrame_admitted (opcode := opcode) (kind := kind) (right := right) (data := data) rfl ok (cohValid_inRange sub aligned low) rfl
    simp only [List.mem_cons, List.not_mem_nil, or_false] at he
    obtain rfl | rfl | rfl | rfl := he
    · exact congrArg _ (coherent 0x10 .cReadShared [] ok free (zeros 8) (zeros 72))
    · exact congrArg _ (coherent 0x11 .cReadOwn [] ok free (zeros 8) (zeros 72))
    · exact congrArg _ (coherent 0x12 .cUpgrade [] ok free (zeros 8) (zeros 8))
    · exact congrArg _ (coherent 0x13 .cWriteback (sliceBytes data 0 64) ok free [] [])

end Sys2Proof.Machine
end

section
/-! Proofs about RELEASE and the ownership of spans (03: R82; 05: R164, R165). -/
namespace Sys2Proof.Machine

theorem State.earlierOfAgent_iff {s : State} {src : Aid} {id : Nat} :
    s.earlierOfAgent src id = true ↔ ∃ x ∈ s.reqs.held, x.id < id ∧ x.src = src ∧ x.kind.isOrderedWrite = true := by
  simp [State.earlierOfAgent, and_assoc]

theorem State.earlierOfAgent_congr {s t : State} (e : t.reqs.held = s.reqs.held) (src : Aid) (id : Nat) :
    t.earlierOfAgent src id = s.earlierOfAgent src id := by
  rw [State.earlierOfAgent, e]
  rfl

/-! ### Requests -/

/-- What OWN_TAKE and OWN_GIVE ask for before the row of R165. -/
structure OwnTaken (h : Hdr) (a : Addr) (s u : State) (i : Nat) : Prop where
  member : MemberTaken h 16 [a.rh] [] s
  valid : cohValid a = none
  incoherent : (u.region i).coherent = false
  writes : u.hasRight h false i rightWrite = true
  inside : a.offset.toNat < (u.region i).size

section
variable {h : Hdr} {s u : State} (hu : s.afterLink h = u)
include hu

theorem State.takeId_earlierOfAgent (src : Aid) : u.takeId.2.earlierOfAgent src u.takeId.1 = s.earlierOfAgent src s.reqs.nextId := by
  have reqs : u.reqs = s.reqs := by rw [← hu, State.afterLink_reqs]
  calc u.takeId.2.earlierOfAgent src u.takeId.1
    _ = s.earlierOfAgent src u.reqs.nextId := State.earlierOfAgent_congr (congrArg Requests.held reqs) ..
    _ = s.earlierOfAgent src s.reqs.nextId := by rw [reqs]

/-- A RELEASE completes at once, or waits for its agent's writes and atomics. -/
theorem execRelease_taken (ok : MemberTaken h 8 [] [] s) : execRelease h s = .next
    (if s.earlierOfAgent h.src s.reqs.nextId then u.takeId.2.setWaiting (s.reqs.waiting ++ [{ id := s.reqs.nextId, h := h }])
     else u.takeId.2.respond h 0x06 stOk []) := by
  have reqs : u.reqs = s.reqs := by rw [← hu, State.afterLink_reqs]
  rw [execRelease, memberRequest_taken ok, hu, ← State.takeId_earlierOfAgent hu, ← reqs]
  rfl

theorem ownRequest_taken {a : Addr} {i : Nat} (hi : (u.localRegion a.rh).getD 0 = i) (ok : OwnTaken h a s u i) (opcode : Byte)
    (k : Nat → State → State) : ownRequest h opcode a k s = k i u := by
  rw [ownRequest, ok.valid, memberRequest_taken ok.member, hu]
  dsimp only
  rw [hi, ok.incoherent, ok.writes, if_neg Bool.noConfusion, if_neg Bool.noConfusion, if_neg ok.inside.not_ge]

/-- The row of R165 for OWN_TAKE. -/
theorem execOwnTake_taken {a : Addr} {i : Nat} {o : Aid} (hi : (u.localRegion a.rh).getD 0 = i)
    (ho : s.store.spans.get 0 (spanKey i (a.offset.toNat / chunkBytes)) = o) (ok : OwnTaken h a s u i) : execOwnTake h a s = .next
      (if o = 0 then (u.setSpan i (a.offset.toNat / chunkBytes) h.src).respond h 0x17 stOk []
       else if o = h.src then u.respond h 0x17 stOk [] else u.respond h 0x17 stBusy []) := by
  have store : u.store = s.store := by rw [← hu, State.afterLink_store]
  rw [execOwnTake, ownRequest_taken hu hi ok, ← ho, ← store]

/-- The row of R165 for OWN_GIVE. -/
theorem execOwnGive_taken {a : Addr} {i : Nat} {o : Aid} (hi : (u.localRegion a.rh).getD 0 = i)
    (ho : s.store.spans.get 0 (spanKey i (a.offset.toNat / chunkBytes)) = o) (ok : OwnTaken h a s u i) : execOwnGive h a s = .next
      (if o ≠ h.src then u.respond h 0x18 stNotOwner []
       else if s.earlierOfAgent h.src s.reqs.nextId then u.takeId.2.setWaiting
         (s.reqs.waiting ++ [{ id := s.reqs.nextId, h := h, give := some (i, a.offset.toNat / chunkBytes) }])
       else (u.takeId.2.setSpan i (a.offset.toNat / chunkBytes) 0).respond h 0x18 stOk []) := by
  have store : u.store = s.store := by rw [← hu, State.afterLink_store]
  have reqs : u.reqs = s.reqs := by rw [← hu, State.afterLink_reqs]
  rw [execOwnGive, ownRequest_taken hu hi ok, ← ho, ← store, ← State.takeId_earlierOfAgent hu, ← reqs]
  rfl

end

/-! ### Those that waited -/

section
variable {now id : Nat} {w : Waiting} {s v : State} (hv : s.advanceTo now = v) (stays : s.withdrawn = false)
  (performed : s.earlierOfAgent w.h.src id = false)
include hv stays performed

theorem execReleaseComplete_performed
    (waits : (s.reqs.waiting.find? fun x => decide (x.id = id) && x.give.isNone) = some w) :
    execReleaseComplete now id s =
      .next ((v.setWaiting (s.reqs.waiting.filter fun x => decide (x.id ≠ id))).respond w.h 0x06 stOk []) := by
  have reqs : v.reqs = s.reqs := by rw [← hv, State.advanceTo_reqs]
  rw [execReleaseComplete, State.serving_of_not_withdrawn stays, hv]
  dsimp only
  rw [reqs, waits]
  dsimp only
  rw [State.earlierOfAgent_congr (congrArg Requests.held reqs), performed]
  rfl

theorem execOwnGiveComplete_performed {j k : Nat} (waits : (s.reqs.waiting.find? fun x => decide (x.id = id)) = some w)
    (gives : w.give = some (j, k)) (owns : s.store.spans.get 0 (spanKey j k) = w.h.src) :
    execOwnGiveComplete now id s = .next
      (((v.setWaiting (s.reqs.waiting.filter fun x => decide (x.id ≠ id))).setSpan j k 0).respond w.h 0x18 stOk []) := by
  have reqs : v.reqs = s.reqs := by rw [← hv, State.advanceTo_reqs]
  have owns' : (v.setWaiting (s.reqs.waiting.filter fun x => decide (x.id ≠ id))).store.spans.get 0 (spanKey j k) = w.h.src := by
    rw [← owns, ← State.advanceTo_store s now, hv]
    rfl
  rw [execOwnGiveComplete, State.serving_of_not_withdrawn stays, hv]
  dsimp only
  rw [reqs, waits]
  dsimp only
  rw [gives]
  dsimp only
  rw [State.earlierOfAgent_congr (congrArg Requests.held reqs), performed, if_pos owns']
  rfl

end

/-- Settles O23: each request by the row that the state calls for, and the two that waited once nothing holds them up. -/
theorem releaseAndOwnershipRequests : Obligations.ReleaseAndOwnershipRequests := by
  intro h a now id w s u v i c o n owned unperformed rest
  have held : ∀ src m, s.earlierOfAgent src m = true ↔ unperformed src m := fun _ _ => State.earlierOfAgent_iff
  refine ⟨fun ok => ?release, fun own => ?ownership, fun stays waits no => ?releaseComplete,
    fun stays waits j k gives owns no => ?giveComplete⟩
  case release =>
    have taken := execRelease_taken rfl ok
    exact ⟨fun no => taken.trans (congrArg _ (if_neg (mt (held _ _).mp no))),
      fun yes => taken.trans (congrArg _ (if_pos ((held _ _).mpr yes)))⟩
  case ownership =>
    obtain ⟨member, sub, aligned, low, incoherent, writes, inside⟩ := own
    have ok : OwnTaken h a s u i := ⟨member, cohValid_inRange sub aligned low, incoherent, writes, inside⟩
    have take := execOwnTake_taken rfl rfl rfl ok
    have give := execOwnGive_taken rfl rfl rfl ok
    refine ⟨fun free => take.trans ?_, fun taken mine => take.trans ?_, fun taken other => take.trans ?_,
      fun mine no => give.trans ?_, fun mine yes => give.trans ?_, fun other => give.trans ?_⟩
    · exact congrArg _ (if_pos free)
    · exact congrArg _ ((if_neg taken).trans (if_pos mine))
    · exact congrArg _ ((if_neg taken).trans (if_neg other))
    · exact congrArg _ ((if_neg (not_not.mpr mine)).trans (if_neg (mt (held _ _).mp no)))
    · exact congrArg _ ((if_neg (not_not.mpr mine)).trans (if_pos ((held _ _).mpr yes)))
    · exact congrArg _ (if_pos other)
  case releaseComplete => exact execReleaseComplete_performed rfl stays (Bool.eq_false_iff.mpr (mt (held _ _).mp no)) waits
  case giveComplete => exact execOwnGiveComplete_performed rfl stays (Bool.eq_false_iff.mpr (mt (held _ _).mp no)) waits gives owns

end Sys2Proof.Machine
end

section
/-! Proofs about the hop protocol (03: R103 to R109): HOP_ACK, HOP_NAK and the replay timer. -/
namespace Sys2Proof.Machine

/-! ### Link frames of the partner -/

section
variable {h : Hdr} {pcp : Byte} {s u : State} (hu : (s.advanceTo h.now).bump 0 h.port 0 = u) (arr : s.arrives h.port h.sub = true)
  (chk : h.check = .passed) (tag : h.tagged = true) (encap : s.encapOk h = true) (long : 8 ≤ h.length) (whole : h.length ≤ h.received)
  (partner : h.src = (u.subPort (subKey h.port h.sub)).partner)
include hu arr chk tag encap long whole partner

/-- A link frame of the partner that passes the link checks goes on; it passes no hop check (R107). -/
theorem linkArrival_taken {fixed : Nat} (short : fixed ≤ 8) (k : State → State) : linkArrival h fixed k s = k u := by
  subst hu
  have len : ¬ h.received < h.length ∧ ¬ h.length < fixed := by omega
  simp [linkArrival, arr, chk, tag, encapOk_counted encap, len, ← partner]

variable (named : pcp.toNat < 8) (lossless : u.lossless h.port pcp.toNat = true)
include named lossless

/-- A HOP_ACK of a resynchronised PCP that asks for nothing frees what it acknowledges. -/
theorem execHopAck_resynchronised {flags : Byte} (resync : ((u.subPort (subKey h.port h.sub)).hop pcp.toNat).resync = true)
    (asks : flags.getLsbD 0 = false) (fresh : flags.getLsbD 1 = false) (ack : BitVec 16) (epoch : W32) :
    execHopAck h pcp flags ack epoch s = .next (u.modHop (subKey h.port h.sub) pcp.toNat fun p => p.acked ack) := by
  rw [execHopAck, linkArrival_taken hu arr chk tag encap long whole partner (by decide)]
  dsimp only
  rw [resync, asks, fresh]
  simp [named.not_ge, lossless]

/-- Fresh state restarts with the epoch that the partner tells of (R108). -/
theorem execHopAck_newEpoch {epoch : W32} (lost : ((u.subPort (subKey h.port h.sub)).hop pcp.toNat).resync = false)
    (fresh : ((u.subPort (subKey h.port h.sub)).hop pcp.toNat).fresh = true) (flags : Byte) (ack : BitVec 16) :
    execHopAck h pcp flags ack epoch s = .next ((u.restartHop (subKey h.port h.sub) pcp.toNat).modHop (subKey h.port h.sub) pcp.toNat
      fun p => { p with partnerEpoch := epoch, resync := true, fresh := false }) := by
  rw [execHopAck, linkArrival_taken hu arr chk tag encap long whole partner (by decide)]
  simp [named.not_ge, lossless, lost, fresh]

/-- A HOP_NAK frees the frames before the one it names and calls for the rest. -/
theorem execHopNak_taken {ack : BitVec 16} {v : State} (hv : (u.modHop (subKey h.port h.sub) pcp.toNat fun p => p.acked (ack - 1)) = v) :
    execHopNak h pcp ack s = .next
      (v.replayFrames (subKey h.port h.sub) pcp.toNat ((v.subPort (subKey h.port h.sub)).hop pcp.toNat).replay) := by
  subst hv
  rw [execHopNak, linkArrival_taken hu arr chk tag encap long whole partner (by decide)]
  simp [named.not_ge, lossless]

end

/-! ### Replay -/

/-- A frame that was replayed 8 times makes the link train again; else all are replayed, up to the last one. -/
theorem State.replayFrames_cons {l : List Replay} (some_ : l ≠ []) (s : State) (k pcp : Nat) : s.replayFrames k pcp l =
    if ∃ r ∈ l, 8 ≤ r.count then (s.bump 0 (k / 8) 9).retrain k 3
    else s.modHop k pcp fun h => { h with pendingReplay := l.map (·.frame), until_ := l.getLast?.map (·.frame.hopSeq) } := by
  rw [State.replayFrames, State.replayUntil, if_neg (by simpa using some_)]
  simp only [List.any_eq_true, decide_eq_true_eq]

theorem execReplayTimeout_due {now port sub pcp k : Nat} {s w : State} {p : SubPort} {r : Replay} {l : List Replay}
    (hw : s.advanceTo now = w) (hk : subKey port sub = k) (hp : w.subPort k = p) (serves : s.inService = true) (up : p.link = .up)
    (resync : (p.hop pcp).resync = true) (goes : p.paused.get none pcp = none) (oldest : (p.hop pcp).replay = r :: l)
    (waits : ((p.hop pcp).pendingReplay.any fun f => decide (f.hopSeq = r.frame.hopSeq)) = false)
    (due : r.sent + w.boot.cfg.device.replayTimeout < w.now) :
    execReplayTimeout now port sub pcp s = .next (w.replayFrames k pcp (r :: l)) := by
  have serves' : w.inService = true := by rw [← hw, State.inService_of_advanceTo, serves]
  rw [execReplayTimeout, hw, hk]
  dsimp only
  rw [hp, oldest]
  simp [serves', up, resync, goes, waits, due.not_ge]

/-- Settles O47: a link frame by what the PCP's hop state is, and the replay of frames by how often they were replayed. -/
theorem hopProtocol : Obligations.HopProtocol := by
  intro h pcp flags ack epoch now port sub s u k q p w j
  refine ⟨fun arr chk tag encap long whole partner named lossless => ⟨?acknowledged, ?restarted, ?refused⟩, ?timeout,
    fun v i n l some_ => v.replayFrames_cons some_ i n⟩
  case acknowledged =>
    exact fun resync asks fresh =>
      execHopAck_resynchronised rfl arr chk tag encap long whole partner named lossless resync asks fresh ack epoch
  case restarted =>
    exact fun lost _ fresh => execHopAck_newEpoch rfl arr chk tag encap long whole partner named lossless lost fresh flags ack
  case refused => exact execHopNak_taken rfl arr chk tag encap long whole partner named lossless rfl
  case timeout =>
    exact fun r l serves up resync goes oldest waits due => execReplayTimeout_due rfl rfl rfl serves up resync goes oldest waits due

end Sys2Proof.Machine
end

section
/-! Proofs about a device that is not admitted (03: R74): every request of a member or an agent is answered NOT_ADMITTED, and frames of
managers, ticks and link frames take their effect. -/
namespace Sys2Proof.Machine

section
variable {h : Hdr} {s : State} (unadmitted : s.boot.admitted = false)
include unadmitted

theorem objectRequest_unadmitted {fixed : Nat} (ok : FrameTaken false h fixed s) (opcode : Byte) (oh : Handle)
    (sender : ObjRec → Bool) (k : Nat → State → State) :
    objectRequest h opcode fixed oh sender k s = (s.afterLink h).respond h opcode stNotAdmitted (zeros 8) := by
  simp [objectRequest, consumed_taken ok, memberChecked, unadmitted]

theorem replicaFrame_unadmitted (ok : FrameTaken false h 24 s) (opcode : Byte) (mirror : Bool) (a : Addr) (step : W32) (data : List Byte) :
    replicaFrame h opcode mirror a step data s = (s.afterLink h).respond h opcode stNotAdmitted [] := by
  simp [replicaFrame, consumed_taken ok, unadmitted]

theorem execResume_unadmitted (ok : FrameTaken false h 16 s) (desc : Ptr) (action : Byte) :
    execResume h desc action s = .next ((s.afterLink h).respond h 0x32 stNotAdmitted []) := by
  simp [execResume, consumed_taken ok, memberChecked, unadmitted]

end

/-- A TICK of a tick port that carries a new count is taken, whether or not the device is admitted. -/
theorem execTick_newCount {h : Hdr} {v : W64} {domain : BitVec 16} {s u : State} (hu : s.afterLink h = u) (ok : FrameTaken false h 16 s)
    (tick : (u.portCfg h.port).tick = true) (runs : u.ticksRun srcFrames = true) (ours : domain = u.boot.cfg.device.skyDomain)
    (new : u.sky.isCopy v = false) : execTick h v domain s = .next (State.countedTick (u.setSky (u.sky.take v)) u.now v) := by
  rw [execTick, linkChecks_taken ok, hu]
  simp [tick, runs, ours, new]

/-- Settles O58: what is not admitted is answered before any field is looked at, and what R74 exempts does not look at admission. -/
theorem unadmittedRequestsAreAnswered : Obligations.UnadmittedRequestsAreAnswered := by
  intro h t a rh oh data opA opB v len srcLen dstCap ra rc seq id bags nq step desc q2 out pred count k probes scale off row action gen
    fmt flags etype mode pcp hflags ack domain s unadmitted u w j
  refine ⟨?requests, fun ok => execResume_unadmitted unadmitted ok desc action, fun st op l => ⟨?store, ?reqs, u.respond_comps ..⟩,
    fun n go => ⟨fun ok => managed_taken ok go, fun ok => authenticated_taken ok go⟩,
    fun ok tick runs ours new => execTick_newCount rfl ok tick runs ours new,
    fun arr chk tag encap long whole partner named lossless => ⟨?acknowledged, ?refused⟩⟩
  case requests =>
    have member : ∀ {op fixed valid fail zero block pointers k}, FrameTaken false h fixed s →
        (.next (memberRequest h op fixed valid fail zero block pointers k s) : Out) = .next (u.respond h op stNotAdmitted fail) :=
      fun ok => congrArg _ (memberRequest_unadmitted ok (.inl unadmitted) ..)
    have object : ∀ {op fixed sender k}, FrameTaken false h fixed s →
        (.next (objectRequest h op fixed oh sender k s) : Out) = .next (u.respond h op stNotAdmitted (zeros 8)) :=
      fun ok => congrArg _ (objectRequest_unadmitted unadmitted ok ..)
    have replica : ∀ {op mirror}, FrameTaken false h 24 s →
        (.next (replicaFrame h op mirror a step data s) : Out) = .next (u.respond h op stNotAdmitted []) :=
      fun ok => congrArg _ (replicaFrame_unadmitted unadmitted ok ..)
    simp only [List.forall_mem_cons, List.not_mem_nil, IsEmpty.forall_iff, implies_true, and_true]
    exact
      ⟨member, member, member, member, member, member, member, member, member, member, member, member, member, member,
        object, object, object, object, member, member, member, member, member, member, member, replica, replica⟩
  case store => rw [State.respond_store, State.afterLink_store]
  case reqs => rw [State.respond_reqs, State.afterLink_reqs]
  case acknowledged =>
    exact fun resync asks fresh =>
      execHopAck_resynchronised rfl arr chk tag encap long whole partner named lossless resync asks fresh ack step
  case refused => exact execHopNak_taken rfl arr chk tag encap long whole partner named lossless rfl

end Sys2Proof.Machine
end

section
/-! Proofs about STEP_OPEN, STEP_COMMIT and the commit sequence (05: R158, R163; 13: R395, R402). -/
namespace Sys2Proof.Machine

theorem State.compAt_congr {s t : State} (e : t.comps.entries = s.comps.entries) (k : Nat) : t.compAt k = s.compAt k := by
  rw [State.compAt, e]
  rfl

/-- A composition's record whose step is not CLOSED reads back. -/
theorem State.compAt_setComp_of_step {c : Comp} (open_ : c.stepState ≠ .closed) (s : State) (e : Nat) : (s.setComp e c).compAt e = c := by
  have there : c ≠ {} := fun h => open_ (congrArg Comp.stepState h)
  exact (Tab.get_set_of_ne there s.comps.entries e e).trans (if_pos rfl)

section
variable {h : Hdr} {t : Trailer} {e : Nat} {c : Comp} {s u : State} (hu : s.afterTrailer h t = u) (ok : StepTaken h t 8 s)
  (active : u.activeIdx h.cid = some e) (hc : u.compAt e = c)
include hu ok active hc

theorem stepFrame_taken (opcode : Byte) (step : W32) (k : Nat → Comp → State → State) : stepFrame h t opcode step k s = k e c u := by
  obtain ⟨_, _, zeroed⟩ := id ok
  rw [stepFrame, authenticated_taken ok, hu, active]
  dsimp only
  rw [hc, zeroChecked, zeroed, if_pos rfl]

/-- R395's row for STEP_OPEN, where the table allows it. -/
theorem execStepOpen_allowed {step : W32}
    (allowed : (c.stepState = .closed ∧ step ≠ 0) ∨ ((c.stepState = .fenced ∨ c.stepState = .sealed) ∧ step = c.committed + 1)) :
    execStepOpen h t step s =
      .next ((u.openStepOf e step).answerStep h 0x40 stOk ((u.openStepOf e step).compAt e) false) := by
  rw [execStepOpen, stepFrame_taken hu ok active hc]
  obtain ⟨closed, named⟩ | ⟨fenced | sealed_, rfl⟩ := allowed
  · have goes : decide (step ≠ 0) = true := decide_eq_true named
    rw [closed]
    dsimp only
    rw [goes]
    rfl
  · simp [fenced]
  · simp [sealed_]

/-- The first STEP_COMMIT of the open step starts the commit sequence. -/
theorem execStepCommit_first {step : W32} (open_ : c.stepState = .open_ ∨ c.stepState = .unjournalled) (named : step = c.openStep)
    (first : c.commits = []) : execStepCommit h t step s = .next
      (((u.setComp e { c with commits := [{ h := h, opcode := 0x41 }] }).recallExclusives c.cid).endCommit e) := by
  rw [execStepCommit, stepFrame_taken hu ok active hc]
  obtain open_ | open_ := open_ <;> simp [open_, named, first]

theorem execStepCommit_sealed {step : W32} (sealed_ : c.stepState = .sealed) (named : step = c.committed) :
    execStepCommit h t step s = .next (u.answerStep h 0x41 stOk c c.unjournalled) := by
  rw [execStepCommit, stepFrame_taken hu ok active hc]
  simp [sealed_, named]

end

/-- The record of a step that STEP_OPEN has opened. -/
theorem State.openStepOf_compAt (s : State) (e : Nat) (step : W32) : (s.openStepOf e step).compAt e =
    { s.compAt e with
      stepState := .open_, openStep := step, committed := step - 1, recs := [], unjournalled := false, opened := true, sealing := false
      versions := s.versionsNow, keptVersions := s.keptVersionsNow } := by
  refine (State.compAt_congr rfl e).trans (State.compAt_setComp_of_step ?_ s e)
  exact StepState.noConfusion

theorem execCommitSequenceEnd_started {now e : Nat} {cid : Cid} {s w : State} (hw : s.advanceTo now = w) (stays : s.withdrawn = false)
    (active : w.activeIdx cid = some e) (started : (w.compAt e).commits ≠ [] ∨ (w.compAt e).sealing = true) :
    execCommitSequenceEnd now cid s = .next ((w.recallExclusives cid).endCommit e) := by
  have goes : ((w.compAt e).commits.isEmpty && !(w.compAt e).sealing) = false := by
    rw [Bool.and_eq_false_iff, Bool.not_eq_false', List.isEmpty_eq_false_iff]
    exact started
  rw [execCommitSequenceEnd, State.serving_of_not_withdrawn stays, hw]
  dsimp only
  rw [active]
  dsimp only
  rw [goes]
  rfl

/-! ### The end of the sequence -/

theorem State.freeEntry_comps (s : State) (k : Nat) : (s.freeEntry k).comps = s.comps := by
  unfold State.freeEntry State.unlink
  extract_lets _ _ before after
  have hb : before.comps = s.comps := by
    unfold before
    split <;> rfl
  have ha : after.comps = s.comps := by
    unfold after
    split <;> exact hb
  exact ha

theorem State.resolveLost_comps (s : State) (k : Nat) : (s.resolveLost k).comps = s.comps := by
  unfold State.resolveLost
  extract_lets _ waits
  split
  · rfl
  split
  · rfl
  · exact State.freeEntry_comps ..

/-- Where no exclusive line is left, the step is sealed. -/
theorem State.endCommit_sealed {s : State} {e : Nat} {c : Comp} (hc : s.compAt e = c) (recalled : s.exclusives c.cid = [])
    (held : c.commits ≠ []) : ∃ v : State, s.endCommit e = v.pump ∧
      v.compAt e = { c with stepState := .sealed, committed := c.openStep, commits := [], sealing := false } := by
  have goes : (c.commits.isEmpty || !(s.exclusives c.cid).isEmpty) = false := by simp [recalled, held]
  rw [State.endCommit]
  dsimp only
  rw [hc, goes, if_neg Bool.noConfusion]
  refine ⟨_, rfl, ?_⟩
  have answers := State.foldl_keeps (g := (·.comps)) (f := fun v (x : HeldStep) => v.answerStep x.h 0x41 stOk (v.compAt e) c.unjournalled)
    (fun _ _ => State.respondAuth_comps ..) c.commits
  have resolves := State.foldl_keeps (g := (·.comps)) State.resolveLost_comps
  refine (State.compAt_congr (congrArg Comps.entries ((answers _).trans (resolves _ _))) e).trans ?_
  exact State.compAt_setComp_of_step StepState.noConfusion s e

/-- Settles O30: the rows of R395 by the composition's step state, and the end of the sequence by what no recall awaits. -/
theorem stepsOpenAndCommit : Obligations.StepsOpenAndCommit := by
  intro h t step now e cid s u w c
  refine ⟨fun ok active => ⟨fun allowed => ⟨execStepOpen_allowed rfl ok active rfl allowed, ?opened⟩,
      fun open_ named first => execStepCommit_first rfl ok active rfl open_ named first,
      fun sealed_ named => execStepCommit_sealed rfl ok active rfl sealed_ named⟩,
    fun stays active started => execCommitSequenceEnd_started rfl stays active started, fun recalled held => ?sealed⟩
  case opened =>
    rw [State.openStepOf_compAt]
    exact ⟨rfl, rfl, rfl, rfl⟩
  case sealed =>
    obtain ⟨v, ends, record⟩ := State.endCommit_sealed rfl recalled held
    refine ⟨v, ends, ?_⟩
    rw [record]
    exact ⟨rfl, rfl, rfl⟩

end Sys2Proof.Machine
end

section
/-! Proofs about MOVE, RESUME and INVAL_RANGE as they are taken up (07: R225 to R237). -/
namespace Sys2Proof.Machine

section
variable {h : Hdr} {s u : State} (hu : s.afterLink h = u)
include hu

/-- An engine's request goes on unless its composition is fenced. -/
theorem engineRequest_taken {fixed : Nat} {pointers : List Handle} (ok : MemberTaken h fixed [] pointers s)
    (goes : u.fencedCid h.cid = false) (opcode : Byte) (fail zero : List Byte) (k : State → State) :
    engineRequest h opcode fixed none fail zero pointers k s = k u := by
  rw [engineRequest, memberRequest_taken ok, hu, goes, if_neg Bool.noConfusion]

section
variable {desc : Ptr} {count : BitVec 16} {q : MoveReq} (ok : MemberTaken h 16 [] [desc.rh] s) (least : 1 ≤ count.toNat)
  (most : count.toNat ≤ 256) (goes : u.fencedCid h.cid = false) (here : handleAid desc.rh = u.aid)
  (shallow : (u.region ((u.localRegion desc.rh).getD 0)).cls < clsDeep)
  (hq : ({ h := h, first := desc, count := count.toNat, next := desc } : MoveReq) = q)
include ok least most goes here shallow hq

/-- A MOVE joins the queue while that has a place, and waits at ingress otherwise. -/
theorem execMove_taken : execMove h desc count s = .next
    (if u.movers.queue.length < 256 then
       match (u.setMovers { u.movers with queue := u.movers.queue ++ [q] }).idleMover with
       | some m => (u.setMovers { u.movers with queue := u.movers.queue ++ [q] }).dispatch m
       | none => u.setMovers { u.movers with queue := u.movers.queue ++ [q] }
     else (u.setMovers { u.movers with ingress := u.movers.ingress ++ [q] }).leaveAtIngress h) := by
  have counted : ¬ (count.toNat < 1 ∨ 256 < count.toNat) := not_or.mpr ⟨least.not_gt, most.not_gt⟩
  have placed : ¬ (handleAid desc.rh ≠ u.aid ∨ clsDeep ≤ (u.region ((u.localRegion desc.rh).getD 0)).cls) :=
    not_or.mpr ⟨not_not.mpr here, shallow.not_ge⟩
  rw [execMove, if_neg counted, engineRequest_taken hu ok goes]
  dsimp only
  subst hq
  exact congrArg _ (if_neg placed)

end

/-- RESUME of the fault agent, for a descriptor that is parked. -/
theorem execResume_parked {desc : Ptr} {action : Byte} {e : Nat} {p : Parked} {v : State} (ok : MemberTaken h 16 [] [desc.rh] s)
    (active : u.activeIdx h.cid = some e) (agent : (u.compAt e).faultAgent = h.src) (goes : u.fencedCid h.cid = false)
    (parked : (u.movers.parked.find? fun p => decide (p.desc.ptr = desc) && decide (p.req.h.cid = h.cid)) = some p)
    (hv : u.setParked (u.movers.parked.filter fun x => decide (x ≠ p)) = v) (listed : action.toNat ≤ 1) :
    execResume h desc action s = .next
      (if action = 0 then (v.setMovers { v.movers with
         queue := v.movers.queue ++ [{ p.req with next := p.desc.ptr, resume := some p.desc.bytesDone }] }).respond h 0x32 stOk []
       else ((v.takeId.2.markDesc (engineReq v.takeId.1) p.req.h p.desc dsAborted stAborted).answerMove p.req stAborted).respond
         h 0x32 stOk []) := by
  obtain ⟨ok, zeroed, admitted, here, check⟩ := ok
  have member : u.boot.admitted = true ∧ u.comps.selfExpelled = false := by
    rw [← hu, State.afterLink_boot, State.afterLink_comps_selfExpelled]
    exact ⟨admitted, here⟩
  rw [hu] at check
  rw [execResume, consumed_taken ok, hu, active]
  dsimp only
  rw [decide_eq_true agent]
  simp only [Bool.not_true, Bool.and_false, Bool.false_eq_true, if_false, memberChecked, member, Bool.not_true, Bool.or_self, zeroed,
    if_true, listed.not_gt, check, goes, parked, hv]
  rfl

/-- INVAL_RANGE is answered, then acknowledged at once or held at each mover that it concerns. -/
theorem execInvalRange_taken {root : Ptr} {len start : W64} {v : State} {ms : List Nat} (ok : MemberTaken h 32 [] [root.rh] s)
    (some_ : len ≠ 0) (whole : start.toNat + len.toNat ≤ 2 ^ 64) (hv : u.respond h 0x33 stOk [] = v)
    (hms : ((List.range 64).filter fun m => (v.mover m).concerned h root start.toNat len.toNat) = ms) (id : W32) :
    execInvalRange h root id start len s = .next
      (if ms = [] then v.invalAck h id 0xFF 0
       else ms.foldl (fun s m => s.setMover m { s.mover m with
         inval := (s.mover m).inval ++
           [{ src := h.src, h := h, id := id, total := ms.length, root := root, start := start.toNat, len := len.toNat }]
         segments := if (s.mover m).wrote then (s.mover m).segments.take 1 else [] }) v) := by
  have valid : ¬ (len = 0 ∨ 2 ^ 64 < start.toNat + len.toNat) := not_or.mpr ⟨some_, whole.not_gt⟩
  rw [execInvalRange, if_neg valid, memberRequest_taken ok, hu]
  dsimp only
  rw [hv, hms]

end

/-- An idle mover takes the head of the queue. -/
theorem State.dispatch_idle {w : State} {m : Nat} {q : MoveReq} {rest : List MoveReq} (idle : (w.mover m).req = none)
    (queue : w.movers.queue = q :: rest) : w.dispatch m =
      (((w.setMovers { w.movers with queue := rest }).setMover m
        { w.mover m with req := some q, state := .translating }).refillQueue).startDesc m := by
  rw [State.dispatch, idle, queue]
  rfl

theorem execMoverDispatch_idle {now m : Nat} {q : MoveReq} {rest : List MoveReq} {s w : State} (hw : s.advanceTo now = w)
    (stays : s.withdrawn = false) (named : m < 64) (idle : (w.mover m).req = none) (queue : w.movers.queue = q :: rest) :
    execMoverDispatch now m s = .next
      ((((w.setMovers { w.movers with queue := rest }).setMover m
        { w.mover m with req := some q, state := .translating }).refillQueue).startDesc m) := by
  rw [execMoverDispatch, State.serving_of_not_withdrawn stays, hw]
  dsimp only
  rw [if_neg named.not_ge, State.dispatch_idle idle queue]

/-- Settles O33: each request past its checks, by the queue's length, the action, and the movers that are concerned. -/
theorem moveRequests : Obligations.MoveRequests := by
  intro h desc root count action id start len now m s u w
  refine ⟨fun ok least most goes here shallow => ?move,
    fun q rest stays named idle queue => execMoverDispatch_idle rfl stays named idle queue,
    fun ok e p active agent goes parked => ?resume, fun ok some_ whole => execInvalRange_taken rfl ok some_ whole rfl rfl id⟩
  case move =>
    have taken := execMove_taken rfl ok least most goes here shallow rfl
    exact ⟨fun room => taken.trans (congrArg _ (if_pos room)), fun full => taken.trans (congrArg _ (if_neg full.not_gt))⟩
  case resume =>
    have taken := fun listed => execResume_parked (action := action) rfl ok active agent goes parked rfl listed
    refine ⟨?requeued, ?aborted⟩
    case requeued =>
      rintro rfl
      exact (taken (by decide)).trans (congrArg _ (if_pos rfl))
    case aborted =>
      rintro rfl
      exact (taken (by decide)).trans (congrArg _ (if_neg (by decide)))

end Sys2Proof.Machine
end

section
/-! Proofs about links (19: R551 to R553, R562; 16: R490; 03: R109): how a sub-port trains, comes up, is lost and times out. -/
namespace Sys2Proof.Machine

/-- Setting an entry leaves every other one that is no default, on any table: what is dropped lies past it, or is passed over. -/
theorem Tab.get_set_other_of_ne {α : Type} [DecidableEq α] {d : α} (t : Tab α) {k i : Nat} (v : α) (other : i ≠ k)
    (there : Tab.get d t i ≠ d) : Tab.get d (Tab.set d t k v) i = Tab.get d t i := by
  induction t with
  | nil => exact absurd rfl there
  | cons e t ih => grind [Tab.get, Tab.set]

/-! ### Operations that leave the state of links alone -/

/-- The state of the link is as it was, with its cause and hold timer, and the frame on the wire. -/
structure SubPort.SameLink (p q : SubPort) : Prop where
  link : q.link = p.link
  downCause : q.downCause = p.downCause
  holdFrom : q.holdFrom = p.holdFrom
  inFlight : q.inFlight = p.inFlight

theorem SubPort.SameLink.refl (p : SubPort) : p.SameLink p := ⟨rfl, rfl, rfl, rfl⟩

/-- No time passes, and the links of enabled sub-ports are as they were. -/
structure State.SameLinks (s t : State) : Prop where
  now : t.now = s.now
  sub : ∀ j, (s.subPort j).link ≠ .disabled → (s.subPort j).SameLink (t.subPort j)

theorem SubPort.ne_default {p : SubPort} (enabled : p.link ≠ .disabled) : p ≠ {} := fun e => enabled (congrArg SubPort.link e)

theorem State.subPort_congr {s t : State} (e : t.switch = s.switch) (j : Nat) : t.subPort j = s.subPort j := by
  rw [State.subPort, e]
  rfl

/-- A sub-port that an update leaves or makes enabled reads as updated. -/
theorem State.subPort_modSub_same {s : State} {k : Nat} {f : SubPort → SubPort} (enabled : (f (s.subPort k)).link ≠ .disabled) :
    (s.modSub k f).subPort k = f (s.subPort k) :=
  (Tab.get_set_of_ne (SubPort.ne_default enabled) s.switch.subs k k).trans (if_pos rfl)

/-- An enabled sub-port reads as before once another is updated. -/
theorem State.subPort_modSub_other {s : State} {k j : Nat} (other : j ≠ k) (enabled : (s.subPort j).link ≠ .disabled)
    (f : SubPort → SubPort) : (s.modSub k f).subPort j = s.subPort j :=
  Tab.get_set_other_of_ne s.switch.subs _ other (SubPort.ne_default enabled)

namespace State.SameLinks
variable {s t u : State}

theorem refl (s : State) : s.SameLinks s := ⟨rfl, fun _ _ => .refl _⟩

theorem trans (h : s.SameLinks t) (h' : t.SameLinks u) : s.SameLinks u := by
  refine ⟨h'.now.trans h.now, fun j enabled => ?_⟩
  have one := h.sub j enabled
  have two := h'.sub j (by rwa [one.link])
  exact ⟨two.link.trans one.link, two.downCause.trans one.downCause, two.holdFrom.trans one.holdFrom, two.inFlight.trans one.inFlight⟩

theorem of_switch (now : t.now = s.now) (switch : t.switch = s.switch) : s.SameLinks t := by
  refine ⟨now, fun j _ => ?_⟩
  rw [State.subPort_congr switch]
  exact .refl _

theorem modSub (s : State) (k : Nat) {f : SubPort → SubPort} (keeps : ∀ p : SubPort, p.SameLink (f p)) : s.SameLinks (s.modSub k f) := by
  refine ⟨rfl, fun j enabled => ?_⟩
  by_cases e : j = k
  · subst e
    rw [State.subPort_modSub_same (by rwa [(keeps _).link])]
    exact keeps _
  · rw [State.subPort_modSub_other e enabled]
    exact .refl _

theorem foldl {α : Type} {f : State → α → State} (h : ∀ v a, State.SameLinks v (f v a)) (l : List α) (s : State) :
    s.SameLinks (l.foldl f s) := by
  induction l generalizing s with
  | nil => exact refl s
  | cons a l ih => exact (h s a).trans (ih _)

theorem switchDiscard (s : State) : s.SameLinks s.switchDiscard := ⟨rfl, fun _ _ => .refl _⟩

theorem linkDiscards (s : State) (k n : Nat) : s.SameLinks (s.linkDiscards k n) := by
  have counted := modSub s k (f := fun p => { p with discardedHold := p.discardedHold + n }) fun p => ⟨rfl, rfl, rfl, rfl⟩
  exact counted.trans (of_switch rfl rfl)

theorem enqueue (s : State) (k : Nat) (f : OutFrame) : s.SameLinks (s.enqueue k f) := by
  unfold State.enqueue
  split
  · exact switchDiscard s
  split
  · exact linkDiscards ..
  split
  · exact of_switch rfl rfl
  · exact modSub s k fun p => ⟨rfl, rfl, rfl, rfl⟩

theorem send (s : State) (f : OutFrame) (arrived : Option Nat) : s.SameLinks (s.send f arrived) := by
  unfold State.send
  split
  · exact enqueue ..
  · exact switchDiscard s

theorem notice (s : State) (code : Nat) (body : List Byte) (cid : Cid) : s.SameLinks (s.notice code body cid) := by
  unfold State.notice
  extract_lets seq _ numbered
  have number : s.SameLinks numbered := of_switch rfl rfl
  refine number.trans (foldl (fun v m => ?_) _ _)
  split
  · have counted : v.SameLinks v.nextCounter.2 := of_switch rfl rfl
    exact counted.trans (send ..)
  · exact refl v

theorem latchAlert (s : State) (cls unit ctr : Nat) : s.SameLinks (s.latchAlert cls unit ctr) := by
  unfold State.latchAlert
  split
  · exact refl s
  · exact of_switch rfl rfl

theorem alertNow (s : State) (cls unit ctr : Nat) : s.SameLinks (s.alertNow cls unit ctr) := by
  unfold State.alertNow
  extract_lets latched
  have latch : s.SameLinks latched := latchAlert ..
  split
  · exact latch
  · refine latch.trans (trans ?_ (notice ..))
    exact of_switch rfl rfl

theorem bumpAlert (s : State) (cls unit ctr : Nat) : s.SameLinks (s.bumpAlert cls unit ctr) := by
  have counted : s.SameLinks (s.bump cls unit ctr) := of_switch rfl rfl
  exact counted.trans (alertNow ..)

theorem loseLock (s : State) (cause : Nat) : s.SameLinks (s.loseLock cause) := by
  unfold State.loseLock
  extract_lets k told out lost
  have tell : s.SameLinks told := notice ..
  have lose : told.SameLinks lost := of_switch rfl rfl
  exact (tell.trans lose).trans (bumpAlert ..)

theorem tickLinks (s : State) : s.SameLinks s.tickLinks := by
  unfold State.tickLinks
  split
  · exact loseLock ..
  · exact refl s

theorem uncharge (s : State) (f : OutFrame) : s.SameLinks (s.uncharge f) := by
  unfold State.uncharge
  split
  · exact refl s
  · exact modSub s _ fun p => by split <;> exact ⟨rfl, rfl, rfl, rfl⟩

theorem resumePcp (s : State) (k pcp : Nat) : s.SameLinks (s.resumePcp k pcp) := by
  unfold State.resumePcp
  split
  · exact refl s
  · extract_lets ended shifted
    have end_ : s.SameLinks ended := modSub s k fun p => ⟨rfl, rfl, rfl, rfl⟩
    have shift : ended.SameLinks shifted := modSub ended k fun p => ⟨rfl, rfl, rfl, rfl⟩
    exact (end_.trans shift).trans (of_switch rfl rfl)

end State.SameLinks

/-! ### A sub-port leaves UP -/

theorem LinkState.enabled_of_up {l : LinkState} (up : l = .up) : l ≠ .disabled := by
  rw [up]
  decide

/-- The transmitter stops, and the link is still up. -/
theorem State.quietSub_up {s : State} {k : Nat} (up : (s.subPort k).link = .up) :
    (s.quietSub k).now = s.now ∧ ((s.quietSub k).subPort k).link = .up ∧ ((s.quietSub k).subPort k).inFlight = none := by
  unfold State.quietSub
  extract_lets resumed p wire stay gone lost freed stopped
  have same : s.SameLinks freed :=
    (State.SameLinks.foldl (fun v (e : Nat × Option (Nat × Nat)) => .resumePcp v k e.1) _ s).trans (State.SameLinks.foldl .uncharge _ _)
  have up' : (freed.subPort k).link = .up := (same.sub k (LinkState.enabled_of_up up)).link.trans up
  have stop : stopped.subPort k = _ := State.subPort_modSub_same (by exact LinkState.enabled_of_up up')
  have link : (stopped.subPort k).link = .up := (congrArg SubPort.link stop).trans up'
  have discards := State.SameLinks.linkDiscards stopped k lost
  have kept := discards.sub k (LinkState.enabled_of_up link)
  exact ⟨discards.now.trans same.now, kept.link.trans link, kept.inFlight.trans (congrArg SubPort.inFlight stop)⟩

/-- A sub-port that leaves UP trains with its cause, holds what it has from now on, and has nothing on the wire. -/
theorem State.retrain_up {s : State} {k : Nat} (up : (s.subPort k).link = .up) (cause : Nat) :
    ((s.retrain k cause).subPort k).link = .training ∧ ((s.retrain k cause).subPort k).downCause = BitVec.ofNat 8 cause ∧
      ((s.retrain k cause).subPort k).holdFrom = some s.now ∧ ((s.retrain k cause).subPort k).inFlight = none := by
  unfold State.retrain
  rw [if_neg (not_not.mpr up)]
  extract_lets reset quiet trained counted
  have same : s.SameLinks reset := .modSub s k fun p => ⟨rfl, rfl, rfl, rfl⟩
  have up' : (reset.subPort k).link = .up := (same.sub k (LinkState.enabled_of_up up)).link.trans up
  obtain ⟨now, _, flight⟩ := State.quietSub_up up'
  have train : trained.subPort k = _ := State.subPort_modSub_same (by exact LinkState.noConfusion)
  have link : (trained.subPort k).link = .training := congrArg SubPort.link train
  have counts : trained.SameLinks counted := .of_switch rfl rfl
  have kept := (counts.trans (.tickLinks counted)).sub k (by rw [link]; exact LinkState.noConfusion)
  refine ⟨kept.link.trans link, kept.downCause.trans (congrArg SubPort.downCause train), kept.holdFrom.trans ?_,
    kept.inFlight.trans ((congrArg SubPort.inFlight train).trans flight)⟩
  exact (congrArg SubPort.holdFrom train).trans (congrArg some (now.trans same.now))

/-! ### Training -/

section
variable {now port sub k : Nat} {s w : State} {p : SubPort} (hw : s.advanceTo now = w) (hk : subKey port sub = k) (hp : w.subPort k = p)
include hw hk hp

theorem execLinkTrainingStart_down (serves : s.inService = true) (down : p.link = .down) (first : p.everTrained = false) :
    execLinkTrainingStart now port sub s = .next
      (w.modSub k fun p => { p with link := .training, everTrained := true, lastAttempt := w.now }) := by
  have serves' : w.inService = true := by rw [← hw, State.inService_of_advanceTo, serves]
  rw [execLinkTrainingStart, hw, hk]
  dsimp only
  rw [serves', hp, down, first]
  rfl

theorem execTrainingTimeout_passed (trains : p.link = .training)
    (passed : p.lastAttempt + (if p.medium = 2 then 500000000 else 4000000000) ≤ w.now) :
    execTrainingTimeout now port sub s = .next ((w.setSub k { p with link := .down, settled := true }).endStep10) := by
  rw [execTrainingTimeout, hw, hk]
  dsimp only
  rw [hp, if_neg (not_or.mpr ⟨not_not.mpr trains, passed.not_gt⟩)]

end

/-- The resynchronising frames of a link lie in its own queue. -/
theorem State.resyncFrames_boot (s : State) (k : Nat) : (s.resyncFrames k).boot = s.boot := by
  unfold State.resyncFrames
  split
  · rfl
  refine State.foldl_keeps (g := (·.boot)) (fun v q => ?_) _ s
  extract_lets numbered f
  have number : numbered.boot = v.boot := by
    unfold numbered
    split <;> rfl
  exact number

section
variable {now port sub k : Nat} {s w : State} {p : SubPort} (hw : s.advanceTo now = w) (hk : subKey port sub = k) (hp : w.subPort k = p)
include hw hk hp

/-- A training sub-port that never was UP comes UP at an allowed speed, its resynchronising frames first in its queue. -/
theorem execLinkUp_first {speed : Byte} (serves : s.inService = true) (trains : p.link = .training)
    (allowed : speedAllowed (w.portCfg port).mode speed = true) (started : w.boot.step ≠ 9) (fresh : p.holdFrom = none)
    (told : p.portDownSent = false) (partner : Aid) :
    execLinkUp now port sub speed partner s = .next (((w.setSub k { p with
      link := .up, speed := speed, fecLock := true, partner := partner, holdFrom := none, holdExpired := false
      portDownSent := false, discardedHold := 0, settled := true }).resyncFrames k).installManagers port sub) := by
  have serves' : w.inService = true := by rw [← hw, State.inService_of_advanceTo, serves]
  rw [execLinkUp, hw, hk]
  have boot : ∀ q : SubPort, ((w.setSub k q).resyncFrames k).boot.step ≠ 9 := fun q => by rwa [State.resyncFrames_boot]
  simp [serves', hp, trains, allowed, fresh, told, boot]

theorem execPfcWatchdog_passed {pcp since ends : Nat} (paused : p.paused.get none pcp = some (since, ends))
    (watched : bitsOf w.switch.bufferCtl.toNat 20 12 ≠ 0) (passed : since + bitsOf w.switch.bufferCtl.toNat 20 12 * 1000000 < w.now) :
    execPfcWatchdog now port sub pcp s = .next (w.retrain k 5) := by
  rw [execPfcWatchdog, hw, hk]
  dsimp only
  rw [hp, paused]
  exact congrArg _ (if_pos ⟨watched, passed⟩)

theorem execFecDegrade_degraded {codewords : Nat} (arr : s.arrives port sub = true) (limited : p.fecDegrade ≠ 0)
    (reached : p.fecDegrade ≤ codewords) :
    execFecDegrade now port sub codewords s = .next ((w.bumpBy 0 port 4 codewords).retrain k 4) := by
  subst hp
  rw [execFecDegrade, hw, hk, arr, if_neg Bool.noConfusion]
  exact congrArg _ (if_pos ⟨limited, reached⟩)

/-- A loss that outlasts the hop hold time costs the sub-port what it holds; its entries fail over, and the loss is counted and told. -/
theorem execHopHoldExpiry_passed {t : Nat} {v : State} (holds : p.holdFrom = some t) (lost : p.link ≠ .up) (enabled : p.link ≠ .disabled)
    (waits : p.holdExpired = false) (passed : t + w.boot.cfg.device.hopHold ≤ w.now)
    (hv : (((w.dropHops k).modSub k fun p => { p with holdExpired := true, portDownSent := true }).failOver k).bumpAlert 0 port 7 = v) :
    execHopHoldExpiry now port sub s = .next (v.notice 0x0093 (beBytes 1 port ++ beBytes 1 sub ++ zeros 2 ++
      beBytes 4 (v.subPort k).discardedHold ++ beBytes 2 p.partner.toNat)) := by
  have goes : ¬ (p.link = .up ∨ p.link = .disabled ∨ p.holdExpired = true ∨ w.now < t + w.boot.cfg.device.hopHold) := by
    rintro (e | e | e | e)
    exacts [lost e, enabled e, Bool.noConfusion (waits.symm.trans e), passed.not_gt e]
  rw [execHopHoldExpiry, hw, hk]
  dsimp only
  rw [hp, holds]
  dsimp only
  rw [if_neg goes, hv]

end

theorem execPortRetrain_enabled {o : Order} {bp bs : Byte} {s u : State} (ok : OrderTaken o s) (hu : s.orderTaken o = u)
    (port : bp.toNat < 32) (sub : bs.toNat < 8) (enabled : (u.subPort (subKey bp.toNat bs.toNat)).link ≠ .disabled) :
    execPortRetrain o bp bs s = .next ((u.finishOrder o.ref stOk []).retrain (subKey bp.toNat bs.toNat) 6) := by
  rw [execPortRetrain, orderRequest_taken ok, hu]
  exact congrArg _ (if_pos ⟨port, sub, enabled⟩)

/-- Settles O46: each event by the sub-port's link state, and what a sub-port that leaves UP then reads as. -/
theorem linksTrainAndFail : Obligations.LinksTrainAndFail := by
  intro o now port sub pcp codewords pcs speed bp bs partner s u w k p
  exact
    ⟨fun serves down first => execLinkTrainingStart_down rfl rfl rfl serves down first,
      fun serves trains allowed started fresh told => execLinkUp_first rfl rfl rfl serves trains allowed started fresh told partner,
      fun trains passed => execTrainingTimeout_passed rfl rfl rfl trains passed, rfl,
      fun arr limited reached => execFecDegrade_degraded rfl rfl rfl arr limited reached,
      fun since ends paused watched passed => execPfcWatchdog_passed rfl rfl rfl paused watched passed,
      fun ok port sub enabled => execPortRetrain_enabled ok rfl port sub enabled, fun v j cause up _ => State.retrain_up up cause,
      fun t holds lost enabled waits passed => execHopHoldExpiry_passed rfl rfl rfl holds lost enabled waits passed rfl⟩

end Sys2Proof.Machine
end

section
/-! Proofs about frames of TFP version 1 (03: R114). -/
namespace Sys2Proof.Machine

/-- A frame of version 1 goes on where its port and its composition take that version. -/
theorem v1Frame_taken {h : Hdr} {e : Nat} {s a v : State} (ha : (s.advanceTo h.now).bump 0 h.port 0 = a) (hv : a.markConsumed h = v)
    (ours : s.answersTo h.dst = true) (arr : s.arrives h.port h.sub = true) (drain : (s.advanceTo h.now).portDrain h.port = false)
    (chk : h.check = .passed) (mac : (s.advanceTo h.now).macClosed h.port h.sub = false) (tag : h.tagged = true)
    (encap : s.encapOk h = true) (whole : h.length ≤ h.received)
    (room : (a.bufferPlace (subKey h.port h.sub) h.pcp (bufferBytes h.length)).isSome = true) (port : (v.portCfg h.port).v1 = true)
    (comp : v.compIdx h.cid = some e) (mode : (v.compAt e).modes.getLsbD 5 = true) (k : State → State) : v1Frame h k s = k v := by
  subst ha
  rw [v1Frame, ours, linkChecksV1_passed arr drain chk mac tag encap room whole, hv]
  dsimp only
  rw [port, comp]
  exact (if_neg Bool.noConfusion).trans (if_pos (Bool.and_eq_true_iff.mpr ⟨rfl, mode⟩))

/-- What a version 1 frame does once its port and its composition have taken it, under the composition's generation. -/
def State.v1Service (v : State) (g : Hdr) (rh : Handle) (offset len : Nat) (op : V1Op) : State :=
  let regions := match op with
    | .ckptRestore src _ dst _ => (([] : List Handle), [src.rh, dst.rh])
    | .other _ => ([], [])
    | _ => ([rh], [])
  if !v.boot.admitted || v.comps.selfExpelled || !v1Valid offset len op then v.respondV1 g (v1Opcode op) false []
  else
    match compositionCheck v g regions.1 regions.2 with
    | some reason => (v.violation g.cid g.src g.port reason).respondV1 g (v1Opcode op) true (v1Zero len op)
    | none =>
      match op with
      | .read => v.v1Access g 0x01 rh rightRead { kind := .read, offset := offset, len := len }
      | .write data => v.v1Access g 0x02 rh rightWrite { kind := .write, offset := offset, len := data.length, data := data }
      | .atomic fn a b =>
        v.v1Access g 0x03 rh rightAtomic
          { kind := .atomic, offset := offset, len := 8, atomicOp := fn.toNat, opA := a.toNat, opB := b.toNat }
      | .ckptRestore src srcLen dst dstCap =>
        if v.fencedCid g.cid then v.respondV1 g 0x0C false [] else v.restore g true src srcLen.toNat dst dstCap.toNat
      | .other code => v.respondV1 g code false []

theorem execV1Frame_eq (h : Hdr) (region : BitVec 24) (offset : BitVec 40) (len : BitVec 16) (op : V1Op) (s : State) :
    execV1Frame h region offset len op s = .next (v1Frame h (fun v =>
      v.v1Service { h with gen := v.genOf h.cid } (mkHandle h.dst region.toNat) offset.toNat len.toNat op) s) := by
  cases op <;> rfl

section
variable {v : State} {g : Hdr} {rh : Handle} {offset len : Nat} {op : V1Op} (admitted : v.boot.admitted = true)
  (here : v.comps.selfExpelled = false)
include admitted here

theorem State.v1Service_outOfLimits (bad : v1Valid offset len op = false) :
    v.v1Service g rh offset len op = v.respondV1 g (v1Opcode op) false [] := by
  simp [State.v1Service, admitted, here, bad]

/-- A READ that violates its composition is answered OK with zeros (R102). -/
theorem State.v1Service_violation {reason : Nat} (valid : v1Valid offset len .read = true)
    (check : compositionCheck v g [rh] [] = some reason) :
    v.v1Service g rh offset len .read = (v.violation g.cid g.src g.port reason).respondV1 g 0x01 true (zeros len) := by
  simp [State.v1Service, admitted, here, valid, check, v1Opcode, v1Zero]

theorem State.v1Service_restore {src dst : Ptr} {srcLen dstCap : W64} (check : compositionCheck v g [] [src.rh, dst.rh] = none)
    (goes : v.fencedCid g.cid = false) : v.v1Service g rh offset len (.ckptRestore src srcLen dst dstCap) =
      v.restore g true src srcLen.toNat dst dstCap.toNat := by
  simp [State.v1Service, admitted, here, v1Valid, check, goes]

section
variable (check : compositionCheck v g [rh] [] = none)
include check

theorem State.v1Service_read (valid : v1Valid offset len .read = true) : v.v1Service g rh offset len .read =
    v.v1Access g 0x01 rh rightRead { kind := .read, offset := offset, len := len } := by
  simp [State.v1Service, admitted, here, valid, check]

theorem State.v1Service_write {data : List Byte} (valid : v1Valid offset len (.write data) = true) :
    v.v1Service g rh offset len (.write data) =
      v.v1Access g 0x02 rh rightWrite { kind := .write, offset := offset, len := data.length, data := data } := by
  simp [State.v1Service, admitted, here, valid, check]

theorem State.v1Service_atomic {fn : Byte} {a b : W64} (valid : v1Valid offset len (.atomic fn a b) = true) :
    v.v1Service g rh offset len (.atomic fn a b) = v.v1Access g 0x03 rh rightAtomic
      { kind := .atomic, offset := offset, len := 8, atomicOp := fn.toNat, opA := a.toNat, opB := b.toNat } := by
  simp [State.v1Service, admitted, here, valid, check]

end

end

/-- Settles O49: a frame that is taken is served by its operation, under the composition's generation. -/
theorem version1Frames : Obligations.Version1Frames := by
  intro h region offset len op e s a v g rh ours arr drain chk mac tag encap whole room port comp mode admitted here
  have served : exec (.v1Frame h region offset len op) s = .next (v.v1Service g rh offset.toNat len.toNat op) :=
    (execV1Frame_eq ..).trans (congrArg _ (v1Frame_taken rfl rfl ours arr drain chk mac tag encap whole room port comp mode _))
  rw [served]
  refine ⟨fun bad => congrArg _ (State.v1Service_outOfLimits admitted here bad), ?violation, ?restore, fun valid check =>
    ⟨?read, ?write, ?atomic⟩⟩
  case violation =>
    rintro reason rfl valid check
    exact congrArg _ (State.v1Service_violation admitted here valid check)
  case restore =>
    rintro src srcLen dst dstCap rfl check goes
    exact congrArg _ (State.v1Service_restore admitted here check goes)
  case read =>
    rintro rfl
    exact congrArg _ (State.v1Service_read admitted here check valid)
  case write =>
    rintro data rfl
    exact congrArg _ (State.v1Service_write admitted here check valid)
  case atomic =>
    rintro fn x y rfl
    exact congrArg _ (State.v1Service_atomic admitted here check valid)

end Sys2Proof.Machine
end

section
/-! Proofs about the release of a composition and quorum orders (14: R437, R443 to R445; 15: R476; 16: R488; 18: R512, R524, R526). -/
namespace Sys2Proof.Machine

/-! ### Release of a composition -/

/-- A composition without an open step drains its regions once its release is answered. -/
theorem execCompRelease_closed {o : Order} {cid : Cid} {e : Nat} {s x : State} (ok : OrderTaken o s) (hx : s.orderTaken o = x)
    (active : x.activeIdx cid = some e) (closed : (x.compAt e).stepState = .closed) (flags : Byte) :
    execCompRelease o cid flags s = .next (((x.finishOrder o.ref stOk []).regionsOf cid .assigned).foldl State.revoke
      ((x.finishOrder o.ref stOk []).modComp e fun c => { c with
        state := .releasing, releaseRegions := flags.getLsbD 0
        drainedRegions := (x.finishOrder o.ref stOk []).regionsOf cid .assigned })) := by
  rw [execCompRelease, activeOrder, orderRequest_taken ok, hx, active]
  dsimp only
  rw [closed]

/-- The release of a composition whose drains are over goes on to its end, as far as clusters and regions are free. -/
theorem execCompReleaseDone_drained {now e : Nat} {cid : Cid} {s w v : State} (hw : s.advanceTo now = w) (stays : s.withdrawn = false)
    (there : w.compIdx cid = some e) (releases : (w.compAt e).state = .releasing) (assigned : w.regionsOf cid .assigned = [])
    (draining : w.regionsOf cid .draining = []) (hv : (if (w.compAt e).ended then w else w.endRelease e) = v) :
    execCompReleaseDone now cid s = .next
      (if v.clustersLeft cid || ((v.compAt e).releaseRegions &&
          (v.compAt e).drainedRegions.any fun i => decide ((v.region i).state = .releasing)) then v
       else v.freeComp e) := by
  rw [execCompReleaseDone, State.serving_of_not_withdrawn stays, hw]
  dsimp only
  rw [there]
  dsimp only
  rw [if_neg (by simp [releases, assigned, draining]), hv]

/-! ### Management frames -/

section
variable {h : Hdr} {t : Trailer} {s u : State} (hu : s.afterTrailer h t = u) (zeroed : h.zeroed = true)
  (here : u.comps.selfExpelled = false)
include hu zeroed here

/-- An EXPEL counts in its tally, is answered, and takes effect where it reaches the quorum. -/
theorem execExpel_counted {target : Aid} {nonce : W64} {c : State × Bool} {v : State} (ok : ManagedTaken h t 16 s)
    (hc : u.countTally .expel target.toNat nonce h.src = c) (hv : c.1.respondAuth h 0x74 stOk [] = v) :
    execExpel h t target nonce s = .next
      (if c.2 = false then v else if target = v.aid then v.expelSelf nonce else v.expelOther target nonce) := by
  obtain ⟨c, done⟩ := c
  rw [execExpel, managed_taken ok, hu, zeroChecked, zeroed, if_pos rfl, here, if_neg Bool.noConfusion, hc]
  dsimp only at hv ⊢
  rw [hv]
  cases done <;> rfl

section
variable (ok : ManagedTaken h t 8 s) (fabric : u.lifecycle ≠ 5) (unscanned : u.sec.scanUnlocked = false)
include ok fabric unscanned

/-- The ADMIT of another AID takes it off the expelled list. -/
theorem execAdmitDevice_other {target : Aid} (other : target ≠ u.aid) (fuses : FuseRun) :
    execAdmitDevice h t target fuses s = .next (State.respondAuth
      { u with comps := { u.comps with expelled := u.comps.expelled.filter fun a => decide (a ≠ target) } } h 0x75 stOk []) := by
  rw [execAdmitDevice, managed_taken ok, hu, zeroChecked, zeroed, if_pos rfl, here, if_neg Bool.noConfusion,
    if_neg (by simp [fabric, unscanned]), if_pos other]

/-- The first ADMIT of the device's own AID, where every fuse that it programs takes. -/
theorem execAdmitDevice_self {target : Aid} {fuses : FuseRun} (self : target = u.aid) (first : u.boot.admitted = false)
    (keeps : u.boot.cfg.life.rotate = false) (take : u.admitFuses = true → fusesTake fuses = true) :
    execAdmitDevice h t target fuses s = .next (u.admitSelf.respondAuth h 0x75 stOk []) := by
  have programs : (u.admitFuses && !fusesTake fuses) = false := by
    cases program : u.admitFuses
    · rfl
    · rw [take program]
      rfl
  rw [execAdmitDevice, managed_taken ok, hu, zeroChecked, zeroed, if_pos rfl, here, if_neg Bool.noConfusion,
    if_neg (by simp [fabric, unscanned]), if_neg (not_not.mpr self), first, if_neg Bool.noConfusion, programs,
    if_neg Bool.noConfusion, keeps]
  rfl

end

end

theorem State.admitSelf_admitted (u : State) : u.admitSelf.boot.admitted = true ∧ u.admitSelf.pins.ready = true := ⟨rfl, rfl⟩

/-! ### Quorum orders -/

section
variable {o : Order} {nonce : W64} {c : State × Bool} {s x : State} (ok : OrderTaken o s) (hx : s.orderTaken o = x)
include ok hx

theorem execDeviceReset_counted {target : Aid} (self : target = x.aid)
    (hc : x.countTally .deviceReset target.toNat nonce o.hdr.src = c) {v : State} (hv : c.1.finishOrder o.ref stOk [] = v) :
    execDeviceReset o target nonce s = .next
      (if c.2 then { v with comps := { v.comps with resetAt := some (v.now + 100000) } } else v) := by
  subst hv
  rw [execDeviceReset, orderRequest_taken ok, hx, if_neg (not_not.mpr self), hc]

theorem execLcRetire_counted {target : Aid} {fuses : FuseRun} (self : target = x.aid) (live : x.lifecycle ≠ 5)
    (take : fusesTake fuses = true) (hc : x.countTally .lcRetire target.toNat nonce o.hdr.src = c) :
    execLcRetire o target nonce fuses s = .next
      (if c.2 then (c.1.finishOrder o.ref stOk []).retireDevice else c.1.finishOrder o.ref stOk []) := by
  have programs : ∀ done : Bool, (done && !fusesTake fuses) = false := by simp [take]
  rw [execLcRetire, orderRequest_taken ok, hx, if_neg (not_or.mpr ⟨not_not.mpr self, live⟩), hc]
  dsimp only
  rw [programs, if_neg Bool.noConfusion]

theorem execFloorRaise_counted {floor : Byte} {fuses : FuseRun} (higher : x.sec.floor ≤ floor.toNat)
    (runs : floor.toNat ≤ x.boot.securityVersion) (take : fusesTake fuses = true)
    (hc : x.countTally .floorRaise floor.toNat nonce o.hdr.src = c) {v : State}
    (hv : (c.1.extendM3 (floorEvent floor nonce)).finishOrder o.ref stOk [] = v) :
    execFloorRaise o floor nonce fuses s = .next (if c.2 then v.setFloor floor.toNat else v) := by
  rw [execFloorRaise, orderRequest_taken ok, hx, if_neg (not_or.mpr ⟨higher.not_gt, runs.not_gt⟩), hc]
  dsimp only
  rw [hv, if_neg (by simp [take])]

end

theorem execTallyExpiry_passed {now i : Nat} {y : Tally} {s w : State} (hw : s.advanceTo now = w) (stays : s.withdrawn = false)
    (there : w.comps.tallies[i]? = some y) (passed : y.start + tallyLimit ≤ w.now) :
    execTallyExpiry now i s = .next (w.setTallies (w.comps.tallies.eraseIdx i)) := by
  rw [execTallyExpiry, State.serving_of_not_withdrawn stays, hw]
  dsimp only
  rw [there]
  exact congrArg _ (if_pos passed)

/-- Settles O53: a release by what is still assigned or drains, a quorum order by what its tally comes to. -/
theorem releaseAndQuorum : Obligations.ReleaseAndQuorum := by
  intro h t o target nonce cid flags floor fuses now e s u x w
  refine ⟨fun ok active closed => execCompRelease_closed ok rfl active closed flags,
    fun stays there releases assigned draining => ?released,
    fun ok zeroed here => execExpel_counted rfl zeroed here ok rfl rfl,
    fun ok zeroed here fabric unscanned => ⟨fun other => execAdmitDevice_other rfl zeroed here ok fabric unscanned other fuses,
      fun self first keeps take => ⟨execAdmitDevice_self rfl zeroed here ok fabric unscanned self first keeps take,
        u.admitSelf_admitted⟩⟩,
    fun ok => ⟨fun self => ⟨execDeviceReset_counted ok rfl self rfl rfl, fun live take =>
        execLcRetire_counted ok rfl self live take rfl⟩,
      fun higher runs take => execFloorRaise_counted ok rfl higher runs take rfl rfl⟩,
    fun y stays there passed => execTallyExpiry_passed rfl stays there passed⟩
  case released =>
    intro v
    have done := execCompReleaseDone_drained rfl stays there releases assigned draining (v := v) rfl
    refine ⟨fun free kept => done.trans (congrArg _ (if_neg ?_)), fun left => done.trans (congrArg _ (if_pos ?_))⟩
    · simp [free, kept]
    · simp [left]

end Sys2Proof.Machine
end

section
/-! Proofs about the minute's end, the temperatures of DIMMs, and requests that time out (17: R504 to R509; 20: R581; 03: R111, R112). -/
namespace Sys2Proof.Machine

/-! ### Notices leave the minute's records alone -/

/-- What the end of a minute writes besides counters. -/
def Health.record (x : Health) : Nat × Tab Score × List (Tab Nat) × List (Nat × Nat) := (x.minutes, x.scores, x.history, x.noticed)

theorem State.enqueue_record (s : State) (k : Nat) (f : OutFrame) : (s.enqueue k f).health.record = s.health.record := by
  unfold State.enqueue
  split
  · rfl
  split
  · rfl
  split <;> rfl

theorem State.send_record (s : State) (f : OutFrame) (arrived : Option Nat) : (s.send f arrived).health.record = s.health.record := by
  unfold State.send
  split
  · exact State.enqueue_record ..
  · rfl

theorem State.notice_record (s : State) (code : Nat) (body : List Byte) (cid : Cid) :
    (s.notice code body cid).health.record = s.health.record := by
  unfold State.notice
  refine State.foldl_keeps (g := (·.health.record)) (fun v m => ?_) _ _
  split
  · exact State.send_record ..
  · rfl

theorem State.bandNotice_record (s : State) (old : Tab Score) (e : Nat × Nat) : (s.bandNotice old e).health.record = s.health.record := by
  unfold State.bandNotice
  dsimp only
  split
  · rfl
  · exact State.notice_record ..

/-! ### The minute's end -/

theorem State.notice_minutes (s : State) (code : Nat) (body : List Byte) (cid : Cid) :
    (s.notice code body cid).health.minutes = s.health.minutes :=
  congrArg Prod.fst (s.notice_record code body cid)

theorem State.alertNow_minutes (s : State) (cls unit ctr : Nat) : (s.alertNow cls unit ctr).health.minutes = s.health.minutes := by
  have latch : (s.latchAlert cls unit ctr).health.minutes = s.health.minutes := by
    unfold State.latchAlert
    split <;> rfl
  unfold State.alertNow
  dsimp only
  split
  · exact latch
  · exact (State.notice_minutes ..).trans latch

theorem State.countHardware_minutes (s : State) (counted : List (Nat × Nat × Nat × Nat)) :
    (s.countHardware counted).health.minutes = s.health.minutes := by
  unfold State.countHardware
  extract_lets known added
  have add : added.health.minutes = s.health.minutes := by
    refine State.foldl_keeps (g := (·.health.minutes)) (fun v e => ?_) _ _
    split <;> rfl
  refine (State.foldl_keeps (g := (·.health.minutes)) (fun v e => ?_) _ _).trans add
  unfold State.alertAmong
  split
  · rfl
  · exact State.alertNow_minutes ..

/-- The sensors' levels are counters. -/
theorem State.sensorMinute_record (s : State) (u : Nat) : (s.sensorMinute u).health.record = s.health.record := by
  unfold State.sensorMinute
  extract_lets top counted past
  have count : counted.health.record = s.health.record := by
    unfold counted
    split <;> rfl
  exact count

/-- What a minute's end writes, before the notices of bands that changed and the alert pin. -/
theorem State.endMinute_told {s y : State} (hy : (List.range 64).foldl State.sensorMinute s = y) :
    ∃ t : State, s.endMinute = t.settleAlert ∧ t.health.record =
      (y.health.minutes + 1, y.allScores (decide (1440 ≤ y.health.minutes + 1)), s.health.counters :: y.health.history.take 1439, []) := by
  unfold State.endMinute
  dsimp only
  rw [hy]
  refine ⟨_, rfl, ?_⟩
  refine (State.foldl_keeps (g := (·.health.record)) (fun v e => v.bandNotice_record y.health.scores e) scoredUnits _).trans ?_
  simp only [Health.record, State.setHealth]

/-- A minute's end scores the units by the levels of that minute, and keeps the counts as they stood before it. -/
theorem State.endMinute_health {s y : State} (hy : (List.range 64).foldl State.sensorMinute s = y) :
    s.endMinute.health.minutes = s.health.minutes + 1 ∧ s.endMinute.health.noticed = [] ∧
      s.endMinute.health.scores = y.allScores (decide (1440 ≤ s.health.minutes + 1)) ∧
      s.endMinute.health.history = s.health.counters :: s.health.history.take 1439 := by
  have sense : y.health.record = s.health.record := by
    rw [← hy]
    exact State.foldl_keeps (g := (·.health.record)) State.sensorMinute_record (List.range 64) s
  obtain ⟨t, ends, told⟩ := State.endMinute_told hy
  simp only [Health.record, Prod.mk.injEq] at sense told
  obtain ⟨minutes, -, history, -⟩ := sense
  obtain ⟨minutes', scores', history', noticed'⟩ := told
  rw [ends, State.settleAlert_health, ← minutes, ← history]
  exact ⟨minutes', noticed', scores', history'⟩

theorem execMagnitudeUpdate_minute {now : Nat} {s : State} (powered : s.boot.inReset = false)
    (passed : (s.health.minutes + 1) * 60000000000 ≤ now) (counted : List (Nat × Nat × Nat × Nat)) :
    execMagnitudeUpdate now counted s = .next ((s.advanceTo now).countHardware counted).endMinute := by
  rw [execMagnitudeUpdate, if_neg (by simp [powered, passed.not_gt])]

/-! ### Bands (R505) -/

/-- The band stays GOOD while the unit is unrated (R506). -/
theorem State.scoreOf_unrated (v : State) (cls unit : Nat) (old : Score) : (v.scoreOf cls unit false old).band = 0 := by
  simp only [State.scoreOf, Bool.false_eq_true, if_false]

theorem State.scoreOf_rated (v : State) (cls unit : Nat) (old : Score) :
    (v.scoreOf cls unit true old).band = nextBand (v.scoreOf cls unit true old).magnitude old.band := by
  simp only [State.scoreOf, if_true]

theorem nextBand_eq (m b : Nat) : nextBand m b = if bandReached m < bandHeld m b then bandHeld m b else bandReached m := by
  rw [nextBand]
  split <;> omega

theorem bandReached_failing {m : Nat} (failing : 1000 ≤ m) : bandReached m = 3 := by
  unfold bandReached
  split_ifs <;> omega

theorem bandReached_good {m : Nat} (good : m < 100) : bandReached m = 0 := if_pos good

theorem hundred_le_bandEdge (b : Nat) : 100 ≤ bandEdge (b + 1) := by
  rw [bandEdge, if_neg b.succ_ne_zero]
  split_ifs <;> decide

/-- Below 80 % of the lowest edge no band holds. -/
theorem bandHeld_low {m : Nat} (low : m < 80) (b : Nat) : bandHeld m b = 0 := by
  induction b with
  | zero => rfl
  | succ b ih =>
    have edge := hundred_le_bandEdge b
    rw [bandHeld, if_pos (by omega), ih]

/-- From 80 % of its edge on, the first band holds. -/
theorem bandHeld_first {m : Nat} (holds : 80 ≤ m) : bandHeld m 1 = 1 := by
  have edge : bandEdge (0 + 1) = 100 := rfl
  rw [bandHeld, edge, if_neg (by omega)]

theorem nextBand_failing {m : Nat} (failing : 1000 ≤ m) (b : Nat) : nextBand m b = max 3 (bandHeld m b) := by
  rw [nextBand, bandReached_failing failing]

theorem nextBand_low {m : Nat} (low : m < 80) (b : Nat) : nextBand m b = 0 := by
  rw [nextBand, bandReached_good (by omega), bandHeld_low low]
  rfl

theorem nextBand_first {m : Nat} (holds : 80 ≤ m) (good : m < 100) : nextBand m 1 = 1 := by
  rw [nextBand, bandReached_good good, bandHeld_first holds]
  rfl

/-! ### Temperatures of DIMMs -/

/-- The channels' calibrations hear of the temperatures. -/
def State.heedTemperatures (s : State) : State :=
  (List.range 16).foldl (fun s c => s.setCalib false c { s.calib false c with temp := s.channelTemp c }) s

theorem State.heedTemperatures_keeps {β : Type} {g : State → β} (hg : ∀ v c x, g (v.setCalib false c x) = g v) (s : State) :
    g s.heedTemperatures = g s :=
  State.foldl_keeps (fun v c => hg v c _) (List.range 16) s

/-- A poll takes the temperature of a DIMM that is there. -/
theorem execDimmTemperaturePoll_there {now dimm temp : Nat} {s w : State} (hw : s.advanceTo now = w) (serves : s.inService = true)
    (there : dimm % 2 < (nth {} w.boot.cfg.mem.ddr (dimm / 2)).dimms) :
    execDimmTemperaturePoll now [(dimm, temp)] s = .next (w.setLevel 4 dimm 4 temp).heedTemperatures := by
  rw [execDimmTemperaturePoll, serves, hw]
  simp [there, State.heedTemperatures]

theorem State.counter_setLevel {v : Nat} (some_ : v ≠ 0) (s : State) (cls unit ctr : Nat) :
    (s.setLevel cls unit ctr v).counter cls unit ctr = v :=
  (Tab.get_set_of_ne some_ s.health.counters _ _).trans (if_pos rfl)

/-! ### Requests that nobody answers -/

section
variable {now id : Nat} {r : Issued} {s w v : State} (hw : s.advanceTo now = w) (stays : s.withdrawn = false)
  (out : w.issuedReq id = some r) (untold : r.timedOut = false) (late : r.at_ + w.boot.cfg.device.requestTimeout ≤ w.now)
  (hv : w.unresponsive r = v)
include hw stays out untold late hv

/-- The managers are told of a request without an answer, and then it ends as what asked for it does. -/
theorem execRequestTimeout_late : execRequestTimeout now id s = .next
    (match r.req with
     | .thread k => v.threadTimeout k
     | .unit => (v.dropIssued fun x => decide (x.id = id)).unitAnswered id stPoison [] (BitVec.allOnes 64)
     | .unitWrite n off => ((v.dropIssued fun x => decide (x.id = id)).unitFails n stPoison off).settleReply n
     | .stripe acc p => ((v.dropIssued fun x => decide (x.id = id)).modHeld acc fun a => a.stripeAnswered id p []).pump
     | _ => { v with reqs := { v.reqs with
         issued := v.reqs.issued.map fun x => if x.id = id then { x with timedOut := true } else x } }) := by
  rw [execRequestTimeout, State.serving_of_not_withdrawn stays, hw]
  dsimp only
  rw [out]
  dsimp only
  subst hv
  exact congrArg _ (if_neg (by simp [untold, late.not_gt]))

end

/-- Settles O55: the minute's end by what it writes, the bands by their edges, a late request by what asked for it. -/
theorem healthAndTimeouts : Obligations.HealthAndTimeouts := by
  intro now id dimm temp counted s w
  refine ⟨?minute, fun v cls unit old => ⟨v.scoreOf_unrated cls unit old, v.scoreOf_rated cls unit old⟩,
    fun m b => ⟨nextBand_eq m b, fun failing => nextBand_failing failing b, fun low _ => nextBand_low low b, nextBand_first⟩,
    ?dimm, ?timeout⟩
  case minute =>
    intro powered passed x y
    obtain ⟨minutes, noticed, scores, history⟩ := State.endMinute_health (s := x) (y := y) rfl
    have counts : x.health.minutes = w.health.minutes := w.countHardware_minutes counted
    rw [counts] at minutes scores
    exact ⟨x.endMinute, execMagnitudeUpdate_minute powered passed counted, minutes, noticed, scores, history⟩
  case dimm =>
    intro serves there some_
    have keeps := fun {β : Type} (g : State → β) (hg : ∀ v c x, g (v.setCalib false c x) = g v) =>
      State.heedTemperatures_keeps hg (w.setLevel 4 dimm 4 temp)
    exact ⟨_, execDimmTemperaturePoll_there rfl serves there,
      (keeps (·.counter 4 dimm 4) fun _ _ _ => rfl).trans (State.counter_setLevel some_ ..),
      keeps (·.comps) fun _ _ _ => rfl, keeps (·.store.mem) fun _ _ _ => rfl, keeps (·.store.regions) fun _ _ _ => rfl⟩
  case timeout =>
    intro stays r out untold late v
    have timed := execRequestTimeout_late rfl stays out untold late (v := v) rfl
    refine ⟨fun k req => ?_, fun acc p req => ?_, fun req => ?_, fun n off req => ?_, fun k a req => ?_⟩
    all_goals
      rw [req] at timed
      exact timed

end Sys2Proof.Machine
end

section
/-! Proofs about held work that goes on (04: R125, R168; 05: R148, R149, R161): C_DATA to a home that awaits it, the answer to a
snoop, and accesses that were parked. -/
namespace Sys2Proof.Machine

/-! ### Frames -/

/-- The transition of a line waits for the data of a C_DATA, and home goes on with it (R148). -/
structure State.AwaitsData (u : State) (h : Hdr) (region line k : Nat) (t : Transition) : Prop where
  entry : u.findEntry region line = some k
  busy : u.transition k = some t
  home : t.toHome = true
  asked : t.agents.contains h.src = true
  awaited : t.gotData = false
  kept : t.after ≠ .discard
  goes : u.fencedCid (u.dirEntry k).cid = false

/-- C_DATA that is awaited is merged into the line. -/
theorem execCData_awaited {h : Hdr} {a : Addr} {data : List Byte} {s u : State} {i line k : Nat} {t : Transition}
    (hu : s.afterLink h = u) (hi : (u.localRegion a.rh).getD 0 = i) (hl : a.offset.toNat / 64 = line) (ok : FrameTaken false h 80 s)
    (member : h.cid ≠ 0) (passes : cDataCheck u h a.rh line = none)
    (waits : u.AwaitsData h (dirRegion i (u.standsFor a.rh)) line k t) :
    execCData h a data s = .next
      ((u.modTransition k fun t => { t with gotData := true, merging := true }).submit
        { kind := .merge, origin := .transition k, src := u.aid, owner := u.aid, cid := h.cid, gen := h.gen, region := i
          position := u.standsFor a.rh, offset := 64 * line, len := 64, data := sliceBytes data 0 64 }) := by
  obtain ⟨entry, busy, home, asked, awaited, kept, goes⟩ := waits
  have expected : ¬ (!t.toHome || !t.agents.contains h.src || t.gotData) = true := by rw [home, asked, awaited]; decide
  have merged : ¬ (t.after = .discard || u.fencedCid (u.dirEntry k).cid) = true := by simp [kept, goes]
  rw [execCData, consumed_taken ok, hu]
  dsimp only
  rw [if_neg member, hl, passes]
  dsimp only
  rw [hi, entry]
  dsimp only
  rw [busy]
  dsimp only
  rw [if_neg expected, if_neg merged]

theorem execSnoopAnswer_snoop {h : Hdr} {r : Issued} {s : State} {k : Nat} {agent : Aid} (ok : AnswerTaken h r s)
    (req : r.req = .snoop k agent) : execSnoopAnswer h s = .next ((s.afterLink h).snoopAnswered r.id k agent h.status) := by
  rw [execSnoopAnswer, answerTo_taken ok, req]

/-! ### Parked accesses -/

/-- Time alone changes no held access. -/
theorem State.heldAccess_advanceTo (s : State) (now id : Nat) : (s.advanceTo now).heldAccess id = s.heldAccess id := by
  rw [State.heldAccess, State.advanceTo_reqs, State.heldAccess]

/-- A parked access goes on, with all that is held, once its source has no earlier write unperformed. -/
theorem unpark_performed {now id : Nat} {s w : State} {a : Access} (hw : s.advanceTo now = w) (stays : s.withdrawn = false)
    (held : s.heldAccess id = some a) (parked : a.parked = true) (performed : w.earlierWrites a.src a.cid id = false) :
    unpark now id a.kind s = (w.modHeld id fun a => { a with parked := false }).pump := by
  have held' : w.heldAccess id = some a := by rw [← hw, State.heldAccess_advanceTo, held]
  rw [unpark, State.serving_of_not_withdrawn stays, hw]
  dsimp only
  rw [held']
  exact if_pos ⟨rfl, parked, Bool.eq_false_iff.mp performed⟩

/-- Settles O24: the data by the transition that awaits it, the answer by the request that it answers, a parked access by its source's
earlier writes. -/
theorem heldWorkGoesOn : Obligations.HeldWorkGoesOn := by
  refine ⟨?data, ?answer, ?parked⟩
  case data =>
    intro h a data s k t u i line ok member passes entry busy home asked awaited kept goes
    exact execCData_awaited rfl rfl rfl ok member passes ⟨entry, busy, home, asked, awaited, kept, goes⟩
  case answer =>
    intro h s r k agent ok req
    exact execSnoopAnswer_snoop ok req
  case parked =>
    intro now id s a stays held parked performed w
    have goes := unpark_performed rfl stays held parked performed
    refine ⟨fun flagged => ?_, fun publish => ?_⟩
    · exact congrArg _ (flagged ▸ goes)
    · exact congrArg _ (publish ▸ goes)

end Sys2Proof.Machine
end

section
/-! Proofs about the events of GATHER_POOL and ROW_MIGRATE (10: R320 to R329, R336; 04: R139). -/
namespace Sys2Proof.Machine

theorem Got.usable_iff {g : Got} : g.usable = true ↔ g.waits = false ∧ g.status = stOk := by
  simp [Got.usable]

theorem Heads.usable_iff {x : Heads} : x.usable = true ↔ x.waits = false ∧ x.status = stOk := by
  simp [Heads.usable]

/-! ### Bags that are read -/

/-- Every entry of a bag is looked up, each with a version, and the bag is not yet written (R321, R323). -/
structure Bag.Pooled (x : Bag) : Prop where
  unwritten : x.writes = none
  valid : x.refused = false
  whole : (x.entries.getD []).length = x.looked.length
  versions : x.noVersion = false

section
variable {w v : State} {id b : Nat} {q q' : GatherReq}
  (served : (w.emb.service.find? fun (q : GatherReq) => decide (q.id = id)) = some q) (bag : b < q.nbags)
  (read : w.readBag q b = (v, .ready q'))
include served bag read

/-- An entry of a bag that is read is still to be looked up where its bag is valid. -/
theorem State.entryOf_pending {e row weight : Nat} (entry : ((q'.bags.get {} b).entries.getD [])[e]? = some (row, weight))
    (valid : (q'.bags.get {} b).refused = false) (new : (q'.bags.get {} b).looked.contains e = false) :
    w.entryOf id b e = (v.setGather q', some (q', row, weight)) := by
  rw [State.entryOf, served]
  dsimp only
  rw [if_neg bag.not_ge, read]
  dsimp only
  rw [entry]
  dsimp only
  rw [valid, new]
  rfl

/-- A bag whose entries are all looked up writes its vector. -/
theorem execBagWrite_pooled {now off : Nat} {s y : State} {x : Bag} {n : Nat × State} {taint : List Nat} (hw : s.advanceTo now = w)
    (stays : s.withdrawn = false) (hx : q'.bags.get {} b = x) (pooled : x.Pooled) (hoff : q'.out.offset.toNat + b * q'.outBytes = off)
    (htaint : (if x.poisoned then (List.range (linesOf off q'.outBytes)).map fun j => off / 64 + j else []) = taint)
    (hn : (v.setGather q').newReq = n)
    (write : n.2.unitWrite n.1 q'.h.cid q'.h.src 0 q'.out.rh off (q'.vector x) taint (some q'.h.pcp) = (y, stOk)) :
    execBagWrite now id b s = .next
      ((y.setGather { q' with bags := q'.bags.set {} b { x with writes := some n.1 } }).settleGather id) := by
  obtain ⟨unwritten, valid, whole, versions⟩ := pooled
  have open_ : ¬ (x.writes.isSome || x.refused) = true := by rw [unwritten, valid]; decide
  rw [execBagWrite, State.serving_of_not_withdrawn stays, hw]
  dsimp only
  rw [served]
  dsimp only
  rw [if_neg bag.not_ge, read]
  dsimp only
  rw [hx, if_neg open_, if_neg (not_not.mpr whole), if_neg (Bool.eq_false_iff.mp versions), hoff, htaint, hn, write]
  exact congrArg _ (if_neg (not_not.mpr rfl))

end

/-! ### Look-ups -/

/-- The state in which the held look-up of a request keeps a row from further turns (R329). -/
def State.lockRow (s : State) (row : RowAt) (req : Nat) : State :=
  if s.emb.locks.contains (row, req) then s else s.setEmb { s.emb with locks := s.emb.locks ++ [(row, req)] }

section
variable {now id b e row weight : Nat} {q : GatherReq} {s w v y : State} {res : LookRes} (hw : s.advanceTo now = w)
  (stays : s.withdrawn = false) (pending : w.entryOf id b e = (v, some (q, row, weight))) (free : v.engineFree q b e = true)
include hw stays pending free

/-- An entry whose attempts have failed fewer than five times has one more. -/
theorem execLookup_attempt (few : (q.bags.get {} b).attempts e < 5)
    (look : v.lookRow q (.look id b e) row ((q.bags.get {} b).looks.get none e) false = (y, res)) :
    execLookup now id b e s = .next (y.lookedUp q b e weight res) := by
  have tries : ¬ (5 ≤ (q.bags.get {} b).attempts e ∨ (!v.engineFree q b e) = true) := by
    rw [free]
    exact not_or.mpr ⟨few.not_ge, Bool.noConfusion⟩
  rw [execLookup, State.serving_of_not_withdrawn stays, hw, pending]
  dsimp only
  rw [if_neg tries, look]

section
variable {p : RowAt} (many : 5 ≤ (q.bags.get {} b).attempts e) (hp : q.table.primaryAt row = p)
include many hp

/-- After five failures the row is locked against turns, and the look-up is made once no turn is under way (R329). -/
theorem execHeldLookup_locked : execHeldLookup now id b e s = .next
    (if (v.lockRow p id).turnUnderWay p then v.lockRow p id
     else match (v.lockRow p id).lookRow q (.look id b e) row ((q.bags.get {} b).looks.get none e) true with
       | (y, .waits) => y
       | (y, .body l) => y.lookedUp q b e weight (.body l)
       | (y, res) => ((y.bump 9 (16 + (q.engine0 + b) % 16) 3).lookedUp q b e weight res).unlockRow p id) := by
  have tries : ¬ ((q.bags.get {} b).attempts e < 5 ∨ (!v.engineFree q b e) = true) := by
    rw [free]
    exact not_or.mpr ⟨many.not_gt, Bool.noConfusion⟩
  rw [execHeldLookup, State.serving_of_not_withdrawn stays, hw, pending]
  dsimp only
  rw [if_neg tries, hp, ← State.lockRow]
  cases (v.lockRow p id).lookRow q (.look id b e) row ((q.bags.get {} b).looks.get none e) true with
  | mk y res => cases res <;> rfl

/-- The held look-up is over where it ends the entry or fails, and the row's turns go on. -/
theorem execHeldLookup_made (still : (v.lockRow p id).turnUnderWay p = false)
    (look : (v.lockRow p id).lookRow q (.look id b e) row ((q.bags.get {} b).looks.get none e) true = (y, res))
    (answered : res ≠ .waits) (whole : ∀ l : Look, res ≠ .body l) :
    execHeldLookup now id b e s = .next
      (((y.bump 9 (16 + (q.engine0 + b) % 16) 3).lookedUp q b e weight res).unlockRow p id) := by
  rw [execHeldLookup_locked hw stays pending free many hp, still, look]
  cases res with
  | waits => exact absurd rfl answered
  | body l => exact absurd rfl (whole l)
  | version | noVersion | retry | fails => rfl

end
end

/-! ### Migrations -/

section
variable {b : Nat} {w : State} {j : MigrateJob} {m : Migration}

section
variable {now : Nat} {s : State} (hw : s.advanceTo now = w) (stays : s.withdrawn = false) (moves : w.emb.migrations[b]? = some m)
  (job : (w.emb.jobs.find? fun (j : MigrateJob) => decide (j.id = m.job)) = some j)
include hw stays moves job

/-- A flip whose writes are performed ends its migration. -/
theorem execMigrationCopyTurn_flipped {req : Nat} (flips : m.flip = some req) (performed : w.unitBusy req = false) :
    execMigrationCopyTurn now b s = .next
      ((w.clearFailure req).endMigration b j m (decide (w.unitFailure req = stOk) || decide (w.unitFailure req = stPoison))) := by
  rw [execMigrationCopyTurn, State.serving_of_not_withdrawn stays, hw]
  dsimp only
  rw [moves]
  dsimp only
  rw [job]
  dsimp only
  rw [flips]
  exact congrArg _ (if_neg (Bool.eq_false_iff.mp performed))

/-- A row that does not flip yet has its copy read, or has its turn with the copy that it has. -/
theorem execMigrationCopyTurn_unflipped (waits : m.flip = none) :
    execMigrationCopyTurn now b s = .next (if m.copy.isNone then w.readCopy b j m else w.copyTurn b j m) := by
  rw [execMigrationCopyTurn, State.serving_of_not_withdrawn stays, hw]
  dsimp only
  rw [moves]
  dsimp only
  rw [job]
  dsimp only
  rw [waits]

end

/-- The copy is the source record as it is read, with its seq and its poison. -/
theorem State.readCopy_usable {v : State} {g : Got} {p : RowAt}
    (hp : (if m.toHot then j.table.primaryAt m.row else j.table.hotAt m.slot) = p)
    (read : w.unitRead (.row j.id m.row) j.cid p.rh p.off j.table.stride = (v, g)) (usable : g.usable = true) :
    w.readCopy b j m = ((v.forget (.row j.id m.row)).setMigrateJob { j with poisoned := j.poisoned || g.poisoned }).setMigration b
      { m with copy := some (fieldLe g.data 0 4, g.data), poison := g.poison } := by
  obtain ⟨answered, ok⟩ := Got.usable_iff.mp usable
  rw [State.readCopy]
  dsimp only
  rw [hp, read]
  dsimp only
  rw [answered, if_neg Bool.noConfusion, if_neg (not_not.mpr ok)]

section
variable {v : State} {x : Heads} {c : Nat × List Byte} {primary hot : RowRec} {changes : List RowChange} {n : Nat × State}
  (copied : m.copy = some c) (turn : w.mayTurn (.row j.id m.row) (j.table.primaryAt m.row) = true)
  (read : (w.claim (.row j.id m.row) (j.table.primaryAt m.row)).readHeads (.row j.id m.row) j.cid
    [j.table.primaryAt m.row, j.table.hotAt m.slot] = (v, x))
  (usable : x.usable = true) (hprimary : nth {} x.recs 0 = primary) (hhot : nth {} x.recs 1 = hot)
  (hchanges : flipTurn j.table m primary hot = changes) (hn : (v.close (.row j.id m.row)).newReq = n)
include copied turn read usable hprimary hhot hchanges hn

/-- The turn of a row that still migrates: a stale copy is given up, and otherwise the row flips unless one of its records refuses. -/
theorem State.copyTurn_migrating (migrates : primary.rstate = (if m.toHot then rsMigrating else rsReturning)) :
    w.copyTurn b j m =
      if primary.fresh = false ∧ c.1 ≠ (if m.toHot then primary.seq else hot.seq) then
        (v.close (.row j.id m.row)).setMigration b { m with copy := none }
      else if (v.turnRefusal j.cid 0 j.table (changes.map (·.at_))).isSome then v.endMigration b j m false
      else ((n.2.setMigrateJob { j with poisoned := j.poisoned || x.poisoned }).writerTurn n.1 j.cid 0 (j.table.primaryAt m.row)
        changes).setMigration b { m with flip := some n.1 } := by
  obtain ⟨answered, ok⟩ := Heads.usable_iff.mp usable
  rw [State.copyTurn]
  dsimp only
  rw [turn, if_neg (by decide), read]
  dsimp only
  rw [answered, if_neg Bool.noConfusion, if_neg (not_not.mpr ok), hprimary, hhot, if_neg (not_not.mpr migrates), copied, hchanges, hn]
  simp only [Option.map_some, ne_eq, Option.some.injEq, Bool.and_eq_true, Bool.not_eq_true', decide_eq_true_eq]

end
end

/-- Settles O37: a look-up by what is left of its entry and by its row's turns, a bag's write by its entries, and a migration's turn by
how far the row is. -/
theorem embeddingProgress : Obligations.EmbeddingProgress := by
  intro now id b e s stays w
  refine ⟨fun q q' v served bag read => ?gather, fun m j moves job => ?migrate⟩
  case gather =>
    intro x v' a
    refine ⟨fun row weight entry valid new free => ?looks, ?writes⟩
    case looks =>
      have pending := State.entryOf_pending served bag read entry valid new
      refine ⟨fun few y res look => execLookup_attempt rfl stays pending free few look, fun many => ⟨fun underWay => ?_, ?_⟩⟩
      · exact (execHeldLookup_locked rfl stays pending free many rfl).trans (congrArg _ (if_pos underWay))
      · intro still y res look answered whole
        exact execHeldLookup_made rfl stays pending free many rfl still look answered whole
    case writes =>
      intro unwritten valid whole versions off taint n y write
      exact execBagWrite_pooled served bag read rfl stays rfl ⟨unwritten, valid, whole, versions⟩ rfl rfl rfl write
  case migrate =>
    intro t place a
    refine ⟨fun req flips performed => execMigrationCopyTurn_flipped rfl stays moves job flips performed, ?copy, ?turn⟩
    case copy =>
      intro waits uncopied v g p source usable
      have copies : m.copy.isNone = true := by rw [uncopied]; rfl
      exact (execMigrationCopyTurn_unflipped rfl stays moves job waits).trans
        (congrArg _ ((if_pos copies).trans (State.readCopy_usable rfl source usable)))
    case turn =>
      intro c waits copied turn v x read usable primary hot seq migrates
      have copies : ¬ m.copy.isNone = true := by rw [copied]; exact Bool.noConfusion
      have taken := (execMigrationCopyTurn_unflipped rfl stays moves job waits).trans (congrArg _ ((if_neg copies).trans
        (State.copyTurn_migrating copied turn read usable rfl rfl rfl rfl migrates)))
      constructor
      · intro current changes allowed n
        have kept : ¬ (primary.fresh = false ∧ c.1 ≠ seq) := by
          rintro ⟨edited, stale⟩
          exact current.elim (fun fresh => absurd (fresh.symm.trans edited) (by decide)) stale
        have granted : ¬ (v.turnRefusal j.cid 0 t (changes.map (·.at_))).isSome = true := by rw [allowed]; exact Bool.noConfusion
        exact taken.trans (congrArg _ ((if_neg kept).trans (if_neg granted)))
      · intro edited stale
        exact taken.trans (congrArg _ (if_pos ⟨edited, stale⟩))

end Sys2Proof.Machine
end

section
/-! Proofs about the orders on orbits and transits, and SKY_REARM (06: R186, R191 to R196). -/
namespace Sys2Proof.Machine

section
variable {o : Order} {s u : State} (ok : OrderTaken o s) (hu : s.orderTaken o = u)
include ok hu

/-! ### Orbits -/

section
variable {n : Byte} {x : Orbit} (hx : u.orbit n.toNat = x)
include hx

theorem execOrbitDefine_free {period first count : W32} (positive : period ≠ 0) (fits : first.toNat + count.toNat ≤ 65536)
    (off : u.orbitEnabled x = false) (clear : u.touchesEnabled first.toNat count.toNat = false) (cid : Cid) (anchor : W64) :
    execOrbitDefine o n cid period anchor first count s = .next ((u.setOrbit n.toNat
      { defined := true, cid := cid, period := period.toNat, anchor := anchor.toNat, first := first.toNat
        count := count.toNat, late := x.late }).finishOrder o.ref stOk []) := by
  have valid : ¬ (period = 0 ∨ 65536 < first.toNat + count.toNat) := not_or.mpr ⟨positive, fits.not_gt⟩
  have idle : ¬ (u.orbitEnabled x || u.touchesEnabled first.toNat count.toNat) = true := by simp [off, clear]
  rw [execOrbitDefine, orderRequest_taken ok, hu, hx, if_neg valid, if_neg idle]

variable (defined : x.defined = true)
include defined

theorem execOrbitEnable_checked {enable : W64} (ahead : u.locked = true → u.sky.count.toNat < enable.toNat)
    (checked : orbitOk x ((u.orbitEntries n.toNat).map (·.2)) = true) :
    execOrbitEnable o n enable s = .next
      ((u.setOrbit n.toNat { x with enable := some enable.toNat, disable := none }).finishOrder o.ref stOk []) := by
  have future : (u.locked && decide (enable.toNat ≤ u.sky.count.toNat)) = false := by
    rw [Bool.and_eq_false_imp]
    exact fun locked => decide_eq_false (ahead locked).not_ge
  have valid : ¬ (!x.defined || (u.locked && decide (enable.toNat ≤ u.sky.count.toNat)) ||
      !orbitOk x ((u.orbitEntries n.toNat).map (·.2))) = true := by simp [defined, future, checked]
  rw [execOrbitEnable, orderRequest_taken ok, hu, hx, if_neg valid]

theorem execOrbitDisable_defined (disable : W64) :
    execOrbitDisable o n disable s = .next ((u.setOrbit n.toNat { x with disable := some disable.toNat }).finishOrder o.ref stOk []) := by
  rw [execOrbitDisable, orderRequest_taken ok, hu, hx, if_neg (by simp [defined])]

end

/-! ### Transits -/

/-- The transits of a TRANSIT_LOAD once its region has been read whole and without poison (R195). -/
theorem execTransitLoad_read {rh : Handle} {offset : BitVec 48} {first count : W32} {v : State} {g : Got}
    (fits : first.toNat + count.toNat ≤ 65536) (here : handleAid rh = u.aid) (used : (u.region (handleIndex rh)).state ≠ .free)
    (clear : u.touchesEnabled first.toNat count.toNat = false)
    (within : offset.toNat + 32 * count.toNat ≤ (u.region (handleIndex rh)).size)
    (read : u.orderRead o.ref.asker rh offset.toNat (32 * count.toNat) = (v, g)) (usable : g.usable = true) (clean : g.poisoned = false) :
    execTransitLoad o rh offset first count s = .next
      (((v.setTransits ((List.range count.toNat).foldl (fun (t : Tab Entry) j =>
        t.set {} (first.toNat + j) (parseEntry (sliceBytes g.data (32 * j) 32))) v.sky.transits)).forget o.ref.asker).finishOrder
          o.ref stOk (beBytes 4 count.toNat)) := by
  obtain ⟨answered, whole⟩ := Got.usable_iff.mp usable
  have valid : ¬ (65536 < first.toNat + count.toNat ∨ handleAid rh ≠ u.aid ∨ (u.region (handleIndex rh)).state = .free) :=
    not_or.mpr ⟨fits.not_gt, not_or.mpr ⟨not_not.mpr here, used⟩⟩
  rw [execTransitLoad, orderRequest_taken ok, hu, State.loadTransits, if_neg valid, clear, if_neg Bool.noConfusion,
    if_neg within.not_gt, read]
  dsimp only
  rw [answered, if_neg Bool.noConfusion, if_neg (not_not.mpr whole), clean, if_neg Bool.noConfusion]

/-! ### The count -/

theorem execSkyRearm_taken : execSkyRearm o s = .next
    ((u.setSky { u.sky with lastLocked := none, regressed := false }).finishOrder o.ref stOk
      (beBytes 8 (u.sky.lastLocked.getD 0).toNat)) := by
  rw [execSkyRearm, orderRequest_taken ok, hu]

end

/-- Settles O40: each order by the checks that it passes; a TRANSIT_LOAD also by what its read returns. -/
theorem ephemerisOrders : Obligations.EphemerisOrders := by
  intro o n cid period anchor enable disable first count rh offset s ok u x i off
  refine ⟨?define, ?load, ?enable, ?disable, execSkyRearm_taken ok rfl⟩
  case define => exact fun positive fits idle clear => execOrbitDefine_free ok rfl rfl positive fits idle clear cid anchor
  case load =>
    exact fun fits here used clear within v g read usable clean =>
      execTransitLoad_read ok rfl fits here used clear within read usable clean
  case enable => exact fun defined ahead checked => execOrbitEnable_checked ok rfl rfl defined ahead checked
  case disable => exact fun defined => execOrbitDisable_defined ok rfl rfl defined disable

end Sys2Proof.Machine
end

section
/-! Proofs about ticks from the three sources and their absence (06: R171 to R187). -/
namespace Sys2Proof.Machine

/-! ### TICK frames (R180 to R182) -/

/-- A TICK that is taken: it came in at a tick port, TICK frames are the source, and the domain is the device's. -/
def State.GoodTick (u : State) (port : Nat) (domain : BitVec 16) : Prop :=
  (u.portCfg port).tick = true ∧ u.ticksRun srcFrames = true ∧ domain = u.boot.cfg.device.skyDomain

theorem State.goodTick_iff {u : State} {port : Nat} {domain : BitVec 16} : u.GoodTick port domain ↔
    ¬ (!(u.portCfg port).tick || !u.ticksRun srcFrames || decide (domain ≠ u.boot.cfg.device.skyDomain)) = true := by
  simp [State.GoodTick, and_assoc]

section
variable {h : Hdr} {domain : BitVec 16} {s u : State} (ok : FrameTaken false h 16 s) (hu : s.afterLink h = u)
include ok hu

theorem execTick_rejected (bad : ¬ u.GoodTick h.port domain) (count : W64) : execTick h count domain s = .next (u.bump 0 h.port 16) := by
  rw [execTick, linkChecks_taken ok, hu, if_pos (not_not.mp (mt State.goodTick_iff.mpr bad))]

/-- A good TICK is taken unless the other of two tick ports has brought its count. -/
theorem execTick_good (good : u.GoodTick h.port domain) (count : W64) : execTick h count domain s = .next
    (if u.tickPorts.length = 2 ∧ u.sky.isCopy count = true then u.bump 0 h.port 17
     else State.countedTick (u.setSky (u.sky.take count)) u.now count) := by
  rw [execTick, linkChecks_taken ok, hu, if_neg (State.goodTick_iff.mp good)]

end

/-! ### The local generator (R173) -/

theorem execLocalTick_due {now t : Nat} {s w : State} (hw : s.advanceTo now = w) (runs : s.ticksRun srcLocal = true)
    (last : w.sky.lastTick = some t) (running : w.sky.generated ≠ 0) (due : t + w.boot.cfg.device.localPeriod ≤ w.now) :
    execLocalTick now s = .next (State.countedTick (w.setSky { w.sky with generated := w.sky.generated + 1 }) w.now
      (BitVec.ofNat 64 (w.sky.generated + 1))) := by
  obtain ⟨n, hn⟩ := Nat.exists_eq_succ_of_ne_zero running
  rw [execLocalTick, runs, hw]
  dsimp only
  rw [hn, last]
  exact congrArg _ (if_neg due.not_gt)

/-! ### Edges of SKY (R176, R179, R184, R185) -/

/-- Repeating an edge changes nothing but what SKYOUT carries. -/
theorem State.repeatEdge_shape (w : State) (high : Nat) : ∃ out, w.repeatEdge high = w.setSky { w.sky with skyout := out } := by
  rw [State.repeatEdge]
  dsimp only
  split
  · exact ⟨_, rfl⟩
  · exact ⟨w.sky.skyout, rfl⟩

/-- An edge before half a period has passed is counted and has no other effect. -/
theorem execSkyEdge_glitch {now high t : Nat} {s w : State} (hw : s.advanceTo now = w) (runs : s.ticksRun srcSky = true)
    (last : w.sky.lastTick = some t) (measured : w.sky.intervals ≠ [])
    (early : 2 * (w.now - t) * w.sky.intervals.length < w.sky.intervalSum) :
    execSkyEdge now high s = .next ((w.repeatEdge high).bump 11 0 2) := by
  rw [execSkyEdge, runs, hw]
  obtain ⟨out, e⟩ := w.repeatEdge_shape high
  have glitch : (!w.sky.intervals.isEmpty && decide (2 * (w.now - t) * w.sky.intervals.length < w.sky.intervalSum)) = true := by
    simp [measured, early]
  rw [e]
  dsimp only [State.setSky_sky, State.setSky_now]
  rw [last]
  exact congrArg _ (if_pos glitch)

/-- The first tick of all is good, and an acquisition begins with it. -/
theorem State.takeTick_first {w : State} (first : w.sky.lastTick = none) (det : Nat) (carried : Option W64) (symOk wrong : Bool) :
    w.takeTick det carried symOk wrong = w.setSky { w.sky with
      lock := .acquiring, count := carried.getD w.sky.count, established := carried.isSome, lastTick := some det, restart := false
      instant := det + w.boot.cfg.device.tickHold, intervals := [], before := [], goodRun := 1, badRun := 0, due := [], beyond := [] } := by
  rw [State.takeTick, first]
  rfl

/-- The first edge of an absent count begins an acquisition; it has no symbol, since there is no period to measure it by. -/
theorem execSkyEdge_first {now : Nat} {s w : State} (hw : s.advanceTo now = w) (runs : s.ticksRun srcSky = true)
    (absent : w.sky.lock = .absent) (first : w.sky.lastTick = none) (high : Nat) :
    ∃ out, execSkyEdge now high s = .next (w.setSky { w.sky with
      lock := .acquiring, established := false, lastTick := some w.now, restart := false
      instant := w.now + w.boot.cfg.device.tickHold, intervals := [], before := [], goodRun := 1, badRun := 0, due := [], beyond := []
      symbols := none, skyout := out }) := by
  obtain ⟨out, e⟩ := w.repeatEdge_shape high
  have taken : execSkyEdge now high s = .next
      ((w.setSky { w.sky with symbols := none, skyout := out }).takeTick w.now none true false) := by
    rw [execSkyEdge, runs, hw, e]
    dsimp only [State.setSky_sky, State.setSky_now]
    rw [first, absent]
    rfl
  exact ⟨out, taken.trans (congrArg _ (State.takeTick_first (by exact first) ..))⟩

/-! ### No ticks (R186) -/

/-- After more than two periods without a tick a lock is lost, and an acquisition ends. -/
theorem execTickAbsence_overdue {now t : Nat} {s w : State} (hw : s.advanceTo now = w) (serves : s.inService = true)
    (last : w.sky.lastTick = some t) (measured : w.sky.intervals ≠ [])
    (overdue : 2 * w.sky.intervalSum < (w.now - t) * w.sky.intervals.length) :
    (w.sky.lock = .locked → execTickAbsence now s = .next (w.loseLock 1)) ∧
    (w.sky.lock = .acquiring → execTickAbsence now s = .next (w.setSky { w.sky with
      intervals := [], established := false, goodRun := 0, regressed := false, symbols := none, taken := [], restart := true })) := by
  have late : ¬ (w.sky.intervals.isEmpty = true ∨ (w.now - t) * w.sky.intervals.length ≤ 2 * w.sky.intervalSum) :=
    not_or.mpr ⟨mt List.isEmpty_iff.mp measured, overdue.not_ge⟩
  rw [execTickAbsence, serves, hw]
  dsimp only
  rw [last]
  dsimp only
  rw [if_neg late]
  constructor
  · intro locked
    rw [locked]
    rfl
  · intro acquiring
    rw [acquiring]
    rfl

/-- Settles O41: a TICK by whether it is good and new, a generated tick by its period, an edge by how long after the last tick it
comes, and their absence by the lock state. -/
theorem ticksOfTheCount : Obligations.TicksOfTheCount := by
  intro h count domain now high s u w k
  refine ⟨fun ok => ?frames, ?generator, fun runs => ?edges, ?absence⟩
  case frames =>
    intro good
    refine ⟨fun bad => execTick_rejected ok rfl bad count, fun taken two copy => ?_, fun taken new => ?_⟩
    · exact (execTick_good ok rfl taken count).trans (congrArg _ (if_pos ⟨two, copy⟩))
    · refine (execTick_good ok rfl taken count).trans (congrArg _ (if_neg ?_))
      rintro ⟨two, copy⟩
      exact new.elim (· two) fun fresh => Bool.noConfusion (fresh.symm.trans copy)
  case generator => exact fun runs t last running due => execLocalTick_due rfl runs last running due
  case edges =>
    refine ⟨fun t last measured early => execSkyEdge_glitch rfl runs last measured early, fun absent first _ => ?acquires⟩
    obtain ⟨out, e⟩ := execSkyEdge_first rfl runs absent first high
    exact ⟨_, e, rfl, rfl, rfl, rfl, rfl, rfl, rfl⟩
  case absence => exact fun serves t last measured overdue => execTickAbsence_overdue rfl serves last measured overdue

end Sys2Proof.Machine
end

section
/-! Proofs about what movers do with a MOVE (07: R219 to R237): walks, blocks, segments, ends of descriptors, parking and quiescence. -/
namespace Sys2Proof.Machine

/-- Writes into a mover's descriptor that have not failed leave it going on. -/
theorem State.headerFails_of_ok {s : State} {m : Nat} (ok : s.unitFailure m = stOk) : s.headerFails m = false := by
  rw [State.headerFails, ok]
  rfl

/-- A mover with invalidations to acknowledge or to walk for, and nothing under way, is quiescent. -/
theorem Mover.quiesces {x : Mover} {busy : Bool} (named : x.inval ≠ [] ∨ x.again ≠ []) (unwritten : x.wrote = false)
    (idle : busy = false) : ¬ ((x.inval.isEmpty && x.again.isEmpty) || x.wrote || busy) = true := by
  simpa [unwritten, idle, imp_iff_not_or] using named

/-- How a mover goes on from what it has walked: it waits for a read, faults, or has the runs of both sides. -/
def WalkIO.finish (io : WalkIO) (m : Nat) (q : MoveReq) (d : Desc) : SideRes → State
  | .waits => io.st
  | .fault f => (io.st.bump 9 (108 + m % 16) 3).walkFaults m f
  | .runs l p => (io.st.bump 9 (108 + m % 16) 3).beginMoving m q { d with runs := l, pages := p, base := d.bytesDone }

section
variable {now m : Nat} {s w : State} (hw : s.advanceTo now = w) (stays : s.withdrawn = false)
include hw stays

/-! ### Blocks and parking (R231, R232, R237) -/

/-- A slot that was not checked within the last 10 µs is tried again. -/
theorem execFaultSlotCheck_due {k : Nat} {p : Parked} (parked : w.movers.parked[k]? = some p) (waits : p.recorded = false)
    (due : ∀ t, p.checked = some t → t + 10000 ≤ w.now) : execFaultSlotCheck now k s = .next (w.recordFault k) := by
  have passed : ¬ (p.checked.any fun t => decide (w.now < t + 10000)) = true := by
    rw [Option.any_eq_true]
    rintro ⟨t, checked, early⟩
    exact (due t checked).not_gt (of_decide_eq_true early)
  rw [execFaultSlotCheck, State.serving_of_not_withdrawn stays, hw]
  dsimp only
  rw [parked]
  dsimp only
  rw [waits, if_neg Bool.noConfusion, if_neg passed]

section
variable {x : Mover} (hx : w.mover m = x)
include hx

/-- The next mover in turn takes a block for the position that follows its segments. -/
theorem execStagingGrant_turn {d : Desc} {v : State} (desc : x.desc = some d)
    (turn : (((List.range 64).map fun j => (w.movers.lastGrant + 1 + j) % 64).find? fun k => w.wantsBlock k) = some m)
    (room : w.blocksHeld < w.stagingBlocks)
    (hv : w.setMover m { x with segments := x.segments ++ [(x.nextPos d, d.segment (x.nextPos d))] } = v) :
    execStagingGrant now m s = .next (v.setMovers { v.movers with lastGrant := m }) := by
  have granted : ¬ (some m ≠ some m ∨ w.stagingBlocks ≤ w.blocksHeld) := not_or.mpr ⟨not_not.mpr rfl, room.not_ge⟩
  rw [execStagingGrant, State.serving_of_not_withdrawn stays, hw]
  dsimp only
  rw [hx, turn, if_neg granted, desc]
  dsimp only
  rw [← desc, hv]

/-- A stalled mover parks once a place is free. -/
theorem execParkedSlotFree_stalled {f : WalkFault} (fault : x.fault = some f) (stalled : x.state = .stalled)
    (room : w.movers.parked.length < 4096) : execParkedSlotFree now m s = .next (w.park m f) := by
  rw [execParkedSlotFree, State.serving_of_not_withdrawn stays, hw]
  dsimp only
  rw [hx, fault]
  dsimp only
  rw [if_pos ⟨stalled, room⟩]

section
variable {q : MoveReq} {d : Desc} (req : x.req = some q) (desc : x.desc = some d)
include req desc

/-! ### Walks (R219, R223, R228, R230) -/

section
variable (translates : x.state = .translating) (idle : w.unitBusy m = false) (ok : w.unitFailure m = stOk)
include translates idle ok

/-- What a mover that translates does once TRANSLATING is written. -/
theorem execWalk_translating : execWalk now m s = .next
    (if (x.laid && x.inval.isEmpty) = true then w.settleRuns m
     else if x.laid = true then w
     else (walkBoth d d.bytesDone d.length { st := w.ackAll m, cid := q.h.cid, mover := m }).1.finish m q d
       (walkBoth d d.bytesDone d.length { st := w.ackAll m, cid := q.h.cid, mover := m }).2) := by
  have goes : ¬ (x.state ≠ .translating ∨ w.unitBusy m = true) :=
    not_or.mpr ⟨not_not.mpr translates, Bool.eq_false_iff.mp idle⟩
  rw [execWalk, State.serving_of_not_withdrawn stays, hw]
  dsimp only
  rw [hx, req, desc]
  dsimp only
  rw [if_neg goes, State.headerFails_of_ok ok, if_neg Bool.noConfusion]
  obtain ⟨io, r⟩ := walkBoth d d.bytesDone d.length { st := w.ackAll m, cid := q.h.cid, mover := m }
  cases r <;> rfl

/-- Runs that are being written are settled. -/
theorem execWalk_laid (laid : x.laid = true) (quiet : x.inval = []) : execWalk now m s = .next (w.settleRuns m) := by
  rw [execWalk_translating hw stays hx req desc translates idle ok, laid, quiet]
  rfl

/-- A walk goes on with what both sides give. -/
theorem execWalk_walked {io : WalkIO} {r : SideRes} (walks : x.laid = false)
    (walked : walkBoth d d.bytesDone d.length { st := w.ackAll m, cid := q.h.cid, mover := m } = (io, r)) :
    execWalk now m s = .next (io.finish m q d r) := by
  rw [execWalk_translating hw stays hx req desc translates idle ok, walks, walked]
  rfl

end

/-! ### Segments (R226, R229) -/

/-- A segment that is read and whose writes are performed at once gives its block back. -/
theorem execSegmentDone_performed {pos n : Nat} {rest : List (Nat × Nat)} {v v' : State} {bad : Bool}
    (first : x.segments = (pos, n) :: rest) (unwritten : x.wrote = false) (quiet : x.inval = []) (walked : x.again = [])
    (idle : w.unitBusy m = false) (ok : w.unitFailure m = stOk)
    (run : w.runSegment m q d pos n = (v, some (stOk, bad))) (performed : v.unitBusy m = false) (fine : v.unitFailure m = stOk)
    (hv : v.setMover m { v.mover m with wrote := true, req := some { q with poisoned := q.poisoned || bad } } = v') :
    execSegmentDone now m s = .next ((v'.clearFailure m).setMover m { v'.mover m with
      segments := rest, wrote := false, desc := some { d with bytesDone := pos + n }, req := some ((v'.mover m).req.getD q) }) := by
  have clean : decide (stOk = stPoison) = false := rfl
  have good : ¬ (stOk ≠ stOk ∧ stOk ≠ stPoison) := fun h => h.1 rfl
  have performed' : v'.unitBusy m = false := hv ▸ performed
  have fine' : v'.unitFailure m = stOk := hv ▸ fine
  rw [execSegmentDone, State.serving_of_not_withdrawn stays, hw]
  dsimp only
  rw [hx, req, desc, first]
  dsimp only
  rw [unwritten, if_neg Bool.noConfusion, quiet, walked, idle, if_neg (by decide), State.headerFails_of_ok ok,
    if_neg Bool.noConfusion, run]
  dsimp only
  rw [if_neg good, clean, Bool.or_false, hv, performed', if_neg Bool.noConfusion, fine', if_neg good, clean, Bool.or_false]
  rfl

/-! ### Ends of descriptors (R228, R229) -/

/-- A descriptor that is moved whole is DONE, and the MOVE goes on to its next descriptor or ends. -/
theorem execDescriptorDone_moved {done v : State} (moves : x.state = .moving) (emptied : x.segments = [])
    (whole : d.bytesDone = d.length) (idle : w.unitBusy m = false)
    (hdone : (if x.marked then w
      else (w.markDesc m q.h d dsDone stOk).setMover m { x with marked := true }) = done)
    (performed : done.unitBusy m = false) (fine : done.unitFailure m = stOk)
    (hv : (done.ackAll m).setMover m { (done.ackAll m).mover m with
      req := some { q with done := q.done + 1, next := { d.ptr with offset := BitVec.ofNat 48 d.after } }
      desc := none, state := .translating, marked := false } = v) :
    execDescriptorDone now m s = .next (if q.done + 1 = q.count then v.endMove m stOk else v.startDesc m) := by
  have goes : ¬ (x.state ≠ .moving ∨ (!x.segments.isEmpty) = true ∨ d.bytesDone ≠ d.length ∨ w.unitBusy m = true) := by
    simp [moves, emptied, whole, idle]
  rw [execDescriptorDone, State.serving_of_not_withdrawn stays, hw]
  dsimp only
  rw [hx, req, desc]
  dsimp only
  rw [← req, ← desc, if_neg goes, hdone, performed, if_neg Bool.noConfusion, State.headerFails_of_ok fine,
    if_neg Bool.noConfusion, hv]

/-! ### Quiescence (R235) -/

section
variable (named : x.inval ≠ [] ∨ x.again ≠ []) (unwritten : x.wrote = false) (idle : w.unitBusy m = false)
include named unwritten idle

/-- Before its runs are there, and once it is marked as done, a mover only acknowledges. -/
theorem execInvalQuiesce_unwalked (only : x.marked = true ∨ (x.state ≠ .moving ∧ x.laid = false)) :
    execInvalQuiesce now m s = .next (w.ackAll m) := by
  have only' : (x.marked || (decide (x.state ≠ .moving) && !x.laid)) = true := by simpa using only
  rw [execInvalQuiesce, State.serving_of_not_withdrawn stays, hw]
  dsimp only
  rw [hx, req, desc]
  dsimp only
  rw [if_neg (Mover.quiesces named unwritten idle), if_pos only']

/-- A mover with runs gives its blocks back, and goes on where the pages that are named are walked again. -/
theorem execInvalQuiesce_rewalked {again : List Inval} {y : State} {io : WalkIO} {d' : Desc} {l : List Run} {p : List PageSpan}
    (unmarked : x.marked = false) (runs : x.state = .moving ∨ x.laid = true) (ok : w.unitFailure m = stOk)
    (hagain : x.again ++ x.inval = again)
    (hy : (w.ackAll m).setMover m { (w.ackAll m).mover m with segments := [], again := again } = y)
    (walked : rewalk d again { st := y, cid := q.h.cid, mover := m } = (io, (d', .runs l p))) :
    execInvalQuiesce now m s = .next (io.st.beginMoving m q d') := by
  have both : ¬ (x.marked || (decide (x.state ≠ .moving) && !x.laid)) = true := by
    simpa [unmarked, imp_iff_not_or] using runs
  rw [execInvalQuiesce, State.serving_of_not_withdrawn stays, hw]
  dsimp only
  rw [hx, req, desc]
  dsimp only
  rw [if_neg (Mover.quiesces named unwritten idle), if_neg both, State.headerFails_of_ok ok, if_neg Bool.noConfusion, hagain, hy, walked]

end
end
end
end

/-- Settles O34: each event of a mover past its checks, a walk by what both sides give, and quiescence by whether there are runs. -/
theorem moverProgress : Obligations.MoverProgress := by
  intro now m s q d w x stays req desc
  refine ⟨fun translates idle ok => ⟨fun laid quiet => ?laid,
      fun walks => ⟨fun io l p walked => ?runs, fun io f walked room => ?fault, fun io walked => ?waits⟩⟩,
    fun turn room => execStagingGrant_turn rfl stays rfl desc turn room rfl,
    fun pos n rest v bad first unwritten quiet walked idle ok run performed fine =>
      execSegmentDone_performed rfl stays rfl req desc first unwritten quiet walked idle ok run performed fine rfl,
    fun moves emptied whole idle performed fine =>
      execDescriptorDone_moved rfl stays rfl req desc moves emptied whole idle rfl performed fine rfl,
    fun k p parked waits due => execFaultSlotCheck_due rfl stays parked waits due,
    fun f fault stalled room => execParkedSlotFree_stalled rfl stays rfl fault stalled room,
    fun named unwritten idle => ⟨fun only => execInvalQuiesce_unwalked rfl stays rfl req desc named unwritten idle only,
      fun unmarked runs ok io d' l p walked =>
        execInvalQuiesce_rewalked rfl stays rfl req desc named unwritten idle unmarked runs ok rfl rfl walked⟩⟩
  case laid => exact execWalk_laid rfl stays rfl req desc translates idle ok laid quiet
  case runs => exact execWalk_walked rfl stays rfl req desc translates idle ok walks walked
  case fault =>
    exact (execWalk_walked rfl stays rfl req desc translates idle ok walks walked).trans (congrArg _ (if_pos room))
  case waits => exact execWalk_walked rfl stays rfl req desc translates idle ok walks walked

end Sys2Proof.Machine
end

section
/-! Proofs about the grid's instructions that reach the store (09: R284 to R288; 08: R253): which request each sends, and what it waits
for. -/
namespace Sys2Proof.Machine

/-! ### Checks that pass -/

/-- An instruction none of whose checks fails goes on (R309). -/
theorem State.guarded_passed (s : State) (t : Thread) {checks : List (Bool × Byte)} (go : State)
    (passed : ∀ c ∈ checks, c.1 = false) : s.guarded t checks go = go := by
  have none_fails : (checks.find? fun c => c.1) = none :=
    List.find?_eq_none.mpr fun c at_ => ne_true_of_eq_false (passed c at_)
  rw [State.guarded, none_fails]

/-- A memory instruction of a core that holds fewer than 256 requests sends its own (R253). -/
theorem State.memory_passed {s : State} {t : Thread} {checks : List (Bool × Byte)} (room : s.outstanding t.core < 256) (go : State)
    (passed : ∀ c ∈ checks, c.1 = false) : s.memory t checks go = go := by
  have notFull : s.coreFull t.core = false := decide_eq_false (Nat.not_le.mpr room)
  rw [State.memory, State.guarded_passed s t _ passed, notFull, if_neg Bool.false_ne_true]

theorem offsetBad_natCast {z : Nat} (fits : z < 2 ^ 48) : offsetBad z = false := by
  simp only [offsetBad, Bool.not_eq_false', Bool.and_eq_true, decide_eq_true_eq]
  omega

theorem lengthBad_of_le {n : Nat} (least : 1 ≤ n) (most : n ≤ 4096) : lengthBad n = false := by
  simp [lengthBad, least, most]

/-- An access that ends within the program's window is in it (R280). -/
theorem State.outOfWindow_natCast {s : State} {t : Thread} {a n : Nat} (inside : a + n ≤ (s.programOf t).scratchBytes) :
    s.outOfWindow t a n = false := by
  simp only [State.outOfWindow, Program.inWindow, Bool.not_eq_false', Bool.and_eq_true, decide_eq_true_eq]
  omega

theorem scratchAddr_zero (base : W64) : scratchAddr base 0 = (base.toNat : Int) := Int.add_zero _

theorem storeOffset_zero (so : W64) : storeOffset so 0 = (so.toNat : Int) := Int.add_zero _

/-! ### Opcodes and operands (R282, R285) -/

theorem loadOpcode_eq (var : BitVec 2) : loadOpcode var = if var = 0 then 0x01 else if var = 1 then 0x03 else 0x02 := by
  revert var; decide

theorem atomicA_eq (fn : BitVec 4) (c : Ctx) (sd sb : BitVec 3) :
    atomicA fn c sd sb = (if fn = 1 then c.reg sd else c.reg sb).toNat := by
  rw [atomicA]
  split <;> rfl

theorem atomicPoison_clean {fn : BitVec 4} {c : Ctx} {sd sb : BitVec 3} (clean : c.regPoison sb = false)
    (compared : fn = 1 → c.regPoison sd = false) : atomicPoison fn c sd sb = false := by
  rw [atomicPoison, clean, Bool.false_or, Bool.and_eq_false_imp]
  exact fun swaps => compared (of_decide_eq_true swaps)

/-! ### The instructions -/

section
variable {i : Issue} {s u : State} {c : Ctx} (hu : s.advanceTo i.now = u) (hc : u.ctx i.thread = c)
  (room : u.outstanding i.thread.core < 256)
include hu hc room

section
variable {f : FmtRM} {z : Nat} (hz : (z : Int) = (c.reg f.so).toNat + f.imm.toInt) (fits : z < 2 ^ 48)
  (sh : c.regPoison f.sh = false) (so : c.regPoison f.so = false)
include hz fits sh so

theorem execLd_sends (issues : Issues i (.ld i f) s) :
    execLd i f s = .next (u.issueLoad i.thread { thread := i.thread, opcode := loadOpcode f.var, rh := handleOf (c.reg f.sh)
                                                 offset := z, len := sizeBytes f.size } (.load f.sd (sizeBytes f.size))) := by
  subst hu hc
  rw [execLd, gridStep_issues issues]
  dsimp only
  rw [storeOffset, ← hz, State.memory_passed room _ (by simp [sh, so, offsetBad_natCast fits]), Int.toNat_natCast]

theorem execSt_sends (sd : c.regPoison f.sd = false) (issues : Issues i (.st i f) s) :
    execSt i f s = .next (u.issueStore i.thread { thread := i.thread, isWrite := true, opcode := storeOpcode f.var.toNat
                                                  rh := handleOf (c.reg f.sh), offset := z, len := sizeBytes f.size
                                                  data := leBytes (sizeBytes f.size) (c.reg f.sd).toNat }) := by
  subst hu hc
  rw [execSt, gridStep_issues issues]
  dsimp only
  rw [storeOffset, ← hz, State.memory_passed room _ (by simp [sh, so, sd, offsetBad_natCast fits]), Int.toNat_natCast]

end

theorem execAmo_sends {f : FmtAM} (fits : (c.reg f.so).toNat < 2 ^ 48) (sh : c.regPoison f.sh = false) (so : c.regPoison f.so = false)
    (listed : f.fn.toNat ≤ 9) (aligned : (c.reg f.so).toNat % wideBytes f.size = 0) (sb : c.regPoison f.sb = false)
    (compared : f.fn = 1 → c.regPoison f.sd = false) (issues : Issues i (.amo i f) s) :
    execAmo i f s = .next (u.issueLoad i.thread
      { thread := i.thread, opcode := 0x07, rh := handleOf (c.reg f.sh), offset := (c.reg f.so).toNat, len := wideBytes f.size
        sub := BitVec.ofNat 8 f.fn.toNat, opA := atomicA f.fn c f.sd f.sb % 2 ^ (8 * wideBytes f.size)
        opB := (c.reg f.sb).toNat % 2 ^ (8 * wideBytes f.size) } (.amo f.sd (wideBytes f.size))) := by
  subst hu hc
  have aligned' : ((((s.advanceTo i.now).ctx i.thread).reg f.so).toNat : Int) % (wideBytes f.size : Nat) = 0 := by omega
  rw [execAmo, gridStep_issues issues]
  dsimp only
  rw [storeOffset_zero, State.memory_passed room _
    (by simp [sh, so, offsetBad_natCast fits, aligned', atomicPoison_clean sb compared, listed]), Int.toNat_natCast]

section
variable {f : FmtRV} {z : Nat} (hz : (z : Int) = (c.reg f.so).toNat + f.imm.toInt) (fits : z < 2 ^ 48)
  (sh : c.regPoison f.sh = false) (so : c.regPoison f.so = false) (slot : c.slot.isSome = true)
include hz fits sh so slot

theorem execVld_sends (issues : Issues i (.vld i f) s) :
    execVld i f s = .next (u.issueLoad i.thread { thread := i.thread, opcode := loadOpcode f.var, rh := handleOf (c.reg f.sh)
                                                  offset := z, len := 64 } (.vload f.vd)) := by
  subst hu hc
  rw [execVld, gridStep_issues issues]
  dsimp only
  rw [storeOffset, ← hz, State.memory_passed room _ (by simp [sh, so, slot, offsetBad_natCast fits]), Int.toNat_natCast]

theorem execVst_sends (vd : (u.slotOf i.thread).vecPoison f.vd.toNat = false) (issues : Issues i (.vst i f) s) :
    execVst i f s = .next (u.issueStore i.thread { thread := i.thread, isWrite := true, opcode := storeOpcode f.var.toNat
                                                   rh := handleOf (c.reg f.sh), offset := z, len := 64
                                                   data := leBytes 64 ((u.slotOf i.thread).vec f.vd.toNat).toNat }) := by
  subst hu hc
  rw [execVst, gridStep_issues issues]
  dsimp only
  rw [storeOffset, ← hz, State.memory_passed room _ (by simp [sh, so, slot, vd, offsetBad_natCast fits]), Int.toNat_natCast]

end

section
variable {f : FmtBT} {z a n : Nat} (hz : z = (c.reg f.so).toNat) (fits : z < 2 ^ 48) (ha : a = (c.reg f.sa).toNat)
  (hn : n = (c.reg f.sl).toNat) (least : 1 ≤ n) (most : n ≤ 4096) (inside : a + n ≤ (u.programOf i.thread).scratchBytes)
  (clean : blockPoison c f = false)
include hz fits ha hn least most inside clean

theorem execBget_sends (issues : Issues i (.bget i f) s) :
    execBget i f s = .next (u.issueLoad i.thread { thread := i.thread, opcode := 0x01, rh := handleOf (c.reg f.sh)
                                                   offset := z, len := n } (.block (u.absAddr i.thread a) n z)) := by
  subst hu hc
  rw [execBget, gridStep_issues issues]
  dsimp only
  rw [storeOffset_zero, scratchAddr_zero, ← hz, ← ha, ← hn, State.memory_passed room _ (by simp [clean, lengthBad_of_le least most, offsetBad_natCast fits,
    State.outOfWindow_natCast inside]), Int.toNat_natCast]

theorem execBput_sends (source : u.scratchPoisoned i.thread a n = false) (issues : Issues i (.bput i f) s) :
    execBput i f s = .next (u.issueStore i.thread { thread := i.thread, isWrite := true, opcode := storeOpcode f.var.toNat
                                                    rh := handleOf (c.reg f.sh), offset := z, len := n
                                                    data := u.scratchBytesAt i.thread a n }) := by
  subst hu hc
  rw [execBput, gridStep_issues issues]
  dsimp only
  rw [storeOffset_zero, scratchAddr_zero, ← hz, ← ha, ← hn, State.memory_passed room _ (by simp [clean, lengthBad_of_le least most, offsetBad_natCast fits,
    State.outOfWindow_natCast inside, source]), Int.toNat_natCast]

end
end

theorem State.scratchPoisoned_of_clean {s : State} {t : Thread} {a n : Nat}
    (clean : ((s.core t.core).readPoison ((s.programOf t).scratch0 + a) n).all (fun p => !p) = true) :
    s.scratchPoisoned t a n = false := by
  rw [State.scratchPoisoned, State.absAddr, Int.toNat_natCast, ← Bool.not_eq_true', List.not_any_eq_all_not]
  exact clean

/-- Settles O10: each instruction past its checks sends the request that its operands name. -/
theorem gridStoreRequests : Obligations.GridStoreRequests := by
  intro i f v g b s u t c op wr room
  refine ⟨fun z hz fits sh so => ⟨fun issues => ?ld, fun sd issues => execSt_sends rfl rfl room hz fits sh so sd issues⟩,
    ?amo,
    fun z hz fits sh so slot => ⟨fun issues => ?vld, fun vd issues => execVst_sends rfl rfl room hz fits sh so slot vd issues⟩,
    fun z a n hz fits ha hn least most inside sl sh so sa => ?block⟩
  case ld => exact (execLd_sends rfl rfl room hz fits sh so issues).trans (by rw [loadOpcode_eq]; rfl)
  case vld => exact (execVld_sends rfl rfl room hz fits sh so slot issues).trans (by rw [loadOpcode_eq]; rfl)
  case amo =>
    rintro z rfl fits sh so listed n x aligned sb compared issues
    exact (execAmo_sends rfl rfl room fits sh so listed aligned sb compared issues).trans (by rw [atomicA_eq]; rfl)
  case block =>
    have clean : blockPoison c b = false := by simp [blockPoison, sl, sh, so, sa]
    exact ⟨execBget_sends rfl rfl room hz fits ha hn least most inside clean, fun source =>
      execBput_sends rfl rfl room hz fits ha hn least most inside clean (State.scratchPoisoned_of_clean source)⟩

end Sys2Proof.Machine
end

section
/-! Proofs about SEND and RECV (09: R292 to R294; 08: R259 to R261). -/
namespace Sys2Proof.Machine

section
variable {i : Issue} {s u : State} {c : Ctx} (hu : s.advanceTo i.now = u) (hc : u.ctx i.thread = c)
include hu hc

section
variable {f : FmtSend} {a target queue n : Nat} (ha : a = (c.reg f.sa).toNat)
  (htarget : target = 32 * ((c.reg f.sb).toNat / 256 % 32) + (c.reg f.sb).toNat % 32) (hqueue : queue = (c.reg f.sb).toNat / 65536 % 16)
  (hn : n = 8 * (f.len.toNat + 1)) (aligned : a % 8 = 0) (inside : a + n ≤ (u.programOf i.thread).scratchBytes)
  (sa : c.regPoison f.sa = false) (sb : c.regPoison f.sb = false) (issues : Issues i (.send i f) s)
include ha htarget hqueue hn aligned inside sa sb issues

/-- A SEND whose operands pass posts its message, is told that the queue is full, or waits for it. -/
theorem execSend_passed :
    execSend i f s = .next
      (if u.queueFull (u.threadCluster i.thread).cid target queue = false then
         (u.postMessage i.thread (u.threadCluster i.thread).cid target queue (u.messageAt i.thread a n)).writeReg i.thread f.sd 0 false
       else if f.blk = 0 then u.writeReg i.thread f.sd 1 false
       else (u.setCore target { u.core target with
          sendWait := (u.core target).sendWait ++ [{ thread := i.thread, queue := queue, msg := u.messageAt i.thread a n }] }).await
            i.thread .waitMsg (.send target f.sd)) := by
  subst hu hc
  have aligned' : (a : Int) % 8 = 0 := by omega
  have target' : 32 * bitsOf (((s.advanceTo i.now).ctx i.thread).reg f.sb).toNat 8 5 +
      bitsOf (((s.advanceTo i.now).ctx i.thread).reg f.sb).toNat 0 5 = target := by
    rw [htarget, bitsOf, bitsOf, pow_zero, Nat.div_one]
    rfl
  have queue' : bitsOf (((s.advanceTo i.now).ctx i.thread).reg f.sb).toNat 16 4 = queue := hqueue.symm
  rw [execSend, gridStep_issues issues]
  dsimp only
  rw [scratchAddr_zero, ← ha, target', queue', Nat.mul_comm, ← hn,
    State.guarded_passed _ _ _ (by simp [sa, sb, aligned', State.outOfWindow_natCast inside])]
  simp only [Bool.not_eq_true']

end

section
variable {f : FmtRecv} {a : Nat} (ha : a = (c.reg f.sa).toNat) (inside : a + 64 ≤ (u.programOf i.thread).scratchBytes)
  (sa : c.regPoison f.sa = false) (least : (u.programOf i.thread).queue0 ≤ f.queue.toNat)
  (most : f.queue.toNat < (u.programOf i.thread).queue0 + (u.programOf i.thread).queues) (issues : Issues i (.recv i f) s)
include ha inside sa least most issues

theorem execRecv_message {m : Message} {rest : List Message} (first : (u.core i.thread.core).queues.get [] f.queue.toNat = m :: rest) :
    execRecv i f s = .next
      (((u.setCore i.thread.core { u.core i.thread.core with
        queues := (u.core i.thread.core).queues.set [] f.queue.toNat rest }).receiveInto i.thread (u.absAddr i.thread a) f.sd m).wakeSenders
          i.thread.core f.queue.toNat 1) := by
  subst hu hc
  rw [execRecv, gridStep_issues issues]
  dsimp only
  rw [scratchAddr_zero, ← ha, first, State.guarded_passed _ _ _ (by simp [sa, least, most, State.outOfWindow_natCast inside])]

theorem execRecv_empty (empty : (u.core i.thread.core).queues.get [] f.queue.toNat = []) :
    execRecv i f s = .next
      (if f.blk = 0 then u.writeReg i.thread f.sd 0 false
       else (u.setCore i.thread.core { u.core i.thread.core with
          recvWait := (u.core i.thread.core).recvWait ++ [(i.thread.ctx, f.queue.toNat)] }).await i.thread .waitMsg
            (.recv f.queue.toNat (u.absAddr i.thread a) f.sd)) := by
  subst hu hc
  rw [execRecv, gridStep_issues issues]
  dsimp only
  rw [scratchAddr_zero, ← ha, empty, State.guarded_passed _ _ _ (by simp [sa, least, most, State.outOfWindow_natCast inside])]

end
end

/-- Settles O11: a SEND by whether the queue is full, a RECV by what is first in its queue. -/
theorem gridMessages : Obligations.GridMessages := by
  intro i f g s u t c p cid
  refine ⟨fun a target queue ha aligned htarget hqueue inside sa sb issues =>
      execSend_passed rfl rfl ha htarget hqueue rfl aligned inside sa sb issues,
    fun a ha inside sa least most issues => ⟨fun m rest first => ?_, fun empty => ?_⟩⟩
  · exact execRecv_message rfl rfl ha inside sa least most issues first
  · exact execRecv_empty rfl rfl ha inside sa least most issues empty

end Sys2Proof.Machine
end

section
/-! Proofs about the exact-sum instructions (09: R306 to R308). -/
namespace Sys2Proof.Machine

section
variable {i : Issue} {f : FmtX} {s u : State} (hu : s.advanceTo i.now = u) (slot : (u.ctx i.thread).slot.isSome = true)
  (allotted : f.e.toNat < (u.programOf i.thread).accs)

section
include slot allotted

/-- With a permitted type, a slot and an accumulator of the program none of the shared checks fails (R295, R306). -/
theorem State.accChecks_pass {ok : Bool} (permitted : ok = true) : ∀ c ∈ u.accChecks i.thread ok f.e, c.1 = false := by
  simp [State.accChecks, permitted, slot, allotted]

/-- Nor of those of the scratch area of XEXP and XIMP. -/
theorem State.limbChecks_pass {a : Nat} (ha : a = ((u.ctx i.thread).reg f.sx).toNat) (aligned : a % 64 = 0)
    (inside : a + 128 ≤ (u.programOf i.thread).scratchBytes) (sx : (u.ctx i.thread).regPoison f.sx = false) :
    ∀ c ∈ u.accChecks i.thread true f.e ++ u.limbChecks i.thread f, c.1 = false := by
  have aligned' : (a : Int) % 64 = 0 := by omega
  rw [List.forall_mem_append]
  refine ⟨State.accChecks_pass slot allotted rfl, ?_⟩
  simp [State.limbChecks, scratchAddr_zero, ← ha, sx, aligned', State.outOfWindow_natCast inside]

end

include hu slot allotted

theorem execXclr_passed (issues : Issues i (.xclr i f) s) : execXclr i f s = .next (u.writeAcc i.thread f.e {}) := by
  subst hu
  rw [execXclr, gridStep_issues issues, State.guarded_passed _ _ _ (State.accChecks_pass slot allotted rfl)]

theorem execXadd_passed (permitted : tyIs f.ty floatTypes = true) (issues : Issues i (.xadd i f) s) :
    execXadd i f s = .next (u.writeAcc i.thread f.e
      (if xPoison (u.slotOf i.thread) f false then { u.acc i.thread f.e with poison := true }
       else (u.acc i.thread f.e).addAll ((governed (tyOr f.ty) ((u.slotOf i.thread).mask f.msk.toNat)).map fun j =>
         elemNum (tyOr f.ty) ((u.slotOf i.thread).vec f.va.toNat) j))) := by
  subst hu
  rw [execXadd, gridStep_issues issues]
  dsimp only
  rw [State.guarded_passed _ _ _ (State.accChecks_pass slot allotted permitted)]

theorem execXdot_passed (permitted : tyIs f.ty xdotTypes = true) (issues : Issues i (.xdot i f) s) :
    execXdot i f s = .next (u.writeAcc i.thread f.e
      (if xPoison (u.slotOf i.thread) f true then
         notePoisoned (u.slotOf i.thread) f (xPairs (tyOr f.ty) (u.slotOf i.thread) f) (u.acc i.thread f.e)
       else (xPairs (tyOr f.ty) (u.slotOf i.thread) f).foldl (fun a p => a.addProduct 0 p.2) (u.acc i.thread f.e))) := by
  subst hu
  rw [execXdot, gridStep_issues issues]
  dsimp only
  rw [State.guarded_passed _ _ _ (State.accChecks_pass slot allotted permitted)]

theorem execXdotmx_passed (permitted : tyIs f.ty mxTypes = true) (sx : (u.ctx i.thread).regPoison f.sx = false)
    (issues : Issues i (.xdotmx i f) s) {w : W64} (hw : (u.ctx i.thread).reg f.sx = w) {pairs : List (Nat × Num × Num)}
    (hpairs : xPairs (tyOr f.ty) (u.slotOf i.thread) f = pairs) :
    execXdotmx i f s = .next (u.writeAcc i.thread f.e
      (if xPoison (u.slotOf i.thread) f true then
         notePoisoned (u.slotOf i.thread) f pairs
           (if (u.slotOf i.thread).maskPoison f.msk.toNat = false ∧ pairs.any (badScale w) = true then
             { u.acc i.thread f.e with nan := true } else u.acc i.thread f.e)
       else pairs.foldl (addScaled w) (u.acc i.thread f.e))) := by
  subst hu hw hpairs
  have passed : ∀ c ∈ (s.advanceTo i.now).accChecks i.thread (tyIs f.ty mxTypes) f.e ++
      [(((s.advanceTo i.now).ctx i.thread).regPoison f.sx, gcPoisonUse)], c.1 = false :=
    List.forall_mem_append.mpr ⟨State.accChecks_pass slot allotted permitted, List.forall_mem_singleton.mpr sx⟩
  rw [execXdotmx, gridStep_issues issues]
  dsimp only
  rw [State.guarded_passed _ _ _ passed]
  simp only [Bool.and_eq_true, Bool.not_eq_true']

theorem execXread_passed (permitted : tyIs f.ty floatTypes = true) (issues : Issues i (.xread i f) s) :
    execXread i f s = .next
      (if (u.acc i.thread f.e).poison then u.writeReg i.thread f.sx 0 true
       else u.writeReg i.thread f.sx
         (BitVec.ofNat 64 ((u.acc i.thread f.e).rounded (tyOr f.ty) (roundOf (f.vb.toNat % 4)))) false) := by
  subst hu
  have mode : bitsOf f.vb.toNat 0 2 = f.vb.toNat % 4 := by rw [bitsOf, pow_zero, Nat.div_one]; rfl
  rw [execXread, gridStep_issues issues]
  dsimp only
  rw [State.guarded_passed _ _ _ (State.accChecks_pass slot allotted permitted), mode]

theorem execXflag_passed (issues : Issues i (.xflag i f) s) :
    execXflag i f s = .next (u.writeReg i.thread f.sx (BitVec.ofNat 64 (flagBits (u.acc i.thread f.e))) false) := by
  subst hu
  rw [execXflag, gridStep_issues issues, State.guarded_passed _ _ _ (State.accChecks_pass slot allotted rfl)]

section
variable {a : Nat} (ha : a = ((u.ctx i.thread).reg f.sx).toNat) (aligned : a % 64 = 0)
  (inside : a + 128 ≤ (u.programOf i.thread).scratchBytes) (sx : (u.ctx i.thread).regPoison f.sx = false)
include ha aligned inside sx

theorem execXexp_passed {v : State} (hv : u.putScratch i.thread a (u.acc i.thread f.e).limbs false = v)
    (issues : Issues i (.xexp i f) s) : execXexp i f s = .next (v.retire i.thread (v.ctx i.thread)) := by
  subst hu
  rw [execXexp, gridStep_issues issues]
  dsimp only
  rw [State.guarded_passed _ _ _ (State.limbChecks_pass slot allotted ha aligned inside sx), scratchAddr_zero, ← ha, hv]

theorem execXimp_passed {x : AccReg} (hx : (u.acc i.thread f.e).importLimbs (u.scratchBytesAt i.thread a 128) = x)
    (issues : Issues i (.ximp i f) s) :
    execXimp i f s = .next (u.writeAcc i.thread f.e
      (if u.scratchPoisoned i.thread a 128 then { x with value := (u.acc i.thread f.e).value, poison := true } else x)) := by
  subst hu
  rw [execXimp, gridStep_issues issues]
  dsimp only
  rw [State.guarded_passed _ _ _ (State.limbChecks_pass slot allotted ha aligned inside sx), scratchAddr_zero, ← ha, hx]

end
end

theorem xPoison_one (x : Slot) (f : FmtX) : xPoison x f false = (x.vecPoison f.va.toNat || x.maskPoison f.msk.toNat) := by
  rw [xPoison, Bool.false_and, Bool.or_false]

theorem xPoison_two (x : Slot) (f : FmtX) :
    xPoison x f true = (x.vecPoison f.va.toNat || x.vecPoison f.vb.toNat || x.maskPoison f.msk.toNat) := by
  rw [xPoison, Bool.true_and]

/-- Settles O15: each instruction past its checks writes what it computes. -/
theorem gridExactSums : Obligations.GridExactSums := by
  intro i f s u t c x ty acc m live pairs one two lost slot allotted
  refine ⟨execXclr_passed rfl slot allotted, fun permitted issues => ?add, fun permitted issues => ?dot,
    fun permitted sx issues => ?mx, execXread_passed rfl slot allotted, execXflag_passed rfl slot allotted,
    fun a ha aligned inside sx => ⟨?exp, ?imp⟩⟩
  case add => exact (execXadd_passed rfl slot allotted permitted issues).trans (by rw [xPoison_one]; rfl)
  case dot => exact (execXdot_passed rfl slot allotted permitted issues).trans (by rw [xPoison_two]; rfl)
  case mx => exact (execXdotmx_passed rfl slot allotted permitted sx issues rfl rfl).trans (by rw [xPoison_two]; rfl)
  case exp => exact execXexp_passed rfl slot allotted ha aligned inside sx rfl
  case imp => exact execXimp_passed rfl slot allotted ha aligned inside sx rfl

end Sys2Proof.Machine
end

section
/-! Proofs about what reaches grid threads: responses, completions of stores, and messages (08: R259 to R261; 09: R286, R289 to R291). -/
namespace Sys2Proof.Machine

/-! ### What answers a request -/

/-- The frame of another device that answers a request of the core is handed on with its status. -/
theorem State.gridAnswer_frame {s : State} {h : Hdr} {q : Issued} {r : GridReq} (taken : AnswerTaken h q s)
    (asked : q.req = .thread r.id) (k : Byte → State → State) : s.gridAnswer r (some h) k = k h.status (s.afterLink h) := by
  rw [State.gridAnswer, answerTo_taken taken, if_pos asked]

/-- The home slice of this device answers a local request. -/
theorem State.gridAnswer_home {s : State} {r : GridReq} (stays : s.withdrawn = false) (here : r.local_ = true)
    (k : Byte → State → State) : s.gridAnswer r none k = k stOk s := by
  rw [State.gridAnswer, if_pos here, State.serving_of_not_withdrawn stays]

section
variable {now id : Nat} {s : State} {r : GridReq} (req : s.gridReq id = some r) (sent : r.heldStore = false)
include req sent

/-! ### Loads, atomics and block transfers (R289) -/

section
variable (reads : r.isWrite = false)
include reads

theorem execGridResponse_frame {h : Hdr} {q : Issued} (away : r.local_ = false) (taken : AnswerTaken h q (s.advanceTo h.now))
    (asked : q.req = .thread r.id) (data : List Byte) (mask : W64) :
    execGridResponse now id (some h) data mask s = .next (((s.advanceTo h.now).afterLink h).loadAnswered r h.status data mask) := by
  have goes : ¬ (r.isWrite || r.heldStore) = true := by simp [reads, sent]
  rw [execGridResponse, req]
  dsimp only
  rw [if_neg goes, answeredAt, State.gridAnswer_frame taken asked, away]

theorem execGridResponse_home {st : Byte} {data : List Byte} {mask : W64} (stays : s.withdrawn = false) (here : r.local_ = true)
    (answer : r.answer = some (st, data, mask)) (data' : List Byte) (mask' : W64) :
    execGridResponse now id none data' mask' s = .next ((s.advanceTo now).loadAnswered r st data mask) := by
  have goes : ¬ (r.isWrite || r.heldStore) = true := by simp [reads, sent]
  rw [execGridResponse, req]
  dsimp only
  rw [if_neg goes, answeredAt, State.gridAnswer_home (by rw [State.advanceTo_withdrawn, stays]) here, here, answer]

end

/-! ### Stores (R290) -/

section
variable (writes : r.isWrite = true)
include writes

theorem execStoreCompletion_frame {h : Hdr} {q : Issued} (away : r.local_ = false) (taken : AnswerTaken h q (s.advanceTo h.now))
    (asked : q.req = .thread r.id) :
    execStoreCompletion now id (some h) s = .next (((s.advanceTo h.now).afterLink h).storeAnswered r h.status) := by
  have goes : ¬ (!r.isWrite || r.heldStore) = true := by simp [writes, sent]
  rw [execStoreCompletion, req]
  dsimp only
  rw [if_neg goes, answeredAt, State.gridAnswer_frame taken asked, away]

theorem execStoreCompletion_home {st : Byte} {data : List Byte} {mask : W64} (stays : s.withdrawn = false) (here : r.local_ = true)
    (answer : r.answer = some (st, data, mask)) :
    execStoreCompletion now id none s = .next ((s.advanceTo now).storeAnswered r st) := by
  have goes : ¬ (!r.isWrite || r.heldStore) = true := by simp [writes, sent]
  rw [execStoreCompletion, req]
  dsimp only
  rw [if_neg goes, answeredAt, State.gridAnswer_home (by rw [State.advanceTo_withdrawn, stays]) here, here, answer]

end
end

/-! ### Messages (R259, R261) -/

/-- The first message of its sender and queue arrives: it is delivered to a queue allotted in its composition, and else discarded. -/
theorem execMailboxDelivery_first {now idx : Nat} {s u : State} {m : InTransit} (stays : s.withdrawn = false)
    (there : s.grid.transit[idx]? = some m)
    (first : ∀ k < idx, ∀ x, s.grid.transit[k]? = some x → ¬ (x.fromCore = m.fromCore ∧ x.target = m.target ∧ x.queue = m.queue))
    (hu : (s.advanceTo now).setTransit (s.grid.transit.eraseIdx idx) = u) :
    execMailboxDelivery now idx s = .next
      (if u.coreAssigned m.target m.fromCid && u.queueAllotted m.target m.queue then u.deliverMessage m.target m.queue m.msg
       else (u.countDiscard m).wakeSenders m.target m.queue 1) := by
  have unheld : ¬ ((s.grid.transit.take idx).any fun x => decide (x.fromCore = m.fromCore) && decide (x.target = m.target) &&
      decide (x.queue = m.queue)) = true := by
    rw [List.any_eq_true]
    rintro ⟨x, before, same⟩
    obtain ⟨k, earlier, at_⟩ := List.getElem_of_mem before
    rw [List.length_take] at earlier
    refine first k (by omega) x ?_ (by simpa [and_assoc] using same)
    rw [← at_, List.getElem_take]
    exact List.getElem?_eq_getElem _
  rw [execMailboxDelivery, State.serving_of_not_withdrawn stays]
  dsimp only
  rw [State.advanceTo_grid, there]
  dsimp only
  rw [if_neg unheld, hu]

/-- Settles O17: a response by who gives it and what it answers, a message by whether anything goes before it. -/
theorem gridResponsesComplete : Obligations.GridResponsesComplete := by
  refine ⟨fun now id h data mask s r q req sent away taken asked => ⟨fun reads => ?_, fun writes => ?_⟩,
    fun now id st' data data' mask mask' s r stays req sent here answer => ⟨fun reads => ?_, fun writes => ?_⟩,
    fun now idx s m stays there first => execMailboxDelivery_first stays there first rfl⟩
  · exact execGridResponse_frame req sent reads away taken asked data mask
  · exact execStoreCompletion_frame req sent writes away taken asked
  · exact execGridResponse_home req sent reads stays here answer data mask
  · exact execStoreCompletion_home req sent writes stays here answer

end Sys2Proof.Machine
end

section
/-! Proofs about a fault of a grid thread (08: R249; 09: R309, R312): what each part of it leaves of the cores and their threads. -/
namespace Sys2Proof.Machine

/-! ### Cores and threads read back -/

section
variable {s : State} (cores : Tab.wf {} s.grid.cores = true)
include cores

theorem State.core_setCore (k j : Nat) (c : Core) : (s.setCore k c).core j = if j = k then c else s.core j :=
  Tab.get_set _ _ _ _ _ cores

theorem State.core_setCore_same (k : Nat) (c : Core) : (s.setCore k c).core k = c :=
  (State.core_setCore cores k k c).trans (if_pos rfl)

theorem State.cores_wf_setCore (k : Nat) (c : Core) : Tab.wf {} (s.setCore k c).grid.cores = true :=
  Tab.wf_set {} s.grid.cores k c cores

/-- An update of a core that keeps its threads changes no context. -/
theorem State.ctx_setCore {k : Nat} {c : Core} (same : c.threads = (s.core k).threads) (r : Thread) :
    (s.setCore k c).ctx r = s.ctx r := by
  rw [State.ctx, State.core_setCore cores, State.ctx]
  split
  · next here => rw [same, here]
  · rfl

theorem State.ctx_setCtx {t : Thread} (threads : Tab.wf {} (s.core t.core).threads = true) (x : Ctx) (r : Thread) :
    (s.setCtx t x).ctx r = if r = t then x else s.ctx r := by
  obtain ⟨k, n⟩ := t
  obtain ⟨j, m⟩ := r
  rw [State.setCtx, State.ctx, State.core_setCore cores]
  by_cases core : j = k
  · subst core
    rw [if_pos rfl, Core.setCtx, Tab.get_set _ _ _ _ _ threads]
    simp [State.ctx]
  · simp [core, State.ctx]

/-! ### The parts of a fault -/

theorem State.latchFault_ctx (t r : Thread) (cause st : Byte) : (s.latchFault t cause st).ctx r = s.ctx r :=
  State.ctx_setCore cores (by rfl) r

theorem State.latchFault_threads (t : Thread) (cause st : Byte) :
    ((s.latchFault t cause st).core t.core).threads = (s.core t.core).threads := by
  rw [State.latchFault, State.core_setCore_same cores]

/-- The latch holds the first fault of a program; a later one sets its lost bit (R312). -/
theorem State.latchFault_entry (t : Thread) (cause st : Byte) (latches : Tab.wf 0 (s.core t.core).latches = true) :
    ((s.latchFault t cause st).core t.core).latches.get 0 (s.ctx t).program =
      if ((s.core t.core).latches.get 0 (s.ctx t).program).getLsbD 63 then
        (s.core t.core).latches.get 0 (s.ctx t).program ||| (1 <<< 62)
      else latchWord cause st (s.ctx t).program (t.ctx - (s.programOf t).ctx0) (s.ctx t).pc false := by
  rw [State.latchFault, State.core_setCore_same cores]
  exact (Tab.get_set _ _ _ _ _ latches).trans (if_pos rfl)

/-- A thread that waits for nothing stands at most on the wait lists of its own core. -/
theorem State.leaveQueues_shape {t : Thread} (idle : (s.ctx t).wait = .none) :
    ∃ c : Core, s.leaveQueues t = s.setCore t.core c ∧ c.threads = (s.core t.core).threads ∧ c.latches = (s.core t.core).latches := by
  refine ⟨{ s.core t.core with
    recvWait := (s.core t.core).recvWait.filter fun w => decide (w.1 ≠ t.ctx)
    slotWait := (s.core t.core).slotWait.filter fun w => decide (w.1 ≠ t.ctx) }, ?_, rfl, rfl⟩
  rw [State.leaveQueues]
  dsimp only
  rw [State.ctx_setCore cores (by rfl) t, idle]

end

theorem State.orphanRequests_ctx (s : State) (t r : Thread) : (s.orphanRequests t).ctx r = s.ctx r := rfl

/-- A context as a fault or a halt leaves it (R249, R309). -/
def Ctx.haltedBy (c : Ctx) (cause : Byte) : Ctx := { c with state := .halted, cause := cause, slot := none, wait := .none }

/-- What the halt of a READY thread without a slot does to its core. -/
theorem State.haltThread_shape {s : State} {t : Thread} (cores : Tab.wf {} s.grid.cores = true) (ready : (s.ctx t).state = .ready)
    (unslotted : (s.ctx t).slot = none) (idle : (s.ctx t).wait = .none) (cause : Byte) :
    ∃ c : Core, s.haltThread t cause = ((s.setCore t.core c).orphanRequests t).setCtx t ((s.ctx t).haltedBy cause) ∧
      c.threads = (s.core t.core).threads ∧ c.latches = (s.core t.core).latches := by
  obtain ⟨c, left, threads, latches⟩ := State.leaveQueues_shape cores idle
  refine ⟨c, ?_, threads, latches⟩
  have runs : ¬ ((s.ctx t).state = .free ∨ (s.ctx t).state = .halted) := by simp [ready]
  rw [State.haltThread, if_neg runs, left]
  dsimp only
  rw [State.orphanRequests_ctx, State.ctx_setCore cores threads, unslotted]
  rfl

section
variable {s : State} {t : Thread} (cores : Tab.wf {} s.grid.cores = true) (ready : (s.ctx t).state = .ready)
  (unslotted : (s.ctx t).slot = none) (idle : (s.ctx t).wait = .none)
include cores ready unslotted idle

theorem State.haltThread_ctx (threads : Tab.wf {} (s.core t.core).threads = true) (cause : Byte) (r : Thread) :
    (s.haltThread t cause).ctx r = if r = t then (s.ctx t).haltedBy cause else s.ctx r := by
  obtain ⟨c, halted, same, -⟩ := State.haltThread_shape cores ready unslotted idle cause
  have cores' : Tab.wf {} ((s.setCore t.core c).orphanRequests t).grid.cores = true := State.cores_wf_setCore cores _ _
  have core : ((s.setCore t.core c).orphanRequests t).core t.core = c := State.core_setCore_same cores _ _
  rw [halted, State.ctx_setCtx cores' (by rw [core, same, threads]), State.orphanRequests_ctx, State.ctx_setCore cores same]

theorem State.haltThread_latches (cause : Byte) :
    ((s.haltThread t cause).core t.core).latches = (s.core t.core).latches := by
  obtain ⟨c, halted, -, latches⟩ := State.haltThread_shape cores ready unslotted idle cause
  have cores' : Tab.wf {} ((s.setCore t.core c).orphanRequests t).grid.cores = true := State.cores_wf_setCore cores _ _
  have core : ((s.setCore t.core c).orphanRequests t).core t.core = c := State.core_setCore_same cores _ _
  rw [halted, State.setCtx, State.core_setCore_same cores', Core.setCtx, core, latches]

theorem State.haltThread_store (cause : Byte) : (s.haltThread t cause).store = s.store := by
  obtain ⟨c, halted, -⟩ := State.haltThread_shape cores ready unslotted idle cause
  rw [halted]
  rfl

end

/-- A fault is latched and counted, and halts its thread. -/
theorem State.fault_shape (s : State) (t : Thread) (cause st : Byte) :
    ∃ u : State, u.grid = (s.latchFault t cause st).grid ∧ u.store = s.store ∧ s.fault t cause st = u.haltThread t cause := by
  rw [State.fault]
  refine ⟨_, ?_, ?_, rfl⟩
  · split <;> rfl
  · split <;> rfl

/-! ### The word of the latch (R312) -/

theorem latchWord_toNat (cause st : Byte) (program thread index : Nat) :
    (latchWord cause st program thread index false).toNat = cause.toNat + 2 ^ 8 * (st.toNat +
      2 ^ 8 * (program % 4 + 4 * (thread % 2048) + 2 ^ 13 * (index % 8192)) + 2 ^ 55) := by
  have hc := cause.isLt
  have hs := st.isLt
  rw [latchWord, BitVec.toNat_ofNat, if_neg Bool.false_ne_true]
  omega

theorem latchWord_valid (cause st : Byte) (program thread index : Nat) :
    (latchWord cause st program thread index false).getLsbD 63 = true := by
  have hc := cause.isLt
  have hs := st.isLt
  rw [BitVec.getLsbD, latchWord_toNat, Nat.testBit_eq_decide_div_mod_eq]
  simp only [decide_eq_true_eq]
  omega

theorem latchWord_cause (cause st : Byte) (program thread index : Nat) :
    (latchWord cause st program thread index false).extractLsb' 0 8 = cause := by
  have hc := cause.isLt
  apply BitVec.eq_of_toNat_eq
  rw [BitVec.extractLsb'_toNat, latchWord_toNat, Nat.shiftRight_zero]
  omega

theorem latchWord_status (cause st : Byte) (program thread index : Nat) :
    (latchWord cause st program thread index false).extractLsb' 8 8 = st := by
  have hc := cause.isLt
  have hs := st.isLt
  apply BitVec.eq_of_toNat_eq
  rw [BitVec.extractLsb'_toNat, latchWord_toNat, Nat.shiftRight_eq_div_pow]
  omega

/-- Settles O19: the latch is written before the thread halts, and the halt of a thread that holds nothing changes its context alone. -/
theorem gridFaultHaltsThread : Obligations.GridFaultHaltsThread := by
  intro s t cause st cores threads latches ready unslotted idle
  dsimp only
  obtain ⟨u, grid, store, faulted⟩ := s.fault_shape t cause st
  have core (k : Nat) : u.core k = (s.latchFault t cause st).core k := by rw [State.core, grid, State.core]
  have kept (r : Thread) : u.ctx r = s.ctx r := by rw [State.ctx, core, ← State.ctx, State.latchFault_ctx cores]
  have cores' : Tab.wf {} u.grid.cores = true := by rw [grid]; exact State.cores_wf_setCore cores _ _
  have threads' : Tab.wf {} (u.core t.core).threads = true := by rw [core, State.latchFault_threads cores, threads]
  rw [← kept] at ready unslotted idle
  have ctx (r : Thread) : (s.fault t cause st).ctx r = if r = t then (s.ctx t).haltedBy cause else s.ctx r := by
    rw [faulted, State.haltThread_ctx cores' ready unslotted idle threads', kept, kept]
  have entry := State.latchFault_entry cores t cause st latches
  rw [← core, ← State.haltThread_latches cores' ready unslotted idle cause, ← faulted] at entry
  have halted : (s.fault t cause st).ctx t = (s.ctx t).haltedBy cause := (ctx t).trans (if_pos rfl)
  refine ⟨by rw [halted]; rfl, by rw [halted]; rfl, by rw [halted]; rfl, by rw [halted]; rfl,
    fun held => entry.trans (if_pos held), fun empty => ?first, fun r other => (ctx r).trans (if_neg other), fun region off => ?byte⟩
  case first =>
    rw [entry, if_neg (ne_true_of_eq_false empty)]
    exact ⟨latchWord_valid .., latchWord_cause .., latchWord_status ..⟩
  case byte =>
    rw [State.byte, faulted, State.haltThread_store cores' ready unslotted idle, store, State.byte]

end Sys2Proof.Machine
end

section
/-! Proofs about the orders on clusters and programs, and the events that complete them (08: R239 to R248). -/
namespace Sys2Proof.Machine

/-! ### Orders that do not wait behind a reset -/

section
variable {o : Order} {mask : W64} {s u : State} (ok : OrderTaken o s) (hu : s.orderTaken o = u) (prompt : u.deferredOn mask = false)
include ok hu prompt

/-- A taken grid order whose clusters no waiting reset names runs (R481). -/
theorem gridOrder_prompt (op : GridOp) (run : OrderRef → State → State) : gridOrder o mask op run s = run o.ref u := by
  rw [gridOrder, orderRequest_taken ok, hu, prompt]
  exact if_neg Bool.false_ne_true

/-- CLUSTER_ASSIGN of FREE clusters whose partitions are in service, to an ACTIVE composition (R239, R241). -/
theorem execClusterAssign_free {cid : Cid} (nonempty : clustersOf mask ≠ []) (free : u.allIn (clustersOf mask) .free = true)
    (active : (u.activeIdx cid).isSome = true) (inService : ∀ d ∈ clustersOf mask, (u.block 3 (partitionOf d)).drain = 0) :
    execClusterAssign o mask cid s = .next
      (((clustersOf mask).foldl (fun s d => s.setCluster d { s.cluster d with state := .assigned, cid := cid }) u).finishOrder
        o.ref stOk []) := by
  have undrained : ((clustersOf mask).any fun d => decide ((u.block 3 (partitionOf d)).drain ≠ 0)) = false := by
    simpa using inService
  rw [execClusterAssign, gridOrder_prompt ok hu prompt, State.doAssign]
  dsimp only
  cases hcs : clustersOf mask with
  | nil => exact absurd hcs nonempty
  | cons c cs =>
    rw [hcs] at free undrained
    have first : (u.cluster c).state = .free := of_decide_eq_true (List.all_eq_true.mp free c List.mem_cons_self)
    have fit : ¬ ((u.cluster c).state = .unavailable ∨ (!u.allIn (c :: cs) (u.cluster c).state) = true ∨
        (u.activeIdx cid).isNone = true) := by
      simp [first, free, Option.isNone_iff_eq_none, Option.isSome_iff_ne_none.mp active]
    dsimp only
    rw [if_neg fit, if_neg (by simp only [first, undrained]; decide)]

section
variable {cid : Cid} (shared : u.sharedCid mask = some cid)
include shared

omit ok hu prompt in
/-- A grid order on ASSIGNED clusters of one composition goes on (R241). -/
theorem State.onClusters_shared (ref : OrderRef) (k : Cid → State → State) : u.onClusters ref mask k = k cid u := by
  rw [State.onClusters, shared]

/-- CLUSTER_RELEASE halts the clusters' threads at once, and is answered when they are FREE (R239, R241). -/
theorem execClusterRelease_assigned (unheld : u.searchHeld mask = false) {v : State} (hv : u.releaseClusters (clustersOf mask) = v) :
    execClusterRelease o mask s = .next
      (State.settleDeferred { v with grid := { v.grid with releases := v.grid.releases ++ [(o.ref, mask)] } }) := by
  rw [execClusterRelease, gridOrder_prompt ok hu prompt, State.doRelease, State.onClusters_shared shared, unheld,
    if_neg Bool.false_ne_true, hv]

section
variable {p : Byte} (numbered : p.toNat ≤ 3)
include numbered

omit ok hu prompt in
/-- So does one that names a program, 0 to 3. -/
theorem State.onProgram_shared (ref : OrderRef) (k : Cid → State → State) : u.onProgram ref mask p.toNat k = k cid u := by
  rw [State.onProgram, State.onClusters_shared shared, if_neg (Nat.not_lt.mpr numbered)]

/-- PROGRAM_LOAD whose descriptor is read and checked (R243, R244). -/
theorem execProgramLoad_checked {desc : Ptr} {j j' : ProgramJob} {v w : State} {st : Byte}
    (hj : j = { order := o.ref, mask := mask, program := p.toNat, desc := desc, load := true })
    (checked : u.checkLoad cid j = (v, some (st, j'))) (hw : v.forget j'.asker = w) :
    execProgramLoad o mask p desc s =
      .next (if st = stOk then w.setJobs (w.grid.jobs ++ [j']) else w.finishOrder o.ref st []) := by
  rw [execProgramLoad, gridOrder_prompt ok hu prompt, State.doLoad, State.onProgram_shared shared numbered]
  dsimp only
  rw [← hj, checked]
  dsimp only
  rw [hw]

section
variable (resident : u.residentOn mask p.toNat = true) (unheld : u.searchHeld mask = false)
include resident unheld

/-- PROGRAM_START of a program none of whose threads runs (R245). -/
theorem execProgramStart_resident (args : List W64) (stopped : u.programRuns mask p.toNat = false) :
    execProgramStart o mask p args s = .next ((u.startProgram mask p.toNat args).finishOrder o.ref stOk []) := by
  rw [execProgramStart, gridOrder_prompt ok hu prompt, State.doStart, State.onProgram_shared shared numbered, unheld, resident, stopped]
  rfl

/-- PROGRAM_SWITCH (R247, R248). -/
theorem execProgramSwitch_resident :
    execProgramSwitch o mask p s =
      .next (((clustersOf mask).foldl (fun s c => s.activate c p.toNat) u).finishOrder o.ref stOk []) := by
  rw [execProgramSwitch, gridOrder_prompt ok hu prompt, State.doSwitch, State.onProgram_shared shared numbered, unheld, resident]
  rfl

/-- PROGRAM_UNLOAD (R246). -/
theorem execProgramUnload_resident : execProgramUnload o mask p s = .next (u.beginUnload mask p.toNat o.ref) := by
  rw [execProgramUnload, gridOrder_prompt ok hu prompt, State.doUnload, State.onProgram_shared shared numbered, unheld, resident]
  rfl

end
end
end
end

/-! ### The events that complete them -/

section
variable {now k : Nat} {s w : State} (hw : s.advanceTo now = w) (stays : s.withdrawn = false)
include hw stays

/-- A RELEASING cluster whose requests are all answered (R239). -/
theorem execClusterQuiesced_quiet (releasing : (w.cluster k).state = .releasing) (quiet : w.clusterQuiet k = true) :
    execClusterQuiesced now k s = .next (w.setCluster k { w.cluster k with state := .zeroing }) := by
  rw [execClusterQuiesced, State.serving_of_not_withdrawn stays, hw]
  dsimp only
  rw [if_pos ⟨releasing, quiet⟩]

/-- A ZEROING cluster that is zeroed (R240). -/
theorem execClusterZeroed_zeroing (zeroing : (w.cluster k).state = .zeroing) :
    execClusterZeroed now k s =
      .next ((w.zeroCluster k).setCluster k { state := .free }).settleReleases.settleDeferred := by
  rw [execClusterZeroed, State.serving_of_not_withdrawn stays, hw]
  dsimp only
  rw [if_pos zeroing]

section
variable {j : ProgramJob} (job : w.grid.jobs[k]? = some j)
include job

/-- A load without scratch images whose code is read (R244). -/
theorem execProgramLoaded_read {cid : Cid} {n : Nat} {v v' placed : State} {g : Got} (load : j.load = true) (checked : j.checked = true)
    (shared : w.sharedCid j.mask = some cid) (bare : j.image.rh = 0)
    (hv : w.setJobs (w.grid.jobs.map fun y => if y = j then j else y) = v)
    (hn : (v.program (((clustersOf j.mask).head?).getD 0) j.program).codeBytes = n)
    (read : v.unitRead j.asker cid j.code.rh j.code.offset.toNat n = (v', g)) (there : g.waits = false) (fine : g.status = stOk)
    (hplaced : (v'.placeProgram j (codeWords g.data n) []).measureLoad cid j g.data = placed) :
    execProgramLoaded now k s = .next
      (((placed.setJobs (placed.grid.jobs.filter fun y => decide (y ≠ j))).forget j.asker).finishOrder j.order stOk []).settleDeferred := by
  rw [execProgramLoaded, State.serving_of_not_withdrawn stays, programLoaded, hw]
  dsimp only
  rw [job]
  dsimp only
  rw [shared]
  dsimp only
  rw [load, checked]
  simp only [Bool.not_true, Bool.false_eq_true, if_false, if_true]
  rw [hv, hn, read]
  simp only [ne_eq, not_true_eq_false, if_false, there, fine, Bool.false_eq_true, bare, if_true, hplaced]

/-- An unload whose program's requests are all answered (R246). -/
theorem execProgramUnloaded_quiet {v : State} (unload : j.load = false) (quiet : w.programQuiet j.mask j.program = true)
    (hv : (clustersOf j.mask).foldl (fun s c =>
      if (s.program c j.program).unloading then
        ((coresOf c).foldl (fun t k => t.clearShare k j.program (s.program c j.program)) s).setProgram c j.program {}
      else s) w = v) :
    execProgramUnloaded now k s = .next
      ((v.setJobs (v.grid.jobs.filter fun y => decide (y ≠ j))).finishOrder j.order stOk []).settleDeferred := by
  rw [execProgramUnloaded, State.serving_of_not_withdrawn stays, programUnloaded, hw]
  dsimp only
  rw [job]
  dsimp only
  rw [unload, quiet, hv]
  rfl

end
end

/-- Settles O29: each order by the checks that it passes, each event by what it completes. -/
theorem clusterAndProgramOrders : Obligations.ClusterAndProgramOrders := by
  intro o mask cid p desc args now k s u w cs x
  refine ⟨fun ok nonempty prompt free active inService => execClusterAssign_free ok rfl prompt nonempty free active inService,
    fun ok prompt shared => ⟨fun unheld => execClusterRelease_assigned ok rfl prompt shared unheld rfl,
      fun numbered => ⟨fun v st j' checked => execProgramLoad_checked ok rfl prompt shared numbered rfl checked rfl,
        fun resident unheld => ⟨execProgramStart_resident ok rfl prompt shared numbered resident unheld args,
          execProgramSwitch_resident ok rfl prompt shared numbered resident unheld,
          execProgramUnload_resident ok rfl prompt shared numbered resident unheld⟩⟩⟩,
    fun stays releasing quiet => execClusterQuiesced_quiet rfl stays releasing quiet,
    fun stays zeroing => execClusterZeroed_zeroing rfl stays zeroing, ?loaded,
    fun j stays job unload quiet => execProgramUnloaded_quiet rfl stays job unload quiet rfl⟩
  case loaded =>
    rintro j cid' stays job load checked shared bare v n rfl v' g read there fine placed
    exact execProgramLoaded_read rfl stays job load checked shared bare rfl rfl read there fine rfl

end Sys2Proof.Machine
end

section
/-! Proofs about the words of grid instructions (09: R273, R275, R276, R278, R300, R305, R306): what the fields of a packed word are, that
packing the fields of a word gives it back, and from both that the decoder and the encoder agree. -/
namespace Sys2Proof.Machine

/-- Settles O3: each word is read by the decoder. -/
theorem gridWordsDecode : Obligations.GridWordsDecode := fun _ => ⟨rfl, rfl, rfl, rfl, rfl, rfl, rfl, rfl, rfl⟩

/-! ### The fields of a packed word (R273) -/

theorem fields_packR (op fn : BitVec 6) (f : FmtR) : let w := packR op fn f
    majorOf w = op ∧ unpackR w = f ∧ w.extractLsb' 0 6 = fn ∧ w.extractLsb' 6 11 = 0 := by
  simp (disch := decide) only [packR, majorOf, unpackR, BitVec.extractLsb'_append_eq_of_add_le,
    BitVec.extractLsb'_append_eq_of_le, BitVec.extractLsb'_eq_self, Nat.reduceSub, BitVec.ofNat_eq_ofNat, and_self]

theorem fields_packI (op : BitVec 6) (f : FmtI) : let w := packI op f
    majorOf w = op ∧ unpackI w = f := by
  simp (disch := decide) only [packI, majorOf, unpackI, BitVec.extractLsb'_append_eq_of_add_le,
    BitVec.extractLsb'_append_eq_of_le, BitVec.extractLsb'_eq_self, Nat.reduceSub, and_self]

theorem fields_packU (op : BitVec 6) (f : FmtU) : let w := packU op f
    majorOf w = op ∧ unpackU w = f := by
  simp (disch := decide) only [packU, majorOf, unpackU, BitVec.extractLsb'_append_eq_of_add_le,
    BitVec.extractLsb'_append_eq_of_le, BitVec.extractLsb'_eq_self, Nat.reduceSub, and_self]

theorem fields_packB (op : BitVec 6) (f : FmtB) : let w := packB op f
    majorOf w = op ∧ unpackB w = f := by
  simp (disch := decide) only [packB, majorOf, unpackB, BitVec.extractLsb'_append_eq_of_add_le,
    BitVec.extractLsb'_append_eq_of_le, BitVec.extractLsb'_eq_self, Nat.reduceSub, and_self]

theorem fields_packSM (op : BitVec 6) (f : FmtSM) : let w := packSM op f
    majorOf w = op ∧ unpackSM w = f := by
  simp (disch := decide) only [packSM, majorOf, unpackSM, BitVec.extractLsb'_append_eq_of_add_le,
    BitVec.extractLsb'_append_eq_of_le, BitVec.extractLsb'_eq_self, Nat.reduceSub, and_self]

theorem fields_packSA (op : BitVec 6) (f : FmtSA) : let w := packSA op f
    majorOf w = op ∧ unpackSA w = f ∧ w.extractLsb' 0 12 = 0 := by
  simp (disch := decide) only [packSA, majorOf, unpackSA, BitVec.extractLsb'_append_eq_of_add_le,
    BitVec.extractLsb'_append_eq_of_le, BitVec.extractLsb'_eq_self, Nat.reduceSub, BitVec.ofNat_eq_ofNat, and_self]

theorem fields_packSV (op : BitVec 6) (f : FmtSV) : let w := packSV op f
    majorOf w = op ∧ unpackSV w = f := by
  simp (disch := decide) only [packSV, majorOf, unpackSV, BitVec.extractLsb'_append_eq_of_add_le,
    BitVec.extractLsb'_append_eq_of_le, BitVec.extractLsb'_eq_self, Nat.reduceSub, and_self]

theorem fields_packRM (op : BitVec 6) (f : FmtRM) : let w := packRM op f
    majorOf w = op ∧ unpackRM w = f := by
  simp (disch := decide) only [packRM, majorOf, unpackRM, BitVec.extractLsb'_append_eq_of_add_le,
    BitVec.extractLsb'_append_eq_of_le, BitVec.extractLsb'_eq_self, Nat.reduceSub, and_self]

theorem fields_packRV (op : BitVec 6) (f : FmtRV) : let w := packRV op f
    majorOf w = op ∧ unpackRV w = f := by
  simp (disch := decide) only [packRV, majorOf, unpackRV, BitVec.extractLsb'_append_eq_of_add_le,
    BitVec.extractLsb'_append_eq_of_le, BitVec.extractLsb'_eq_self, Nat.reduceSub, and_self]

theorem fields_packAM (op : BitVec 6) (f : FmtAM) : let w := packAM op f
    majorOf w = op ∧ unpackAM w = f ∧ w.extractLsb' 0 9 = 0 := by
  simp (disch := decide) only [packAM, majorOf, unpackAM, BitVec.extractLsb'_append_eq_of_add_le,
    BitVec.extractLsb'_append_eq_of_le, BitVec.extractLsb'_eq_self, Nat.reduceSub, BitVec.ofNat_eq_ofNat, and_self]

theorem fields_packBT (op : BitVec 6) (f : FmtBT) : let w := packBT op f
    majorOf w = op ∧ unpackBT w = f ∧ w.extractLsb' 0 13 = 0 := by
  simp (disch := decide) only [packBT, majorOf, unpackBT, BitVec.extractLsb'_append_eq_of_add_le,
    BitVec.extractLsb'_append_eq_of_le, BitVec.extractLsb'_eq_self, Nat.reduceSub, BitVec.ofNat_eq_ofNat, and_self]

theorem fields_packSend (op : BitVec 6) (f : FmtSend) : let w := packSend op f
    majorOf w = op ∧ unpackSend w = f ∧ w.extractLsb' 0 13 = 0 := by
  simp (disch := decide) only [packSend, majorOf, unpackSend, BitVec.extractLsb'_append_eq_of_add_le,
    BitVec.extractLsb'_append_eq_of_le, BitVec.extractLsb'_eq_self, Nat.reduceSub, BitVec.ofNat_eq_ofNat, and_self]

theorem fields_packRecv (op : BitVec 6) (f : FmtRecv) : let w := packRecv op f
    majorOf w = op ∧ unpackRecv w = f ∧ w.extractLsb' 0 15 = 0 := by
  simp (disch := decide) only [packRecv, majorOf, unpackRecv, BitVec.extractLsb'_append_eq_of_add_le,
    BitVec.extractLsb'_append_eq_of_le, BitVec.extractLsb'_eq_self, Nat.reduceSub, BitVec.ofNat_eq_ofNat, and_self]

theorem fields_packV (op : BitVec 6) (fn : BitVec 4) (f : FmtV) : let w := packV op fn f
    majorOf w = op ∧ unpackV w = f ∧ w.extractLsb' 0 4 = fn := by
  simp (disch := decide) only [packV, majorOf, unpackV, BitVec.extractLsb'_append_eq_of_add_le,
    BitVec.extractLsb'_append_eq_of_le, BitVec.extractLsb'_eq_self, Nat.reduceSub, and_self]

theorem fields_packVC (op : BitVec 6) (f : FmtVC) : let w := packVC op f
    majorOf w = op ∧ unpackVC w = f ∧ w.extractLsb' 8 1 = 0 := by
  simp (disch := decide) only [packVC, majorOf, unpackVC, BitVec.extractLsb'_append_eq_of_add_le,
    BitVec.extractLsb'_append_eq_of_le, BitVec.extractLsb'_eq_self, Nat.reduceSub, BitVec.ofNat_eq_ofNat, and_self]

theorem fields_packX (op : BitVec 6) (fn : BitVec 3) (f : FmtX) : let w := packX op fn f
    majorOf w = op ∧ unpackX w = f ∧ w.extractLsb' 3 3 = fn := by
  simp (disch := decide) only [packX, majorOf, unpackX, BitVec.extractLsb'_append_eq_of_add_le,
    BitVec.extractLsb'_append_eq_of_le, BitVec.extractLsb'_eq_self, Nat.reduceSub, and_self]

/-! ### Decoding what is encoded -/

section
variable (i : Issue)

theorem decodeGrid_packR_alu (fn : BitVec 6) (f : FmtR) : decodeGrid i (packR 0x01 fn f) = aluInstr i f fn.toNat := by
  obtain ⟨major, fields, code, zeros⟩ := fields_packR 0x01 fn f
  rw [decodeGrid, major, fields, code, zeros]
  exact if_pos rfl

theorem decodeGrid_packR_sys (fn : BitVec 6) (f : FmtR) : decodeGrid i (packR 0x22 fn f) = sysInstr i f fn.toNat := by
  obtain ⟨major, fields, code, zeros⟩ := fields_packR 0x22 fn f
  rw [decodeGrid, major, fields, code, zeros]
  exact if_pos rfl

theorem decodeGrid_packV_varith (fn : BitVec 4) (f : FmtV) (ok : tyOk f.ty = true) :
    decodeGrid i (packV 0x28 fn f) = varithInstr i f fn.toNat := by
  obtain ⟨major, fields, code⟩ := fields_packV 0x28 fn f
  rw [decodeGrid, major, fields, code]
  exact if_pos ok

theorem decodeGrid_packV_vmisc (fn : BitVec 4) (f : FmtV) (ok : tyOk f.ty = true) :
    decodeGrid i (packV 0x2D fn f) = vmiscInstr i f fn.toNat := by
  obtain ⟨major, fields, code⟩ := fields_packV 0x2D fn f
  rw [decodeGrid, major, fields, code]
  exact if_pos ok

theorem decodeGrid_packX_xop (fn : BitVec 3) (f : FmtX) (ok : tyOk f.ty = true) :
    decodeGrid i (packX 0x30 fn f) = xopInstr i f fn.toNat := by
  obtain ⟨major, fields, code⟩ := fields_packX 0x30 fn f
  rw [decodeGrid, major, fields, code]
  exact if_pos ok

end

theorem decodeGrid_encodeGrid {c : Instr} {w : W32} (reads : ∀ (i : Issue) (x : W32), c ≠ .reservedInstruction i x)
    (enc : encodeGrid c = some w) (ok : gridOperandsOk c = true) : ∃ i : Issue, decodeGrid i w = some c := by
  cases c with
  | reservedInstruction i x => exact absurd rfl (reads i x)
  | add i f | sub i f | and i f | or i f | xor i f | sll i f | srl i f | sra i f | slt i f | sltu i f | mul i f
  | mulhu i f | divu i f | remu i f | min i f | max i f | sextb i f | sexth i f | sextw i f =>
    obtain rfl := Option.some.inj enc
    exact ⟨i, decodeGrid_packR_alu i _ f⟩
  | halt i f | switch i f | twait i f | rdsdc i f | sacq i f | srel i f | sysRelease i f | rdinfo i f | rdcyc i f =>
    obtain rfl := Option.some.inj enc
    exact ⟨i, decodeGrid_packR_sys i _ f⟩
  | vadd i f | vsub i f | vmul i f | vfma i f | vfms i f | vmin i f | vmax i f | vabs i f | vneg i f | vdiv i f
  | vsqrt i f =>
    obtain rfl := Option.some.inj enc
    exact ⟨i, decodeGrid_packV_varith i _ f ok⟩
  | vand i f | vor i f | vxor i f | vsel i f | vcmpeq i f | vcmplt i f | vcmple i f | vbcast i f | vext i f | vins i f
  | vmts i f | vstm i f | vdeq i f =>
    obtain rfl := Option.some.inj enc
    exact ⟨i, decodeGrid_packV_vmisc i _ f ok⟩
  | xclr i f | xadd i f | xdot i f | xdotmx i f | xread i f | xexp i f | ximp i f | xflag i f =>
    obtain rfl := Option.some.inj enc
    exact ⟨i, decodeGrid_packX_xop i _ f ok⟩
  | addi i f | andi i f | ori i f | xori i f | slti i f | sltiu i f | jalr i f =>
    obtain rfl := Option.some.inj enc
    obtain ⟨major, fields⟩ := fields_packI _ f
    exact ⟨i, by rw [decodeGrid, major, fields]; rfl⟩
  | shi i f =>
    obtain rfl := Option.some.inj enc
    obtain ⟨major, fields⟩ := fields_packI _ f
    exact ⟨i, by rw [decodeGrid, major, fields]; exact if_pos ok⟩
  | lui i f | jal i f =>
    obtain rfl := Option.some.inj enc
    obtain ⟨major, fields⟩ := fields_packU _ f
    exact ⟨i, by rw [decodeGrid, major, fields]; rfl⟩
  | beq i f | bne i f | blt i f | bge i f | bltu i f | bgeu i f =>
    obtain rfl := Option.some.inj enc
    obtain ⟨major, fields⟩ := fields_packB _ f
    exact ⟨i, by rw [decodeGrid, major, fields]; rfl⟩
  | sld i f | sst i f =>
    obtain rfl := Option.some.inj enc
    obtain ⟨major, fields⟩ := fields_packSM _ f
    exact ⟨i, by rw [decodeGrid, major, fields]; rfl⟩
  | samo i f =>
    obtain rfl := Option.some.inj enc
    obtain ⟨major, fields, zeros⟩ := fields_packSA _ f
    exact ⟨i, by rw [decodeGrid, major, fields, zeros]; rfl⟩
  | vsld i f | vsst i f =>
    obtain rfl := Option.some.inj enc
    obtain ⟨major, fields⟩ := fields_packSV _ f
    exact ⟨i, by rw [decodeGrid, major, fields]; rfl⟩
  | ld i f | st i f =>
    obtain rfl := Option.some.inj enc
    obtain ⟨major, fields⟩ := fields_packRM _ f
    exact ⟨i, by rw [decodeGrid, major, fields]; exact if_pos (of_decide_eq_true ok)⟩
  | vld i f | vst i f =>
    obtain rfl := Option.some.inj enc
    obtain ⟨major, fields⟩ := fields_packRV _ f
    exact ⟨i, by rw [decodeGrid, major, fields]; exact if_pos (of_decide_eq_true ok)⟩
  | amo i f =>
    obtain rfl := Option.some.inj enc
    obtain ⟨major, fields, zeros⟩ := fields_packAM _ f
    exact ⟨i, by rw [decodeGrid, major, fields, zeros]; rfl⟩
  | bget i f =>
    obtain rfl := Option.some.inj enc
    obtain ⟨major, fields, zeros⟩ := fields_packBT _ f
    exact ⟨i, by rw [decodeGrid, major, fields, zeros]; exact if_pos ⟨rfl, of_decide_eq_true ok⟩⟩
  | bput i f =>
    obtain rfl := Option.some.inj enc
    obtain ⟨major, fields, zeros⟩ := fields_packBT _ f
    exact ⟨i, by rw [decodeGrid, major, fields, zeros]; rfl⟩
  | send i f =>
    obtain rfl := Option.some.inj enc
    obtain ⟨major, fields, zeros⟩ := fields_packSend _ f
    exact ⟨i, by rw [decodeGrid, major, fields, zeros]; rfl⟩
  | recv i f =>
    obtain rfl := Option.some.inj enc
    obtain ⟨major, fields, zeros⟩ := fields_packRecv _ f
    exact ⟨i, by rw [decodeGrid, major, fields, zeros]; rfl⟩
  | vdot i f | vdotmx i f =>
    obtain rfl := Option.some.inj enc
    obtain ⟨major, fields, code⟩ := fields_packV _ _ f
    exact ⟨i, by rw [decodeGrid, major, fields, code]; exact if_pos ⟨ok, rfl⟩⟩
  | vcvt i f =>
    obtain rfl := Option.some.inj enc
    obtain ⟨major, fields, zeros⟩ := fields_packVC _ f
    exact ⟨i, by rw [decodeGrid, major, fields, zeros]; exact if_pos ⟨rfl, (Bool.and_eq_true _ _).mp ok⟩⟩
  | _ => nomatch enc

/-! ### Encoding what is decoded -/

section
variable {w : W32} {op : BitVec 6} (major : (majorOf w).toNat = op.toNat)
include major

theorem packR_unpackR {fn : BitVec 6} (code : w.extractLsb' 0 6 = fn) (zeros : w.extractLsb' 6 11 = 0) :
    packR op fn (unpackR w) = w := by
  obtain rfl := BitVec.eq_of_toNat_eq major
  subst code
  rw [packR, show 0#11 = w.extractLsb' 6 11 from zeros.symm]
  simp (disch := decide) only [majorOf, unpackR, BitVec.extractLsb'_append_extractLsb'_eq_extractLsb']
  exact BitVec.extractLsb'_eq_self

theorem packI_unpackI : packI op (unpackI w) = w := by
  obtain rfl := BitVec.eq_of_toNat_eq major
  simp (disch := decide) only [packI, majorOf, unpackI, BitVec.extractLsb'_append_extractLsb'_eq_extractLsb']
  exact BitVec.extractLsb'_eq_self

theorem packU_unpackU : packU op (unpackU w) = w := by
  obtain rfl := BitVec.eq_of_toNat_eq major
  simp (disch := decide) only [packU, majorOf, unpackU, BitVec.extractLsb'_append_extractLsb'_eq_extractLsb']
  exact BitVec.extractLsb'_eq_self

theorem packB_unpackB : packB op (unpackB w) = w := by
  obtain rfl := BitVec.eq_of_toNat_eq major
  simp (disch := decide) only [packB, majorOf, unpackB, BitVec.extractLsb'_append_extractLsb'_eq_extractLsb']
  exact BitVec.extractLsb'_eq_self

theorem packSM_unpackSM : packSM op (unpackSM w) = w := by
  obtain rfl := BitVec.eq_of_toNat_eq major
  simp (disch := decide) only [packSM, majorOf, unpackSM, BitVec.extractLsb'_append_extractLsb'_eq_extractLsb']
  exact BitVec.extractLsb'_eq_self

theorem packSA_unpackSA (zeros : w.extractLsb' 0 12 = 0) : packSA op (unpackSA w) = w := by
  obtain rfl := BitVec.eq_of_toNat_eq major
  rw [packSA, show 0#12 = w.extractLsb' 0 12 from zeros.symm]
  simp (disch := decide) only [majorOf, unpackSA, BitVec.extractLsb'_append_extractLsb'_eq_extractLsb']
  exact BitVec.extractLsb'_eq_self

theorem packSV_unpackSV : packSV op (unpackSV w) = w := by
  obtain rfl := BitVec.eq_of_toNat_eq major
  simp (disch := decide) only [packSV, majorOf, unpackSV, BitVec.extractLsb'_append_extractLsb'_eq_extractLsb']
  exact BitVec.extractLsb'_eq_self

theorem packRM_unpackRM : packRM op (unpackRM w) = w := by
  obtain rfl := BitVec.eq_of_toNat_eq major
  simp (disch := decide) only [packRM, majorOf, unpackRM, BitVec.extractLsb'_append_extractLsb'_eq_extractLsb']
  exact BitVec.extractLsb'_eq_self

theorem packRV_unpackRV : packRV op (unpackRV w) = w := by
  obtain rfl := BitVec.eq_of_toNat_eq major
  simp (disch := decide) only [packRV, majorOf, unpackRV, BitVec.extractLsb'_append_extractLsb'_eq_extractLsb']
  exact BitVec.extractLsb'_eq_self

theorem packAM_unpackAM (zeros : w.extractLsb' 0 9 = 0) : packAM op (unpackAM w) = w := by
  obtain rfl := BitVec.eq_of_toNat_eq major
  rw [packAM, show 0#9 = w.extractLsb' 0 9 from zeros.symm]
  simp (disch := decide) only [majorOf, unpackAM, BitVec.extractLsb'_append_extractLsb'_eq_extractLsb']
  exact BitVec.extractLsb'_eq_self

theorem packBT_unpackBT (zeros : w.extractLsb' 0 13 = 0) : packBT op (unpackBT w) = w := by
  obtain rfl := BitVec.eq_of_toNat_eq major
  rw [packBT, show 0#13 = w.extractLsb' 0 13 from zeros.symm]
  simp (disch := decide) only [majorOf, unpackBT, BitVec.extractLsb'_append_extractLsb'_eq_extractLsb']
  exact BitVec.extractLsb'_eq_self

theorem packSend_unpackSend (zeros : w.extractLsb' 0 13 = 0) : packSend op (unpackSend w) = w := by
  obtain rfl := BitVec.eq_of_toNat_eq major
  rw [packSend, show 0#13 = w.extractLsb' 0 13 from zeros.symm]
  simp (disch := decide) only [majorOf, unpackSend, BitVec.extractLsb'_append_extractLsb'_eq_extractLsb']
  exact BitVec.extractLsb'_eq_self

theorem packRecv_unpackRecv (zeros : w.extractLsb' 0 15 = 0) : packRecv op (unpackRecv w) = w := by
  obtain rfl := BitVec.eq_of_toNat_eq major
  rw [packRecv, show 0#15 = w.extractLsb' 0 15 from zeros.symm]
  simp (disch := decide) only [majorOf, unpackRecv, BitVec.extractLsb'_append_extractLsb'_eq_extractLsb']
  exact BitVec.extractLsb'_eq_self

theorem packV_unpackV {fn : BitVec 4} (code : w.extractLsb' 0 4 = fn) : packV op fn (unpackV w) = w := by
  obtain rfl := BitVec.eq_of_toNat_eq major
  subst code
  simp (disch := decide) only [packV, majorOf, unpackV, BitVec.extractLsb'_append_extractLsb'_eq_extractLsb']
  exact BitVec.extractLsb'_eq_self

theorem packVC_unpackVC (zeros : w.extractLsb' 8 1 = 0) : packVC op (unpackVC w) = w := by
  obtain rfl := BitVec.eq_of_toNat_eq major
  rw [packVC, show 0#1 = w.extractLsb' 8 1 from zeros.symm]
  simp (disch := decide) only [majorOf, unpackVC, BitVec.extractLsb'_append_extractLsb'_eq_extractLsb']
  exact BitVec.extractLsb'_eq_self

theorem packX_unpackX {fn : BitVec 3} (code : w.extractLsb' 3 3 = fn) : packX op fn (unpackX w) = w := by
  obtain rfl := BitVec.eq_of_toNat_eq major
  subst code
  simp (disch := decide) only [packX, majorOf, unpackX, BitVec.extractLsb'_append_extractLsb'_eq_extractLsb']
  exact BitVec.extractLsb'_eq_self

end

theorem ofNat_toNat_self {n : Nat} (x : BitVec n) : BitVec.ofNat n x.toNat = x :=
  (BitVec.ofNat_toNat n x).trans (BitVec.setWidth_eq x)

section
variable {i : Issue} {n : Nat} {c : Instr}

theorem encodeGrid_aluInstr {f : FmtR} (dec : aluInstr i f n = some c) :
    encodeGrid c = some (packR 0x01 (BitVec.ofNat 6 n) f) ∧ gridOperandsOk c = true := by
  unfold aluInstr at dec
  split at dec <;> cases dec <;> exact ⟨rfl, rfl⟩

theorem encodeGrid_sysInstr {f : FmtR} (dec : sysInstr i f n = some c) :
    encodeGrid c = some (packR 0x22 (BitVec.ofNat 6 n) f) ∧ gridOperandsOk c = true := by
  unfold sysInstr at dec
  split at dec <;> cases dec <;> exact ⟨rfl, rfl⟩

theorem encodeGrid_varithInstr {f : FmtV} (ok : tyOk f.ty = true) (dec : varithInstr i f n = some c) :
    encodeGrid c = some (packV 0x28 (BitVec.ofNat 4 n) f) ∧ gridOperandsOk c = true := by
  unfold varithInstr at dec
  split at dec <;> cases dec <;> exact ⟨rfl, ok⟩

theorem encodeGrid_vmiscInstr {f : FmtV} (ok : tyOk f.ty = true) (dec : vmiscInstr i f n = some c) :
    encodeGrid c = some (packV 0x2D (BitVec.ofNat 4 n) f) ∧ gridOperandsOk c = true := by
  unfold vmiscInstr at dec
  split at dec <;> cases dec <;> exact ⟨rfl, ok⟩

theorem encodeGrid_xopInstr {f : FmtX} (ok : tyOk f.ty = true) (dec : xopInstr i f n = some c) :
    encodeGrid c = some (packX 0x30 (BitVec.ofNat 3 n) f) ∧ gridOperandsOk c = true := by
  unfold xopInstr at dec
  split at dec <;> cases dec <;> exact ⟨rfl, ok⟩

end

theorem encodeGrid_decodeGrid {i : Issue} {w : W32} {c : Instr} (dec : decodeGrid i w = some c) :
    encodeGrid c = some w ∧ gridOperandsOk c = true := by
  -- Case n is the n-th row of the opcode map; the rows of one format share their argument.
  unfold decodeGrid at dec
  split at dec
  case h_1 major =>
    obtain ⟨zeros, dec⟩ := Option.ite_none_right_eq_some.mp dec
    obtain ⟨enc, operands⟩ := encodeGrid_aluInstr dec
    exact ⟨enc.trans (congrArg some (packR_unpackR major (ofNat_toNat_self _).symm zeros)), operands⟩
  case h_2 major | h_3 major | h_4 major | h_5 major | h_6 major | h_7 major | h_11 major =>
    cases dec
    exact ⟨congrArg some (packI_unpackI major), rfl⟩
  case h_8 major =>
    obtain ⟨ok, dec⟩ := Option.ite_none_right_eq_some.mp dec
    cases dec
    exact ⟨congrArg some (packI_unpackI major), ok⟩
  case h_9 major | h_10 major =>
    cases dec
    exact ⟨congrArg some (packU_unpackU major), rfl⟩
  case h_12 major | h_13 major | h_14 major | h_15 major | h_16 major | h_17 major =>
    cases dec
    exact ⟨congrArg some (packB_unpackB major), rfl⟩
  case h_18 major | h_19 major =>
    cases dec
    exact ⟨congrArg some (packSM_unpackSM major), rfl⟩
  case h_20 major =>
    obtain ⟨zeros, dec⟩ := Option.ite_none_right_eq_some.mp dec
    cases dec
    exact ⟨congrArg some (packSA_unpackSA major zeros), rfl⟩
  case h_21 major | h_22 major =>
    cases dec
    exact ⟨congrArg some (packSV_unpackSV major), rfl⟩
  case h_23 major | h_24 major =>
    obtain ⟨listed, dec⟩ := Option.ite_none_right_eq_some.mp dec
    cases dec
    exact ⟨congrArg some (packRM_unpackRM major), decide_eq_true listed⟩
  case h_25 major =>
    obtain ⟨zeros, dec⟩ := Option.ite_none_right_eq_some.mp dec
    cases dec
    exact ⟨congrArg some (packAM_unpackAM major zeros), rfl⟩
  case h_26 major | h_27 major =>
    obtain ⟨listed, dec⟩ := Option.ite_none_right_eq_some.mp dec
    cases dec
    exact ⟨congrArg some (packRV_unpackRV major), decide_eq_true listed⟩
  case h_28 major =>
    obtain ⟨⟨zeros, listed⟩, dec⟩ := Option.ite_none_right_eq_some.mp dec
    cases dec
    exact ⟨congrArg some (packBT_unpackBT major zeros), decide_eq_true listed⟩
  case h_29 major =>
    obtain ⟨zeros, dec⟩ := Option.ite_none_right_eq_some.mp dec
    cases dec
    exact ⟨congrArg some (packBT_unpackBT major zeros), rfl⟩
  case h_30 major =>
    obtain ⟨zeros, dec⟩ := Option.ite_none_right_eq_some.mp dec
    cases dec
    exact ⟨congrArg some (packSend_unpackSend major zeros), rfl⟩
  case h_31 major =>
    obtain ⟨zeros, dec⟩ := Option.ite_none_right_eq_some.mp dec
    cases dec
    exact ⟨congrArg some (packRecv_unpackRecv major zeros), rfl⟩
  case h_32 major =>
    obtain ⟨zeros, dec⟩ := Option.ite_none_right_eq_some.mp dec
    obtain ⟨enc, operands⟩ := encodeGrid_sysInstr dec
    exact ⟨enc.trans (congrArg some (packR_unpackR major (ofNat_toNat_self _).symm zeros)), operands⟩
  case h_33 major =>
    obtain ⟨ok, dec⟩ := Option.ite_none_right_eq_some.mp dec
    obtain ⟨enc, operands⟩ := encodeGrid_varithInstr ok dec
    exact ⟨enc.trans (congrArg some (packV_unpackV major (ofNat_toNat_self _).symm)), operands⟩
  case h_34 major | h_35 major =>
    obtain ⟨⟨ok, code⟩, dec⟩ := Option.ite_none_right_eq_some.mp dec
    cases dec
    exact ⟨congrArg some (packV_unpackV major code), ok⟩
  case h_36 major =>
    obtain ⟨⟨zeros, types⟩, dec⟩ := Option.ite_none_right_eq_some.mp dec
    cases dec
    exact ⟨congrArg some (packVC_unpackVC major zeros), (Bool.and_eq_true _ _).mpr types⟩
  case h_37 major =>
    obtain ⟨ok, dec⟩ := Option.ite_none_right_eq_some.mp dec
    obtain ⟨enc, operands⟩ := encodeGrid_vmiscInstr ok dec
    exact ⟨enc.trans (congrArg some (packV_unpackV major (ofNat_toNat_self _).symm)), operands⟩
  case h_38 major =>
    obtain ⟨ok, dec⟩ := Option.ite_none_right_eq_some.mp dec
    obtain ⟨enc, operands⟩ := encodeGrid_xopInstr ok dec
    exact ⟨enc.trans (congrArg some (packX_unpackX major (ofNat_toNat_self _).symm)), operands⟩
  case h_39 => cases dec

/-- Settles O4: in one direction by the instruction, in the other by the major opcode. -/
theorem gridRoundTrip : Obligations.GridRoundTrip :=
  ⟨fun _ _ reads enc ok => decodeGrid_encodeGrid reads enc ok, fun _ _ _ dec => encodeGrid_decodeGrid dec⟩

end Sys2Proof.Machine
end

section
/-! Proofs about the scalar instructions (09: R271 to R277): what an issued instruction of the ALU, of the immediates and LUI writes. -/
namespace Sys2Proof.Machine

/-! ### Values -/

/-- A shift amount is the low six bits of its register (R276). -/
theorem shiftAmount_eq (b : W64) : shiftAmount b = (b &&& 63).toNat := by
  rw [shiftAmount, BitVec.extractLsb'_toNat, BitVec.toNat_and, Nat.shiftRight_zero]
  exact (Nat.and_two_pow_sub_one_eq_mod b.toNat 6).symm

theorem boolW_signed (a b : W64) : boolW (decide (a.toInt < b.toInt)) = if a.slt b then 1 else 0 := by
  rw [BitVec.slt_eq_decide, boolW]

theorem boolW_unsigned (a b : W64) : boolW (decide (a.toNat < b.toNat)) = if a.ult b then 1 else 0 := rfl

theorem mul_eq_ofNat (a b : W64) : a * b = BitVec.ofNat 64 (a.toNat * b.toNat) := BitVec.eq_of_toNat_eq (by simp)

theorem divu_eq (a b : W64) : (if b = 0 then BitVec.allOnes 64 else BitVec.ofNat 64 (a.toNat / b.toNat)) =
    if b = 0 then BitVec.allOnes 64 else a / b := by
  rw [← BitVec.toNat_udiv, ofNat_toNat_self]

theorem remu_eq (a b : W64) : (if b = 0 then a else BitVec.ofNat 64 (a.toNat % b.toNat)) = if b = 0 then a else a % b := by
  rw [← BitVec.toNat_umod, ofNat_toNat_self]

theorem min_eq (a b : W64) : (if a.toInt ≤ b.toInt then a else b) = if b.slt a then b else a := by
  simp only [BitVec.slt_eq_decide, decide_eq_true_eq, ← Int.not_le, ite_not]

theorem max_eq (a b : W64) : (if a.toInt ≤ b.toInt then b else a) = if b.slt a then a else b := by
  simp only [BitVec.slt_eq_decide, decide_eq_true_eq, ← Int.not_le, ite_not]

theorem signExtend_extractLsb' (a : W64) (n : Nat) : (a.extractLsb' 0 n).signExtend 64 = (a.setWidth n).signExtend 64 := by
  have low : a.extractLsb' 0 n = a.setWidth n :=
    BitVec.eq_of_toNat_eq (by rw [BitVec.extractLsb'_toNat, BitVec.toNat_setWidth, Nat.shiftRight_zero])
  rw [low]

/-- SHI by the two fields of its immediate (R275): kind 3 is reserved. -/
theorem shiValue_eq {f : FmtI} (ok : shiOk f = true) (a : W64) :
    shiValue f a = if f.imm.toNat / 64 = 0 then a <<< (f.imm.toNat % 64) else if f.imm.toNat / 64 = 1 then a >>> (f.imm.toNat % 64)
      else a.sshiftRight (f.imm.toNat % 64) := by
  have small : f.imm.toNat < 192 := of_decide_eq_true ok
  have amount : (f.imm.extractLsb' 0 6).toNat = f.imm.toNat % 64 := by
    rw [BitVec.extractLsb'_toNat, Nat.shiftRight_zero]
  have kind : (f.imm.extractLsb' 6 2).toNat = f.imm.toNat / 64 := by
    rw [BitVec.extractLsb'_toNat, Nat.shiftRight_eq_div_pow]
    omega
  rw [shiValue, amount, kind]
  split
  · next zero => rw [if_pos zero]
  · next one => rw [if_neg (by omega), if_pos one]
  · next not_zero not_one => rw [if_neg not_zero, if_neg not_one]

/-! ### Issued instructions -/

theorem Issues.operandsOk {i : Issue} {c : Instr} {s : State} (issues : Issues i c s) : gridOperandsOk c = true := by
  obtain ⟨-, -, operands, -⟩ := issues
  exact operands

theorem Issues.mayIssue {i : Issue} {c : Instr} {s : State} (issues : Issues i c s) :
    (s.advanceTo i.now).mayIssue i.thread = true := by
  obtain ⟨-, may, -⟩ := issues
  exact may

section
variable {i : Issue} {c : Instr} {s u : State} {sa : BitVec 3} {a v : W64} (hu : s.advanceTo i.now = u)
  (ha : (u.ctx i.thread).reg sa = a) (issues : Issues i c s)
include hu ha issues

theorem aluOp_issued {sd sb : BitVec 3} {op : W64 → W64 → W64} {b : W64} (hb : (u.ctx i.thread).reg sb = b) (value : op a b = v) :
    (.next (gridStep i c (aluOp op { sd := sd, sa := sa, sb := sb }) s) : Out) =
      .next (u.writeReg i.thread sd v ((u.ctx i.thread).regPoison sa || (u.ctx i.thread).regPoison sb)) := by
  rw [gridStep_issues issues, aluOp, hu, ha, hb, value]

theorem aluOne_issued {sd sb : BitVec 3} {op : W64 → W64} (value : op a = v) :
    (.next (gridStep i c (aluOne op { sd := sd, sa := sa, sb := sb }) s) : Out) =
      .next (u.writeReg i.thread sd v ((u.ctx i.thread).regPoison sa)) := by
  rw [gridStep_issues issues, aluOne, hu, ha, value]

theorem immOp_issued {sd : BitVec 3} {imm : BitVec 20} {op : W64 → W64} (value : op a = v) :
    (.next (gridStep i c (immOp op { sd := sd, sa := sa, imm := imm }) s) : Out) =
      .next (u.writeReg i.thread sd v ((u.ctx i.thread).regPoison sa)) := by
  rw [gridStep_issues issues, immOp, hu, ha, value]

end

/-- Settles O5: each instruction by the value that it computes. -/
theorem gridAluResults : Obligations.GridAluResults := by
  intro i f s u a b n pa p
  have ha : (u.ctx i.thread).reg f.sa = a := rfl
  have hb : (u.ctx i.thread).reg f.sb = b := rfl
  have sll : a <<< shiftAmount b = a <<< n := congrArg _ (shiftAmount_eq b)
  have srl : a >>> shiftAmount b = a >>> n := congrArg _ (shiftAmount_eq b)
  have sra : a.sshiftRight (shiftAmount b) = a.sshiftRight n := congrArg _ (shiftAmount_eq b)
  clear_value a b n
  simp only [List.forall_mem_cons]
  exact ⟨(aluOp_issued rfl ha · hb rfl), (aluOp_issued rfl ha · hb rfl), (aluOp_issued rfl ha · hb rfl),
    (aluOp_issued rfl ha · hb rfl), (aluOp_issued rfl ha · hb rfl), (aluOp_issued rfl ha · hb sll), (aluOp_issued rfl ha · hb srl),
    (aluOp_issued rfl ha · hb sra), (aluOp_issued rfl ha · hb (boolW_signed a b)), (aluOp_issued rfl ha · hb (boolW_unsigned a b)),
    (aluOp_issued rfl ha · hb (mul_eq_ofNat a b)), (aluOp_issued rfl ha · hb rfl), (aluOp_issued rfl ha · hb (divu_eq a b)),
    (aluOp_issued rfl ha · hb (remu_eq a b)), (aluOp_issued rfl ha · hb (min_eq a b)), (aluOp_issued rfl ha · hb (max_eq a b)),
    (aluOne_issued rfl ha · (signExtend_extractLsb' a 8)), (aluOne_issued rfl ha · (signExtend_extractLsb' a 16)),
    (aluOne_issued rfl ha · (signExtend_extractLsb' a 32)), List.forall_mem_nil _⟩

/-- Settles O6: each instruction by the value that it computes. -/
theorem gridImmediateResults : Obligations.GridImmediateResults := by
  intro i f g s u a pa sx zx n
  have ha : (u.ctx i.thread).reg f.sa = a := rfl
  clear_value a
  simp only [List.forall_mem_cons]
  refine ⟨⟨(immOp_issued rfl ha · rfl), (immOp_issued rfl ha · rfl), (immOp_issued rfl ha · rfl), (immOp_issued rfl ha · rfl),
    (immOp_issued rfl ha · (boolW_signed a sx)), (immOp_issued rfl ha · (boolW_unsigned a sx)), fun issues => ?shi,
    List.forall_mem_nil _⟩, fun issues => congrArg _ (gridStep_issues issues _)⟩
  case shi => exact immOp_issued rfl ha issues (shiValue_eq issues.operandsOk a)

/-! ### Control (R277, R310) -/

/-- A check that fails after ones that pass is the fault (R309). -/
theorem State.guarded_fails (s : State) (t : Thread) {passing : List (Bool × Byte)} (cause : Byte) (go : State)
    (passed : ∀ c ∈ passing, c.1 = false) : s.guarded t (passing ++ [(true, cause)]) go = s.fault t cause := by
  have none_before : (passing.find? fun c => c.1) = none := List.find?_eq_none.mpr fun c at_ => ne_true_of_eq_false (passed c at_)
  rw [State.guarded, List.find?_append, none_before]
  rfl

theorem State.targetOk_of_lt {s : State} {t : Thread} {z : Nat} {x : Int} (hz : (z : Int) = x) (inside : z < (s.programOf t).code.length) :
    s.targetOk t x = true := by
  simp only [State.targetOk, Bool.and_eq_true, decide_eq_true_eq]
  omega

theorem State.targetOk_of_out {s : State} {t : Thread} {x : Int} (out : x < 0 ∨ ((s.programOf t).code.length : Int) ≤ x) :
    s.targetOk t x = false := by
  simp only [State.targetOk, Bool.and_eq_false_iff, decide_eq_false_iff_not]
  omega

section
variable {i : Issue} {s u : State} {c : Ctx} (hu : s.advanceTo i.now = u) (hc : u.ctx i.thread = c)
include hu hc

section
variable {z : Nat} (inside : z < (u.programOf i.thread).code.length)
include inside

theorem execJal_inside {f : FmtU} (hz : (z : Int) = c.pc + f.imm.toInt) (issues : Issues i (.jal i f) s) :
    execJal i f s = .next (u.setCtx i.thread { c.setReg f.sd (BitVec.ofNat 64 (c.pc + 1)) false with pc := z }) := by
  subst hu hc
  rw [execJal, gridStep_issues issues]
  dsimp only
  rw [State.guarded_passed _ _ _ (by simp [State.targetOk_of_lt hz inside]), ← hz]
  rfl

theorem execJalr_inside {f : FmtI} (hz : (z : Int) = (c.reg f.sa).toInt + f.imm.toInt) (sa : c.regPoison f.sa = false)
    (issues : Issues i (.jalr i f) s) :
    execJalr i f s = .next (u.setCtx i.thread { c.setReg f.sd (BitVec.ofNat 64 (c.pc + 1)) false with pc := z }) := by
  subst hu hc
  rw [execJalr, gridStep_issues issues]
  dsimp only
  rw [State.guarded_passed _ _ _ (by simp [sa, State.targetOk_of_lt hz inside]), ← hz]
  rfl

theorem branchOp_inside {e : Instr} {f : FmtB} (hz : (z : Int) = c.pc + f.off.toInt) (sa : c.regPoison f.sa = false)
    (sb : c.regPoison f.sb = false) (issues : Issues i e s) {test : W64 → W64 → Bool} {taken : Bool}
    (tested : test (c.reg f.sa) (c.reg f.sb) = taken) :
    (.next (gridStep i e (branchOp test f) s) : Out) =
      .next (u.setCtx i.thread { c with pc := if taken then z else c.pc + 1 }) := by
  subst hu hc tested
  rw [gridStep_issues issues, branchOp, State.guarded_passed _ _ _ (by simp [sa, sb, State.targetOk_of_lt hz inside]), ← hz,
    Int.toNat_natCast]

end

section
variable {x : Int} (out : x < 0 ∨ ((u.programOf i.thread).code.length : Int) ≤ x)
include out

theorem execJal_out {f : FmtU} (hx : x = c.pc + f.imm.toInt) (issues : Issues i (.jal i f) s) :
    execJal i f s = .next (u.fault i.thread gcCodeRange) := by
  subst hu hc
  rw [execJal, gridStep_issues issues]
  dsimp only
  rw [← hx, State.targetOk_of_out out]
  exact congrArg _ (State.guarded_fails _ _ (passing := []) _ _ nofun)

theorem execJalr_out {f : FmtI} (hx : x = (c.reg f.sa).toInt + f.imm.toInt) (sa : c.regPoison f.sa = false)
    (issues : Issues i (.jalr i f) s) : execJalr i f s = .next (u.fault i.thread gcCodeRange) := by
  subst hu hc
  rw [execJalr, gridStep_issues issues]
  dsimp only
  rw [← hx, State.targetOk_of_out out]
  exact congrArg _ (State.guarded_fails _ _ (passing := [(_, gcPoisonUse)]) _ _ (List.forall_mem_singleton.mpr sa))

theorem branchOp_out {e : Instr} {f : FmtB} (hx : x = c.pc + f.off.toInt) (sa : c.regPoison f.sa = false)
    (sb : c.regPoison f.sb = false) (issues : Issues i e s) (test : W64 → W64 → Bool) :
    (.next (gridStep i e (branchOp test f) s) : Out) = .next (u.fault i.thread gcCodeRange) := by
  subst hu hc
  rw [gridStep_issues issues, branchOp, ← hx, State.targetOk_of_out out, sa, sb]
  exact congrArg _ (State.guarded_fails _ _ (passing := [(false, gcPoisonUse)]) _ _ (List.forall_mem_singleton.mpr rfl))

end
end

theorem ge_eq_not_slt (a b : W64) : decide (b.toInt ≤ a.toInt) = !a.slt b := by
  rw [BitVec.slt_eq_decide, ← decide_not, decide_eq_decide, Int.not_lt]

theorem geu_eq_not_ult (a b : W64) : decide (b.toNat ≤ a.toNat) = !a.ult b := by
  rw [BitVec.ult, ← decide_not, decide_eq_decide, Nat.not_lt]

/-- Settles O7: a jump by its target, a branch by its comparison. -/
theorem gridControlTransfers : Obligations.GridControlTransfers := by
  intro i f g b s u t c code link x y
  refine ⟨fun z hz inside issues => execJal_inside rfl rfl inside hz issues,
    fun z hz inside sa issues => execJalr_inside rfl rfl inside hz sa issues, fun z hz inside sa sb => ?branch⟩
  have ne (a b : W64) : decide (a ≠ b) = !(a == b) := decide_not
  simp only [List.forall_mem_cons]
  exact ⟨(branchOp_inside rfl rfl inside hz sa sb · rfl), (branchOp_inside rfl rfl inside hz sa sb · (ne x y)),
    (branchOp_inside rfl rfl inside hz sa sb · (BitVec.slt_eq_decide.symm)),
    (branchOp_inside rfl rfl inside hz sa sb · (ge_eq_not_slt x y)), (branchOp_inside rfl rfl inside hz sa sb · rfl),
    (branchOp_inside rfl rfl inside hz sa sb · (geu_eq_not_ult x y)), List.forall_mem_nil _⟩

/-- Settles O8: a target out of the code is the check that fails, and an index beyond it never gets to an instruction. -/
theorem gridCodeRangeFaults : Obligations.GridCodeRangeFaults := by
  intro i f g b s u t c code out
  refine ⟨fun beyond issues => execJal_out rfl rfl beyond rfl issues, fun beyond sa issues => execJalr_out rfl rfl beyond rfl sa issues,
    fun beyond sa sb => ?branch, fun serves issuing beyond e k => gridStep_beyond serves issuing (Int.ofNat_le.mp beyond) e k⟩
  simp only [List.forall_mem_cons]
  exact ⟨(branchOp_out rfl rfl beyond rfl sa sb · _), (branchOp_out rfl rfl beyond rfl sa sb · _),
    (branchOp_out rfl rfl beyond rfl sa sb · _), (branchOp_out rfl rfl beyond rfl sa sb · _),
    (branchOp_out rfl rfl beyond rfl sa sb · _), (branchOp_out rfl rfl beyond rfl sa sb · _), List.forall_mem_nil _⟩

/-- Settles O16: the word decodes to nothing, so what it issues is the fault. -/
theorem reservedWordsAreIllegal : Obligations.ReservedWordsAreIllegal := by
  intro i w s none issues
  have reserved : (decodeGrid i w).isNone = true := Option.isNone_iff_eq_none.mpr none
  exact congrArg Host.Outcome.next ((gridStep_issues issues _).trans (if_pos reserved))

end Sys2Proof.Machine
end

section
/-! Proofs about scratch (09: R271, R280 to R282): what an access that ends within its program's window reads and writes. -/
namespace Sys2Proof.Machine

section
variable {i : Issue} {s u : State} {c : Ctx} (hu : s.advanceTo i.now = u) (hc : u.ctx i.thread = c)
include hu hc

section
variable {f : FmtSM} {a : Nat} (ha : (a : Int) = (c.reg f.sa).toNat + f.imm.toInt)
  (inside : a + sizeBytes f.size ≤ (u.programOf i.thread).scratchBytes) (sa : c.regPoison f.sa = false)
include ha inside sa

theorem execSld_inside (issues : Issues i (.sld i f) s) :
    execSld i f s = .next (u.writeReg i.thread f.sd (BitVec.ofNat 64 (ofLe (u.scratchBytesAt i.thread a (sizeBytes f.size))))
      (u.scratchPoisoned i.thread a (sizeBytes f.size))) := by
  subst hu hc
  rw [execSld, gridStep_issues issues]
  dsimp only
  rw [scratchAddr, ← ha, State.guarded_passed _ _ _ (by simp [sa, State.outOfWindow_natCast inside])]

theorem execSst_inside {v : State} (hv : u.putScratch i.thread a (leBytes (sizeBytes f.size) (c.reg f.sd).toNat) (c.regPoison f.sd) = v)
    (issues : Issues i (.sst i f) s) : execSst i f s = .next (v.retire i.thread (v.ctx i.thread)) := by
  subst hu hc
  rw [execSst, gridStep_issues issues]
  dsimp only
  rw [scratchAddr, ← ha, hv, State.guarded_passed _ _ _ (by simp [sa, State.outOfWindow_natCast inside])]

end

theorem execSamo_inside {f : FmtSA} {a : Nat} (ha : a = (c.reg f.sa).toNat) (aligned : a % wideBytes f.size = 0)
    (inside : a + wideBytes f.size ≤ (u.programOf i.thread).scratchBytes) (sa : c.regPoison f.sa = false) (listed : f.fn.toNat ≤ 9)
    {prior : Nat} (hprior : ofLe (u.scratchBytesAt i.thread a (wideBytes f.size)) = prior) {bad : Bool}
    (hbad : u.scratchPoisoned i.thread a (wideBytes f.size) = bad) {v : State}
    (hv : u.putScratch i.thread a (leBytes (wideBytes f.size)
      (atomicResult f.fn.toNat (wideBytes f.size) prior (atomicA f.fn c f.sd f.sb) (c.reg f.sb).toNat))
      (bad || atomicPoison f.fn c f.sd f.sb) = v) (issues : Issues i (.samo i f) s) :
    execSamo i f s = .next (v.writeReg i.thread f.sd (BitVec.ofNat 64 prior) bad) := by
  subst hu hc
  have aligned' : (a : Int) % (wideBytes f.size : Nat) = 0 := by omega
  rw [execSamo, gridStep_issues issues]
  dsimp only
  rw [scratchAddr_zero, ← ha, hprior, hbad, hv,
    State.guarded_passed _ _ _ (by simp [sa, aligned', listed, State.outOfWindow_natCast inside])]

section
variable {f : FmtSV} {a : Nat} (ha : (a : Int) = (c.reg f.sa).toNat + 64 * f.imm.toInt) (aligned : a % 64 = 0)
  (inside : a + 64 ≤ (u.programOf i.thread).scratchBytes) (sa : c.regPoison f.sa = false) (slot : c.slot.isSome = true)
include ha aligned inside sa slot

omit hu hc in
theorem vectorScratch_passes :
    ∀ k ∈ vecChecks true c (c.regPoison f.sa) ++
      [(decide ((a : Int) % 64 ≠ 0), gcAlign), (u.outOfWindow i.thread a 64, gcScratchRange)], k.1 = false := by
  have aligned' : (a : Int) % 64 = 0 := by omega
  simp [vecChecks, sa, slot, aligned', State.outOfWindow_natCast inside]

theorem execVsld_inside (issues : Issues i (.vsld i f) s) :
    execVsld i f s = .next (u.writeVec i.thread f.vd.toNat (BitVec.ofNat 512 (ofLe (u.scratchBytesAt i.thread a 64)))
      (u.scratchPoisoned i.thread a 64)) := by
  have passes := vectorScratch_passes ha aligned inside sa slot
  subst hu hc
  rw [execVsld, gridStep_issues issues]
  dsimp only
  rw [scratchAddr, ← ha, State.guarded_passed _ _ _ passes]

theorem execVsst_inside {v : State} (hv : u.putScratch i.thread a (leBytes 64 ((u.slotOf i.thread).vec f.vd.toNat).toNat)
      ((u.slotOf i.thread).vecPoison f.vd.toNat) = v) (issues : Issues i (.vsst i f) s) :
    execVsst i f s = .next (v.retire i.thread (v.ctx i.thread)) := by
  have passes := vectorScratch_passes ha aligned inside sa slot
  subst hu hc
  rw [execVsst, gridStep_issues issues]
  dsimp only
  rw [scratchAddr, ← ha, hv, State.guarded_passed _ _ _ passes]

end
end

/-- Settles O9: each access past its checks moves the bytes at its address, with their poison. -/
theorem gridScratchAccesses : Obligations.GridScratchAccesses := by
  intro i m g v s u t c inside base bytes bad n w
  refine ⟨fun a ha within sa => ⟨execSld_inside rfl rfl ha within sa, execSst_inside rfl rfl ha within sa rfl⟩, ?atomic,
    fun a ha aligned within sa slot =>
      ⟨execVsld_inside rfl rfl ha aligned within sa slot, execVsst_inside rfl rfl ha aligned within sa slot rfl⟩⟩
  case atomic =>
    intro a ha aligned within sa listed issues prior x new p u'
    refine execSamo_inside rfl rfl ha aligned within sa listed rfl rfl ?_ issues
    rw [atomicA_eq]
    rfl

end Sys2Proof.Machine
end

section
/-! Proofs about the SYS instructions (09: R278, R279, R291; 08: R247, R251, R257). -/
namespace Sys2Proof.Machine

theorem bitsOf_low_two (v : Nat) : bitsOf v 0 2 = v % 4 := by
  rw [bitsOf, pow_zero, Nat.div_one]
  rfl

/-- A thread that may issue belongs to the active program, so its SWITCH is not a late one (R279). -/
theorem State.lateSwitch_of_mayIssue {s : State} {t : Thread} (issues : s.mayIssue t = true) (cmd : Instr) :
    s.lateSwitch t cmd = false := by
  simp only [State.mayIssue, Bool.and_eq_true, decide_eq_true_eq] at issues
  obtain ⟨⟨-, active⟩, -⟩ := issues
  simp [State.lateSwitch, active]

section
variable {i : Issue} {s u : State} {c : Ctx} {f : FmtR} (hu : s.advanceTo i.now = u) (hc : u.ctx i.thread = c)
include hu hc

theorem execHalt_issued (issues : Issues i (.halt i f) s) :
    execHalt i f s = .next ((u.retire i.thread c).haltThread i.thread gcHalt) := by
  subst hu hc
  rw [execHalt, gridStep_issues issues]

theorem execSwitch_resident {p : Nat} (hp : (c.reg f.sa).toNat % 4 = p) (sa : c.regPoison f.sa = false)
    (resident : (u.program (clusterOf i.thread.core) p).resident = true) (issues : Issues i (.switch i f) s) :
    execSwitch i f s = .next ((u.retire i.thread c).activate (clusterOf i.thread.core) p) := by
  subst hu hc hp
  rw [execSwitch, State.lateSwitch_of_mayIssue issues.mayIssue, Bool.and_false, if_neg Bool.false_ne_true, gridStep_issues issues]
  dsimp only
  rw [bitsOf_low_two, State.guarded_passed _ _ _ (by simp [sa, resident])]

theorem execTwait_issued (sa : c.regPoison f.sa = false) (issues : Issues i (.twait i f) s) :
    execTwait i f s = .next
      (if u.sky.lock = .locked ∧ (c.reg f.sa).toNat ≤ u.sky.count.toNat then u.retire i.thread c
       else u.await i.thread .waitTick (.tick (c.reg f.sa))) := by
  subst hu hc
  rw [execTwait, gridStep_issues issues]
  dsimp only
  rw [State.guarded_passed _ _ _ (List.forall_mem_singleton.mpr sa)]
  simp only [State.tickReached, State.locked, Bool.and_eq_true, decide_eq_true_eq]

omit hc in
theorem execRdsdc_issued (issues : Issues i (.rdsdc i f) s) :
    execRdsdc i f s = .next
      (u.writeReg i.thread f.sd (if u.sky.lock = .locked then u.sky.count else BitVec.allOnes 64) false) := by
  subst hu
  rw [execRdsdc, gridStep_issues issues]
  simp only [State.locked, decide_eq_true_eq]

section
variable (issues : Issues i (.sacq i f) s)
include issues

theorem execSacq_held (held : c.slot.isSome = true) : execSacq i f s = .next (u.retire i.thread c) := by
  obtain ⟨x, slot⟩ := Option.isSome_iff_exists.mp held
  subst hu hc
  rw [execSacq, gridStep_issues issues]
  dsimp only
  rw [slot]

theorem execSacq_free (unheld : c.slot = none) {x : Nat} (free : u.freeSlotOf i.thread = some x) {k : Core}
    (hk : u.core i.thread.core = k) :
    execSacq i f s = .next
      ((u.setCore i.thread.core { k with held := k.held ++ [x] }).retire i.thread { c with slot := some x }) := by
  subst hu hc hk
  rw [execSacq, gridStep_issues issues]
  dsimp only
  rw [unheld, free]

theorem execSacq_waits (unheld : c.slot = none) (full : u.freeSlotOf i.thread = none) {k : Core} (hk : u.core i.thread.core = k) :
    execSacq i f s = .next
      ((u.setCore i.thread.core { k with slotWait := k.slotWait ++ [(i.thread.ctx, c.program)] }).await i.thread .waitSlot .slot) := by
  subst hu hc hk
  rw [execSacq, gridStep_issues issues]
  dsimp only
  rw [unheld, full]

end

theorem execSrel_held {x : Nat} (held : c.slot = some x) (issues : Issues i (.srel i f) s) :
    execSrel i f s = .next ((u.retire i.thread { c with slot := none }).freeSlot i.thread.core x) := by
  subst hu hc
  rw [execSrel, gridStep_issues issues]
  dsimp only
  rw [held]

omit hc in
theorem execSysRelease_issued (issues : Issues i (.sysRelease i f) s) :
    execSysRelease i f s = .next ((u.await i.thread .waitMem (.release f.sd)).settleRelease i.thread) := by
  subst hu
  rw [execSysRelease, gridStep_issues issues]

/-- The layout of RDINFO (R278). -/
theorem execRdinfo_issued {p : Program} (hp : u.programOf i.thread = p) (issues : Issues i (.rdinfo i f) s) :
    execRdinfo i f s = .next (u.writeReg i.thread f.sd
      (BitVec.ofNat 64 (c.program % 4 + 16 * p.queue0 + 256 * p.queues + 65536 * p.accs + 1048576 * p.slots +
        16777216 * u.aid.toNat)) false) := by
  subst hu hc hp
  rw [execRdinfo, gridStep_issues issues]
  simp only [Nat.mul_comm, Nat.reducePow]

omit hc in
theorem execRdcyc_issued (issues : Issues i (.rdcyc i f) s) :
    execRdcyc i f s = .next (u.writeReg i.thread f.sd (BitVec.ofNat 64 (u.coreCyc / 4)) false) := by
  subst hu
  rw [execRdcyc, gridStep_issues issues]

end

/-- Settles O12: each function past its checks, SACQ by what the thread holds and what is free. -/
theorem gridSystemResults : Obligations.GridSystemResults := by
  intro i f s u t c k p
  exact ⟨execHalt_issued rfl rfl, execSwitch_resident rfl rfl rfl, execTwait_issued rfl rfl, execRdsdc_issued rfl,
    fun issues => ⟨execSacq_held rfl rfl issues, fun unheld x free => execSacq_free rfl rfl issues unheld free rfl,
      fun unheld full => execSacq_waits rfl rfl issues unheld full rfl⟩,
    fun x held => execSrel_held rfl rfl held, execSysRelease_issued rfl, execRdinfo_issued rfl rfl rfl, execRdcyc_issued rfl⟩

end Sys2Proof.Machine
end

section
/-! Proofs about the write of a scalar register (09: R270 to R272): what it leaves. -/
namespace Sys2Proof.Machine

/-! ### Registers read back (R270, R271) -/

/-- Registers are numbered by their field, and number 0 is in no table. -/
theorem Tab.get_set_register {α : Type} [DecidableEq α] {d : α} {l : Tab α} (canonical : Tab.wf d l = true) {sd : BitVec 3}
    (written : sd ≠ 0) (v : α) (r : BitVec 3) :
    (if r = 0 then d else Tab.get d (Tab.set d l sd.toNat v) r.toNat) =
      if r = sd then v else if r = 0 then d else Tab.get d l r.toNat := by
  rw [Tab.get_set _ _ _ _ _ canonical]
  by_cases same : r = sd
  · rw [if_pos same, if_neg (same ▸ written), if_pos (congrArg _ same)]
  · rw [if_neg same, if_neg (same ∘ BitVec.eq_of_toNat_eq)]

section
variable {c : Ctx} (sd : BitVec 3) (v : W64) (p : Bool)

theorem Ctx.reg_setReg (regs : Tab.wf 0 c.regs = true) (r : BitVec 3) :
    (c.setReg sd v p).reg r = if r = sd then (if sd = 0 then 0 else v) else c.reg r := by
  by_cases zero : sd = 0
  · rw [Ctx.setReg, if_pos zero, if_pos zero, zero, Ctx.reg]
    split <;> rfl
  · rw [Ctx.setReg, if_neg zero, if_neg zero]
    exact Tab.get_set_register regs zero v r

theorem Ctx.regPoison_setReg (poison : Tab.wf false c.poison = true) (r : BitVec 3) :
    (c.setReg sd v p).regPoison r = if r = sd then (if sd = 0 then false else p) else c.regPoison r := by
  by_cases zero : sd = 0
  · rw [Ctx.setReg, if_pos zero, if_pos zero, zero, Ctx.regPoison]
    split <;> rfl
  · rw [Ctx.setReg, if_neg zero, if_neg zero]
    exact Tab.get_set_register poison zero p r

theorem Ctx.setReg_shape : ∃ regs poison, c.setReg sd v p = { c with regs := regs, poison := poison } := by
  rw [Ctx.setReg]
  split
  · exact ⟨c.regs, c.poison, rfl⟩
  · exact ⟨_, _, rfl⟩

end

/-! ### The write -/

section
variable {s : State} {t : Thread} (sd : BitVec 3) (v : W64) (p : Bool) (cores : Tab.wf {} s.grid.cores = true)
include cores

theorem State.writeReg_core (k : Nat) : (s.writeReg t sd v p).core k =
    if k = t.core then (s.core t.core).setCtx t.ctx { (s.ctx t).setReg sd v p with pc := ((s.ctx t).setReg sd v p).pc + 1 }
    else s.core k :=
  State.core_setCore cores _ _ _

theorem State.writeReg_ctx (threads : Tab.wf {} (s.core t.core).threads = true) (r : Thread) : (s.writeReg t sd v p).ctx r =
    if r = t then { (s.ctx t).setReg sd v p with pc := ((s.ctx t).setReg sd v p).pc + 1 } else s.ctx r :=
  State.ctx_setCtx cores threads _ _

end

/-- Settles O18: the write changes one context, and of it pc and one register. -/
theorem gridRegisterWrites : Obligations.GridRegisterWrites := by
  intro s t sd v p cores threads regs poison c s'
  have ctx := State.writeReg_ctx sd v p cores threads
  have core := State.writeReg_core (t := t) sd v p cores
  have here : s'.ctx t = { c.setReg sd v p with pc := (c.setReg sd v p).pc + 1 } := (ctx t).trans (if_pos rfl)
  have reg (r : BitVec 3) : (s'.ctx t).reg r = if r = sd then (if sd = 0 then 0 else v) else c.reg r := by
    rw [here]
    exact Ctx.reg_setReg sd v p regs r
  have regPoison (r : BitVec 3) : (s'.ctx t).regPoison r = if r = sd then (if sd = 0 then false else p) else c.regPoison r := by
    rw [here]
    exact Ctx.regPoison_setReg sd v p poison r
  have own : s'.core t.core = (s.core t.core).setCtx t.ctx _ := (core t.core).trans (if_pos rfl)
  obtain ⟨regs', poison', shape⟩ := Ctx.setReg_shape (c := c) sd v p
  rw [shape] at here
  refine ⟨by rw [here], (reg sd).trans (if_pos rfl), (regPoison sd).trans (if_pos rfl),
    fun r other => ⟨(reg r).trans (if_neg other), (regPoison r).trans (if_neg other)⟩,
    by rw [here], by rw [here], by rw [here], by rw [here], by rw [here], by rw [here],
    fun r other => (ctx r).trans (if_neg other), fun k other => (core k).trans (if_neg other),
    fun a => by rw [own]; rfl, by rw [own]; rfl, by rw [own]; rfl, rfl, rfl, rfl, fun region off => rfl⟩

end Sys2Proof.Machine
end

section
/-! Proofs about the vector instructions (09: R271, R295 to R305): what one past its checks writes. -/
namespace Sys2Proof.Machine

/-- With a permitted type, a slot and an unpoisoned mask none of the shared checks fails (R295, R297). -/
theorem vecChecks_pass {ok maskPoison : Bool} {c : Ctx} (permitted : ok = true) (slot : c.slot.isSome = true) (clean : maskPoison = false) :
    ∀ k ∈ vecChecks ok c maskPoison, k.1 = false := by
  simp [vecChecks, permitted, slot, clean]

theorem indexChecks_pass {c : Ctx} {ty : ElemTy} {r : BitVec 3} (inside : (c.reg r).toNat < elemCount ty)
    (clean : c.regPoison r = false) : ∀ k ∈ indexChecks c ty r, k.1 = false := by
  simp [indexChecks, clean, inside]

/-! ### Element by element (R297 to R300) -/

section
variable {i : Issue} {e : Instr} {s u : State} {f : FmtV} (hu : s.advanceTo i.now = u)
  (slot : (u.ctx i.thread).slot.isSome = true) (clean : (u.slotOf i.thread).maskPoison f.msk.toNat = false)
include slot clean

theorem State.elementwise_passed {ok : Bool} (permitted : ok = true) (ty : ElemTy) (p : Bool) (g : Nat → Nat) :
    u.elementwise i.thread ty ok f p g = u.writeVec i.thread f.vd.toNat
      (maskedVec ty ((u.slotOf i.thread).mask f.msk.toNat) ((u.slotOf i.thread).vec f.vd.toNat) g)
      (p || (partly ty ((u.slotOf i.thread).mask f.msk.toNat) && (u.slotOf i.thread).vecPoison f.vd.toNat)) := by
  rw [State.elementwise]
  exact State.guarded_passed _ _ _ (vecChecks_pass permitted slot clean)

include hu

section
variable {types : List ElemTy} (permitted : tyIs f.ty types = true) (issues : Issues i e s)
include permitted issues

theorem varith2_issued (op : Num → Num → Num) :
    (.next (gridStep i e (varith2 types op f) s) : Out) = .next (u.writeVec i.thread f.vd.toNat
      (maskedVec (tyOr f.ty) ((u.slotOf i.thread).mask f.msk.toNat) ((u.slotOf i.thread).vec f.vd.toNat) fun j =>
        narrow (tyOr f.ty) (op (elemNum (tyOr f.ty) ((u.slotOf i.thread).vec f.va.toNat) j)
          (elemNum (tyOr f.ty) ((u.slotOf i.thread).vec f.vb.toNat) j)))
      ((u.slotOf i.thread).vecPoison f.va.toNat || (u.slotOf i.thread).vecPoison f.vb.toNat ||
        (partly (tyOr f.ty) ((u.slotOf i.thread).mask f.msk.toNat) && (u.slotOf i.thread).vecPoison f.vd.toNat))) := by
  subst hu
  rw [gridStep_issues issues, varith2, State.elementwise_passed slot clean permitted]

theorem varith1_issued (op : Num → Num) :
    (.next (gridStep i e (varith1 types op f) s) : Out) = .next (u.writeVec i.thread f.vd.toNat
      (maskedVec (tyOr f.ty) ((u.slotOf i.thread).mask f.msk.toNat) ((u.slotOf i.thread).vec f.vd.toNat) fun j =>
        narrow (tyOr f.ty) (op (elemNum (tyOr f.ty) ((u.slotOf i.thread).vec f.va.toNat) j)))
      ((u.slotOf i.thread).vecPoison f.va.toNat ||
        (partly (tyOr f.ty) ((u.slotOf i.thread).mask f.msk.toNat) && (u.slotOf i.thread).vecPoison f.vd.toNat))) := by
  subst hu
  rw [gridStep_issues issues, varith1, State.elementwise_passed slot clean permitted]

end

theorem varith3_issued (permitted : tyIs f.ty floatTypes = true) (issues : Issues i e s) (op : Num → Num → Num → Num) :
    (.next (gridStep i e (varith3 op f) s) : Out) = .next (u.writeVec i.thread f.vd.toNat
      (maskedVec (tyOr f.ty) ((u.slotOf i.thread).mask f.msk.toNat) ((u.slotOf i.thread).vec f.vd.toNat) fun j =>
        narrow (tyOr f.ty) (op (elemNum (tyOr f.ty) ((u.slotOf i.thread).vec f.va.toNat) j)
          (elemNum (tyOr f.ty) ((u.slotOf i.thread).vec f.vb.toNat) j) (elemNum (tyOr f.ty) ((u.slotOf i.thread).vec f.vd.toNat) j)))
      ((u.slotOf i.thread).vecPoison f.va.toNat || (u.slotOf i.thread).vecPoison f.vb.toNat ||
        (u.slotOf i.thread).vecPoison f.vd.toNat ||
        (partly (tyOr f.ty) ((u.slotOf i.thread).mask f.msk.toNat) && (u.slotOf i.thread).vecPoison f.vd.toNat))) := by
  subst hu
  rw [gridStep_issues issues, varith3, State.elementwise_passed slot clean permitted]

/-! ### Dot products (R301) -/

theorem execVdot_issued (permitted : tyIs f.ty dotTypes = true) (issues : Issues i (.vdot i f) s) {lane : ElemTy}
    (hlane : laneTy (tyOr f.ty) = lane) :
    execVdot i f s = .next (u.writeVec i.thread f.vd.toNat
      (maskedVec lane ((u.slotOf i.thread).mask f.msk.toNat) ((u.slotOf i.thread).vec f.vd.toNat) fun j =>
        narrow lane (sumNums .nearestEven (laneProducts (tyOr f.ty) ((u.slotOf i.thread).vec f.va.toNat)
          ((u.slotOf i.thread).vec f.vb.toNat) j ++ [elemNum lane ((u.slotOf i.thread).vec f.vd.toNat) j])))
      ((u.slotOf i.thread).vecPoison f.va.toNat || (u.slotOf i.thread).vecPoison f.vb.toNat ||
        (u.slotOf i.thread).vecPoison f.vd.toNat ||
        (partly lane ((u.slotOf i.thread).mask f.msk.toNat) && (u.slotOf i.thread).vecPoison f.vd.toNat))) := by
  subst hu hlane
  rw [execVdot, gridStep_issues issues]
  dsimp only
  rw [State.elementwise_passed slot clean permitted]

end

/-- VDOTMX takes its scales from a scalar register and writes every lane (R302). -/
theorem execVdotmx_issued {i : Issue} {s u : State} {f : FmtV} (hu : s.advanceTo i.now = u) {c : Ctx} (hc : u.ctx i.thread = c)
    (slot : c.slot.isSome = true) (clean : c.regPoison f.msk = false) (permitted : tyIs f.ty mxTypes = true)
    (issues : Issues i (.vdotmx i f) s) :
    execVdotmx i f s = .next (u.writeVec i.thread f.vd.toNat
      (vecOf 32 (mxLane (tyOr f.ty) (c.reg f.msk) ((u.slotOf i.thread).vec f.va.toNat) ((u.slotOf i.thread).vec f.vb.toNat)
        ((u.slotOf i.thread).vec f.vd.toNat)))
      ((u.slotOf i.thread).vecPoison f.va.toNat || (u.slotOf i.thread).vecPoison f.vb.toNat ||
        (u.slotOf i.thread).vecPoison f.vd.toNat)) := by
  subst hu hc
  rw [execVdotmx, gridStep_issues issues]
  dsimp only
  rw [State.guarded_passed _ _ _ (vecChecks_pass permitted slot clean)]

/-- Settles O13: the operations of VARITH by how many registers they read, and the two dot products. -/
theorem gridVectorArithmetic : Obligations.GridVectorArithmetic := by
  intro i f s u t c x ty a b d pa pb pd lane old m slot
  refine ⟨fun clean => ?arith, fun clean permitted issues => execVdot_issued rfl slot clean permitted issues rfl,
    fun clean permitted issues => execVdotmx_issued rfl rfl slot clean permitted issues⟩
  simp only [List.forall_mem_cons]
  exact ⟨(varith2_issued rfl slot clean · · _), (varith2_issued rfl slot clean · · _), (varith2_issued rfl slot clean · · _),
    (varith2_issued rfl slot clean · · _), (varith2_issued rfl slot clean · · _), (varith3_issued rfl slot clean · · _),
    (varith3_issued rfl slot clean · · _), (varith2_issued rfl slot clean · · _), (varith1_issued rfl slot clean · · _),
    (varith1_issued rfl slot clean · · _), (varith1_issued rfl slot clean · · _), List.forall_mem_nil _⟩

end Sys2Proof.Machine
end

section
/-! Proofs about VMISC and VCVT (09: R304, R305): logic, selection, comparison, moves, dequantisation and conversion. -/
namespace Sys2Proof.Machine

section
variable {i : Issue} {s u : State} (hu : s.advanceTo i.now = u) {c : Ctx} (hc : u.ctx i.thread = c) {x : Slot}
  (hx : u.slotOf i.thread = x) (slot : c.slot.isSome = true)
include hu hc hx slot

section
variable {f : FmtV} {ty : ElemTy} (hty : tyOr f.ty = ty)
include hty

/-! ### Under a mask -/

section
variable {m : W64} (hm : x.mask f.msk.toNat = m) (clean : x.maskPoison f.msk.toNat = false)
include hm clean

theorem vlogic_issued {e : Instr} (issues : Issues i e s) (op : Nat → Nat → Nat) :
    (.next (gridStep i e (vlogic op f) s) : Out) = .next (u.writeVec i.thread f.vd.toNat
      (maskedVec ty m (x.vec f.vd.toNat) fun j =>
        op (vecElem (elemWidth ty) (x.vec f.va.toNat) j) (vecElem (elemWidth ty) (x.vec f.vb.toNat) j))
      (x.vecPoison f.va.toNat || x.vecPoison f.vb.toNat || (partly ty m && x.vecPoison f.vd.toNat))) := by
  subst hu hc hx hty hm
  rw [gridStep_issues issues, vlogic, State.elementwise_passed slot clean rfl]

theorem execVbcast_issued (issues : Issues i (.vbcast i f) s) :
    execVbcast i f s = .next (u.writeVec i.thread f.vd.toNat
      (maskedVec ty m (x.vec f.vd.toNat) fun _ => (c.reg (low3 f.va)).toNat)
      (c.regPoison (low3 f.va) || (partly ty m && x.vecPoison f.vd.toNat))) := by
  subst hu hc hx hty hm
  rw [execVbcast, gridStep_issues issues]
  dsimp only
  rw [State.elementwise_passed slot clean rfl]

theorem execVsel_issued (issues : Issues i (.vsel i f) s) :
    execVsel i f s = .next (u.writeVec i.thread f.vd.toNat
      (maskedVec ty m (maskedVec ty (BitVec.allOnes 64) 0 (vecElem (elemWidth ty) (x.vec f.vb.toNat)))
        (vecElem (elemWidth ty) (x.vec f.va.toNat))) (x.vecPoison f.va.toNat || x.vecPoison f.vb.toNat)) := by
  subst hu hc hx hty hm
  rw [execVsel, gridStep_issues issues]
  dsimp only
  rw [State.guarded_passed _ _ _ (vecChecks_pass rfl slot clean)]

theorem vcompare_issued {e : Instr} (issues : Issues i e s) (wide : elemWidth ty ≠ 4) (test : Int → Bool) :
    (.next (gridStep i e (vcompare test f) s) : Out) = .next (u.writeMask i.thread (low3 f.vd).toNat
      (BitVec.ofNat 64 (ofBits ((List.range (elemCount ty)).map fun j =>
        governs ty m j && decide (elemNum ty (x.vec f.va.toNat) j ≠ .nan) && decide (elemNum ty (x.vec f.vb.toNat) j ≠ .nan) &&
          test (cmpNums false (elemNum ty (x.vec f.va.toNat) j) (elemNum ty (x.vec f.vb.toNat) j)))))
      (x.vecPoison f.va.toNat || x.vecPoison f.vb.toNat)) := by
  subst hu hc hx hty hm
  rw [gridStep_issues issues, vcompare, State.guarded_passed _ _ _ (vecChecks_pass (decide_eq_true wide) slot clean)]

theorem execVins_issued {k : Nat} (hk : (c.reg (low3 f.vb)).toNat = k) (inside : k < elemCount ty)
    (index : c.regPoison (low3 f.vb) = false) (issues : Issues i (.vins i f) s) :
    execVins i f s = .next (u.writeVec i.thread f.vd.toNat
      (vecOf (elemWidth ty) fun j => if j = k ∧ governs ty m j then (c.reg (low3 f.va)).toNat % 2 ^ elemBits ty
        else vecElem (elemWidth ty) (x.vec f.vd.toNat) j)
      (c.regPoison (low3 f.va) || x.vecPoison f.vd.toNat)) := by
  subst hu hc hx hty hm hk
  rw [execVins, gridStep_issues issues]
  dsimp only
  rw [State.guarded_passed _ _ _
    (List.forall_mem_append.mpr ⟨vecChecks_pass rfl slot clean, indexChecks_pass inside index⟩)]

end

/-! ### Without a mask -/

theorem execVext_issued {k : Nat} (hk : (c.reg (low3 f.vb)).toNat = k) (inside : k < elemCount ty)
    (index : c.regPoison (low3 f.vb) = false) (issues : Issues i (.vext i f) s) :
    execVext i f s = .next (u.writeReg i.thread (low3 f.vd)
      (BitVec.ofNat 64 (vecElem (elemWidth ty) (x.vec f.va.toNat) k % 2 ^ elemBits ty)) (x.vecPoison f.va.toNat)) := by
  subst hu hc hx hty hk
  rw [execVext, gridStep_issues issues]
  dsimp only
  rw [State.guarded_passed _ _ _
    (List.forall_mem_append.mpr ⟨vecChecks_pass rfl slot rfl, indexChecks_pass inside index⟩)]

end

section
variable {f : FmtV}

/-- VDEQ scales by the low half of its scalar operand and adds the next (R305). -/
theorem execVdeq_issued {m : W64} (hm : x.mask f.msk.toNat = m) (clean : x.maskPoison f.msk.toNat = false) {k : Nat}
    (hk : (c.reg (low3 f.vb)).toNat = k) (issues : Issues i (.vdeq i f) s) :
    execVdeq i f s = .next (u.writeVec i.thread f.vd.toNat
      (maskedVec .fp32 m (x.vec f.vd.toNat) fun j => narrow .fp32 (addNums
        (mulNums (elemNum .int32 (x.vec f.va.toNat) j) (decodeElem .fp16 (k / 2 ^ 0 % 65536))) (decodeElem .fp16 (k / 2 ^ 16 % 65536))))
      (x.vecPoison f.va.toNat || c.regPoison (low3 f.vb) || (partly .fp32 m && x.vecPoison f.vd.toNat))) := by
  subst hu hc hx hm hk
  rw [execVdeq, gridStep_issues issues]
  dsimp only
  rw [State.elementwise_passed slot clean rfl]
  rfl

theorem execVmts_issued (issues : Issues i (.vmts i f) s) :
    execVmts i f s = .next (u.writeReg i.thread (low3 f.vd) (x.mask (low3 f.va).toNat) (x.maskPoison (low3 f.va).toNat)) := by
  subst hu hc hx
  rw [execVmts, gridStep_issues issues]
  dsimp only
  rw [State.guarded_passed _ _ _ (vecChecks_pass rfl slot rfl)]

omit hx in
theorem execVstm_issued (issues : Issues i (.vstm i f) s) :
    execVstm i f s = .next (u.writeMask i.thread (low3 f.vd).toNat (c.reg (low3 f.va)) (c.regPoison (low3 f.va))) := by
  subst hu hc
  rw [execVstm, gridStep_issues issues]
  dsimp only
  rw [State.guarded_passed _ _ _ (vecChecks_pass rfl slot rfl)]

end

/-! ### Conversion (R304) -/

theorem execVcvt_issued {f : FmtVC} {ns nd : Nat} (hns : elemCount (tyOr f.sty) = ns) (hnd : elemCount (tyOr f.dty) = nd)
    (named : partOk nd ns f.part.toNat = true) {conv : Nat → Nat}
    (hconv : (fun j => encodeElem (tyOr f.dty) (roundOf f.rm.toNat) (decide (f.sat = 1))
      (elemNum (tyOr f.sty) (x.vec f.va.toNat) j)) = conv) (issues : Issues i (.vcvt i f) s) :
    execVcvt i f s = .next (u.writeVec i.thread f.vd.toNat
      (vecOf (elemWidth (tyOr f.dty)) fun j =>
        if ns < nd then (if f.part.toNat * ns ≤ j ∧ j < f.part.toNat * ns + ns then conv (j - f.part.toNat * ns)
          else vecElem (elemWidth (tyOr f.dty)) (x.vec f.vd.toNat) j)
        else conv (if nd < ns then f.part.toNat * nd + j else j))
      (x.vecPoison f.va.toNat || (decide (ns < nd) && x.vecPoison f.vd.toNat))) := by
  subst hu hc hx hns hnd hconv
  rw [execVcvt, gridStep_issues issues]
  dsimp only
  rw [State.guarded_passed _ _ _ (vecChecks_pass named slot rfl)]

end

/-- Settles O14: each instruction past its checks writes what it computes. -/
theorem gridVectorMoves : Obligations.GridVectorMoves := by
  intro i f g s u t c x ty w a b old m pa pb pd keeps ra rb rd k q slot
  refine ⟨fun clean => ⟨?logic, ?sel, ?deq, fun wide => ?compare, ?ins⟩, ?ext, ?mts, ?stm, ?cvt⟩
  case sel => exact execVsel_issued rfl rfl rfl slot rfl rfl clean
  case deq => exact execVdeq_issued rfl rfl rfl slot rfl clean rfl
  case ins => exact execVins_issued rfl rfl rfl slot rfl rfl clean rfl
  case ext => exact execVext_issued rfl rfl rfl slot rfl rfl
  case mts => exact execVmts_issued rfl rfl rfl slot
  case stm => exact execVstm_issued rfl rfl slot
  case cvt =>
    intro ns nd part wd conv named issues
    exact execVcvt_issued (conv := conv) rfl rfl rfl slot rfl rfl named rfl issues
  case logic =>
    simp only [List.forall_mem_cons]
    exact ⟨(vlogic_issued rfl rfl rfl slot rfl rfl clean · _), (vlogic_issued rfl rfl rfl slot rfl rfl clean · _),
      (vlogic_issued rfl rfl rfl slot rfl rfl clean · _), execVbcast_issued rfl rfl rfl slot rfl rfl clean, List.forall_mem_nil _⟩
  case compare =>
    simp only [List.forall_mem_cons]
    exact ⟨(vcompare_issued rfl rfl rfl slot rfl rfl clean · wide _), (vcompare_issued rfl rfl rfl slot rfl rfl clean · wide _),
      (vcompare_issued rfl rfl rfl slot rfl rfl clean · wide _), List.forall_mem_nil _⟩

end Sys2Proof.Machine
end

section
/-! Proofs about GATHER_POOL, ROW_WRITE and ROW_MIGRATE as they are taken up (10: R313 to R319, R325, R327, R331, R332, R335, R336). -/
namespace Sys2Proof.Machine

/-! ### The queue and the places of the engines (R325) -/

/-- The first frame at ingress joins a queue with room, under the next number of acceptance and with its table as it reads then. -/
theorem State.acceptGather_room {w v y : State} {g : Got} {q : GatherReq} {more : List GatherReq} {a : Asker}
    (ingress : w.emb.ingress = q :: more) (room : w.emb.queue.length < 64) (asker : .frame q.h.src q.h.tag = a)
    (read : w.unitRead a q.h.cid q.table.primary.rh q.table.primary.offset.toNat 64 (some q.h.pcp) = (v, g))
    (usable : g.usable = true) (hy : ((v.forget a).setEmb { v.emb with ingress := more }).takeFromIngress q.h = y)
    (good : y.tableOk g.data q.tagged = true) :
    w.acceptGather = some (y.takeId.2.setEmb { y.takeId.2.emb with queue := y.takeId.2.emb.queue ++
      [{ q with id := y.takeId.1, table := parseTable g.data, poisoned := g.poisoned }] }, true) := by
  obtain ⟨answered, ok⟩ := Got.usable_iff.mp usable
  rw [State.acceptGather, ingress]
  dsimp only
  rw [if_neg room.not_ge, asker, read]
  dsimp only
  rw [answered, if_neg Bool.noConfusion, hy, if_neg (not_not.mpr ok), good]
  rfl

/-- While the queue is empty, a frame that is accepted goes before the places are filled. -/
theorem State.refillGather_accepts {w t : State} (accept : w.acceptGather = some (t, true)) (queue : w.emb.queue = []) (n : Nat) :
    w.refillGather (n + 1) = t.refillGather n := by
  rw [State.refillGather, queue]
  dsimp only
  rw [accept]

/-- A frame that finds none waiting is accepted first. -/
theorem State.runGather_arrival {u t : State} {q : GatherReq} (ingress : u.emb.ingress = []) (queue : u.emb.queue = [])
    (accept : (u.setEmb { u.emb with ingress := [q] }).acceptGather = some (t, true)) :
    (u.setEmb { u.emb with ingress := u.emb.ingress ++ [q] }).runGather = t.refillGather 3 := by
  rw [State.runGather, State.setEmb_emb, ingress, queue]
  exact State.refillGather_accepts accept queue 3

/-- The first of the queue takes a free place and the next engines. -/
theorem State.refillGather_free {w : State} {q : GatherReq} {rest : List GatherReq} (queue : w.emb.queue = q :: rest)
    (free : w.emb.service.length < 16) (bags : 0 < q.nbags) (n : Nat) :
    w.refillGather (n + 1) = (w.setEmb { w.emb with
      queue := rest, service := w.emb.service ++ [{ q with engine0 := w.emb.nextEngine }]
      nextEngine := (w.emb.nextEngine + q.nbags) % 16 }).refillGather n := by
  rw [State.refillGather, queue]
  dsimp only
  rw [if_pos free, if_neg bags.ne']

/-- A taken GATHER_POOL that finds no other waiting is accepted, and then the places of the engines are filled. -/
theorem execGatherPool_accepted {h : Hdr} {table index out : Ptr} {gen fmt : Byte} {bags : W32} {s u t : State} {q : GatherReq}
    (hu : s.afterLink h = u) (ok : MemberTaken h 48 [] [table.rh, index.rh, out.rh] s) (goes : u.fencedCid h.cid = false)
    (format : fmtOk fmt = true) (ingress : u.emb.ingress = []) (queue : u.emb.queue = [])
    (hq : ({ h := h, table := { primary := table }, tableGen := gen, fmt := fmt, index := index, out := out
             nbags := bags.toNat } : GatherReq) = q)
    (accept : (u.setEmb { u.emb with ingress := [q] }).acceptGather = some (t, true)) :
    execGatherPool h table gen fmt bags index out s = .next ((t.refillGather 3).chargeGather h) := by
  rw [execGatherPool, if_pos format, engineRequest_taken hu ok goes]
  dsimp only
  rw [hq, State.runGather_arrival ingress queue accept]

/-! ### ROW_WRITE -/

/-- The checks of a ROW_WRITE against its table: the table is good, the generation is one that it has in use, the row lies in it, and
there are as many codes as a row holds (R313, R317, R331). -/
structure State.RowOk (s : State) (data : List Byte) (gen : Byte) (row : Nat) (codes : List Byte) : Prop where
  table : s.tableOk data true = true
  generation : gen = (parseTable data).curGen ∨ ((parseTable data).replacing = true ∧ gen = (parseTable data).nextGen)
  inside : row < (parseTable data).rows
  whole : codes.length = (parseTable data).stride - 16

theorem State.RowOk.passes {s : State} {data codes : List Byte} {gen : Byte} {row : Nat} (ok : s.RowOk data gen row codes) :
    ¬ ((!s.tableOk data true) = true ∨
      (gen ≠ (parseTable data).curGen ∧
        (!((parseTable data).replacing && decide (gen = (parseTable data).nextGen))) = true) ∨
      (parseTable data).rows ≤ row ∨ codes.length ≠ (parseTable data).stride - 16) := by
  obtain ⟨table, generation, inside, whole⟩ := ok
  rintro (bad | ⟨old, unused⟩ | outside | short)
  · exact absurd table (by simpa using bad)
  · rcases generation with current | ⟨replacing, next⟩
    · exact old current
    · simp [replacing, next] at unused
  · exact inside.not_ge outside
  · exact short whole

section
variable {h : Hdr} {table : Ptr} {row : BitVec 40} {gen : Byte} {scale offset : BitVec 16} {codes : List Byte} {u : State}

/-- A taken ROW_WRITE goes on to its table. -/
theorem execRowWrite_taken {s : State} (hu : s.afterLink h = u) (ok : MemberTaken h 24 [] [table.rh] s)
    (goes : u.fencedCid h.cid = false) : execRowWrite h table row gen scale offset codes s = .next
      (u.rowWrite h table row gen scale offset codes fun p =>
        (·.holdArrival { what := .rowWrite table row gen scale offset codes, h := h, row := p })) := by
  rw [execRowWrite, engineRequest_taken hu ok goes]

section
variable {v v1 v2 v3 : State} {a : Asker} {g c : Got} {hd olds : Heads} {t : EmbTable} {p place : RowAt} {primary : RowRec}
  {write : RowRec → RowRec} {targets : List RowChange} {n : Nat × State}
  (asker : .frame h.src h.tag = a)
  -- The table, in which the request passes its checks.
  (described : u.unitRead a h.cid table.rh table.offset.toNat 64 (some h.pcp) = (v, g)) (usable : g.usable = true)
  (ht : parseTable g.data = t) (hp : t.primaryAt row.toNat = p) (ok : v.RowOk g.data gen row.toNat codes)
  (right : v.hasRight h true ((v.localRegion p.rh).getD 0) rightWrite = true)
  -- The row's turn, in which its primary record and its current copy are read.
  (turn : v.mayTurn a p = true) (head : (v.claim a p).readHeads a h.cid [p] = (v1, hd)) (usableHead : hd.usable = true)
  (hprimary : nth {} hd.recs 0 = primary) (hplace : t.currentAt row.toNat primary = place)
  (current : v1.unitRead a h.cid place.rh place.off (if t.replacing && decide (gen = t.nextGen) then t.stride else 16) = (v2, c))
  (usableCurrent : c.usable = true)
  -- The records that it changes, which their regions allow.
  (hwrite : (fun x : RowRec => { x with gen := gen, scale := scale.toNat, offset := offset.toNat, codes := codes }) = write)
  (htargets : rowTargets t gen row.toNat primary (parseRow c.data) c.poison write = targets)
  (allowed : v2.turnRefusal h.cid h.src t (targets.map (·.at_)) = none)
  (records : v2.readHeads a h.cid (targets.map (·.at_)) = (v3, olds)) (usableRecords : olds.usable = true)
  (hn : (v3.close a).newReq = n)
include asker described usable ht hp ok right turn head usableHead hprimary hplace current usableCurrent hwrite htargets allowed
  records usableRecords hn

/-- In its turn a ROW_WRITE reads the records that it needs, writes them, and is answered when they are performed (R327, R332). -/
theorem State.rowWrite_turn (hold : Option RowAt → State → State) :
    u.rowWrite h table row gen scale offset codes hold =
      ((n.2.notePoison n.1 (g.poisoned || hd.poisoned || c.poisoned || olds.poisoned)).writerTurn n.1 h.cid h.src p
        (withOld targets olds.recs)).replyWhenDone n.1 h 0x39 [] := by
  obtain ⟨answered, good⟩ := Got.usable_iff.mp usable
  obtain ⟨answeredHead, goodHead⟩ := Heads.usable_iff.mp usableHead
  obtain ⟨answeredCurrent, goodCurrent⟩ := Got.usable_iff.mp usableCurrent
  obtain ⟨answeredRecords, goodRecords⟩ := Heads.usable_iff.mp usableRecords
  have permitted : ¬ (v.assignedTo p.rh h.cid && !v.hasRight h true ((v.localRegion p.rh).getD 0) rightWrite) = true := by
    rw [right, Bool.not_true, Bool.and_false]
    exact Bool.noConfusion
  have begins : ¬ (!v.mayTurn a p) = true := by rw [turn]; exact Bool.noConfusion
  subst ht hp
  rw [State.rowWrite]
  dsimp only
  rw [asker, described]
  dsimp only
  rw [if_neg (Bool.eq_false_iff.mp answered), if_neg (not_not.mpr good), if_neg ok.passes, if_neg permitted, if_neg begins, head]
  dsimp only
  rw [if_neg (Bool.eq_false_iff.mp answeredHead), if_neg (not_not.mpr goodHead), hprimary, hplace, current]
  dsimp only
  rw [if_neg (Bool.eq_false_iff.mp answeredCurrent), if_neg (not_not.mpr goodCurrent), hwrite, htargets, allowed]
  dsimp only
  rw [records]
  dsimp only
  rw [if_neg (Bool.eq_false_iff.mp answeredRecords), if_neg (not_not.mpr goodRecords), hn]

end
end

/-! ### ROW_MIGRATE (R335, R336) -/

/-- A ROW_MIGRATE whose table has a hot area becomes a job with the entries of its list. -/
theorem State.rowMigrate_listed {x v y : State} {ref : OrderRef} {table list : Ptr} {dir : Byte} {count : W32} {g l : Got}
    {n : Nat × State} (described : x.unitRead ref.asker ref.h.cid table.rh table.offset.toNat 64 = (v, g)) (usable : g.usable = true)
    (good : v.tableOk g.data false = true) (hot : (parseTable g.data).hotSlots ≠ 0)
    (listed : v.unitRead ref.asker ref.h.cid list.rh list.offset.toNat (16 * count.toNat) = (y, l)) (usableList : l.usable = true)
    (hn : (y.forget ref.asker).takeId = n) {entry : Nat → Nat × Nat × Bool}
    (hentry : (fun i : Nat => (fieldLe l.data (16 * i) 8, fieldLe l.data (16 * i + 8) 4,
      ((l.poison.drop (16 * i)).take 16).any fun b => b)) = entry) (hold : State → State) :
    x.rowMigrate ref table dir count list hold = (n.2.setEmb { n.2.emb with jobs := n.2.emb.jobs ++
      [{ id := n.1, order := ref, cid := ref.h.cid, table := parseTable g.data, toHot := decide (dir = 0)
         poisoned := g.poisoned || l.poisoned, todo := (List.range count.toNat).map entry }] }).runJob n.1 := by
  obtain ⟨answered, ok⟩ := Got.usable_iff.mp usable
  obtain ⟨answeredList, okList⟩ := Got.usable_iff.mp usableList
  have valid : ¬ ((!v.tableOk g.data false) = true ∨ (parseTable g.data).hotSlots = 0) := by
    rw [good]
    exact not_or.mpr ⟨Bool.noConfusion, hot⟩
  rw [State.rowMigrate]
  dsimp only
  rw [described]
  dsimp only
  rw [answered, if_neg Bool.noConfusion, if_neg (not_not.mpr ok), if_neg valid, listed]
  dsimp only
  rw [answeredList, if_neg Bool.noConfusion, if_neg (not_not.mpr okList), hn, hentry]

/-- A taken ROW_MIGRATE of an active composition that is not fenced goes on to its table. -/
theorem execRowMigrate_taken {o : Order} {table list : Ptr} {dir : Byte} {count : W32} {s x : State} (hx : s.orderTaken o = x)
    (ok : OrderTaken o s) (active : (x.activeIdx o.hdr.cid).isSome = true) (way : dir.toNat ≤ 1) (least : 1 ≤ count.toNat)
    (most : count.toNat ≤ 4096) (goes : x.fencedCid o.hdr.cid = false) : execRowMigrate o table dir count list s = .next
      (x.rowMigrate o.ref table dir count list
        (·.holdArrival { what := .rowMigrate table dir count list, h := o.hdr, ref := some o.ref })) := by
  have valid : ¬ ((x.activeIdx o.hdr.cid).isNone = true ∨ 1 < dir.toNat ∨ count.toNat < 1 ∨ 4096 < count.toNat) := by
    rw [Option.isNone_eq_false_iff.mpr active]
    exact not_or.mpr ⟨Bool.noConfusion, not_or.mpr ⟨way.not_gt, not_or.mpr ⟨least.not_gt, most.not_gt⟩⟩⟩
  rw [execRowMigrate, orderRequest_taken ok, hx]
  dsimp only
  rw [if_neg valid, goes, if_neg Bool.noConfusion]

section
variable {w y : State} {j : MigrateJob} {e : Nat × Nat × Bool} {b : Bool} (l : List (Nat × Nat × Bool))

/-- A job counts an entry that it skips. -/
theorem State.runEntries_skipped (skips : w.migrateEntry j j.toHot e.1 e.2.1 e.2.2 = (y, .skipped b)) :
    w.runEntries j j.toHot (e :: l) =
      y.runEntries { j with skipped := j.skipped + 1, poisoned := j.poisoned || b } j.toHot l := by
  rw [State.runEntries, skips]

/-- An entry that is taken is a migration that its job waits for. -/
theorem State.runEntries_begun {m : Migration} (begins : w.migrateEntry j j.toHot e.1 e.2.1 e.2.2 = (y, .begun b m)) :
    w.runEntries j j.toHot (e :: l) = (y.setEmb { y.emb with migrations := y.emb.migrations ++ [m] }).runEntries
      { j with left := j.left + 1, poisoned := j.poisoned || b } j.toHot l := by
  rw [State.runEntries, begins]

end

/-- Settles O36: each request past its checks by the reads that it makes, the queue by its first request, and a job by what becomes of
its next entry. -/
theorem embeddingRequests : Obligations.EmbeddingRequests := by
  intro h o table index out list gen fmt dir bags count row scale offset codes s u x a
  refine ⟨?gather, fun w q rest n queue free bags => State.refillGather_free queue free bags n, ?write, ?migrate, ?entries⟩
  case gather =>
    intro ok goes format ingress queue q v g read usable y good z
    have room : u.emb.queue.length < 64 := by rw [queue]; decide
    exact execGatherPool_accepted rfl ok goes format ingress queue rfl
      (State.acceptGather_room (w := u.setEmb { u.emb with ingress := [q] }) rfl room rfl read usable rfl good)
  case write =>
    intro ok goes v v1 v2 v3 g c hd olds described usable t k p good generation inside whole right turn head usableHead primary place
      current usableCurrent write targets allowed records usableRecords n
    have rowOk : v.RowOk g.data gen k codes := ⟨good, generation, inside, whole⟩
    exact (execRowWrite_taken rfl ok goes).trans (congrArg _ (State.rowWrite_turn rfl described usable rfl rfl rowOk right turn head
      usableHead rfl rfl current usableCurrent rfl rfl allowed records usableRecords rfl _))
  case migrate =>
    intro ok active way least most goes v y g l described usable good hot listed usableList n entry j
    exact (execRowMigrate_taken rfl ok active way least most goes).trans
      (congrArg _ (State.rowMigrate_listed described usable good hot listed usableList rfl rfl _))
  case entries =>
    exact fun w y j e l b m => ⟨State.runEntries_skipped l, State.runEntries_begun l⟩

end Sys2Proof.Machine
end

section
/-! Proofs about SEARCH_ATTACH, SEARCH_DETACH and SEARCH as they are taken up (11: R341, R347 to R349, R360, R361, R363). -/
namespace Sys2Proof.Machine

/-! ### Attachment and detachment (R341, R347 to R349) -/

section
variable {o : Order} {desc : Ptr} {mask : W64} {program : Byte} {i : Nat} {s x : State} (ok : OrderTaken o s) (hx : s.orderTaken o = x)
include ok hx

section
variable {cid : Cid} {v v' y : State} {g l : Got} {d : IndexDesc}
  -- The clusters, where the program number is unused, and a free attachment.
  (hcid : o.hdr.cid = cid) (prompt : x.deferredOn mask = false) (shared : x.sharedCid mask = some cid) (numbered : program.toNat ≤ 3)
  (unused : ∀ c ∈ clustersOf mask, (x.program c program.toNat).used = false) (free : x.freeAttach = some i)
  -- The descriptor, whose fields and parts are good.
  (described : x.unitRead o.ref.asker cid desc.rh desc.offset.toNat 128 = (v, g)) (usable : g.usable = true)
  (hd : parseIndex g.data = d) (fields : indexFieldsOk g.data = true) (parts : v.partsOk cid d = true)
  -- The directory of an IVF index, whose lists' parts are good.
  (listed : (if d.ivf then v.unitRead o.ref.asker cid d.directory.rh d.directory.offset.toNat (64 * d.lists)
    else (v, ({} : Got))) = (v', l)) (answered : l.waits = false)
  (lists : d.ivf = true → l.status = stOk ∧ v'.listPartsOk cid l.data d.lists = true)
  (reserved : v'.reserveProgram (clustersOf mask) program.toNat searchProgram = (y, stOk))
include hcid prompt shared numbered unused free described usable hd fields parts listed answered lists reserved

/-- A SEARCH_ATTACH past its checks attaches the index, whose search program is resident and active. -/
theorem execSearchAttach_reserved : execSearchAttach o desc mask program s = .next
    (((((y.forget o.ref.asker).placeSearch (clustersOf mask) program.toNat).setIndex i
      { used := true, ptr := desc, desc := d, cid := cid, mask := mask, program := program.toNat }).resumeMerge i).finishOrder
        o.ref stOk []) := by
  obtain ⟨read, whole⟩ := Got.usable_iff.mp usable
  have vacant : ¬ (cid ≠ cid ∨ ((clustersOf mask).any fun c => (x.program c program.toNat).used) = true) := by
    simpa using unused
  have good : ¬ (!indexFieldsOk g.data || !v.partsOk cid d) = true := by rw [fields, parts]; decide
  have readLists : ¬ (d.ivf && decide (l.status ≠ stOk)) = true := by
    simpa using fun ivf => (lists ivf).1
  have goodLists : ¬ (d.ivf && !v'.listPartsOk cid l.data d.lists) = true := by
    simpa using fun ivf => (lists ivf).2
  rw [execSearchAttach, gridOrder_prompt ok hx prompt, State.doAttach, State.onProgram_shared shared numbered, hcid]
  dsimp only
  rw [if_neg vacant, free]
  dsimp only
  rw [described]
  dsimp only
  rw [if_neg (Bool.eq_false_iff.mp read), if_neg (not_not.mpr whole), hd, if_neg good, listed]
  dsimp only
  rw [if_neg (Bool.eq_false_iff.mp answered), if_neg readLists, if_neg goodLists, reserved]
  exact congrArg _ (if_neg (not_not.mpr rfl))

end

/-- The first SEARCH_DETACH of an attached index marks it, and completes once nothing of it goes on. -/
theorem execSearchDetach_attached (attached : x.attachedAs o.hdr.cid desc = some i) (first : (x.indexAt i).detach = none) :
    execSearchDetach o desc s = .next ((x.modIndex i fun a => { a with detach := some o.ref }).settleDetach i) := by
  rw [execSearchDetach, orderRequest_taken ok, hx, attached]
  dsimp only
  rw [first, Option.isSome_none, if_neg Bool.noConfusion]

end

/-! ### SEARCH (R360, R361, R363) -/

section
variable {h : Hdr} {desc query pred result : Ptr} {nq : W32} {k probes : BitVec 16} {flags : Byte} {i : Nat} {u : State}

/-- A taken SEARCH whose counts lie within R360 goes on to its index. -/
theorem execSearch_taken {s : State} (hu : s.afterLink h = u)
    (ok : MemberTaken h 64 [] ([desc.rh, query.rh, result.rh] ++ (if pred.rh = 0 then [] else [pred.rh])) s)
    (goes : u.fencedCid h.cid = false) (queries : 1 ≤ nq.toNat ∧ nq.toNat ≤ 65536) (results : 1 ≤ k.toNat ∧ k.toNat ≤ 1024)
    (width : 1 ≤ probes.toNat ∧ probes.toNat ≤ 4096) : execSearch h desc query nq k probes pred result flags s = .next
      (u.search h desc query nq k probes pred result flags
        (·.holdArrival { what := .search desc query nq k probes pred result flags, h := h })) := by
  have valid : ¬ (nq.toNat < 1 ∨ 65536 < nq.toNat ∨ k.toNat < 1 ∨ 1024 < k.toNat ∨ probes.toNat < 1 ∨ 4096 < probes.toNat) := by
    omega
  rw [execSearch, if_neg valid, engineRequest_taken hu ok goes]

section
variable {a : Asker} {v v' w z : State} {g : Got} {d : IndexDesc} {block : Option (List Byte)} {q : SearchReq}
  (attached : u.attachedAs h.cid desc = some i) (asker : .frame h.src h.tag = a)
  -- The predicate, where it has one.
  (read : (if pred.rh = 0 then (u, ({} : Got)) else u.unitRead a h.cid pred.rh pred.offset.toNat 192 (some h.pcp)) = (v, g))
  (usable : g.usable = true) (hv : v.forget a = v') (hd : (u.indexAt i).desc = d)
  (hblock : (if pred.rh = 0 then none else some g.data) = block)
  -- The checks against the index, and the ranges of the queries and results.
  (good : searchOk d k.toNat probes.toNat (flags.getLsbD 0) block = true)
  (vectors : v'.within query ((nq.toNat - 1) * d.queryStride + d.dims * d.width) = true)
  (records : v'.within result (nq.toNat * resultStride k.toNat) = true)
  (hw : v'.restartSearch i = w)
  (hq : ({ h := h, id := w.takeId.1, query := query, nq := nq.toNat, k := k.toNat, probes := probes.toNat, pred := block
           predPoison := g.poisoned, result := result, exact := flags.getLsbD 0, arrived := w.now } : SearchReq) = q)
  (hz : (w.takeId.2.modIndex i fun a => a.enqueue q) = z)
include attached asker read usable hv hd hblock good vectors records hw hq hz

/-- A SEARCH past its checks joins the queue of its index, or stays in the packet buffer where that is full. -/
theorem State.search_enqueued (hold : State → State) : u.search h desc query nq k probes pred result flags hold =
    if (z.indexAt i).ingress.any fun q => decide (q.id = w.takeId.1) then z.leaveAtIngress h else z := by
  obtain ⟨answered, whole⟩ := Got.usable_iff.mp usable
  have valid : ¬ (!searchOk d k.toNat probes.toNat (flags.getLsbD 0) block) = true := by rw [good]; decide
  have inside : ¬ (!v'.within query ((nq.toNat - 1) * d.queryStride + d.dims * d.width) ||
      !v'.within result (nq.toNat * resultStride k.toNat)) = true := by
    rw [vectors, records]
    decide
  subst hq
  rw [State.search]
  dsimp only
  rw [attached, asker]
  dsimp only
  rw [read]
  dsimp only
  rw [answered]
  simp only [Bool.false_eq_true, if_false]
  rw [if_neg (not_not.mpr whole), hd, hblock, if_neg valid, hv, if_neg inside, hw, ← hz]
  rfl

end
end

/-- Settles O38: the attachment by the descriptor and lists that it reads, the detachment by its first order, and a SEARCH by the checks
that it passes. -/
theorem searchRequests : Obligations.SearchRequests := by
  intro h o desc query pred result mask program flags nq k probes i s u x p cs
  refine ⟨?attach, fun ok attached first => execSearchDetach_attached ok rfl attached first, ?search⟩
  case attach =>
    intro ok prompt shared numbered unused free v v' y g l described usable d fields parts listed answered lists reserved
    exact execSearchAttach_reserved ok rfl rfl prompt shared numbered unused free described usable rfl fields parts listed answered
      lists reserved
  case search =>
    intro ok goes leastQ mostQ leastK mostK leastP mostP attached v g read usable v' d block good vectors records w q z
    exact (execSearch_taken rfl ok goes ⟨leastQ, mostQ⟩ ⟨leastK, mostK⟩ ⟨leastP, mostP⟩).trans (congrArg _
      (State.search_enqueued attached rfl read usable rfl rfl rfl good vectors records rfl rfl rfl _))

end Sys2Proof.Machine
end

section
/-! Proofs about the events of an attached index: its merge, and the batches, visits and results of its searches (11: R354 to R357,
R361, R363 to R368). -/
namespace Sys2Proof.Machine

/-- A chain that ends well has passed its first part. -/
theorem exists_ok_of_bind_ok {ε α β : Type} {x : Except ε α} {f : α → Except ε β} {r : β} (h : (x >>= f) = .ok r) :
    ∃ r', x = .ok r' ∧ f r' = .ok r := by
  cases x with
  | error => cases h
  | ok r' => exact ⟨r', rfl, h⟩

/-! ### The merge (R356, R357) -/

section
variable {i : Nat} {w : State} {a : Attached} (ha : w.indexAt i = a)
include ha

/-- A merge that was not interrupted is not resumed. -/
theorem State.wakeMerge_awake (awake : a.resume = false) : w.wakeMerge i = w := by
  rw [State.wakeMerge, ha]
  dsimp only
  rw [if_pos (by rw [awake, Bool.not_false, Bool.or_true])]

/-- No merge is due while one runs. -/
theorem State.mergeDue_running (running : a.mergePhase ≠ 0) : w.mergeDue i = w := by
  rw [State.mergeDue, ha]
  dsimp only
  rw [if_pos (.inl running)]

/-- A merge begins with the tail at the threshold, up to the tail's version (R356). -/
theorem State.mergeDue_reached {v y : State} {t : TailHeader} (awake : a.resume = false) (stopped : a.mergePhase = 0)
    (stays : a.detach = none) (performed : w.unitBusy (engineReq a.mergeReq) = false)
    (read : w.reading (.merge i) (fun s => s.tailHeader (.merge i) a) eventReads = (v, .ok t)) (hy : v.forget (.merge i) = y)
    (reached : a.desc.mergeThreshold ≤ y.tailVersion a - t.base) :
    w.mergeDue i = y.modIndex i fun a => { a with mergePhase := 1, mergePoint := y.tailVersion a, grown := [] } := by
  have idle : ¬ (a.mergePhase ≠ 0 ∨ a.resume = true ∨ a.detach.isSome = true ∨ w.unitBusy (engineReq a.mergeReq) = true) := by
    simp [awake, stopped, stays, performed]
  rw [State.mergeDue, ha]
  dsimp only
  rw [if_neg idle, read]
  dsimp only
  rw [hy, if_pos reached]

/-- A part of the merge that waits for nothing makes its writes, and the next part is due (R357). -/
theorem State.mergePart_ready {v : State} {x : MergeDo} {n : Nat × State} (performed : w.unitBusy (engineReq a.mergeReq) = false)
    (stays : a.detach = none) (ready : a.partReady = true)
    (planned : w.reading (.merge i) (fun s => s.planPart (.merge i) a) eventReads = (v, .ok x)) (fits : x.full = none)
    (hn : (v.forget (.merge i)).takeId = n) :
    w.mergePart i =
      (x.plan.foldl (fun (s : State) e => (s.unitWrite (engineReq n.1) a.cid 0 0 e.1.rh (e.1.offset.toNat + e.2.1) e.2.2 []).1)
        (n.2.clearFailure (engineReq a.mergeReq))).setIndex i
        { a with mergeReq := n.1, mergePhase := (a.mergePhase + 1) % 9, mergePoint := x.point
                 grown := if a.mergePhase = 1 then x.grown else a.grown } := by
  have due : ¬ (w.unitBusy (engineReq a.mergeReq) || (a.detach.isSome && !a.inStep) || !a.partReady) = true := by
    simp [performed, stays, ready]
  rw [State.mergePart, ha]
  dsimp only
  rw [if_neg due, planned]
  dsimp only
  rw [hn, fits]

end

/-! ### What an event of the index does -/

section
variable {now i : Nat} {s w : State} (hw : s.advanceTo now = w) (stays : s.withdrawn = false) (runs : w.indexRuns i = true)
include hw stays runs

/-- MERGE_START wakes an interrupted merge or begins one that is due, and runs steps 1 and 2. -/
theorem execMergeStart_runs : execMergeStart now i s =
    .next ((((w.wakeMerge i).mergeDue i).mergeParts i 1 3 3).settleDetach i) := by
  rw [execMergeStart, State.serving_of_not_withdrawn stays, hw]
  exact congrArg _ (if_pos runs)

theorem execMergeTombstones_runs : execMergeTombstones now i s =
    .next (((w.wakeMerge i).mergeParts i 4 5 2).settleDetach i) := by
  rw [execMergeTombstones, State.serving_of_not_withdrawn stays, hw]
  exact congrArg _ (if_pos runs)

theorem execMergeRepair_runs : execMergeRepair now i s =
    .next (((w.wakeMerge i).mergeParts i 6 8 3).settleDetach i) := by
  rw [execMergeRepair, State.serving_of_not_withdrawn stays, hw]
  exact congrArg _ (if_pos runs)

section
variable {a : Attached} (ha : w.indexAt i = a)
include ha

/-- The window of the first waiting request has passed, and the sweep of the batch before has begun (R364). -/
theorem execSearchBatch_passed {q : SearchReq} {t : List SearchReq} {limit : Nat} {parts : List SearchReq × List SearchReq}
    (begun : ∀ b ∈ a.batches, b.begun = true) (waiting : a.waiting = q :: t) (hlimit : q.arrived + a.desc.window * 1000 = limit)
    (passed : limit ≤ w.now) (hparts : formBatch limit 262144 (q :: t) = parts) :
    execSearchBatch now i s = .next (w.startBatch i parts.1 parts.2) := by
  have swept : ¬ (!w.indexRuns i || a.batches.any fun b => !b.begun) = true := by
    rw [runs]
    simpa using begun
  rw [execSearchBatch, State.serving_of_not_withdrawn stays, hw]
  dsimp only
  rw [ha, if_neg swept, waiting]
  dsimp only
  rw [hlimit, hparts]
  exact congrArg _ (if_pos (.inl passed))

section
variable {bad : List Nat} {b : Batch} {k : Nat} (oldest : (a.batches.zipIdx.find? fun e => !e.1.tailDone) = some (b, k))
include oldest

/-- A visit of the next probed list, once its unreadable granules are rebuilt (R365, R366). -/
theorem execLensVisit_list {l n : Nat} {b' : Batch} {e e' : DirList} {p : Bool} {g : List Bool} {v y z : State}
    (next : b.nextVisit a.desc.lists = some l)
    (entry : w.reading (.sweep i) (fun s => s.visited (.sweep i) a b l) eventReads = (v, .ok (e', n, p)))
    (mended : v.mendGranules a e' n bad = (y, true))
    (visit : y.reading (.sweep i) (fun s => s.visitList (.sweep i) a b l) eventReads = (z, .ok (b', e, g))) :
    execLensVisit now i bad s = .next (((z.forget (.sweep i)).countVisit e g).setIndex i (a.setBatch k b')) := by
  rw [execLensVisit, State.serving_of_not_withdrawn stays, hw]
  dsimp only
  rw [runs, ha, oldest]
  dsimp only
  rw [if_neg (by decide), next]
  dsimp only
  rw [entry]
  dsimp only
  rw [mended]
  dsimp only
  rw [visit]

/-- After the last list the tail is visited (R355). -/
theorem execLensVisit_tail {b' : Batch} {v : State} (last : b.nextVisit a.desc.lists = none)
    (visit : w.reading (.sweep i) (fun s => s.visitTail (.sweep i) a b) eventReads = (v, .ok b')) :
    execLensVisit now i bad s = .next ((v.forget (.sweep i)).setIndex i (a.setBatch k b')) := by
  rw [execLensVisit, State.serving_of_not_withdrawn stays, hw]
  dsimp only
  rw [runs, ha, oldest]
  dsimp only
  rw [if_neg (by decide), last]
  dsimp only
  rw [visit]

end

section
variable {b : Batch} {k : Nat} (oldest : (a.batches.zipIdx.find? fun e => e.1.tailDone) = some (b, k))
include oldest

theorem execSearchResults_written (written : b.written = true) : execSearchResults now i s = .next (w.settleBatch i k) := by
  rw [execSearchResults, State.serving_of_not_withdrawn stays, hw]
  dsimp only
  rw [runs, ha, oldest]
  dsimp only
  rw [if_neg (by decide), if_pos written]

/-- The results of the oldest swept batch are probed for first, where some lie on another device, and are then written (R363, R368). -/
theorem execSearchResults_ranked {l : List Ranked} {v : State} {y : State × List SearchReq} (unwritten : b.written = false)
    (probed : b.probed = true → b.reqs.any (fun q => w.unitBusy (engineReq q.id)) = false)
    (ranked : w.reading (.results i) (fun s => s.rankAll (.results i) a b b.pairs) eventReads = (v, .ok ([], l)))
    (hy : (v.forget (.results i)).writeResults a l b.reqs = y) :
    execSearchResults now i s = .next
      (if !b.probed && l.any v.probes then (v.probeResults a l).modIndex i fun a => a.setBatch k { b with probed := true }
       else (y.1.modIndex i fun a => a.setBatch k { b with reqs := y.2, written := true }).settleBatch i k) := by
  have answered : ¬ (b.probed && b.reqs.any fun q => w.unitBusy (engineReq q.id)) = true := by
    rw [Bool.and_eq_true]
    exact fun ⟨sent, busy⟩ => Bool.false_ne_true ((probed sent).symm.trans busy)
  rw [execSearchResults, State.serving_of_not_withdrawn stays, hw]
  dsimp only
  rw [runs, ha, oldest]
  dsimp only
  rw [if_neg (by decide), unwritten, if_neg Bool.false_ne_true, if_neg answered, ranked]
  dsimp only
  rw [hy]

end
end
end

/-! ### How far a visit comes (R365) -/

section
variable {t : State} {u : Asker} {a : Attached} {b b' : Batch}

/-- After a visit of a list the next list is due, or the same one for the queries that are left. -/
theorem State.visitList_progress {l : Nat} {e : DirList} {g : List Bool} (visit : t.visitList u a b l = .ok (b', e, g)) :
    (b'.nextList = l + 1 ∧ b'.passed = 0) ∨
      (b'.nextList = l ∧ b'.passed = (b.visit a.desc fun x => x.probes.contains l).1) := by
  rw [State.visitList] at visit
  obtain ⟨entry, -, visit⟩ := exists_ok_of_bind_ok visit
  obtain ⟨granules, -, visit⟩ := exists_ok_of_bind_ok visit
  obtain ⟨found, -, visit⟩ := exists_ok_of_bind_ok visit
  obtain ⟨rfl, -⟩ := Prod.mk.inj (Except.ok.inj visit)
  split
  · exact .inr ⟨rfl, rfl⟩
  · exact .inl ⟨rfl, rfl⟩

/-- After a visit of the tail the sweep is over, or the tail is visited again for the queries that are left. -/
theorem State.visitTail_progress (visit : t.visitTail u a b = .ok b') :
    b'.tailDone = true ∨ b'.passed = (b.visit a.desc fun _ => true).1 := by
  rw [State.visitTail] at visit
  obtain ⟨recs, -, visit⟩ := exists_ok_of_bind_ok visit
  obtain ⟨queries, -, visit⟩ := exists_ok_of_bind_ok visit
  obtain rfl := Except.ok.inj visit
  split
  · exact .inr rfl
  · exact .inl rfl

end

/-- Settles O39: the merge by what is due, a batch by its window, a visit by what is next in the sweep, and the results by how far they
are written. -/
theorem searchProgress : Obligations.SearchProgress := by
  intro now i bad s stays w a runs
  refine ⟨?begins, ?goesOn, execMergeTombstones_runs rfl stays runs, execMergeRepair_runs rfl stays runs, ?part,
    fun q t begun waiting passed => execSearchBatch_passed rfl stays runs rfl begun waiting rfl passed rfl,
    fun b k oldest => ⟨?list, fun b' v last visit => execLensVisit_tail rfl stays runs rfl oldest last visit,
      fun t l b' e g visit => State.visitList_progress visit, fun t b' visit => State.visitTail_progress visit⟩,
    fun b k oldest => ⟨fun written => execSearchResults_written rfl stays runs rfl oldest written, ?results⟩⟩
  case begins =>
    intro v t awake stopped attached performed read y reached
    rw [← State.mergeDue_reached rfl awake stopped attached performed read rfl reached]
    refine (execMergeStart_runs rfl stays runs).trans ?_
    rw [State.wakeMerge_awake rfl awake]
  case goesOn =>
    intro awake running
    refine (execMergeStart_runs rfl stays runs).trans ?_
    rw [State.wakeMerge_awake rfl awake, State.mergeDue_running rfl running]
  case part =>
    rintro v x _ performed attached ready planned fits rfl
    exact State.mergePart_ready rfl performed attached ready planned fits rfl
  case list =>
    intro l n b' e e' p g v y z next entry mended visit
    exact execLensVisit_list rfl stays runs rfl oldest next entry mended visit
  case results =>
    intro unwritten answered l v ranked
    have taken := execSearchResults_ranked rfl stays runs rfl oldest unwritten answered ranked rfl
    refine ⟨fun unprobed away => taken.trans (congrArg _ (if_pos ?_)), fun ready => taken.trans (congrArg _ (if_neg ?_))⟩
    · rw [unprobed, away]; rfl
    · rcases ready with probed | here
      · rw [probed]; exact Bool.noConfusion
      · rw [here, Bool.and_false]; exact Bool.noConfusion

end Sys2Proof.Machine
end

section
/-! Proofs about the state right after reset (16: R487, R489; 22: R630). -/
namespace Sys2Proof.Machine

/-- Settles O2: each field of the state after reset as the model sets it; the store holds no byte, which is its canonical form. -/
theorem resetHoldsOutputsIdle : Obligations.ResetHoldsOutputsIdle :=
  ⟨rfl, rfl, rfl, rfl, rfl, rfl, rfl, rfl, rfl, rfl, rfl, rfl, rfl, rfl, rfl, rfl, rfl, rfl, rfl, rfl, rfl, State.reset_wf⟩

end Sys2Proof.Machine
end

section
/-! Proofs about the requests to the roasters and the passes of a group (12: R386 to R392). -/
namespace Sys2Proof.Machine

/-! ### The two requests -/

section
variable {h : Hdr} {src dst : Ptr} {n cap : W64} {s u : State} (hu : s.afterLink h = u)
  (ok : MemberTaken h 44 [] [src.rh, dst.rh] s) (goes : u.fencedCid h.cid = false)
include hu ok goes

theorem execCkptCompress_valid {etype mode : Byte} (valid : compressValid src n dst cap etype mode = none) :
    execCkptCompress h src n dst cap etype mode s = .next (u.acceptCkpt
      { h := h, src := src, dst := dst, etype := etype.toNat, mode := mode.toNat, size := n.toNat
        offsets := [prologue (groupsOf n.toNat)] }) := by
  rw [execCkptCompress, valid, engineRequest_taken hu ok goes]

theorem execCkptRestore_taken :
    execCkptRestore h src n dst cap s = .next (u.restore h false src n.toNat dst cap.toNat) := by
  rw [execCkptRestore, engineRequest_taken hu ok goes]

end

section
variable {h : Hdr} {src dst : Ptr} {n cap : Nat} {v1 : Bool} {u v : State}

theorem State.restore_accepted {q : CkptReq} (read : u.readStream h v1 src n dst cap = (v, some (.inr q))) :
    u.restore h v1 src n dst cap = (v.forget (.frame h.src h.tag)).acceptCkpt q := by
  rw [State.restore, read]

theorem State.restore_refused {st : Byte} (read : u.readStream h v1 src n dst cap = (v, some (.inl st))) :
    u.restore h v1 src n dst cap =
      (v.forget (.frame h.src h.tag)).answerCkpt { h := h, v1 := v1, restore := true } st 0 := by
  rw [State.restore, read]

end

/-! ### The passes of a group -/

section
variable {now id g k : Nat} {s w v : State} {q : CkptReq} (hw : s.advanceTo now = w) (stays : s.withdrawn = false)
  (found : w.ckptReq id = some q) (goes : w.ckptFailed q = none)
include hw stays found goes

section
variable {len : Nat} {got : Got} {blocks : List (List Byte × Bool)} {coded : List Byte × List Bool}
  {fixed : CkptReq × List (Nat × Nat)} {x : State × Byte}
  -- The group's first pass, in which its blocks are read.
  (held : w.roasterOf id g = some k) (compresses : q.restore = false) (first : q.passed g = false)
  (hlen : ((groupBlocks q.size g).map (blockLen q.size)).foldl (· + ·) 0 = len)
  (read : w.unitRead (.ckpt id g) q.h.cid q.src.rh (q.src.offset.toNat + 1048576 * g) len = (v, got))
  (answered : got.waits = false) (whole : got.status = stOk)
  -- The group as it is coded, the offsets that this fixes, and their writes to the index.
  (hblocks : ((groupBlocks q.size g).map fun b =>
    (sliceBytes got.data (65536 * (b - 16 * g)) (blockLen q.size b),
      ((got.poison.drop (65536 * (b - 16 * g))).take (blockLen q.size b)).any fun p => p)) = blocks)
  (hcoded : encodeGroup q.mode q.planes g blocks = coded)
  (hfixed : CkptReq.assign { q with
    coded := q.coded.set [] g coded.1, codedPoison := q.codedPoison.set [] g coded.2
    poisoned := q.poisoned || blocks.any (fun b => b.2) } (groupsOf q.size) = fixed)
  (hx : ((indexWrites fixed.1 (decide (g = 0)) fixed.2).foldl (fun (x : State × Byte) e =>
    if x.2 ≠ stOk then x
    else x.1.ckptWrite fixed.1 (fixed.1.dst.offset.toNat + e.1) e.2 []) ((v.forget (.ckpt id g)).setCkptReq fixed.1, stOk)) = x)
include held compresses first hlen read answered whole hblocks hcoded hfixed hx

/-- The end of a group's first pass codes its blocks and writes the offsets that this fixes (R387, R390). -/
theorem execCuppingPassEnd_coded : execCuppingPassEnd now id g s = .next
    (if x.2 ≠ stOk then x.1.endCkpt fixed.1 x.2 0 else (x.1.runRoasters).settleCkpt id) := by
  have begins : ¬ (q.restore || q.passed g) = true := by rw [compresses, first]; decide
  have sound : ¬ (w.ckptFailed q).isSome = true := by rw [goes]; decide
  obtain ⟨bytes, poison⟩ := coded
  obtain ⟨q', l⟩ := fixed
  rw [execCuppingPassEnd, State.serving_of_not_withdrawn stays, hw]
  dsimp only
  simp only [found, held, if_neg begins, if_neg sound, hlen, read]
  rw [answered, if_neg Bool.noConfusion, if_neg (not_not.mpr whole)]
  simp only [hblocks, hcoded, hfixed]
  dsimp only at hx
  rw [hx]

end

/-- The write of a coded group whose offset is fixed frees its buffer (R387, R389). -/
theorem execGroupWriteDone_written {off : Nat} (compresses : q.restore = false) (passed : q.passed g = true)
    (unwritten : q.written.contains g = false) (placed : g < q.offsets.length)
    (hoff : q.dst.offset.toNat + nth 0 q.offsets g = off)
    (write : w.ckptWrite q off (q.coded.get [] g) (taintOf off (q.codedPoison.get [] g)) = (v, stOk)) :
    execGroupWriteDone now id g s = .next
      (((((v.setCkptReq { q with written := q.written ++ [g], codedPoison := q.codedPoison.set [] g [] }).freeGroup id g).bump
        9 (32 + (v.roasterOf id g).getD 0) 0).runRoasters).settleCkpt id) := by
  have ready : ¬ (q.restore || !q.passed g || q.written.contains g || decide (q.offsets.length ≤ g) ||
      (w.ckptFailed q).isSome) = true := by
    rw [compresses, passed, unwritten, decide_eq_false placed.not_ge, goes]
    decide
  rw [execGroupWriteDone, State.serving_of_not_withdrawn stays, hw]
  dsimp only
  rw [found]
  dsimp only
  rw [if_neg ready, hoff, write]
  exact congrArg _ (if_neg (not_not.mpr rfl))

/-- A group that is read is decoded, and its blocks are written (R389, R392). -/
theorem execRestoreGroup_restored {start : Nat} {got : Got} {rs : List Restored} {y : State} (held : w.roasterOf id g = some k)
    (restores : q.restore = true) (hstart : nth 0 q.offsets g = start)
    (read : w.unitRead (.ckpt id g) q.h.cid q.src.rh (q.src.offset.toNat + start) (q.groupEnd g - start) = (v, got))
    (answered : got.waits = false) (whole : got.status = stOk)
    (hrs : decodeGroup q.mode q.planes got.data got.poison ((groupBlocks q.size g).map (blockLen q.size)) = rs)
    (written : ((groupBlocks q.size g).zip rs).foldl (fun (x : State × Byte) e =>
      if x.2 ≠ stOk then x else x.1.restoreBlock q k e.1 e.2) (v.forget (.ckpt id g), stOk) = (y, stOk)) :
    execRestoreGroup now id g s = .next
      (((((y.setCkptReq { q with written := q.written ++ [g], poisoned := q.poisoned || rs.any Restored.poisons }).freeGroup
        id g).bump 9 (32 + k) 0).runRoasters).settleCkpt id) := by
  rw [execRestoreGroup, State.serving_of_not_withdrawn stays, hw]
  dsimp only
  rw [found]
  dsimp only
  rw [held]
  dsimp only
  rw [restores, if_neg (by decide), goes, if_neg (by decide), hstart, read]
  dsimp only
  rw [answered, if_neg Bool.noConfusion, if_neg (not_not.mpr whole), hrs, written]
  exact congrArg _ (if_neg (not_not.mpr rfl))

end

/-- Settles O35: a compression by the conditions of R388, a restore by what its header and index come to, and a pass of a group by
what it reads and writes. -/
theorem checkpointRequests : Obligations.CheckpointRequests := by
  intro h src dst n cap etype mode now id g k s u w
  refine ⟨fun ok goes => ⟨fun valid => execCkptCompress_valid rfl ok goes valid, ?accepted, ?refused⟩,
    fun q stays found held sound => ⟨?coded, ?written, ?restored⟩⟩
  case accepted =>
    intro v q read
    exact (execCkptRestore_taken rfl ok goes).trans (congrArg _ (State.restore_accepted read))
  case refused =>
    intro v st read
    exact (execCkptRestore_taken rfl ok goes).trans (congrArg _ (State.restore_refused read))
  case coded =>
    intro compresses first len v got read answered whole blocks coded fixed q' x
    exact execCuppingPassEnd_coded rfl stays found sound held compresses first rfl read answered whole rfl rfl rfl rfl
  case written =>
    intro compresses passed unwritten placed off v write
    exact execGroupWriteDone_written rfl stays found sound compresses passed unwritten placed rfl write
  case restored =>
    intro restores start v got read answered whole rs y written
    exact execRestoreGroup_restored rfl stays found sound held restores rfl read answered whole rfl written

end Sys2Proof.Machine
end

section
/-! Proofs about ROLLBACK and the eclipse sequence (05: R163, R170; 13: R395, R397, R399, R407, R410). -/
namespace Sys2Proof.Machine

/-! ### The two step frames -/

section
variable {h : Hdr} {t : Trailer} {step : W32} {e : Nat} {c : Comp} {s u : State} (hu : s.afterTrailer h t = u) (ok : StepTaken h t 8 s)
  (active : u.activeIdx h.cid = some e) (hc : u.compAt e = c)
include hu ok active hc

/-- A ROLLBACK of the open step, which nothing is at work on and no STEP_COMMIT waits for, begins to undo it (R410). -/
theorem execRollback_open (open_ : c.stepState = .open_) (named : step = c.openStep) (uncommitted : c.commits = [])
    (halted : u.threadsRun c.cid = false) (idle : u.engineBusy c.cid = false) : execRollback h t step s = .next
      (((u.fence e { c with rollback := some { h := h, opcode := 0x42 } } step c.committed).invalidateAll c.cid).pump) := by
  rw [execRollback, stepFrame_taken hu ok active hc]
  simp [open_, named, uncommitted, halted, idle]

section
variable {origin : Aid} {cause : Byte}

theorem execEclipse_unlistedCause (high : 3 < cause.toNat) : execEclipse h t step origin cause s = .next
    (u.answerStep h 0x43 stInvalid c (c.unjournalled && decide (step = c.openStep))) := by
  rw [execEclipse, stepFrame_taken hu ok active hc]
  dsimp only
  rw [if_pos high, Comp.stepFlag]

/-- The first ECLIPSE that R395 allows ends the STEP_COMMITs that wait, and begins (R407). -/
theorem execEclipse_allowed {c' : Comp} {committed : W32} (known : cause.toNat ≤ 3) (first : c.stepState ≠ .eclipsing)
    (allowed : c.eclipsed step = some (c', committed)) : execEclipse h t step origin cause s = .next
      ((c.commits.foldl (fun s x => s.answerStep x.h 0x41 stAborted c c.unjournalled) u).startEclipse e
        { c' with eclipses := [{ h := h, opcode := 0x43 }] } step committed) := by
  rw [execEclipse, stepFrame_taken hu ok active hc]
  dsimp only
  rw [if_neg known.not_gt, if_neg first, allowed]

end
end

/-! ### The sequence -/

section
variable {now e : Nat} {cid : Cid} {d : Comp} {s w : State} (hw : s.advanceTo now = w) (stays : s.withdrawn = false)
  (active : w.activeIdx cid = some e) (hd : w.compAt e = d)
include hw stays active hd

section
variable {y : State} (hy : w.invalidateAll cid = y) (invalid : y.liveLines cid = [])
include hy invalid

/-- Once every line is invalid, a rollback restores the journal, and is answered when all of it is written back. -/
theorem execRollbackComplete_restores {z : State} (rolls : d.rollback.isSome = true) (first : (y.compAt e).phase ≠ 5)
    (hz : (y.undoStep e).endRestore e = z) :
    execRollbackComplete now cid s = .next (if (z.compAt e).phase = 6 then z.finishUndo e else z) := by
  rw [execRollbackComplete, State.serving_of_not_withdrawn stays, hw]
  dsimp only
  rw [active]
  dsimp only
  rw [hd, Option.isNone_eq_false_iff.mpr rolls, if_neg Bool.noConfusion, hy, invalid, if_neg (by decide), if_neg first, hz]

/-- Once every line is invalid, an eclipse restores the journal. -/
theorem execEclipseRestore_restores (phase : d.phase = 4) :
    execEclipseRestore now cid s = .next ((y.undoStep e).endRestore e) := by
  rw [execEclipseRestore, State.serving_of_not_withdrawn stays, hw]
  dsimp only
  rw [active]
  dsimp only
  rw [hd, if_neg (not_not.mpr phase), hy, invalid]
  rfl

end

theorem execEclipseQuiesced_quiet (phase : d.phase = 3) (quiet : w.eclipseQuiet cid = true) :
    execEclipseQuiesced now cid s = .next ((w.setComp e { d with phase := 4 }).invalidateAll cid).pump := by
  rw [execEclipseQuiesced, State.serving_of_not_withdrawn stays, hw]
  dsimp only
  rw [active]
  dsimp only
  rw [hd, if_pos ⟨phase, quiet⟩]

end

/-- Before step 5 and after it there is nothing to restore. -/
theorem State.endRestore_other {s : State} {e : Nat} (phase : (s.compAt e).phase ≠ 5) : s.endRestore e = s := by
  rw [State.endRestore]
  exact if_pos (.inl phase)

/-- With every record written back, step 5 is over. -/
theorem State.endRestore_restored {s : State} {e : Nat} (phase : (s.compAt e).phase = 5) (written : s.restoring e = false) :
    s.endRestore e = ((s.freeLost (s.compAt e).cid (!(s.compAt e).unjournalled)).modComp e fun c =>
      { c with phase := 6, recs := [] }).pump := by
  rw [State.endRestore, if_neg (by simp [phase, written])]

theorem execEclipseComplete_restored {now e : Nat} {cid : Cid} {s w : State} (hw : s.advanceTo now = w) (stays : s.withdrawn = false)
    (active : w.activeIdx cid = some e) (phase : (w.compAt e).phase = 6) :
    execEclipseComplete now cid s = .next (w.finishUndo e) := by
  rw [execEclipseComplete, State.serving_of_not_withdrawn stays, hw]
  dsimp only
  rw [active]
  dsimp only
  rw [State.endRestore_other (by rw [phase]; decide), if_pos phase]

/-- Step 6 leaves the composition's step FENCED, with an empty journal and nothing that waits for the sequence (R395). -/
theorem State.finishUndo_fenced (s : State) (e : Nat) : ∃ x : State, s.finishUndo e = (x.resumeMerges (s.compAt e).cid).pump ∧
    x.compAt e = { s.compAt e with
      stepState := .fenced, recs := [], opened := false, versions := [], keptVersions := [], phase := 0, eclipses := []
      rollback := none } := by
  unfold State.finishUndo
  extract_lets c freed fenced now rolled answered
  have rolls : rolled.comps = fenced.comps := by
    unfold rolled
    split
    · exact State.respondAuth_comps ..
    · rfl
  have answers : answered.comps = rolled.comps :=
    State.foldl_keeps (g := (·.comps)) (fun _ _ => State.respondAuth_comps ..) c.eclipses rolled
  exact ⟨answered, rfl, (State.compAt_congr (congrArg Comps.entries (answers.trans rolls)) e).trans
    (State.compAt_setComp_of_step StepState.noConfusion freed e)⟩

/-- Settles O31: each frame by R395's row for it, each step of the sequence by the phase and what it waits for. -/
theorem stepsUndone : Obligations.StepsUndone := by
  intro h t step origin cause now e cid s u w c d y
  refine ⟨fun ok active => ⟨execRollback_open rfl ok active rfl, execEclipse_unlistedCause rfl ok active rfl (origin := origin),
      fun c' committed => execEclipse_allowed rfl ok active rfl (origin := origin)⟩,
    fun stays active rolls invalid first => execRollbackComplete_restores rfl stays active rfl rfl invalid rolls first rfl,
    fun stays active => execEclipseQuiesced_quiet rfl stays active rfl,
    fun stays active phase invalid => execEclipseRestore_restores rfl stays active rfl rfl invalid phase,
    fun v => State.endRestore_restored, fun stays active => execEclipseComplete_restored rfl stays active, fun v => ?fenced⟩
  case fenced =>
    obtain ⟨x, finish, record⟩ := v.finishUndo_fenced e
    refine ⟨x, finish, ?_⟩
    rw [record]
    exact ⟨rfl, rfl, rfl⟩

end Sys2Proof.Machine
end

section
/-! Proofs about composition orders and the retirement of a generation (05: R162; 14: R417 to R420, R423 to R425, R441). -/
namespace Sys2Proof.Machine

/-- What COMP_CREATE is refused for does not hold: the session is no SERVICE session, the cid is in no use, no memory drains, the
operands lie in their ranges, the generation is not a kept one, and there is journal space (R417, R419, R420, R491, R511). -/
structure State.Creates (s : State) (cid : Cid) (gen : Gen) (journal : W64) (count : W32) : Prop where
  mission : s.inServiceSession = false
  unused : s.compIdx cid = none
  stays : s.memoryDrain = false
  member : cid ≠ 0
  chunks : journal.toNat % chunkBytes = 0
  least : 1 ≤ count.toNat
  most : count.toNat ≤ 65536
  fresh : s.keptGen cid gen = false
  space : s.comps.journalUsed + journal.toNat ≤ s.boot.cfg.carve.journal

section
variable {o : Order} {s u : State} (ok : OrderTaken o s) (hu : s.orderTaken o = u)
include ok hu

theorem execCompCreate_free {cid : Cid} {gen : Gen} {modes : Byte} {fa : Aid} {journal : W64} {ring : Ptr} {count : W32} {e : Nat}
    (creates : u.Creates cid gen journal count) (lowest : u.lowestEntry 1024 0 = some e) :
    execCompCreate o cid gen modes fa journal ring count s = .next
      (((u.setJournalUsed (u.comps.journalUsed + journal.toNat)).setComp e
        { cid := cid, state := .active, gen := gen, genFloor := gen, modes := modes &&& 0x3F, faultAgent := fa
          faultCount := count.toNat, ring := ring, journal := journal.toNat, retired := gen }).finishOrder o.ref stOk []) := by
  obtain ⟨mission, unused, stays, member, chunks, least, most, fresh, space⟩ := creates
  have valid : ¬ (cid = 0 ∨ journal.toNat % chunkBytes ≠ 0 ∨ count.toNat < 1 ∨ 65536 < count.toNat ∨
      u.keptGen cid gen = true) := by
    rw [fresh]
    exact not_or.mpr ⟨member, not_or.mpr ⟨not_not.mpr chunks, not_or.mpr ⟨least.not_gt, not_or.mpr ⟨most.not_gt, Bool.noConfusion⟩⟩⟩⟩
  rw [execCompCreate, orderRequest_taken ok, hu, mission, if_neg Bool.noConfusion, unused, stays, if_neg (by decide), if_neg valid,
    if_neg space.not_gt, lowest]

section
variable {cid : Cid} {e : Nat} {c : Comp} (active : u.activeIdx cid = some e) (hc : u.compAt e = c)
include active

/-- A taken order on an active composition goes on with its entry. -/
theorem activeOrder_taken (k : OrderRef → Nat → State → State) : activeOrder o cid k s = k o.ref e u := by
  rw [activeOrder, orderRequest_taken ok, hu, active]

theorem execAgentDead_active (aid : Aid) : execAgentDead o aid cid s = .next ((u.agentDies e aid).finishOrder o.ref stOk
    (beBytes 4 (u.exclusiveOf cid aid).length ++ beBytes 4 (u.spansOf cid aid).length)) := by
  rw [execAgentDead, activeOrder_taken ok hu active]

include hc

section
variable {action flags : Byte} {aid : Aid} {ports : W32}

theorem execCompAgent_adds (adds : action = 0) (other : c.agent aid = none) (room : c.agents.length < 256) :
    execCompAgent o cid action flags aid ports s = .next ((u.setComp e { c with
      agents := c.agents ++ [{ aid := aid, readOnly := flags.getLsbD 0, ports := ports }] }).finishOrder o.ref stOk []) := by
  rw [execCompAgent, activeOrder_taken ok hu active]
  dsimp only
  rw [if_pos adds, hc, other, Option.isSome_none, if_neg Bool.noConfusion, if_neg room.not_ge]

theorem execCompAgent_removes (removes : action = 1) :
    execCompAgent o cid action flags aid ports s = .next ((u.setComp e { c with
      agents := c.agents.filter fun a => decide (a.aid ≠ aid) }).finishOrder o.ref stOk []) := by
  rw [execCompAgent, activeOrder_taken ok hu active]
  dsimp only
  rw [if_neg (by rw [removes]; decide), if_pos removes, hc]

end

theorem execCompAdvance_single (modes : Byte) (single : c.gen = c.genFloor) :
    execCompAdvance o cid modes s = .next ((u.setComp e { c with
      gen := c.gen + 1, modes := advancedModes c.modes modes, dead := []
      agents := c.agents.map fun a => { a with dead := false } }).finishOrder o.ref stOk (beBytes 1 (c.gen + 1).toNat)) := by
  rw [execCompAdvance, activeOrder_taken ok hu active]
  dsimp only
  rw [hc, if_neg (not_not.mpr single)]

theorem execCompRetire_both (both : c.gen ≠ c.genFloor) : execCompRetire o cid s = .next
    ((u.setComp e { c with retiring := true }).finishOrder o.ref stOk (beBytes 4 (u.inflightFloor c))) := by
  rw [execCompRetire, activeOrder_taken ok hu active]
  dsimp only
  rw [hc, if_neg both]

theorem execCompMeter_active (flags : Byte) : execCompMeter o cid flags s = .next
    ((if flags.getLsbD 0 then u.modComp e fun c => { c with meters := {} } else u).finishOrder o.ref stOk c.meters.bytes) := by
  rw [execCompMeter, activeOrder_taken ok hu active]
  dsimp only
  rw [hc]

end

/-- COMP_QUERY of a cid in use answers, and changes nothing else; its answer begins with the state, both generations and the step
state (R419). -/
theorem execCompQuery_there {cid : Cid} {e : Nat} {c : Comp} (there : u.compIdx cid = some e) (hc : u.compAt e = c) :
    ∃ result, execCompQuery o cid s = .next (u.finishOrder o.ref stOk result) ∧
      result.take 4 = beBytes 1 c.state.code ++ beBytes 1 c.gen.toNat ++ beBytes 1 c.genFloor.toNat ++ beBytes 1 c.stepState.code := by
  rw [execCompQuery, orderRequest_taken ok, hu, there]
  dsimp only
  rw [hc]
  exact ⟨_, rfl, rfl⟩

end

theorem execGenerationRetired_quiet {now e : Nat} {cid : Cid} {d : Comp} {s w : State} (hw : s.advanceTo now = w)
    (stays : s.withdrawn = false) (active : w.activeIdx cid = some e) (hd : w.compAt e = d) (retires : d.retiring = true)
    (quiet : w.inflightFloor d = 0) : execGenerationRetired now cid s = .next
      ((w.setComp e { d with genFloor := d.gen, retiring := false, retired := d.genFloor }).genRetired cid d.genFloor) := by
  have done : ¬ (!d.retiring || decide (w.inflightFloor d ≠ 0)) = true := by simp [retires, quiet]
  rw [execGenerationRetired, State.serving_of_not_withdrawn stays, hw]
  dsimp only
  rw [active]
  dsimp only
  rw [hd, if_neg done]

/-- Settles O28: each order by the checks that it passes, the retirement by what its generation still has in flight. -/
theorem compositionOrders : Obligations.CompositionOrders := by
  intro o cid gen modes action flags fa aid journal ring count ports now e s u w c d
  refine ⟨?create, fun ok active => ⟨execCompAgent_adds ok rfl active rfl, execCompAgent_removes ok rfl active rfl,
      execCompAdvance_single ok rfl active rfl modes, execCompRetire_both ok rfl active rfl, execCompMeter_active ok rfl active rfl flags,
      execAgentDead_active ok rfl active aid⟩,
    fun ok there => execCompQuery_there ok rfl there rfl, fun stays active => execGenerationRetired_quiet rfl stays active rfl⟩
  case create =>
    intro ok mission unused stays member chunks least most fresh space lowest
    exact execCompCreate_free ok rfl ⟨mission, unused, stays, member, chunks, least, most, fresh, space⟩ lowest

end Sys2Proof.Machine
end

section
/-! Proofs about the start, RELOAD_N, PRESENT, images written at run time and whole-device reset (15: R464, R467, R468, R472, R475, R478;
16: R486 to R488). -/
namespace Sys2Proof.Machine

/-! ### The start (R464, R468, R472) -/

theorem execStartSequence_ready {b : StartFacts} {s : State} (held : s.boot.inReset = true) (ready : s.supplyReady b = true) :
    execStartSequence b s = .next (s.startStep1.startStep2 b) := by
  rw [execStartSequence, held, ready]
  rfl

/-- Of the pins `settleAlert` writes ALERT_N alone. -/
theorem State.settleAlert_faultPins (s : State) :
    s.settleAlert.pins.cfgFaultN = s.pins.cfgFaultN ∧ s.settleAlert.pins.serdesIdle = s.pins.serdesIdle := ⟨rfl, rfl⟩

/-- A configuration fault is logged with its cause, and the device holds its outputs (R464, R472). -/
theorem State.configFault_held (s : State) (x : LogRec) :
    (s.configFault x).boot.cfgFault = true ∧ (s.configFault x).pins.cfgFaultN = true ∧ (s.configFault x).pins.serdesIdle = true ∧
      (s.configFault x).boot.cause = x.cause := by
  rw [State.configFault, State.settleAlert_boot, (State.settleAlert_faultPins _).1, (State.settleAlert_faultPins _).2]
  exact ⟨rfl, rfl, rfl, rfl⟩

/-- Where no slot verifies and validates, the start ends in the fault of the last one tried. -/
theorem State.startStep2_noSlot {s : State} {x : LogRec} (none_ : s.chooseSlot s.noCandidate s.candidates = .error x) (b : StartFacts) :
    s.startStep2 b = (s.modBoot fun y => { y with step := if x.cause = 1 ∨ x.cause = 2 then 1 else 2 }).configFault x := by
  rw [State.startStep2, none_]

/-! ### RELOAD_N (R467) -/

section
variable {now width : Nat} {b : StartFacts} {s w : State} (hw : s.advanceTo now = w) (runs : s.boot.inReset = false)
  (long : 1000 ≤ width)
include hw runs long

theorem execReloadN_counted (started : w.boot.cfgFault = false) (sound : w.boot.hwFault = false) :
    execReloadN now width b s = .next (w.modBoot fun b => { b with reloads := b.reloads + 1 }) := by
  rw [execReloadN, if_neg (by simp [runs, long]), hw]
  dsimp only
  rw [started, sound, if_neg (by decide)]

/-- A device in a fault starts again from step 2. -/
theorem execReloadN_restarts {v : State} (faulted : w.boot.cfgFault = true ∨ w.boot.hwFault = true)
    (hv : (w.modBoot fun b => { b with cfgFault := false, hwFault := false, cause := 0, step := 1 }) = v) :
    execReloadN now width b s = .next ((State.settleAlert
      { v with pins := { serdesIdle := true, memReset := true, rstN := v.pins.rstN } }).startStep2 b) := by
  rw [execReloadN, if_neg (by simp [runs, long]), hw]
  dsimp only
  rw [if_pos (by simpa using faulted), hv]

end

/-! ### PRESENT (R475) -/

theorem execPresentTimer_due {now : Nat} {s w : State} (hw : s.advanceTo now = w) (serves : w.inService = true)
    (waits : w.boot.admitted = false) (managers : w.boot.installed ≠ [])
    (due : w.boot.lastPresent = 0 ∨ w.boot.lastPresent + 100000000 ≤ w.now) : execPresentTimer now s = .next
      ((w.modBoot fun b => { b with lastPresent := w.now }).notice 0x0005 w.presentBody) := by
  have goes : ¬ (!w.inService || w.boot.admitted || w.boot.installed.isEmpty ||
      (decide (0 < w.boot.lastPresent) && decide (w.now < w.boot.lastPresent + 100000000))) = true := by
    have early : ¬ (0 < w.boot.lastPresent ∧ w.now < w.boot.lastPresent + 100000000) := by omega
    simpa [serves, waits, managers] using early
  rw [execPresentTimer, hw]
  dsimp only
  rw [if_neg goes]

/-! ### A new image (R478) -/

section
variable {o : Order} {image : Ptr} {length : W32} {s u v : State} {g : Got} (ok : OrderTaken o s) (hu : s.orderTaken o = u)
  (single : u.boot.imageJob = none)
  -- The image lies in a region of this device, and is read.
  (here : handleAid image.rh = u.aid) (there : (u.region (handleIndex image.rh)).state ≠ .free)
  (inside : image.offset.toNat + length.toNat ≤ (u.region (handleIndex image.rh)).size) (fits : length.toNat ≤ 8 * mib)
  (read : u.orderRead o.ref.asker image.rh image.offset.toNat length.toNat = (v, g)) (usable : g.usable = true)
  (clean : g.poisoned = false) (newer : v.imageFits { bytes := g.data } = true)
include ok hu single here there inside fits read usable clean newer

/-- A newer good image is kept for the other slot, which is erased at once. -/
theorem execImageWrite_newer : execImageWrite o image length s = .next ((v.forget o.ref.asker).modBoot fun b => { b with
    imageJob := some { order := o.ref, slot := 1 - v.boot.slot, image := { bytes := g.data }, ptr := image, length := length.toNat }
    slotA := if 1 - v.boot.slot = 0 then {} else b.slotA
    slotB := if 1 - v.boot.slot = 1 then {} else b.slotB }) := by
  obtain ⟨answered, whole⟩ := Got.usable_iff.mp usable
  have named : ¬ (handleAid image.rh ≠ u.aid ∨ (u.region (handleIndex image.rh)).state = .free ∨
      (u.region (handleIndex image.rh)).size < image.offset.toNat + length.toNat ∨ 8 * mib < length.toNat) :=
    not_or.mpr ⟨not_not.mpr here, not_or.mpr ⟨there, not_or.mpr ⟨inside.not_gt, fits.not_gt⟩⟩⟩
  have good : ¬ (decide (g.status ≠ stOk) || g.poisoned || !v.imageFits { bytes := g.data }) = true := by
    simp [whole, clean, newer]
  rw [execImageWrite, orderRequest_taken ok, hu, State.writeImage]
  dsimp only
  rw [single, Option.isSome_none, if_neg Bool.noConfusion, if_neg named, read]
  dsimp only
  rw [answered, if_neg Bool.noConfusion, if_neg good]

end

/-- The state once a slot reads back as programmed, or is left empty where it does not. -/
def State.imageOver (s : State) (j : ImageJob) (ok : Bool) : State :=
  s.modBoot fun b => { b with
    imageJob := none
    slotA := if j.slot = 0 then (if ok then j.image else {}) else b.slotA
    slotB := if j.slot = 1 then (if ok then j.image else {}) else b.slotB }

/-- The end of the programming answers the order; a good image extends M3. -/
theorem execImageProgrammed_over {now : Nat} {j : ImageJob} {s w : State} (hw : s.advanceTo now = w)
    (job : w.boot.imageJob = some j) (serves : w.inService = true) (ok : Bool) : execImageProgrammed now ok s = .next
      (if ok then ((w.imageOver j ok).extendM3 (imageEvent j)).finishOrder j.order stOk (beBytes 1 j.slot)
       else (w.imageOver j ok).finishOrder j.order stInvalid []) := by
  rw [execImageProgrammed, hw]
  dsimp only
  rw [job]
  dsimp only
  rw [serves, if_neg (by decide)]
  rfl

/-! ### Whole-device reset (R486 to R488) -/

theorem execWholeDeviceReset_selfTestEnd {s : State} (tests : s.testRuns 5 0 = true) :
    execWholeDeviceReset .selfTestEnd s = .next s.enterReset := by
  rw [execWholeDeviceReset, if_pos tests]

theorem execDeviceResetEntry_due {now t : Nat} {s w : State} (hw : s.advanceTo now = w) (ordered : w.comps.resetAt = some t)
    (due : t ≤ w.now) : execDeviceResetEntry now s = .next w.enterReset := by
  rw [execDeviceResetEntry, hw]
  dsimp only
  rw [ordered]
  exact congrArg _ (if_pos due)

/-- Settles O51: the start by whether a slot is chosen, RELOAD_N by whether the device is in a fault, an image by what it is read as and
how it reads back, and each reset by its cause. -/
theorem startAndWholeReset : Obligations.StartAndWholeReset := by
  intro b o now width image length ok s w u
  refine ⟨fun held ready => ⟨execStartSequence_ready held ready, ?noSlot⟩,
    fun runs long => execReloadN_counted rfl runs long, fun runs long faulted => execReloadN_restarts rfl runs long faulted rfl,
    execPresentTimer_due rfl, ?write, ?programmed, rfl, execWholeDeviceReset_selfTestEnd, fun t => execDeviceResetEntry_due rfl⟩
  case noSlot =>
    intro x none_
    have started := execStartSequence_ready held ready
    rw [State.startStep2_noSlot none_ b] at started
    exact ⟨_, started, State.configFault_held _ x⟩
  case write =>
    intro taken single here i off there inside fits v g read usable clean newer
    exact execImageWrite_newer taken rfl single here there inside fits read usable clean newer
  case programmed =>
    intro j job serves
    have done := execImageProgrammed_over rfl job serves ok
    refine ⟨w.imageOver j ok, fun good => done.trans ?_, fun bad => done.trans ?_, rfl, rfl, rfl⟩
    · rw [if_pos good]
    · rw [if_neg (Bool.eq_false_iff.mp bad)]

end Sys2Proof.Machine
end

section
/-! Proofs about drains, tests and calibrations of blocks (16: R486, R491, R492, R494 to R500; 19: R551; 20: R594). -/
namespace Sys2Proof.Machine

/-! ### The orders -/

section
variable {o : Order} {cls : Byte} {unit : BitVec 16} {b : Block} {s u : State} (ok : OrderTaken o s) (hu : s.orderTaken o = u)
  (there : blockExists cls.toNat unit.toNat = true)
include ok hu there

section
variable (hb : u.block cls.toNat unit.toNat = b)
include hb

theorem execBlockDrain_there : execBlockDrain o cls unit s = .next
    ((if b.drain = 0 then u.setBlock cls.toNat unit.toNat { b with drain := 1 } else u).finishOrder o.ref stOk []) := by
  rw [execBlockDrain, orderRequest_taken ok, hu]
  dsimp only
  rw [there, if_neg (by decide), hb]

/-- A block other than a port, without a test of its own, goes back where nothing holds it out (R492). -/
theorem execBlockReturn_untested (sound : b.failed = false) (untested : b.test = none)
    (tests : u.testRuns cls.toNat unit.toNat = false) (calibrates : u.calibRuns cls.toNat unit.toNat = false)
    (noPort : cls.toNat ≠ 4) : execBlockReturn o cls unit s = .next
      ((u.setBlock cls.toNat unit.toNat { b with drain := 0, test := none }).finishOrder o.ref stOk []) := by
  rw [execBlockReturn, orderRequest_taken ok, hu]
  dsimp only
  rw [hb, there, sound, if_neg (by decide), tests, calibrates, if_neg (by decide), untested]
  dsimp only
  rw [if_neg noPort]
  rfl

/-- In MANUFACTURE every class of block is tested, drained or not, at no margin (R493, R494). -/
theorem execTestOrder_manufacture {kind margin at_ : Byte} (id : W32) (manufacture : u.lifecycle = 1) (kinds : kind.toNat ≤ 1)
    (nominal : margin = 0) (times : at_.toNat ≤ 1) (untested : b.test = none)
    (tests : u.testRuns cls.toNat unit.toNat = false) : execTestOrder o cls kind unit margin at_ id s = .next
      (((u.setBlock cls.toNat unit.toNat { b with
        test := some { kind := kind.toNat, atWindow := decide (at_ = 1), testId := id } }).finishOrder o.ref stOk []).startTest
          cls.toNat unit.toNat none) := by
  subst nominal
  have valid : ¬ (!blockExists cls.toNat unit.toNat || decide (1 < kind.toNat) || decide (3 < BitVec.toNat (0 : Byte)) ||
      decide (1 < at_.toNat)) = true := by
    simp [there, kinds, times]
  rw [execTestOrder, orderRequest_taken ok, hu]
  dsimp only
  rw [if_neg valid, manufacture, if_neg (by decide), if_neg (fun h => absurd h.1 (by decide)), if_neg (fun h => h.1 rfl),
    if_neg (fun h => absurd h.1 (by decide)), hb, untested, tests, if_neg (by decide)]
  rfl

end

theorem execCalibRun_drained {kind : Byte} (calibrated : cls.toNat ≤ 1) (kinds : kind.toNat ≤ 1)
    (drained : (u.block cls.toNat unit.toNat).drain = 2) (tests : u.testRuns cls.toNat unit.toNat = false)
    (calibrates : u.calibRuns cls.toNat unit.toNat = false) : execCalibRun o cls kind unit s = .next
      (u.startCalib (decide (cls.toNat = 0)) unit.toNat kind.toNat (some o.ref) none) := by
  have valid : ¬ (1 < cls.toNat ∨ 1 < kind.toNat ∨ ¬ blockExists cls.toNat unit.toNat = true) :=
    not_or.mpr ⟨calibrated.not_gt, not_or.mpr ⟨kinds.not_gt, not_not.mpr there⟩⟩
  rw [execCalibRun, orderRequest_taken ok, hu]
  dsimp only
  rw [if_neg valid, drained, if_neg (not_not.mpr rfl), tests, calibrates, if_neg (by decide)]

end

/-! ### The end of a drain -/

section
variable {now n m : Nat} {s w : State} (hw : s.advanceTo now = w) (stays : s.withdrawn = false)
include hw stays

theorem execBlockDrainDone_drained {d : Block} (hd : w.block n m = d) (draining : d.drain = 1) (drained : w.drained n m = true)
    (noPort : n ≠ 4) : execBlockDrainDone now n m s = .next
      (((w.setBlock n m { d with drain := 2 }).drainedNotice n m).startTest n m none) := by
  rw [execBlockDrainDone, State.serving_of_not_withdrawn stays, hw]
  dsimp only
  rw [hd, if_pos ⟨draining, drained⟩, if_neg noPort]

end

/-! ### The end of a test (R496, R497, R499) -/

/-- The state in which a block's test is over: the cores under test are on the network again, the block is re-initialised, and its record
keeps the outcome. -/
def State.testOver (w : State) (n m : Nat) (t : TestOrder) (r : TestResult) : State :=
  ((w.isolate n m false 0).reinit n m t r).setBlock n m { w.block n m with
    test := none, failed := (w.block n m).failed || decide (testOutcome r t n = 2), outcome := testOutcome r t n, testId := t.testId }

/-- A test of a block without cores isolates none, -/
theorem State.isolate_coreless {n m : Nat} (coreless : testedPartitions n m = []) (s : State) (on : Bool) (margin : Nat) :
    s.isolate n m on margin = s := by
  rw [State.isolate, coreless]
  rfl

/-- and has no signatures that could mismatch. -/
theorem State.countMismatches_coreless {n m : Nat} (coreless : testedPartitions n m = []) (s : State) (r : TestResult) :
    s.countMismatches n m r = s := by
  rw [State.countMismatches, coreless]
  rfl

section
variable {now n m : Nat} {result : TestResult} {t : TestOrder} {s w : State} (hw : s.advanceTo now = w) (stays : s.withdrawn = false)
  (tested : (w.block n m).test = some t) (runs : t.running = true)
include hw stays tested runs

/-- A test that no window started ends in its notice. -/
theorem execTestEnd_unwindowed (unwindowed : t.window = none) (inside : n ≠ 5) : execTestEnd now n m result s = .next
    (((w.testOver n m t result).countMismatches n m result).testDone n m t.testId (testOutcome result t n) (failedCount result t n)
      result.firstFailure (if testedPartitions n m = [] then 0 else (mismatched result).length)) := by
  rw [execTestEnd, State.serving_of_not_withdrawn stays, hw]
  dsimp only
  rw [tested]
  dsimp only
  rw [runs, if_neg (by decide), unwindowed, if_neg inside]
  rfl

/-- A device-class test ends in whole-device reset (R486). -/
theorem execTestEnd_device (device : n = 5) : ∃ v : State, execTestEnd now n m result s = .next v.enterReset := by
  rw [execTestEnd, State.serving_of_not_withdrawn stays, hw]
  dsimp only
  rw [tested]
  dsimp only
  rw [runs, if_neg (by decide), if_pos device]
  exact ⟨_, rfl⟩

end

/-! ### Calibrations (R594) -/

section
variable {now n m : Nat} {c : Calib} {s w : State} (hw : s.advanceTo now = w) (stays : s.withdrawn = false)
  (hc : w.calib (decide (n = 0)) m = c)
include hw stays hc

/-- A calibration of the unit's own, whose time is up, lets held accesses go on. -/
theorem execCalibrationDone_over {i : Nat} (busy : c.busy = some i) (up : c.until_ ≤ w.now) (own : c.byOrder = none)
    (unwindowed : c.window = none) : execCalibrationDone now n m s = .next ((w.setCalib (decide (n = 0)) m
      (if i = 0 then { c with busy := none, lastImp := w.now, lapseImp := 0 }
       else { c with busy := none, lastTrain := w.now, lapseTrain := 0, tempAtTrain := c.temp })).pump) := by
  rw [execCalibrationDone, State.serving_of_not_withdrawn stays, hw]
  dsimp only
  rw [hc, busy]
  dsimp only
  rw [if_neg up.not_gt, own, unwindowed]

section
variable (known : n ≤ 1) (started : 10 ≤ w.boot.step) (used : w.unitInUse (decide (n = 0)) m = true)
include known started used

theorem execCalibrationLapse_impedance (late : c.lastImp + calibLimit 0 * (c.lapseImp + 1) < w.now) :
    execCalibrationLapse now n m 0 s = .next
      ((w.setCalib (decide (n = 0)) m { c with lapseImp := c.lapseImp + 1 }).lateCalibrate (decide (n = 0)) m) := by
  rw [execCalibrationLapse, State.serving_of_not_withdrawn stays, hw]
  dsimp only
  rw [if_neg (by simp [used, known, started]), hc, if_pos rfl, if_pos late]

theorem execCalibrationLapse_training (late : c.lastTrain + calibLimit 1 * (c.lapseTrain + 1) < w.now) :
    execCalibrationLapse now n m 1 s = .next
      ((w.setCalib (decide (n = 0)) m { c with lapseTrain := c.lapseTrain + 1 }).lateCalibrate (decide (n = 0)) m) := by
  rw [execCalibrationLapse, State.serving_of_not_withdrawn stays, hw]
  dsimp only
  rw [if_neg (by simp [used, known, started]), hc, if_neg (by decide), if_pos (.inl late)]

end
end

/-- Settles O43: each order by the checks that it passes, the end of a drain by the block, a test's end by whether the block has cores
or is the device, and a calibration by its time. -/
theorem blocksOutOfService : Obligations.BlocksOutOfService := by
  intro o cls kind margin at_ unit id now n m result s u w c k b d cal
  refine ⟨fun ok there => ⟨execBlockDrain_there ok rfl there rfl, execBlockReturn_untested ok rfl there rfl,
      execTestOrder_manufacture ok rfl there rfl id, execCalibRun_drained ok rfl there⟩,
    fun stays => execBlockDrainDone_drained rfl stays rfl, ?coreless, ?partition,
    fun stays t tested runs device => execTestEnd_device rfl stays tested runs device,
    fun stays i => execCalibrationDone_over rfl stays rfl,
    fun stays known started used => ⟨execCalibrationLapse_impedance rfl stays rfl known started used,
      execCalibrationLapse_training rfl stays rfl known started used⟩⟩
  case coreless =>
    intro stays t tested runs unwindowed noPartition noDevice
    have coreless : testedPartitions n m = [] := by rw [testedPartitions, if_neg noPartition, if_neg noDevice]
    have ended := execTestEnd_unwindowed (result := result) rfl stays tested runs unwindowed noDevice
    rw [if_pos coreless, State.countMismatches_coreless coreless, State.testOver, State.isolate_coreless coreless] at ended
    exact ended
  case partition =>
    rintro stays t tested runs unwindowed rfl -
    exact execTestEnd_unwindowed (result := result) rfl stays tested runs unwindowed (by decide)

end Sys2Proof.Machine
end

section
/-! Proofs about the resets of cores, clusters and partitions, and core errors (16: R480 to R482, R484). -/
namespace Sys2Proof.Machine

/-- A taken RESET of clusters that can be reset and are not under test waits for its turn. -/
theorem execReset_named {o : Order} {scope x y q : Byte} {mask m : W64} {s u : State} (ok : OrderTaken o s)
    (hu : s.orderTaken o = u) (named : resetMask scope.toNat x.toNat y.toNat q.toNat mask = some m)
    (available : ∀ c ∈ clustersOf m, scope = 2 ∨ (u.cluster c).state ≠ .unavailable)
    (untested : ∀ c ∈ clustersOf m, u.underTest (partitionOf c) = false) : execReset o scope x y q mask s = .next
      (u.defer { order := some o.ref, mask := m, op := .reset scope.toNat x.toNat y.toNat q.toNat }).settleDeferred := by
  have reaches : ¬ (scope ≠ 2 ∧ ((clustersOf m).any fun c => decide ((u.cluster c).state = .unavailable)) = true) := by
    rintro ⟨clusters, struck⟩
    obtain ⟨c, there, gone⟩ := List.any_eq_true.mp struck
    exact (available c there).elim clusters fun stands => stands (of_decide_eq_true gone)
  have idle : ¬ ((clustersOf m).any fun c => u.underTest (partitionOf c)) = true := by simpa using untested
  rw [execReset, orderRequest_taken ok, hu, named]
  dsimp only
  rw [if_neg reaches, if_neg idle]

/-! ### Core errors (R484) -/

/-- A core of a device in service takes its errors. -/
theorem State.coreErrorTaken {now core : Nat} {s : State} (serves : s.inService = true) (there : core < 1024) :
    ¬ (1024 ≤ core ∨ (!(s.advanceTo now).inService) = true) := by
  simp [State.inService_of_advanceTo, serves, there]

section
variable {now core : Nat} {s v : State} (serves : s.inService = true) (there : core < 1024)
  (counted : (s.advanceTo now).bumpAlert 8 (partitionOf (clusterOf core)) 1 = v)
include serves there counted

/-- A core error in a core's contexts, instruction store or pipeline resets the core. -/
theorem execCoreError_resets {place : CoreErrorWhere} (struck : place ∈ [.context, .instructionStore, .pipeline]) :
    execCoreError now core place s = .next
      (v.defer { mask := 1 <<< clusterOf core, op := .reset 0 (core % 32) (core / 32) 0 }).settleDeferred := by
  rw [execCoreError]
  dsimp only
  rw [if_neg (State.coreErrorTaken serves there), counted]
  simp only [List.mem_cons, List.not_mem_nil, or_false] at struck
  rcases struck with rfl | rfl | rfl <;> rfl

/-- An error of a scratch line poisons the line. -/
theorem execCoreError_scratch (line : Nat) : execCoreError now core (.scratch line) s = .next
    (v.setCore core { v.core core with scratchPoison := (v.core core).scratchPoison.set false line true }) := by
  rw [execCoreError]
  dsimp only
  rw [if_neg (State.coreErrorTaken serves there), counted]

/-- An error of an accumulator poisons the accumulator. -/
theorem execCoreError_accumulator (e : Nat) : execCoreError now core (.accumulator e) s = .next
    (v.setCore core { v.core core with accs := (v.core core).accs.mod {} e fun a => { a with poison := true } }) := by
  rw [execCoreError]
  dsimp only
  rw [if_neg (State.coreErrorTaken serves there), counted]

end

/-! ### Threads that are reset (R482) -/

/-- A context that is not FREE reads back as written. -/
theorem State.ctx_setCtx_of_state {x : Ctx} (there : x.state ≠ .free) (s : State) (t : Thread) : (s.setCtx t x).ctx t = x := by
  have context : x ≠ {} := fun h => there (congrArg Ctx.state h)
  have thread : ((s.core t.core).setCtx t.ctx x).threads.get {} t.ctx = x :=
    (Tab.get_set_of_ne context _ _ _).trans (if_pos rfl)
  have core : (s.core t.core).setCtx t.ctx x ≠ {} := by
    intro h
    rw [h] at thread
    exact context thread.symm
  have written : (s.setCtx t x).core t.core = (s.core t.core).setCtx t.ctx x :=
    (Tab.get_set_of_ne core _ _ _).trans (if_pos rfl)
  rw [State.ctx, written, thread]

theorem State.resetThread_ctx (s : State) (core p i : Nat) : (s.resetThread core p i).ctx ⟨core, i⟩ = resetCtx p :=
  State.ctx_setCtx_of_state ThreadState.noConfusion _ _

/-- Settles O44: a reset by the clusters that it names, an error by what it struck. -/
theorem resetsAndCoreErrors : Obligations.ResetsAndCoreErrors := by
  intro o scope x y q mask m now core line e s u v k
  exact ⟨fun ok => execReset_named ok rfl,
    fun serves there => ⟨fun place struck => execCoreError_resets serves there rfl struck,
      execCoreError_scratch serves there rfl line, execCoreError_accumulator serves there rfl e⟩,
    fun c p i => s.resetThread_ctx c p i⟩

end Sys2Proof.Machine
end

section
/-! Proofs about attestation, MACsec keys and the JTAG instructions (17: R512, R526, R528, R529, R533 to R538). -/
namespace Sys2Proof.Machine

/-! ### Attestation (R528, R529) -/

/-- A taken ATTEST that can be served waits behind those accepted before it. -/
theorem execAttest_servable {o : Order} {cid : Cid} {nonce : BitVec 256} {report : Ptr} {fuses : FuseRun} {s u v : State}
    (ok : OrderTaken o s) (hu : s.orderTaken o = u)
    (servable : u.attestFault { order := o.ref, cid := cid, nonce := nonce, report := report } = none)
    (hv : u.modSec (fun x => { x with
      attests := x.attests ++ [{ order := o.ref, cid := cid, nonce := nonce, report := report }] }) = v) :
    execAttest o cid nonce report fuses s = .next (State.runAttests fuses v.sec.attests.length v) := by
  rw [execAttest, orderRequest_taken ok, hu]
  dsimp only
  rw [servable, hv]

/-- A successor that was begun becomes ready once. -/
theorem execAttestKeyReady_begun {now : Nat} {fuses : FuseRun} {s : State} (serves : s.inService = true)
    (begun : s.sec.nextKeyStarted = true) (unready : s.sec.nextKeyReady = false) :
    let v := ((s.advanceTo now).modSec fun x => { x with nextKeyReady := true }).settleKey fuses
    execAttestKeyReady now fuses s = .next (State.runAttests fuses v.sec.attests.length v) := by
  simp [execAttestKeyReady, serves, begun, unready]

/-! ### MACsec keys (R533) -/

/-- A CAK that unwraps is kept for the sub-port that its port has. -/
theorem execMacsecCak_unwraps {o : Order} {target flags : Byte} {ckn : BitVec 112} {wrapped : BitVec 320} {cak : BitVec 256}
    {s u : State} (ok : OrderTaken o s) (hu : s.orderTaken o = u)
    (unwraps : ((u.managerWrap o.hdr.src).bind fun k => Config.unwrap k (beBytes 40 wrapped.toNat)) = some cak)
    (there : target.toNat / 32 < subPorts (u.portCfg (target.toNat % 32)).mode) :
    execMacsecCak o target flags ckn wrapped s = .next
      (((u.modSec fun x => { x with
        caks := x.caks.set {} (subKey (target.toNat % 32) (target.toNat / 32))
          { held := true, ckn := ckn, key := cak, preferred := flags.getLsbD 0 } }).extendM3
        (cakEvent target flags ckn)).finishOrder o.ref stOk []) := by
  rw [execMacsecCak, orderRequest_taken ok, hu]
  dsimp only
  rw [unwraps]
  dsimp only
  rw [if_neg (Nat.not_le.mpr there)]

/-! ### The fused state (R512) -/

theorem State.fusedState_eq_zero {s : State} : s.fusedState = 0 ↔ s.sec.fuseRetired = false ∧ s.sec.fuseDeployed = false ∧
    s.sec.fuseProvisioned = false ∧ s.sec.fuseManufacture = false := by
  unfold State.fusedState
  split_ifs <;> simp_all

theorem State.fusedState_eq_one {s : State} : s.fusedState = 1 ↔ s.sec.fuseRetired = false ∧ s.sec.fuseDeployed = false ∧
    s.sec.fuseProvisioned = false ∧ s.sec.fuseManufacture = true := by
  unfold State.fusedState
  split_ifs <;> simp_all

theorem State.fusedState_eq_two {s : State} (unretired : s.sec.fuseRetired = false) (undeployed : s.sec.fuseDeployed = false)
    (provisioned : s.sec.fuseProvisioned = true) : s.fusedState = 2 := by
  simp [State.fusedState, unretired, undeployed, provisioned]

@[simp] theorem State.jtagTime_sec (s : State) (now : Nat) : (s.jtagTime now).sec = s.sec := by
  unfold State.jtagTime
  split_ifs
  · rfl
  · exact s.advanceTo_sec now

/-- The identity seed that LC_MANUFACTURE draws. -/
def State.drawnSeed (s : State) : Nat := (Config.draw s.fresh.1).toNat + 2 ^ 512 * ((Config.draw s.fresh.2.fresh.1).toNat % 2 ^ 256)

/-- A BLANK part with this identity seed fused. -/
def State.manufactured (s : State) (seed : Nat) : State :=
  let key := Config.xmssPublic seed none
  ((s.modSec fun x => { x with identitySeed := some seed, identityRoot := hash256 key, fuseManufacture := true }).modBoot fun x =>
    { x with nodeCache := identityNodes seed }).shiftOut (.identityKey key)

theorem State.manufactured_fusedState {s : State} (blank : s.fusedState = 0) (seed : Nat) : (s.manufactured seed).fusedState = 1 := by
  obtain ⟨unretired, undeployed, unprovisioned, -⟩ := State.fusedState_eq_zero.mp blank
  exact State.fusedState_eq_one.mpr ⟨unretired, undeployed, unprovisioned, rfl⟩

theorem State.manufactured_nodeCache (s : State) (seed : Nat) : (s.manufactured seed).boot.nodeCache = identityNodes seed := by
  simp only [State.manufactured, State.shiftOut, State.modSec_boot, State.modBoot_boot]

theorem State.fusedState_jtagTime (s : State) (now : Nat) : (s.jtagTime now).fusedState = s.fusedState := by
  unfold State.fusedState
  rw [s.jtagTime_sec]

/-- A BLANK part whose fuses take is given the seed of two draws. -/
theorem execLcManufacture_takes {now : Nat} {fuses : FuseRun} {s w : State} (blank : s.fusedState = 0)
    (takes : fusesTake fuses = true) (hw : s.jtagTime now = w) :
    execLcManufacture now fuses s = .next (w.fresh.2.fresh.2.manufactured w.drawnSeed) := by
  rw [execLcManufacture, if_neg (not_not.mpr blank), if_neg (by simp [takes]), hw]
  rfl

theorem execLcManufacture_blank {now : Nat} {fuses : FuseRun} {s : State} (blank : s.fusedState = 0)
    (takes : fusesTake fuses = true) : ∃ (t : State) (seed : Nat), execLcManufacture now fuses s = .next t ∧
      t.fusedState = 1 ∧ t.sec.identitySeed = some seed ∧ t.boot.nodeCache = identityNodes seed ∧
      t.sec.shifted = some (.identityKey (Config.xmssPublic seed none)) ∧ t.sec.owners = s.sec.owners := by
  generalize hw : s.jtagTime now = w
  have owners : w.sec.owners = s.sec.owners := hw ▸ congrArg Security.owners (s.jtagTime_sec now)
  have still : w.fusedState = 0 := hw ▸ (s.fusedState_jtagTime now).trans blank
  have runs := execLcManufacture_takes blank takes hw
  generalize w.drawnSeed = seed at runs
  exact ⟨_, seed, runs, State.manufactured_fusedState still seed, rfl, State.manufactured_nodeCache _ seed, rfl, owners⟩

/-- A BLANK part with a fuse bit that fails shifts INVALID out. -/
theorem execLcManufacture_failed {now : Nat} {fuses : FuseRun} {s : State} (blank : s.fusedState = 0)
    (fails : fusesTake fuses = false) : execLcManufacture now fuses s = .next ((s.jtagTime now).shiftOut .invalid) := by
  rw [execLcManufacture, if_neg (not_not.mpr blank), fails]
  rfl

/-- A MANUFACTURE part whose fuses take has owner slot 0 filled. -/
theorem execProvision_manufacture {now : Nat} {hash key : BitVec 256} {fuses : FuseRun} {s : State} (manufacture : s.fusedState = 1)
    (takes : fusesTake fuses = true) : ∃ t : State, execProvision now hash key fuses s = .next t ∧ t.fusedState = 2 ∧
      t.sec.owners[0]? = some { filled := true, hash := hash, wrap := key } ∧ t.sec.identitySeed = s.sec.identitySeed := by
  have still := (s.fusedState_jtagTime now).trans manufacture
  have seed := congrArg Security.identitySeed (s.jtagTime_sec now)
  obtain ⟨unretired, undeployed, -, -⟩ := State.fusedState_eq_one.mp still
  rw [execProvision, if_neg (not_not.mpr manufacture), if_neg (by simp [takes])]
  exact ⟨_, rfl, State.fusedState_eq_two unretired undeployed rfl, rfl, seed⟩

/-- A MANUFACTURE part with a fuse bit that fails shifts INVALID out. -/
theorem execProvision_failed {now : Nat} {hash key : BitVec 256} {fuses : FuseRun} {s : State} (manufacture : s.fusedState = 1)
    (fails : fusesTake fuses = false) : execProvision now hash key fuses s = .next ((s.jtagTime now).shiftOut .invalid) := by
  rw [execProvision, if_neg (not_not.mpr manufacture), fails]
  rfl

/-! ### Tokens and scan (R536 to R538) -/

/-- A challenge is drawn and shifted out, and a token over it unlocks its level alone. -/
theorem execJtagToken_challenge {now level : Nat} {challenge : BitVec 512} {token : List Byte} {s w : State}
    (hw : s.jtagTime now = w) :
    let sent := hash256 (Config.draw w.fresh.1) ++ w.identityHash
    let good := decide (challenge = sent) && w.tokenGood level challenge token
    ∃ t : State, execJtagToken now level challenge token s = .next t ∧ t.sec.shifted = some (.challenge sent) ∧
      t.sec.level1 = (w.sec.level1 || (good && decide (level = 1))) ∧ t.sec.level2 = (w.sec.level2 || (good && decide (level = 2))) ∧
      t.sec.owners = w.sec.owners ∧ t.store = w.store := by
  subst hw
  exact ⟨_, rfl, rfl, rfl, rfl, rfl, rfl⟩

/-- Clearing the cores and the store leaves the security state to the first update of the erasure. -/
theorem State.eraseForScan_sec (s : State) :
    s.eraseForScan.sec = { s.sec with sessionKey := none, keySlots := [], scanUnlocked := true } := by
  unfold State.eraseForScan
  exact State.foldl_keeps (g := State.sec) (f := fun v (e : Nat × Core) => v.setCore e.1 {}) (fun _ _ => rfl) _ _

/-- An allowed SCAN_TEST erases what R538 names. -/
theorem execScanTest_allowed {now : Nat} {s : State} (allowed : s.jtagOpen = true ∨ (s.sec.level1 = true ∧ s.sec.level2 = true)) :
    execScanTest now s = .next (s.jtagTime now).eraseForScan := by
  rw [execScanTest, if_pos (by simpa using allowed)]

/-- Settles O54: an order or a JTAG instruction by the keys, the fused state and the tokens that allow it. -/
theorem keysAttestationAndJtag : Obligations.KeysAttestationAndJtag := by
  intro o cid nonce report target flags ckn wrapped now level hash key challenge token fuses instr s u w
  exact ⟨fun ok => ⟨fun servable => execAttest_servable ok rfl servable rfl,
      fun cak unwraps there => execMacsecCak_unwraps ok rfl unwraps there⟩,
    execAttestKeyReady_begun, execLcManufacture_blank, ⟨execLcManufacture_failed, execProvision_failed⟩,
    execProvision_manufacture, execJtagToken_challenge rfl,
    fun allowed => ⟨execScanTest_allowed allowed, congrArg Security.sessionKey w.eraseForScan_sec,
      congrArg Security.keySlots w.eraseForScan_sec, congrArg Security.scanUnlocked w.eraseForScan_sec⟩,
    fun allowed => congrArg Host.Outcome.next (if_pos allowed)⟩

end Sys2Proof.Machine
end

section
/-! Proofs about the register accesses of a device that has expelled itself (15: R602, R444). -/
namespace Sys2Proof.Machine

/-- A frame whose egress is dead is discarded there (R490). -/
theorem State.send_of_deadEgress {s : State} {f : OutFrame} {k : Nat} (routed : s.route f.dst none = some k)
    (undrained : s.portDrain (k / 8) = false) (dead : s.deadEgress k f.pcp = true) : s.send f = s.linkDiscards k 1 := by
  rw [State.send, routed]
  dsimp only
  rw [State.enqueue, if_neg (by simp [undrained]), if_pos dead]

/-- An answer so discarded is counted for the port. -/
theorem State.respondAuth_health_of_deadEgress {u : State} {h : Hdr} {k : Nat} (routed : u.route h.src none = some k)
    (undrained : u.portDrain (k / 8) = false) (dead : u.deadEgress k h.pcp = true) (opcode status : Byte) (payload : List Byte) :
    (u.respondAuth h opcode status payload).health = (u.bumpBy 0 (k / 8) 18 1).health := by
  rw [State.respondAuth]
  dsimp only
  rw [State.send_of_deadEgress (k := k)]
  · rfl
  · exact routed
  · exact undrained
  · exact dead

/-- An expelled device whose manager sends over port 0 and is answered over port 1, whose hop hold time is over (R490). -/
def expelledDevice : State :=
  { now := 1000
    boot :=
      { admitted := true
        cfg :=
          { device := { aid := 5, pcpControl := 7 }
            ports := [{ mode := 1, lossless := 0x80, headroom := List.replicate 8 200 }, { mode := 1 }]
            managers := [{ aid := 9, ports := 1 }] }
        installed := [9] }
    switch :=
      { subs := [(0, { link := .up, partner := 9, settled := true }), (8, { holdExpired := true })]
        fwd := [(9, 9)] }
    comps := { selfExpelled := true } }

/-- The header of its manager's MGMT_WRITE of one register. -/
def deniedWrite : Hdr :=
  { now := 2000, port := 0, sub := 0, pcp := 7, tagged := true, check := .passed, ce := false, dst := 5, src := 9, cid := 1, gen := 2
    length := 56, received := 56, tag := 1, hopSeq := 1, hopAck := 0 }

/-- Its trailer, under a manager key of zero. -/
def deniedTrailer : Trailer := { counter := 1, tag := Config.kmac 0 (beBytes 8 1) mgmtString, text := [] }

theorem deniedWrite_frameTaken : FrameTaken true deniedWrite 56 expelledDevice := by
  unfold FrameTaken
  decide

theorem deniedWrite_managedTaken : ManagedTaken deniedWrite deniedTrailer (8 + 8 * 1) expelledDevice := by
  have fresh : trailerFresh deniedWrite deniedTrailer (expelledDevice.afterLink deniedWrite) = true := by decide
  have key : (expelledDevice.afterLink deniedWrite).managerKey deniedWrite.src = 0 := by decide
  have tag : tagOk deniedWrite deniedTrailer (expelledDevice.afterLink deniedWrite) = true := by simp [tagOk, key, deniedTrailer]
  exact ⟨deniedWrite_frameTaken, by rw [trailerOk, fresh, tag, Bool.and_self]⟩

/-- Port 1 has discarded a frame more once the answer to that write is sent. -/
theorem deniedWrite_counted {u : State} (hu : expelledDevice.afterTrailer deniedWrite deniedTrailer = u) :
    (u.respondAuth deniedWrite 0x71 stDenied []).health ≠ u.health := by
  have routed : u.route deniedWrite.src none = some 8 := by subst hu; decide
  have undrained : u.portDrain 1 = false := by subst hu; decide
  have dead : u.deadEgress 8 deniedWrite.pcp = true := by subst hu; decide
  have counted : (u.bumpBy 0 1 18 1).counter 0 1 18 ≠ u.counter 0 1 18 := by subst hu; decide
  rw [State.respondAuth_health_of_deadEgress routed undrained dead]
  exact fun same => counted (congrArg (fun v : Health => v.counters.get 0 (counterKey 0 1 18)) same)

/-- Refutes O60: a DENIED answer whose egress has lost its link is discarded and counted, so the health state changes. -/
theorem not_expelledDeviceWritesOnlySwitch : ¬ Obligations.ExpelledDeviceWritesOnlySwitch := by
  intro h
  obtain ⟨denied, -⟩ := h deniedWrite deniedTrailer 0 [0] 1 expelledDevice rfl
  obtain ⟨-, -, -, -, unchanged, -⟩ := denied deniedWrite_managedTaken (by decide) (by decide) (by decide) (.inl (by decide))
  exact deniedWrite_counted rfl unchanged

end Sys2Proof.Machine
end
